-- ==== Sys2Proof/Word.lean ====
section
/-!
DEFINITION. The word types of the block and their plainest arithmetic.
-/

namespace Sys2Proof

abbrev Byte := BitVec 8
abbrev Half := BitVec 16
abbrev Word := BitVec 32
abbrev Dword := BitVec 64

/-- The field [h:l] of a word, as a number (R4: bit 0 is the least significant). -/
def Word.field (w : Word) (h l : Nat) : Nat := (w.toNat / 2 ^ l) % 2 ^ (h + 1 - l)

/-- Bit n of a word. -/
def Word.bit (w : Word) (n : Nat) : Bool := w.getLsbD n

/-- A word whose bits come from a number. -/
def Word.mk (n : Nat) : Word := BitVec.ofNat 32 n

/-- The one-bit field n of a word under construction. -/
def bitAt (n : Nat) (b : Bool) : Nat := if b then 2 ^ n else 0

/-- Low word of a doubleword (R4: little-endian). -/
def Dword.lo (d : Dword) : Word := BitVec.ofNat 32 d.toNat

/-- High word of a doubleword. -/
def Dword.hi (d : Dword) : Word := BitVec.ofNat 32 (d.toNat / 2 ^ 32)

/-- A doubleword from its low and high words. -/
def Dword.ofWords (lo hi : Word) : Dword := BitVec.ofNat 64 (hi.toNat * 2 ^ 32 + lo.toNat)

/-- The saturating increment of the counters that saturate at all ones. -/
def Word.satInc (w : Word) : Word := if w = 0xFFFFFFFF#32 then w else w + 1

end Sys2Proof
end

