-- ==== Sys2Proof/Syntax.lean ====
section
/-!
DEFINITION. The commands of the block: one constructor per row of spec/opcode_table.json, in the table's order, with
the row's operands. An operand carries what comes from outside with the command: an address and a value written, the
data of a host or device read, the fields of a received packet, the verdict of a cryptographic check.
-/

namespace Sys2Proof

/-- Where an interpreter command comes from: the started entry of a ring, or a remote-command slot (R253, R284). -/
inductive Src where
  | ring (r : Nat)
  | remote (slot : Nat)
  deriving DecidableEq, Repr

/-- What a read of host or device memory returns. -/
inductive Reply where
  | data (ws : List Word)
  | error
  | poison
  deriving DecidableEq, Repr

/-- A received swarm packet's header (R244), its ingress link port, and the verdict on its tag under the key of
KEY_EPOCH. -/
structure SwarmHdr where
  port      : Nat
  ver       : Nat
  /-- TYPE is the defined one of the row; false, it is one that R247 does not list. -/
  defined   : Bool
  /-- Some reserved bit of the header or payload is set. -/
  reserved  : Bool
  len       : Nat
  src       : Nat
  dst       : Nat
  seq       : Dword
  epoch     : Half
  traceable : Bool
  tbState   : BitVec 3
  tagOk     : Bool
  deriving DecidableEq, Repr

/-- A conditional test of the guard core that fails while a request is worked on (R399): a sample of the entropy source,
the pairwise consistency of the key pair generated, or none. -/
inductive CondTest where
  | passed | entropy | pct
  deriving DecidableEq, Repr

/-- What NEGOTIATE_ALGORITHMS offers of the algorithms of R403: ECDSA P-384, SHA-384, secp384r1, AES-256-GCM, and SHA-384
for measurements. -/
structure Algorithms where
  signing : Bool
  hash    : Bool
  dhe     : Bool
  aead    : Bool
  meas    : Bool
  deriving DecidableEq, Repr

/-- A DOE object received (R403): function, size, the SPDM session it came in, whether it decrypts and is well formed; the
SPDM version of its header (0x12 or 0x13), the conditional test that its work fails, the key that a KEY_PROG carries. -/
structure DoeReq where
  fn      : Nat
  bytes   : Nat
  session : Option Word
  ok      : Bool
  version : Nat
  test    : CondTest
  key     : List Word
  deriving DecidableEq, Repr

/-- A read of a function's BAR space (R447, R451): BAR2 or BAR0, its offset, its bytes. -/
structure BarRead where
  bar2   : Bool
  offset : Nat
  width  : Nat
  deriving DecidableEq, Repr

/-- What SCRUB_ROW finds newly struck: entry index, word, and 1 single, 2 double, 3 stuck. -/
structure Strike where
  index : Nat
  word  : Nat
  kind  : Nat
  deriving DecidableEq, Repr

/-- What the guard core finds of an image beside its words (R402): the verdict of the two signature checks over D, and the
OPEN_ABI and release of its microcode section. -/
structure ImageFacts where
  verified : Bool
  openAbi  : Nat
  release  : Nat
  deriving DecidableEq, Repr

/-- A record of a saved image (R330): KIND, ID and INDEX of its header, its body. The 64 KiB of a page record are not
part of it (DESIGN CHOICE, log 38). -/
structure SavedRecord where
  kind  : Nat
  id    : Nat
  index : Nat
  body  : List Word
  deriving DecidableEq, Repr

/-- What the read of a saved image brings (R329, R330): its 16 header words and its records. -/
inductive SavedImage where
  | data (header : List Word) (records : List SavedRecord)
  | error
  | poison
  deriving DecidableEq, Repr

/-- What a command run by the service call EXEC needs from outside (R363): the read of host memory that its row's operand
is, NumVFs, or a saved image. -/
inductive ExtRead where
  | host (r : Reply)
  | vfs (n : Nat)
  | image (i : SavedImage)
  deriving DecidableEq, Repr

/-- Who a VC2 response goes to: a long operation, or a frame agent's descriptor fetch for one of its steps. -/
inductive FabricReader where
  | op (k : Nat)
  | agent (agent slot partition : Nat)
  deriving DecidableEq, Repr

/-- How the accesses of a sample row beside its read ended, false for an error: those of round storage (R160), and, for
the row with which its member ends, the writes of the member's token records in their order (R168; one not listed
succeeded). -/
structure RowIo where
  round   : Bool
  records : List Bool
  deriving DecidableEq, Repr

/-- What the Sampler has of a row when its pipeline or its scan ends: the summaries or logits read, and its other
accesses. -/
structure RowRead where
  data : Reply
  io   : RowIo
  deriving DecidableEq, Repr

/-- The two reads of a step program that precede its expansion (R58): the header, and the bytes from 0x40 to the end of
the last descriptor. -/
structure ProgramReads where
  header : Reply
  body   : Reply
  deriving DecidableEq, Repr

/-- A page of a fill (R270): its number, and the SWARM_STEP and the loss word that the source holds for the cut (R272). -/
structure FillPage where
  number : Nat
  step   : Dword
  loss   : Dword
  deriving DecidableEq, Repr

/-- The commands. -/
inductive Instr where
  -- Interpreter commands (spec/13).
  | nop (src : Src)
  | ringCreate (src : Src)
  | ringEnable (src : Src)
  | ringDisable (src : Src)
  | ringDestroy (src : Src)
  | tokenRingCreate (src : Src)
  | tokenRingDestroy (src : Src)
  | leaseRenew (src : Src)
  | instanceCreate (src : Src) (numVfs : Nat)
  | instanceResize (src : Src)
  | instanceReset (src : Src)
  | instanceDestroy (src : Src)
  | instanceFreeze (src : Src)
  | instanceQuiescent (inst : Nat)
  | instanceSave (src : Src)
  | instanceRestore (src : Src) (image : SavedImage)
  | instanceThaw (src : Src)
  | partitionCreate (src : Src)
  | partitionDestroy (src : Src)
  | contextCreate (src : Src)
  | contextSet (src : Src)
  | contextDestroy (src : Src)
  | bwrSet (src : Src)
  | pageGeom (src : Src)
  | modelLoad (src : Src) (list : Reply)
  | modelUnload (src : Src)
  | serveBind (src : Src)
  | serveUnbind (src : Src)
  | sampleBind (src : Src)
  | sampleTableLoad (src : Src) (body : Reply)
  | sampleTableFree (src : Src)
  | automatonLoad (src : Src) (body : Reply)
  | automatonFree (src : Src)
  | admitStream (src : Src)
  | streamSet (src : Src)
  /-- `mapped`: the Host Port Unit can translate DEST (R300). -/
  | streamQuery (src : Src) (mapped : Bool)
  | streamPark (src : Src)
  | streamResume (src : Src)
  | streamAppend (src : Src) (tokens : Reply)
  | streamRetire (src : Src)
  | streamRelease (src : Src)
  | tokenLogRead (src : Src)
  | prefixCreate (src : Src)
  | prefixFree (src : Src)
  | runStep (src : Src)
  | cycLoad (src : Src) (slots : Reply)
  | cycStart (src : Src)
  | cycStop (src : Src)
  | cycFree (src : Src)
  | swarmSelfSet (src : Src)
  | swarmMemberSet (src : Src)
  | swarmMemberClear (src : Src)
  | swarmGroupSet (src : Src) (map : Reply)
  | capBind (src : Src)
  | capUnbind (src : Src)
  | capFill (src : Src)
  | capRiskHint (src : Src)
  | waggleSet (src : Src)
  -- The interpreter itself (spec/16).
  | openRegionRoutine (src : Src) (reads : List ExtRead)
  | openRoutineTimeout
  | parityMachineCheck (addr mask : Nat)
  | mchkReadbackDone (ok : Bool)
  | xlateTrap
  -- Mailbox messages (spec/15, spec/16, spec/18).
  | hello (inst : Nat)
  | fwStage (inst : Nat) (read : Reply)
  | fwActivate (inst : Nat)
  | fwCoreUpdate (inst : Nat)
  | orphanResume (inst : Nat)
  | orphanReset (inst : Nat)
  | zeroize (inst : Nat)
  | zeroizeDone (ok : Bool)
  | lifecycleAdvance (inst : Nat) (token : Reply) (verified : Bool)
  | openKeySet (inst : Nat)
  | selfTest (inst : Nat)
  | openLoad (inst : Nat) (image : Reply)
  | openClear (inst : Nat)
  -- SPDM and IDE_KM (spec/18).
  | getVersion (q : DoeReq)
  | getCapabilities (q : DoeReq)
  | negotiateAlgorithms (q : DoeReq) (algorithms : Algorithms)
  | getDigests (q : DoeReq)
  | getCertificate (q : DoeReq) (slot : Nat)
  | challenge (q : DoeReq) (slot : Nat)
  | getMeasurements (q : DoeReq) (index : Nat)
  | keyExchange (q : DoeReq) (id : Word)
  | finish (q : DoeReq) (verified : Bool)
  | keyUpdate (q : DoeReq)
  | spdmHeartbeat (q : DoeReq)
  | endSession (q : DoeReq)
  | swarmKeyLoad (q : DoeReq) (epoch : Half) (activateAt : Dword) (key : List Word)
  | ideKmQuery (q : DoeReq)
  | ideKmKeyProg (q : DoeReq) (stream sub set : Nat)
  | ideKmKSetGo (q : DoeReq) (stream sub set : Nat)
  | ideKmKSetStop (q : DoeReq) (stream sub set : Nat)
  -- Host writes and mailboxes (spec/12, spec/14).
  | mbxInGo (fn : Nat)
  | mbxOutAck (fn : Nat)
  | mbxOutPost (fn : Nat) (message : List Word)
  | doorbellWrite (fn ring : Nat) (value : Word)
  | pushWrite (fn ring : Nat) (words : List Word)
  | tokenRingDoorbell (fn ring : Nat) (value : Word)
  | bootRingEnable (fn : Nat)
  | bootRingDisable (fn : Nat)
  -- Forager and interpreter events (spec/12, spec/13).
  | fetchReadComplete (ring : Nat) (read : Reply)
  | fetchRereadTimer (ring : Nat)
  | specPollTimer (ring : Nat)
  | entryStart (ring : Nat)
  | barrierRelease (ring : Nat)
  | headShadowWrite (ring : Nat)
  | completionWriteError (ring : Nat) (index : Word)
  | ringDrainEnd (ring : Nat)
  | statusBlockUpdate (op : Nat)
  | statusBlockWriteError (op : Nat)
  | hostCopyDone (context : Nat) (ok : Bool)
  -- Comb (spec/02).
  | inspectionSnapshot
  | inspectionSnapshotDone
  | scrubRow (strikes : List Strike)
  | combInitDone
  -- Prompt fetch, composer (spec/05, spec/07).
  | promptFetchDone (index : Nat) (tokens : List Word)
  | promptFetchFail (index : Nat)
  | firstPagesRetry
  | forecast (partition : Nat)
  | pagerMemberReport (partition index : Nat)
  | commit (partition : Nat)
  | commitWaitTimeout (partition : Nat)
  | memberTableWriteError (partition : Nat) (kind : Nat)
  | draftStepCompose (partition : Nat)
  | idleSweep
  | pressureVictim (die : Nat)
  -- Frame agents and cores (spec/03, spec/04, spec/19).
  | dispatchRecord (agent : Nat) (slot partition : Nat)
  | programCheckDone (agent slot partition : Nat) (program : ProgramReads) (timing : Reply)
  | launchExpand (agent slot partition : Nat)
  | engineCommandIssue (agent core : Nat) (engine : Nat)
  | queueCredit (agent core : Nat) (engine : Nat)
  | headIssue (agent core : Nat) (engine : Nat)
  | commandComplete (agent core engine slot launch index : Nat) (status : Byte) (quad : Nat)
  | waitTimeout (agent core : Nat) (engine : Nat)
  | gateTimeout (agent core : Nat) (engine : Nat)
  | completionRecord (agent slot partition launch : Nat)
  | executionFaultReport (agent slot partition : Nat)
  | stepStop (agent slot partition : Nat)
  | endOfStepRecord (agent slot partition : Nat)
  -- Sampler (spec/06).
  | sampleRowDone (partition kind member row : Nat) (read : RowRead)
  | fullScanDone (partition kind member row : Nat) (logits : RowRead)
  | memberStepEnd (partition kind member : Nat)
  -- Scheduler (spec/08).
  | stepDispatch (context : Nat)
  | sliceEnd (partition : Nat)
  | sliceDrainTimeout (partition : Nat)
  | contextSwapOut (context : Nat)
  | contextSaveDone (context : Nat) (ok : Bool)
  | contextLoad (context : Nat)
  | contextLoadDone (context : Nat) (ok : Bool)
  | boundaryTest (partition : Nat)
  | boundaryRetest (partition : Nat)
  | preemption (agent slot partition : Nat)
  | slotStopped (agent slot partition : Nat)
  | regulatorRefill (cls port : Nat)
  -- Pager (spec/07).
  | pageMoveDone (die : Nat) (ok : Bool)
  | demotePage (die index : Nat)
  | narrowPathResponse (tag : Nat) (ok : Bool)
  | narrowPathTimeout (tag : Nat)
  | regionPoison (region page : Nat)
  | regionRepairDone (region page : Nat) (ok hard : Bool)
  | framePoison (kind index page : Nat) (hard : Bool)
  | frameTableSweep
  | retireFramePop
  -- Timebase and cyclic tables (spec/09).
  | ppsEdge (phase : Nat)
  | missedSecond
  | acquireNoEdge
  | holdoverExpire
  | tbReacq (fn : Nat)
  | tbTodArm (fn : Nat)
  | tbNowCapture (fn : Nat)
  | timedStart (context launch : Nat)
  | cycleBoundary (table : Nat)
  | slotLead (table slot : Nat)
  | slotStart (table slot : Nat)
  | slotDeadline (table slot : Nat)
  -- Thermal (spec/20).
  | stkHotRise (stack : Nat)
  | stkHotFall (stack : Nat)
  | stkCritRise (stack : Nat)
  | throttleHoldRelease (stack : Nat)
  | deferExpire (stack : Nat)
  -- Swarm Port and capping (spec/10, spec/11).
  | swarmPortEnable (fn : Nat) (value : Word)
  | swarmHello (h : SwarmHdr) (chipId : Dword) (domain : Word)
  | swarmHelloAck (h : SwarmHdr) (chipId : Dword) (domain : Word)
  | swarmHeartbeat (h : SwarmHdr)
  | timeReq (h : SwarmHdr) (t1 : Dword) (t2 : Dword)
  | timeResp (h : SwarmHdr) (t1 t2 t3 t4 : Dword)
  | collAnnounce (h : SwarmHdr) (step t0 : Dword) (windowNs : Word) (timed : Half)
  | stepSlip (h : SwarmHdr) (step : Dword) (slipNs : Word) (serial : Half)
  | collAbandon (h : SwarmHdr) (step : Dword) (launch : Half) (status : Byte) (missed : Nat)
  | stateNotice (h : SwarmHdr)
  | remoteCmd (h : SwarmHdr) (ticket : Word) (frag frags : Nat) (words : List Word)
  | remoteResult (h : SwarmHdr) (ticket : Word) (status : Byte) (detail : List Word)
  | capOffer (h : SwarmHdr) (shard : Dword) (pages : Nat) (ticket : Word) (domain : Word)
  | capAccept (h : SwarmHdr) (ticket : Word) (status : Byte) (shard : Dword)
  | capReport (h : SwarmHdr) (step : Dword) (closed : Nat) (risk : Nat) (urgent missed : Bool) (group : Nat)
  | capPlan (h : SwarmHdr) (groupStep : Dword) (groupCut group : Nat) (nextValid void : Bool) (p : Dword) (n : Nat)
  | capCut (h : SwarmHdr) (shard : Dword) (n commitCut : Nat) (step : Dword) (pages : Nat) (void : Bool)
  | capSeal (h : SwarmHdr) (shard : Dword) (n : Nat) (ticket : Word) (loss : Dword)
  | capAck (h : SwarmHdr) (shard : Dword) (n pages : Nat) (closed : Bool) (status : Byte) (ticket : Word)
  | capFillPacket (h : SwarmHdr) (shard : Dword) (cut : Nat) (ticket : Word) (first op : Nat)
  | capPageTransfer (context : Nat)
  | stagingCopyDone (context page : Nat)
  | buddyReseek (context : Nat)
  | riskRecompute
  | heartbeatPeriod
  | absenceTimeout (member : Nat)
  | timeTransferPeriod (member : Nat)
  | requestRetryTimeout (ticket : Word)
  | secondCopySend
  | remoteSlotTimeout (slot : Nat)
  | windowMiss (context launch member : Nat)
  | announceExpiry (index : Nat)
  | keyActivate
  -- Link engines (spec/19).
  | collArrived (port context launch member : Nat)
  | collDone (port context : Nat) (base length : Nat)
  | linkHealth (port : Nat) (spare retrain : Bool)
  | portState (port : Nat) (up : Bool)
  | swarmDrop (port : Nat)
  -- Firmware processors, lease, waggle points (spec/15).
  | watchdogExpiry (proc : Nat)
  | processorTrapFault (proc cause : Nat) (pc : Word)
  | restartLimitExpiry (proc : Nat)
  | rebuildComplete (proc : Nat)
  | fwRestartForce (fn : Nat)
  | bootLoadTimeout
  | leaseExpiry
  | linkDown
  | pfFlr
  | vfFlr (fn : Nat)
  | flrTimeout (fn : Nat)
  | wagglePassage (point : Nat)
  -- Fences (spec/17).
  | fenceCmd (fn : Nat) (value : Word)
  | unfenceCmd (fn : Nat) (value : Word)
  | fenceBusFence (cls index : Nat) (checkOk : Bool)
  | fenceBusUnfence (cls index : Nat) (checkOk : Bool)
  | fenceBusReg (cls index : Nat) (checkOk : Bool)
  | fenceBusIrq (agent : Nat) (checkOk : Bool)
  | fenceBusAck (cls index : Nat) (seq : Byte)
  | fenceBusNak (cls index : Nat) (seq : Byte)
  | fenceAckTimeout (cls index : Nat)
  -- Faults and HUM_OUT.
  | faultForce (fn offset : Nat) (value : Word)
  | severeClear (fn id : Nat) (value : Word)
  | humToggle
  -- Interrupt controller.
  | irqLevelChange (source : Nat) (level : Bool)
  | icClaim (proc : Nat) (fast : Bool)
  | icComplete (proc : Nat) (fast : Bool) (source : Nat)
  | stormUnmask (fn : Nat) (value : Word)
  | holdoffExpiry (group : Nat)
  -- Registers (spec/01, spec/21).
  | rcCounterRead (fn : Nat) (read : BarRead)
  | registerWrite (fn offset width : Nat) (value : Dword)
  -- Reset, power, freeze (spec/20).
  | powerOnReset
  | resetRelease
  | fuseMapReadDone (words : List Word) (error : Bool)
  | guardPostDone (bits : BitVec 10)
  | entropyRetest (passed : Bool)
  | softReset (fn : Nat) (value : Word)
  | softResetTakeEffect
  | sleepRequest (fn : Nat)
  | sleepRequestClear (fn : Nat)
  | sleepEntryDone
  | wakeTimeReached
  | wakeRestoreDone (clean icClean : Bool)
  | freezePin
  | thaw
  | idcode
  | scanSel (chain : BitVec 16)
  | scanDump
  | bypass (bit : Bool)
  -- Late events of the table.
  | capPageReceived (owner : Nat) (shard : Dword) (n page : Nat)
  | fillPageReceived (context : Nat) (page : FillPage)
  | htpDcCompletion (tag : Nat) (read : Reply)
  | atsInvalidation (tag : Nat) (addr : Dword)
  | fabricReadResponse (aim : FabricReader) (read : Reply)
  | stkCritFall (stack : Nat)
  | mcCePulse (cls port : Nat)
  | fuseProgramAck (error : Bool)
  | processorLoaded (proc : Nat) (watchdogMs : Nat)
  | stageVerifyDone (facts : ImageFacts)
  deriving DecidableEq, Repr

end Sys2Proof
end

