-- ==== Sys2Proof/Config.lean ====
section
/-!
DEFINITION. What an integration fixes (R429, spec/19) and the free values: constants with no body, so that nothing can
evaluate one or prove a value of it. A raw constant is brought into the range that the spec gives.
-/

namespace Sys2Proof.Config

/-- Integration parameters as the integrator fixes them; `Config.raw n` is the nth (R429). -/
opaque raw : Nat → Nat

/-- TB_REF_PERIOD in units of 2^−32 ns, 4–100 ns. -/
def tbRefPeriod : Nat := 4 * 2 ^ 32 + raw 0 % (96 * 2 ^ 32 + 1)

/-- LE_TS_DELAY, 0–255 TB_REF cycles. -/
def leTsDelay : Nat := raw 1 % 256

/-- LINK_PORTS, 1–72. -/
def linkPorts : Nat := 1 + raw 2 % 72

/-- BROOD_BASE and SUPER_BASE as device address bits [47:16]. -/
def broodBase : Word := Word.mk (raw 3)
def superBase : Word := Word.mk (raw 4)

/-- FW_AREA: device address, 64 MiB in brood stack 0. -/
def fwArea : Dword := BitVec.ofNat 64 (raw 5 % 2 ^ 48)

/-- TAP_MFR, 11 bits, and the revision of IDCODE. -/
def tapMfr : Nat := raw 6 % 2 ^ 11
def revision : Nat := raw 7 % 16

/-- THM_FRAC, 4–15 sixteenths. -/
def thmFrac : Nat := 4 + raw 8 % 12

/-- Member at the other end of a link port, 8 192 or more for none: a matter of the chip's cabling. -/
opaque portPartner : Nat → Nat

/-- cc that pass in the nth TB_REF cycle: the two clocks are never compared (R411). -/
opaque ccPerRef : Nat → Nat

/-- Free values by kind and count (Machine/Ops.lean, fresh). -/
opaque freeNat : Nat → Nat → Nat

/-- Where the nth taking of a frame from a pool looks for a free one (R178): which free frame is taken is not stated. -/
opaque frameNo : Nat → Nat → Nat

/-- Number in its tier of frame 0 of a pool's stack or package (R178, R195): the spec does not lay the tiers out. -/
def poolBase (k : Nat) : Nat := raw (256 + k) % 2 ^ 26

/-- What the nth contents of a slot's engine banks read as, word by word (R202 ENGINE): the engines' own. -/
opaque bankWord : Nat → Nat → Word

/-- Port of a device page outside every pool. -/
opaque addrPort : Nat → Nat

/-- PASID of a function's requests (R417): no rule gives it. -/
opaque pasid : Nat → Nat

/-- The 10-bit tag of the nth request to device memory (R419): no rule assigns tags. -/
opaque requestTag : Nat → Nat

/-- KEYID of a device page that is neither shared nor in a window of an instance (R408 gives none). -/
opaque keyid : Nat → Nat

/-- Device address of the frame-table record of a frame, by pool and number, and the words written to it, by when: the spec
lays the frame table out nowhere (R182, R192). -/
opaque frameRecord : Nat → Nat → Nat
opaque frameWord : Nat → Nat → Word

/-- Byte offset at which table n, or automaton n, lies in its arena (R140): the spec does not lay the arenas out. -/
opaque arenaAt : Nat → Nat

/-- Further windows of an instance, beside the 64 KiB at page windowPage. -/
opaque moreWindows : Nat → Nat → Nat → Bool

/-- Word j of the nth memory key, a value of the DRBG (R394, R408). -/
opaque drbgWord : Nat → Nat → Word

/-- Bytes of the ROM (R404). -/
opaque rom : List Byte

/-- Word j of measurements 2 and 3 while no image runs (R404 names the running image). -/
opaque noImage : Nat → Word

/-- A 64 KiB page, by number, that lies in a device-memory window of instance i. -/
def windowPage (i : Nat) : Nat := raw (64 + i) % 2 ^ 32

/-- Does the range of n bytes from a lie within the device-memory windows of instance i? The spec names an instance's
windows and does not define them: each instance has 64 KiB at least, and what the integrator gives it beyond (log 16). -/
def inWindows (i a n : Nat) : Bool :=
  (decide (windowPage i * 65536 ≤ a) && decide (a + n ≤ windowPage i * 65536 + 65536)) || moreWindows i a n

end Sys2Proof.Config
end

