-- ==== Sys2Proof/Machine/Table.lean ====
section
/-!
DEFINITION. Sparse tables in one canonical form: keys strictly rising, and no entry equal to what an unlisted key
reads as. Every indexed store of the block (registers, Comb entries, rings, frames) is one of these.
-/

namespace Sys2Proof.Machine

/-- A sparse table. The default of an unlisted key is given at each use. -/
abbrev Tbl (α : Type) := List (Nat × α)

/-- What key k holds, d k where it is not listed. -/
def Tbl.get {α : Type} (d : Nat → α) : Tbl α → Nat → α
  | [], k => d k
  | (j, v) :: t, k => if j = k then v else Tbl.get d t k

/-- The table without key k. -/
def Tbl.erase {α : Type} : Tbl α → Nat → Tbl α
  | [], _ => []
  | (j, v) :: t, k => if j = k then t else (j, v) :: Tbl.erase t k

/-- The table with key k bound to v, in key order. -/
def Tbl.insert {α : Type} : Tbl α → Nat → α → Tbl α
  | [], k, v => [(k, v)]
  | (j, w) :: t, k, v =>
    if k < j then (k, v) :: (j, w) :: t
    else if j = k then (k, v) :: t
    else (j, w) :: Tbl.insert t k v

/-- The table after key k is given v: a value equal to the default is not listed. -/
def Tbl.put {α : Type} [DecidableEq α] (d : Nat → α) (t : Tbl α) (k : Nat) (v : α) : Tbl α :=
  if v = d k then Tbl.erase t k else Tbl.insert t k v

/-- The listed value of key k, for tables whose unlisted keys hold nothing. -/
def Tbl.find {α : Type} : Tbl α → Nat → Option α
  | [], _ => none
  | (j, v) :: t, k => if j = k then some v else Tbl.find t k

/-- Key k bound to what f makes of its value; unchanged where k is not listed. -/
def Tbl.adjust {α : Type} (f : α → α) : Tbl α → Nat → Tbl α
  | [], _ => []
  | (j, v) :: t, k => if j = k then (j, f v) :: t else (j, v) :: Tbl.adjust f t k

/-- How many listed entries satisfy p. -/
def Tbl.count {α : Type} (p : Nat → α → Bool) (t : Tbl α) : Nat :=
  (t.filter fun e => p e.1 e.2).length

/-- The least key not listed, from n upward. -/
def Tbl.freshFrom {α : Type} : Tbl α → Nat → Nat
  | [], n => n
  | (j, _) :: t, n => if j < n then Tbl.freshFrom t n else if j = n then Tbl.freshFrom t (n + 1) else n

/-- Keys strictly rising, each above lo where lo is given. -/
def Tbl.rising {α : Type} : Option Nat → Tbl α → Bool
  | _, [] => true
  | none, (j, _) :: t => Tbl.rising (some j) t
  | some i, (j, _) :: t => decide (i < j) && Tbl.rising (some j) t

/-- The canonical form: keys strictly rising and no entry at its default. -/
def Tbl.wf {α : Type} [DecidableEq α] (d : Nat → α) (t : Tbl α) : Bool :=
  Tbl.rising none t && t.all fun e => decide (e.2 ≠ d e.1)

end Sys2Proof.Machine
end

