-- ==== Sys2Proof/Machine/Parts/Pager.lean ====
section
/-!
DEFINITION. The state of the context pager (spec/07): pools, the lists and token logs it keeps in device memory (as
data), prefixes, shared frames, replicated regions, movers, the narrow path, retirement FIFO and dirty logs.
-/

namespace Sys2Proof.Machine

/-- Tier of a page (R174). -/
inductive Tier where
  | none | brood | super
  deriving DecidableEq, Repr

/-- A frame: its pool (R195: 0–11 brood stacks, 16–47 super packages) and its number within the stack or package. -/
structure Frame where
  pool   : Nat
  serial : Nat
  deriving DecidableEq, Repr

/-- The number of a frame in its tier. -/
def Frame.number (f : Frame) : Nat := Config.poolBase f.pool + f.serial

/-- A frame pool (R178): its bounds, the numbers of the frames allocated, and of those that R191 withholds, whichever bounds
hold them. -/
structure Pool where
  first    : Nat := 0
  count    : Nat := 0
  used     : List Nat := []
  withheld : List Nat := []
  /-- The model's own: frames taken so far, which the free choice of the next one goes by (log 21). -/
  taken    : Nat := 0
  deriving DecidableEq, Repr

/-- Does a frame number lie within a pool's bounds? -/
def Pool.holds (p : Pool) (n : Nat) : Bool := decide (p.first ≤ n) && decide (n < p.first + p.count)

/-- PAG_POOL_FREE: the pool's frames less those allocated and those withheld within its bounds. -/
def Pool.free (p : Pool) : Nat := p.count - p.used.length - (p.withheld.filter p.holds).length

/-- The free frame at or after the start-th of a pool, going round. -/
def Pool.pick (p : Pool) (start : Nat) : Option Nat :=
  if p.free = 0 then none
  else ((List.range (p.used.length + p.withheld.length + 1)).map fun i => p.first + (start + i) % max 1 p.count).find?
    fun n => !p.used.contains n && !p.withheld.contains n

/-- A leaf-list entry (R174). -/
structure Page where
  tier   : Tier := .none
  shared : Bool := false
  poison : Bool := false
  moving : Bool := false
  frame  : Option Frame := none
  /-- Index in the shared-frame table where shared. -/
  shareId : Nat := 0
  fill   : Nat := 0
  deriving DecidableEq, Repr

/-- A list block with its two copies: frame and carving of each (R177). -/
structure Block where
  first  : Frame
  carve1 : Nat
  second : Frame
  carve2 : Nat
  deriving DecidableEq, Repr

/-- A token-log list entry (R176): primary and mirror frames. -/
structure LogPair where
  primary : Frame
  mirror  : Frame
  deriving DecidableEq, Repr

/-- What the pager holds for one stream or prefix in device memory. -/
structure StreamMem where
  /-- Generation of the owner's handle. -/
  gen     : Nat := 0
  inst    : Nat := 0
  root    : Option Block := none
  leaves  : Tbl Block := []
  pages   : Tbl Page := []
  logList : Option Block := none
  log     : Tbl LogPair := []
  /-- Token ids by position, drafts beyond POS included (R159). -/
  tokens  : Tbl Nat := []
  /-- Prompt fetch in progress (R180), and its address. -/
  fetching : Bool := false
  /-- First pages wait for a brood frame (R180). -/
  waiting  : Bool := false
  deriving DecidableEq, Repr

/-- A shared prefix (R185). -/
structure Prefix where
  inst      : Nat
  partition : Nat
  len       : Nat
  /-- PREFIX_FREE taken: the id is retired for new admissions (R187). -/
  freed     : Bool := false
  pages     : Tbl Page := []
  tokens    : Tbl Nat := []
  log       : Tbl LogPair := []
  /-- The stream and generation that it is made from, once it is made; its pages that still wait for a brood frame. -/
  source    : Option (Nat × Nat) := none
  wanted    : List Nat := []
  /-- Shared frames that it held when it was freed and that still have references (R187). -/
  shares    : List Nat := []
  deriving DecidableEq, Repr

/-- Is a prefix made: its tokens copied, its pages all shared? -/
def Prefix.made (x : Prefix) : Bool := !x.tokens.isEmpty && x.wanted.isEmpty

/-- A shared frame (R185, R190). -/
structure Shared where
  frame  : Frame
  count  : Nat
  poison : Bool := false
  pfx    : Nat
  deriving DecidableEq, Repr

/-- State of a replicated region (R188, R189). -/
inductive RegionState where
  | live | held | lost
  deriving DecidableEq, Repr

/-- What a region belongs to. -/
inductive RegionUse where
  | models (ms : List Nat)
  | tables
  | automata
  deriving DecidableEq, Repr

/-- A replicated region. -/
structure Region where
  use     : RegionUse
  base    : Dword
  pages   : Nat
  replica : Dword
  st      : RegionState := .live
  /-- Pages whose repair goes on, and pages that are lost. -/
  repairs : List Nat := []
  bad     : List Nat := []
  deriving DecidableEq, Repr

/-- A page move (R192). -/
inductive MoveKind where
  | promote | demote | copy
  deriving DecidableEq, Repr

/-- Who the page of a move belongs to. -/
inductive MoveOwner where
  | stream (index gen : Nat)
  | pfx (id : Nat)
  /-- A stream's page whose list entry names the destination already (log 18). -/
  | settled (index gen : Nat)
  deriving DecidableEq, Repr

structure Move where
  owner : MoveOwner
  inst  : Nat
  page  : Nat
  kind  : MoveKind
  src   : Frame
  dst   : Frame
  started : Bool := false
  /-- The cc, and the Timebase ns that PAG_BW_CAP adds, from which a started move may complete (R192). -/
  due   : Nat := 0
  dueNs : Nat := 0
  deriving DecidableEq, Repr

/-- The pager's work for one forecast member (R183, R184). -/
structure Nominee where
  partition : Nat
  index     : Nat
  gen       : Nat
  startPos  : Nat
  nTok      : Nat
  /-- List accesses on the narrow path whose entries are still to be seen to, in order: a leaf access by its first logical
  page, a root access by 2^20 + its number; and those of them that have been answered. -/
  walk      : List Nat
  answered  : List Nat := []
  /-- Pages whose frames cannot be had, pages that wait for their stream to leave ACTIVE (R175), and pages whose moves are
  awaited. -/
  wanted    : List Nat := []
  deferred  : List Nat := []
  moves     : List Nat := []
  deriving DecidableEq, Repr

/-- An access on a die's narrow path (R192): whose it is, its key in that stream's walk, the address of its 32 bytes, and
the words of a write. -/
structure NpAccess where
  die   : Nat
  index : Nat
  key   : Nat
  addr  : Nat
  write : Option (List Word)
  deriving DecidableEq, Repr

/-- A narrow-path request outstanding (R420). -/
structure NpReq where
  die    : Nat
  tag    : Nat
  index  : Nat
  page   : Nat
  write  : Bool
  sentCc : Nat
  deriving DecidableEq, Repr

/-- A dirty log (R193). -/
structure DirtyLog where
  en       : Bool := false
  overflow : Bool := false
  /-- SIZE_LOG2 as written. -/
  sizeLog2 : Nat := 10
  baseLo   : Word := 0
  baseHi   : Word := 0
  head     : Word := 0
  tail     : Word := 0
  /-- The records between head and tail, oldest first: kind, index, ID. -/
  recs     : List (Nat × Nat × Nat) := []
  deriving DecidableEq, Repr

/-- Records that the ring holds: values of SIZE_LOG2 outside 10–20 are taken as 10 (R195). -/
def DirtyLog.size (d : DirtyLog) : Nat := 2 ^ (if 10 ≤ d.sizeLog2 ∧ d.sizeLog2 ≤ 20 then d.sizeLog2 else 10)

/-- One report in the retirement FIFO (R191). -/
structure Retired where
  hard  : Bool
  tier  : Tier
  frame : Nat
  deriving DecidableEq, Repr

/-- The pager. -/
structure Pager where
  pools    : Tbl Pool := []
  mem      : Tbl StreamMem := []
  /-- Carvings of list-block frames in use, keyed pool × 2^32 + serial: bit list of carvings, and whether withheld. -/
  carved   : Tbl (List Nat × Bool) := []
  prefixes : Tbl Prefix := []
  shared   : Tbl Shared := []
  regions  : Tbl Region := []
  /-- Loaded models: the instance of each. -/
  models   : Tbl Nat := []
  movers   : Tbl (List Move) := []
  nominees : List Nominee := []
  np       : List NpReq := []
  /-- Narrow-path accesses that wait for a tag of their die, oldest first (R420). -/
  npWait   : List NpAccess := []
  /-- Streams in ADMITTED, in order of admission (R180). -/
  waiting  : List Nat := []
  retire   : List Retired := []
  dlogs    : Tbl DirtyLog := []
  pressure : Tbl Bool := []
  /-- Brood and super units used, by owning instance (R179). -/
  broodUsed : Tbl Nat := []
  superUsed : Tbl Nat := []
  /-- Handles whose frames the sweep of R190 still has to free. -/
  sweep    : List (Nat × Nat) := []
  /-- Second copies still to be written for want of a frame (R190): key, 0 for a log frame or 1 for a list block, which. -/
  mirrors  : List (Nat × Nat × Nat) := []
  moveCnt  : Word := 0
  cowCnt   : Word := 0
  deriving DecidableEq, Repr

end Sys2Proof.Machine
end

