-- ==== Sys2Proof/Machine/Parts/Cap.lean ====
section
/-!
DEFINITION. The state of the capping engine and of the health monitor (spec/11).
-/

namespace Sys2Proof.Machine

/-- Capping states of a context (R268). -/
inductive CapState where
  | unbound | seeking | guarded | exposed | restoring | restored | held
  deriving DecidableEq, Repr

/-- A buddy of a bound context (R260, R265): its PENDING map as ascending page numbers. -/
structure Buddy where
  member     : Nat
  pending    : List Nat := []
  correlated : Bool := false
  /-- CLOSED has been acknowledged for the open cut. -/
  closed     : Bool := false
  /-- First cut the buddy took part in, 0 before. -/
  joinCut    : Nat := 0
  /-- Pages sent for the open cut, in order (R260). -/
  sent       : List Nat := []
  /-- How many of those it has acknowledged. -/
  acked      : Nat := 0
  deriving DecidableEq, Repr

/-- The cut open on a member (R263). -/
structure OpenCut where
  number : Nat
  step   : Dword
  /-- The loss word, once read at the end of step P + 1. -/
  loss   : Option Dword := none
  deriving DecidableEq, Repr

/-- A cut made by this member, with its step and its loss word, newest first. -/
structure CutRec where
  number : Nat
  step   : Dword
  loss   : Dword
  deriving DecidableEq, Repr

/-- The buddy search of R265: members tried, and the one whose answer is awaited with its TICKET. -/
structure Search where
  tried    : List Nat
  /-- Passed-over candidates are being tried (OVERRIDE). -/
  second   : Bool := false
  waiting  : Option (Nat × Word) := none
  deriving DecidableEq, Repr

/-- A fill in progress (R270). -/
structure Fill where
  cut     : Nat
  source  : Nat
  auto    : Bool
  op      : Option Nat
  /-- Pages still to be written, ascending, and pages written. -/
  left    : List Nat
  written : Nat := 0
  tried   : List Nat := []
  /-- The SWARM_STEP of the cut and the loss word sealed for it, as the source's pages brought them. -/
  step    : Option Dword := none
  loss    : Option Dword := none
  deriving DecidableEq, Repr

/-- A page staged for the open cap (R259), with the buddies still to acknowledge it. -/
structure Staged where
  page    : Nat
  frame   : Frame
  waiting : List Nat := []
  copied  : Bool := false
  deriving DecidableEq, Repr

/-- A launch held until pages of the open cap are staged or sent (R259). -/
structure CapHold where
  agent  : Nat
  launch : Nat
  pages  : List Nat
  deriving DecidableEq, Repr

/-- A context bound to capping (R256–R272). -/
structure CapCtx where
  st        : CapState
  shard     : Dword
  group     : Nat
  l         : Nat
  want      : Nat
  override  : Bool
  lossAddr  : Dword
  /-- Regions: base and pages. Pages are numbered on from 0 across the regions in their order. -/
  regions   : List (Dword × Nat)
  dirty     : List Nat := []
  buddies   : List Buddy := []
  search    : Option Search := none
  reseekAt  : Option Nat := none
  noBuddy   : Bool := false
  replayable : Bool := false
  stepWrote : Bool := false
  lossHold  : Bool := false
  noCap     : Bool := false
  /-- A planned cut: number and P. -/
  plan      : Option (Nat × Dword) := none
  cut       : Option OpenCut := none
  /-- Last cut or voided number (R262, R263). -/
  lastCut   : Nat := 0
  cuts      : List CutRec := []
  /-- Pages of the last cut, until it is voided or a fill ends. -/
  cutPages  : List Nat := []
  closedCut : Nat := 0
  /-- Newest group-closed cut and its SWARM_STEP (X_g). -/
  groupCut  : Nat := 0
  xg        : Option Dword := none
  cutMissed : Bool := false
  urgent    : Bool := false
  lastStep  : Option Dword := none
  atRisk    : Nat := 0
  holds     : Word := 0
  fill      : Option Fill := none
  staged    : List Staged := []
  launchHolds : List CapHold := []
  /-- The link engines reduce the context's collectives in ascending member index (R263, R424). -/
  ordered   : Bool := false
  /-- The loss word that the source of the last fill held for its cut (R272). -/
  sealWord  : Option Dword := none
  deriving DecidableEq, Repr

/-- A member's last CAP_REPORT, as the leader keeps it (R261). -/
structure CapReport where
  step     : Dword
  closed   : Nat
  risk     : Nat
  urgent   : Bool
  missed   : Bool
  deriving DecidableEq, Repr

/-- What a leader keeps for one group (R262). -/
structure LeaderState where
  reports  : Tbl CapReport := []
  /-- Last planned cut: number and P; whether it has been voided. -/
  plan     : Option (Nat × Dword) := none
  voided   : Bool := false
  next     : Nat := 1
  groupCut : Nat := 0
  groupStep : Dword := 0
  /-- Highest risk reported, and whether URGENT was, since the last plan. -/
  risk     : Nat := 0
  urgent   : Bool := false
  /-- The SWARM_STEP of each cut that a PLAN has named, newest first (R273). -/
  made     : List (Nat × Dword) := []
  deriving DecidableEq, Repr

/-- One version of a held cap (R260): pages held, and the loss word of its SEAL. -/
structure HeldCut where
  number : Nat
  step   : Dword
  /-- Pages announced by CUT, pages that have arrived, and the loss word. -/
  expect : Nat
  got    : List Nat := []
  loss   : Option Dword := none
  /-- TICKET of its SEAL, to be answered CLOSED. -/
  ticket : Word := 0
  deriving DecidableEq, Repr

/-- A cap held for another chip (R260, R265). -/
structure HeldCap where
  owner     : Nat
  shard     : Dword
  pages     : Nat
  committed : Option HeldCut := none
  incoming  : Option HeldCut := none
  /-- Frames reserved in the super tier, two for each page; pages whose committed version lies in the second of them. -/
  frames    : List Frame := []
  second    : List Nat := []
  deriving DecidableEq, Repr

/-- The capping engine. -/
structure Capping where
  ctxs    : Tbl CapCtx := []
  leaders : Tbl LeaderState := []
  held    : List HeldCap := []
  deriving DecidableEq, Repr

/-- The health monitor (R267): Timebase ns of the events counted in the window, by input 0–4, newest first. -/
structure Health where
  events : Tbl (List Nat) := []
  hint   : Byte := 0
  risk   : Nat := 0
  lastMs : Nat := 0
  deriving DecidableEq, Repr

end Sys2Proof.Machine
end

