-- ==== Sys2Proof/Machine/Parts/Comb.lean ====
section
/-!
DEFINITION. The state of the Comb (spec/02): its entries by the fields of R37, the free list of R36, the scrubber's
place, and the words whose stored codeword is struck.
-/

namespace Sys2Proof.Machine

/-- STATE of a Comb entry (R37, offset 0x00 [31:28]). -/
inductive StreamState where
  | free | admitted | ready | active | parked | dormant | retired | unusable
  deriving DecidableEq, Repr

/-- The fields that R37 marks "param": taken from ADMIT, changed by STREAM_SET. -/
structure StreamParams where
  prio         : BitVec 8 := 0
  partition    : BitVec 7 := 0
  autoRelease  : Bool := false
  keep         : Bool := false
  specEn       : Bool := false
  grammarEn    : Bool := false
  draftModel   : Half := 0
  model        : Half := 0
  automaton    : BitVec 12 := 0
  fallback     : Half := 0
  maxNew       : Word := 0
  maxCtx       : Word := 0
  deadlineUs   : Word := 0
  temperature  : Word := 0
  topP         : Word := 0
  minP         : Word := 0
  topK         : BitVec 21 := 0
  repPenalty   : Word := 0
  presPenalty  : Word := 0
  freqPenalty  : Word := 0
  biasTable    : Word := 0
  seed         : Dword := 0
  stopToken0   : Word := 0
  stopToken1   : Word := 0
  stopToken2   : Word := 0
  stopToken3   : Word := 0
  stopSeq      : Word := 0
  tokenTag     : Word := 0
  tokenRing    : Half := 0
  prefixId     : Word := 0
  deriving DecidableEq, Repr

/-- A Comb entry (R37). NEXT and PREV are not here: they are computed from the composer's lists (R110). -/
structure CombEntry where
  st           : StreamState := .free
  gen          : BitVec 14 := 1
  inst         : BitVec 6 := 0
  reason       : Byte := 0
  homeDie      : BitVec 2 := 0
  poison       : Bool := false
  parkPending  : Bool := false
  retirePending : Bool := false
  orphanPark   : Bool := false
  fails        : BitVec 4 := 0
  promptLen    : Word := 0
  prefillPos   : Word := 0
  pos          : Word := 0
  genCount     : Word := 0
  autState     : Half := 0
  pageList     : Dword := 0
  tokenLog     : Dword := 0
  broodPages   : Word := 0
  superPages   : Word := 0
  admitTime    : Dword := 0
  lastStepTime : Dword := 0
  lastStepSeq  : Word := 0
  steps        : Word := 0
  fallbacks    : Word := 0
  specProposed : Word := 0
  specAccepted : Word := 0
  resumes      : Word := 0
  openScratch0 : Word := 0
  openScratch1 : Word := 0
  openScratch2 : Word := 0
  openScratch3 : Word := 0
  p            : StreamParams := {}
  deriving DecidableEq, Repr

/-- What has struck a stored word of the Comb (R51–R53): one bit (corrected on a read), two bits (uncorrectable),
or a stuck cell that no rewrite clears (the read-back fails). -/
inductive Upset where
  | single | double | stuck
  deriving DecidableEq, Repr

/-- The Comb. -/
structure Comb where
  /-- Entries by index; an unlisted one has the FREE contents with generation 1 (R50). -/
  entries   : Tbl CombEntry := []
  /-- The free list is the indices from `fresh` upward that have never been allocated, then `returned` (R36). -/
  fresh     : Nat := 0
  returned  : List Nat := []
  /-- Struck words, keyed index × 64 + word. -/
  upsets    : Tbl Upset := []
  /-- COMB_STATUS.INIT_DONE (R50). -/
  initDone  : Bool := false
  /-- The row of each bank that the scrubber checks next (R52), and the cc count at which it does. -/
  scrubRow  : Nat := 0
  scrubDue  : Nat := 0
  /-- The inspection in progress, GO to DONE (R56). -/
  inspecting : Bool := false
  deriving DecidableEq, Repr

end Sys2Proof.Machine
end

