-- ==== Sys2Proof/Machine/Parts/Fault.lean ====
section
/-!
DEFINITION. The state behind faults, fences, the fence bus, HUM_OUT and the interrupt controller (spec/17). Sticky
bits, PRP_F_ registers and error summaries stand in the register file.
-/

namespace Sys2Proof.Machine

/-- One counter of a fault source (R369). -/
structure FltCount where
  c  : Nat := 0
  ws : Nat := 0
  deriving DecidableEq, Repr

/-- Kinds of fence-bus messages that the hub sends (R375). -/
inductive BusKind where
  | fence | unfence | reg | irq
  deriving DecidableEq, Repr

/-- A fence-bus message (R375). -/
structure BusMsg where
  kind    : BusKind
  payload : Dword
  deriving DecidableEq, Repr

/-- A message sent and not yet answered: its SEQ, the cc of sending and the times it was sent again (R376). -/
structure BusSent where
  msg    : BusMsg
  seq    : Byte
  sentCc : Nat
  tries  : Nat := 0
  deriving DecidableEq, Repr

/-- One target of the fence bus, keyed class × 256 + index. One message at a time is on its way to a target (DESIGN CHOICE,
log 13): an IRQ message until the target takes it, any other until its ACK. -/
structure BusTarget where
  next   : Byte := 0
  queue  : List BusMsg := []
  sent   : Option BusSent := none
  /-- NO_ACK recorded: nothing further is sent. -/
  dead   : Bool := false
  /-- SEQ the target acted on last. -/
  acted  : Option Byte := none
  /-- Levels of the request lines the target last took (R377): bit 0 normal, bit 1 fast. -/
  lines  : Nat := 0
  deriving DecidableEq, Repr

/-- Fences (R372) and the fault machinery. -/
structure Fences where
  counts   : Tbl FltCount := []
  /-- Units that a severe source names and that the hub fences before the next command (R370): class and index. -/
  demand   : List (Nat × Nat) := []
  cores    : List Nat := []
  clusters : List Nat := []
  stackSet   : List Nat := []
  packages : List Nat := []
  links    : List Nat := []
  bus      : Tbl BusTarget := []
  /-- The fence or unfence of PRP_FENCE_CMD in progress: its command word. -/
  busy     : Option Word := none
  result   : Byte := 0
  deriving DecidableEq, Repr

/-- HUM_OUT (R378–R380). The toggle time is counted in TB_REF cycles. -/
structure Hum where
  level    : Bool := false
  toggling : Bool := false
  stopped  : Bool := false
  cause    : Nat := 0
  nextAt   : Nat := 0
  deriving DecidableEq, Repr

/-- One interrupt source (R381–R387). -/
structure IrqSrc where
  cfg     : Word := 0
  level   : Bool := false
  /-- Processor and class (fast) at which the source is ACTIVE. -/
  active  : Option (Nat × Bool) := none
  masked  : Bool := false
  reasserted : Bool := false
  rises   : Nat := 0
  ws      : Nat := 0
  deriving DecidableEq, Repr

/-- The interrupt controller. -/
structure IrqCtl where
  srcs    : Tbl IrqSrc := []
  holdoff : Tbl Word := []
  /-- cc count at which a running group timer ends. -/
  timers  : Tbl Nat := []
  /-- Levels of the request lines as last signalled: processor × 2 + class. -/
  lines   : List Nat := []
  deriving DecidableEq, Repr

end Sys2Proof.Machine
end

