-- ==== Sys2Proof/Machine/Parts/Frame.lean ====
section
/-!
DEFINITION. The state of the 32 frame agents and of what the core queue ports show of the 2 048 cores (spec/03,
spec/04, spec/08 R200–R211, spec/19 R421): dispatch records, launches under expansion, engine queues, counters, step
bases, validity maps, accumulator sets.
-/

namespace Sys2Proof.Machine

/-- Engine kinds present (spec/00: codes 0–4). -/
inductive Engine where
  | mx | vx | sx | ld | st
  deriving DecidableEq, Repr

/-- A WAIT filled in for one command: counter and expected step-relative value (R92, R95). -/
structure Wait where
  ctr : Nat
  exp : Nat
  deriving DecidableEq, Repr

/-- A SIGNAL of one command: counter and increment (R93). -/
structure Signal where
  ctr : Nat
  inc : Nat
  deriving DecidableEq, Repr

/-- One launch's share of an engine command: its place, the granules it reads and writes, its wait and signal. -/
structure CmdPart where
  launch : Nat
  index  : Nat
  src    : List Nat
  dst    : List Nat
  wait   : Option Wait
  signal : Option Signal
  /-- Operand addresses of this command, 48 bits each (R65, R72). -/
  addrs  : List Nat
  /-- EXTENT of each operand, which a VX, SX, LD or ST command carries (R65). -/
  extents : List Nat := []
  deriving DecidableEq, Repr

/-- The folded shape of an MX command (R72, R73, R76, R83): first row and logical column, rows and columns enabled,
streamed depth and the operands' own depth, beyond which they are fed zeros, the read axes of A and B, accumulator flags,
the first row's output pixel, kernel position and zero-fill mask of a convolution. -/
structure MxShape where
  row0   : Nat := 0
  col0   : Nat := 0
  rows   : Nat
  cols   : Nat
  depth  : Nat
  own    : Nat
  transA : Bool
  transB : Bool
  first  : Bool
  last   : Bool
  shadow : Bool
  pixel  : Nat × Nat
  kernel : Nat × Nat
  zeros  : List Nat
  deriving DecidableEq, Repr

/-- What a command in a reserved entry does (R80, R209–R211): a granule written to an eviction frame of its owner, a
granule read back, an accumulator set saved for the context it belongs to, a saved set read back. -/
inductive RsvOp where
  | evict (granule owner : Nat)
  | restore (granule : Nat)
  | saveSet (set owner : Nat)
  | fillSet (set : Nat)
  deriving DecidableEq, Repr

/-- An engine command (R421). `packed` is the second launch of a packed pass, with its own operation and shape (R83). -/
structure EngCmd where
  engine : Engine
  slot   : Nat
  seq    : Word
  /-- OP, formats and OP_ARG, passed through (R59, offset 0x04). -/
  op     : Word
  empty  : Bool
  part   : CmdPart
  packed : Option CmdPart
  mx     : Option MxShape
  packedOp : Option Word := none
  packedMx : Option MxShape := none
  rsv    : Option RsvOp
  /-- The one unpacked re-issue of a faulted share (R84). -/
  retry  : Bool := false
  deriving DecidableEq, Repr

/-- One 4 KiB scratchpad granule (R77, R201). -/
structure Granule where
  written  : Bool := false
  inflight : Nat := 0
  owner    : Option Nat := none
  deriving DecidableEq, Repr

/-- A context slot of one core: counters and step bases (R90, R91), the step whose base is latched, and the slot's own
banks of VX, SX, LD and ST engine state (R200). What stands in the banks is the engines' own: `banks` names the contents,
0 none yet, and each command that ends on one of these engines leaves new ones (free value, log 49). -/
structure CoreSlot where
  counters : Tbl (BitVec 48) := []
  base     : Tbl (BitVec 48) := []
  latched  : Option Word := none
  banks    : Nat := 0
  deriving DecidableEq, Repr

/-- A live accumulator set of a core's MX, 0 or 1: the slot whose pass holds it, parked or open (R200, R210, R211). -/
structure AccSet where
  num    : Nat
  slot   : Nat
  parked : Bool := false
  deriving DecidableEq, Repr

/-- A core as its queue port shows it. Queues and commands in execution are keyed by engine code. -/
structure CoreState where
  queues   : Tbl (List EngCmd) := []
  running  : Tbl (List EngCmd) := []
  /-- Occupancy the agent counts, by engine code (R422). -/
  occ      : Tbl Nat := []
  /-- The cc count since which the head of a queue has stalled on its wait, and since when its gate has held it. -/
  waitFrom : Tbl Nat := []
  gateFrom : Tbl Nat := []
  /-- When those stalls time out: the limit in force as each began (R105). -/
  waitDue  : Tbl Nat := []
  gateDue  : Tbl Nat := []
  slots    : Tbl CoreSlot := []
  granules : Tbl Granule := []
  /-- Live accumulator sets, in the order in which their passes opened, two at most. -/
  sets     : List AccSet := []
  /-- The set that the next pass takes if it is free; a SHADOW pass leaves the other (R74, log 48). -/
  nextSet  : Nat := 0
  deriving DecidableEq, Repr

/-- One launch on one agent (R63–R69, R82–R85). -/
structure LaunchState where
  index     : Nat
  status    : Byte := 0
  refused   : Bool := false
  packed    : Bool := false
  retried   : Bool := false
  noPack    : Bool := false
  expanding : Bool := false
  ended     : Bool := false
  recorded  : Bool := false
  packWith  : Option Nat := none
  /-- FRM_CTRL.WEIGHTED_EN as the launch took it when it began (R66, log 59). -/
  weighted  : Bool := true
  /-- Next command index of each own core, by core of the cluster. -/
  cursors   : Tbl Nat := []
  /-- Faulted shares of packed passes to issue once more, unpacked (R84): core and index. -/
  again     : List (Nat × Nat) := []
  /-- Own cores whose footprint is claimed (R209). -/
  claimed   : List Nat := []
  /-- COMMANDS of the completion record (R85). -/
  started   : Nat := 0
  firstFault : Byte := 0
  faultCore : Nat := 0
  deriving DecidableEq, Repr

/-- A dispatch record held by an agent (R19, R205): one per slot and partition. -/
structure AgentStep where
  partition : Nat
  slot      : Nat
  context   : Nat
  seq       : Word
  program   : Dword
  /-- All quarter-clusters of the partition; the agent's own are those of its cluster. -/
  qcs       : List Nat
  /-- LAUNCHES, STALL_ONLY, SUMMARY and PROGRAM_ID of the header once the checks of R58 have passed, and the descriptors
  fetched since. -/
  count     : Nat := 0
  stallOnly : Bool := false
  summary   : Bool := false
  programId : Word := 0
  descs     : Tbl (List Word) := []
  checked   : Bool := false
  /-- An execution fault still to be reported (R86). -/
  reportDue : Bool := false
  nextLaunch : Nat := 0
  launches  : List LaunchState := []
  stopping  : Bool := false
  preempted : Bool := false
  /-- Status of a program that failed R58. -/
  failed    : Option Byte := none
  /-- Own cores on which a claim or a restore waits for an eviction frame, with the context whose granule it is (R209). -/
  noFrame   : List (Nat × Nat) := []
  /-- Saves of accumulator sets that wait for a free queue entry: core and set (R422). -/
  saves     : List (Nat × Nat) := []
  deriving DecidableEq, Repr

/-- A frame agent. Registers of its FRM_ window are in the register file. -/
structure Agent where
  steps   : List AgentStep := []
  lastSeq : Word := 0
  launch  : Nat := 0
  /-- HELD while its control core restarts (R343), since this cc count. -/
  held    : Option Nat := none
  /-- The core served last (R81); 63 before any, so that service begins at core 0 (DESIGN CHOICE, log 48). -/
  served  : Nat := 63
  /-- The partition served last (R206), in the same way. -/
  servedPart : Nat := 63
  cores   : Tbl CoreState := []
  deriving DecidableEq, Repr

end Sys2Proof.Machine
end

