-- ==== Sys2Proof/Machine/Parts/Ring.lean ====
section
/-!
DEFINITION. The state of the Forager (spec/12): submission rings, token rings; and of the command interpreter
(spec/13): the command in execution and the long operations it tracks.
-/

namespace Sys2Proof.Machine

/-- Ring states (R287). -/
inductive RingState where
  | free | disabled | enabled | draining | error
  deriving DecidableEq, Repr

/-- An entry taken by the Forager: its index and its words, 16 to a unit (R279, R281). -/
structure Entry where
  index : Word
  words : List Word
  /-- Taken from a push (R291, R356 selector 9). -/
  pushed : Bool := false
  deriving DecidableEq, Repr

/-- An entry being completed in parts: those of its units read after the read that showed its entry word (R281). -/
structure Partial where
  entry : Entry
  units : Nat
  deriving DecidableEq, Repr

/-- A submission ring (R277, R278, R287). -/
structure Ring where
  st       : RingState := .free
  inst     : Nat := 0
  base     : Dword := 0
  sizeLog2 : Nat := 6
  headAddr : Dword := 0
  spec     : Bool := false
  weight   : Nat := 1
  head     : Word := 0
  tail     : Word := 0
  /-- Index after the last fetched entry. -/
  fetched  : Word := 0
  queue    : List Entry := []
  asm      : Option Partial := none
  started  : Option Entry := none
  /-- A draining ring enters ERROR rather than DISABLED (R287). -/
  failing  : Bool := false
  /-- Re-reads of the unit at `fetched` below the tail so far, and when the next is due (R283). -/
  rereads  : Nat := 0
  rereadAt : Option Nat := none
  /-- When an entry was last taken, and when the units past the tail are next polled (R283). -/
  lastTaken : Option Nat := none
  pollAt   : Option Nat := none
  /-- The units past the published tail are to be read (SPEC = 1, R282, R283). -/
  probe    : Bool := false
  /-- Units of the entry at `fetched` that had no room or does not lie below the tail yet; 0 while not known. -/
  need     : Nat := 0
  /-- Entries taken in the ring's present turn (R290). -/
  turn     : Nat := 0
  /-- The completion kept after a write error (FOR_R_COMPL), and the eight words last completed with. -/
  compl    : List Word := []
  lastDone : List Word := []
  /-- A completion write has failed: the head does not pass its entry before the ring is enabled again (R289). -/
  stuck    : Bool := false
  /-- The head has advanced since the shadow was last written (R285). -/
  shadowDue : Bool := false
  /-- Completion held while the device is in ORPHAN (R289). -/
  heldCompl : List (List Word) := []
  deriving DecidableEq, Repr

/-- A read of ring memory outstanding (R281, R295): the index of its first unit and its units. A stale one was issued before
the ring stopped, and what it brings is discarded. -/
structure FetchRead where
  at_   : Word
  units : Nat
  stale : Bool := false
  deriving DecidableEq, Repr

/-- A token ring (R293). -/
structure TokenRing where
  inst     : Nat
  base     : Dword
  sizeLog2 : Nat
  head     : Word
  tail     : Word
  deriving DecidableEq, Repr

/-- A saved image's header (R329). -/
structure ImageHeader where
  inst     : Nat
  passes   : Nat
  fullLast : Bool
  final    : Bool
  length   : Nat
  saveId   : Nat
  records  : Nat
  remap    : Nat
  deriving DecidableEq, Repr

/-- A pass of INSTANCE_SAVE under way (R329): the header with what the pass has appended, the pages and log frames left to
copy as KIND, ID and INDEX, and for an incremental pass the dirty-log records that it takes and the TAIL up to which. -/
structure SavePass where
  header : ImageHeader
  final  : Bool
  left   : List (Nat × Nat × Nat)
  taken  : Option (Nat × Word)
  bytes  : Nat := 0
  count  : Nat := 0
  deriving DecidableEq, Repr

/-- Where a pass stands: it waits for FROZEN, reads the header at DEST, copies a page whose read is outstanding, or has
written everything and waits for the outcome of its writes. -/
inductive SavePhase where
  | waits
  | header
  | copying (pass : SavePass)
  | closing
  deriving DecidableEq, Repr

/-- What a long operation is doing (R309). -/
inductive OpBody where
  | runStep (context : Nat) (number : Word)
  | reset (inst : Nat) (squash : Bool)
  | save (inst : Nat) (dest : Dword) (phase : SavePhase)
  | restore (inst : Nat) (src : Dword)
  | model (model : Nat) (regions : List Nat)
  | automaton (number : Nat) (bytes : Nat)
  | tokenRead (index gen first count : Nat) (dest : Dword)
  | cycStart (table : Nat)
  | capFill (context : Nat)
  deriving DecidableEq, Repr

/-- A long operation and its status block (R309–R313). -/
structure LongOp where
  inst     : Nat
  opcode   : Byte
  body     : OpBody
  /-- Ring of the entry; for a remote command the member, its TICKET and the results to answer with (R253). -/
  ring     : Option Nat
  reply    : Option (Nat × Word × List Word) := none
  index    : Word
  addr     : Dword
  upd      : Nat := 0
  /-- STATUS as last written to the block, and as it stands. -/
  shown    : Byte := 1
  status   : Byte := 1
  progress : Dword := 0
  part     : Dword := 0
  aux      : Word := 0
  /-- What the block last showed, when, and whether an update is due. -/
  shownAt  : Nat := 0
  due      : Bool := false
  failed   : Bool := false
  ended    : Bool := false
  /-- A TOKEN_LOG_READ reads the mirror of its current frame (R46). -/
  mirror   : Bool := false
  /-- Positions of a TOKEN_LOG_READ written to DEST whose write is not yet known to have been carried out (R46). -/
  copying  : Nat := 0
  deriving DecidableEq, Repr


/-- A command whose entry completes later than its execution: CONTEXT_DESTROY, CYC_STOP, INSTANCE_FREEZE. -/
inductive Waiting where
  | ctxDestroy (context : Nat)
  | cycStop (table : Nat)
  deriving DecidableEq, Repr

/-- The Forager. Ring numbers 0–63 are boot rings; their bindings stand in the FOR_BOOT registers. -/
structure ForagerState where
  rings  : Tbl Ring := []
  tokens : Tbl TokenRing := []
  /-- Push windows busy: ring and words. -/
  pushes : Tbl (List Word) := []
  /-- The read outstanding of each ring that has one, and the ring whose turn began last (R290, R295). -/
  reads  : Tbl FetchRead := []
  turnAt : Nat := 0
  deriving DecidableEq, Repr

/-- The command interpreter. -/
structure Interp where
  /-- The command in execution (R304), if any. -/
  current : Option Src := none
  /-- Commands executed whose completion waits for an event elsewhere. -/
  waiting : List (Src × Waiting) := []
  ops     : Tbl LongOp := []
  nextOp  : Nat := 0
  /-- Instances of the operations whose final status is written, by operation: a write of the block may still fail
  (R315). -/
  owners  : Tbl Nat := []
  deriving DecidableEq, Repr

end Sys2Proof.Machine
end

