-- ==== Sys2Proof/Machine/Parts/Inst.lean ====
section
/-!
DEFINITION. The state of instances and mailboxes (spec/14), of the firmware processors, the host lease and ORPHAN
(spec/15), and of the control store (spec/16).
-/

namespace Sys2Proof.Machine

/-- Instance states (R323). -/
inductive InstState where
  | none | active | resetting | freezing | frozen | restoring
  deriving DecidableEq, Repr

/-- The resources of INSTANCE_CREATE (R319). -/
structure Quotas where
  rings    : Nat := 0
  trings   : Nat := 0
  comb     : Nat := 0
  contexts : Nat := 0
  qc       : BitVec 128 := 0
  brood    : Nat := 0
  super    : Nat := 0
  bwBrood  : Nat := 0
  bwSuper  : Nat := 0
  bwLink   : Nat := 0
  prefixes : Nat := 0
  deriving DecidableEq, Repr

/-- The sequence of R324 in progress: the stage reached, whether it squashes, and the operation or FLR it answers. -/
structure ResetSeq where
  squash : Bool
  op     : Option Nat
  /-- Final status of the operation: that of a restore that failed, else ST_OK. -/
  final  : Byte := 0
  /-- An FLR began or joined it (R325). -/
  flr    : Bool := false
  /-- The stage of R324 in progress: 1 while a started entry is to complete, 2 while cyclic tables stop, then 3. -/
  stage  : Nat := 1
  deriving DecidableEq, Repr

/-- An instance (R317–R323). Its mailbox buffers are registers of its function page. -/
structure Instance where
  st       : InstState := .none
  wairon   : Bool := false
  q        : Quotas := {}
  flrCnt   : Word := 0
  seq      : Option ResetSeq := none
  /-- FLR not yet completed to the PCIe controller: Timebase time at which R325 completes it. -/
  flrDue   : Option Nat := none
  /-- Mailbox (R326, R327). -/
  inBusy   : Bool := false
  outValid : Bool := false
  matched  : Option (Nat × Nat) := none
  /-- Outbound messages that wait for OUT_VALID to clear, oldest first. -/
  outQueue : List (List Word) := []
  /-- The log has been disabled since the last pass, or the last pass failed (R329, R330). -/
  fullNext : Bool := true
  /-- Open scratch of R363, 64 words. -/
  scratch  : Tbl Word := []
  deriving DecidableEq, Repr

/-- States of a firmware processor (R341). -/
inductive ProcState where
  | off | running | restarting | halted | isSealed
  deriving DecidableEq, Repr

/-- A firmware processor (R335, R341). -/
structure Proc where
  st       : ProcState := .off
  planned  : Bool := false
  /-- Timebase times (ns) of the counted crashes of the last 60 min. -/
  crashes  : List Nat := []
  restarts : Word := 0
  cause    : Nat := 0
  pc       : Word := 0
  lastTime : Word := 0
  wdtMs    : Nat := 0
  /-- Restart limit: Timebase time at which it passes. -/
  due      : Nat := 0
  logSeq   : Word := 0
  deriving DecidableEq, Repr

/-- Phase of the boot (R336, DBG_FW_STATUS). -/
inductive Phase where
  | rom | loading | run
  deriving DecidableEq, Repr

/-- State of the STAGED slot (DBG_FW_STAGE). -/
inductive StageState where
  | empty | copying | verifying | verified | rejected
  deriving DecidableEq, Repr

/-- What the device takes from a signature block (R401): MAGIC and FORMAT as they must be, SVN, KEY_INDEX, and SHA-384 of its
two public keys. -/
structure SigBlock where
  formed   : Bool := false
  svn      : Nat := 0
  keyIndex : Nat := 0
  keyHash  : List Word := []
  deriving DecidableEq, Repr

/-- What a header of R337 says of an image. -/
structure FwImage where
  major   : Nat := 0
  minor   : Nat := 0
  ci      : Nat := 0
  version : Word := 0
  /-- Its signature block, D of R402, SHA-384 of its microcode section (R404), and that section's OPEN_ABI and release. -/
  sig     : SigBlock := {}
  digest  : List Word := []
  micro   : List Word := []
  openAbi : Nat := 0
  release : Nat := 0
  deriving DecidableEq, Repr

/-- A mailbox request whose reply waits: message code, SEQ and TAG. -/
structure MbxReq where
  inst : Nat
  msg  : Nat
  seq  : Nat
  tag  : Word
  deriving DecidableEq, Repr

/-- FW_CORE_UPDATE in progress (R340). -/
structure CoreUpdate where
  cluster : Nat
  move    : Bool
  req     : MbxReq
  /-- Quarter-clusters still to leave their partitions, and those drained with the partition they left. -/
  toDrain : List Nat := []
  drained : List (Nat × Nat) := []
  reloading : Bool := false
  deriving DecidableEq, Repr

/-- The state of the host lease (R344). -/
inductive LeaseState where
  | inactive | held | orphan
  deriving DecidableEq, Repr

/-- The orphan record (R346). -/
structure OrphanRecord where
  cause        : Nat := 0
  quiet        : Bool := false
  orphans      : Byte := 0
  periodMs     : Nat := 0
  linkEvents   : Nat := 0
  complHeld    : Bool := false
  entryTime    : Dword := 0
  stepsEnded   : Word := 0
  streamsParked : Word := 0
  recordsHeld  : Word := 0
  ringsStopped : Word := 0
  deriving DecidableEq, Repr

/-- An open-region image being loaded or kept (R362). -/
structure OpenImage where
  abi     : Nat
  words   : List (BitVec 128)
  entries : List Word
  /-- D of R402. -/
  digest  : List Word
  deriving DecidableEq, Repr

/-- The firmware's world. -/
structure Firmware where
  procs    : Tbl Proc := []
  phase    : Phase := .rom
  running  : FwImage := { major := 1 }
  /-- Interface version of the code that serves the mailboxes: the ROM's 1.0 until PHASE = RUN, and then the scheduler
  core's, which reloads after the exchange (R336, R339, R348). -/
  serving  : Nat × Nat := (1, 0)
  /-- Host writes of commands executed in ORPHAN that wait for resume: instance, address, words (R345). -/
  heldWrites : List (Nat × Nat × List Word) := []
  staged   : FwImage := {}
  stage    : StageState := .empty
  stageStatus : Byte := 0
  stageReq : Option MbxReq := none
  /-- Processors still to be loaded in boot order, or restarted by an activation, first first. -/
  loads    : List Nat := []
  loadDue  : Nat := 0
  /-- Processors whose restart an activation waits for. -/
  group    : List Nat := []
  bootEnded : Bool := false
  activate : Option MbxReq := none
  update   : Option CoreUpdate := none
  lease    : LeaseState := .inactive
  periodMs : Nat := 1000
  expiry   : Nat := 0
  orphan   : OrphanRecord := {}
  /-- ORPHAN_RESET whose reply waits for the end of the sequences. -/
  orphanReq : Option MbxReq := none
  trace    : BitVec 256 := 0
  freeze   : BitVec 256 := 0
  hits     : Word := 0
  /-- Log records that each processor has written (SEQ, R350). -/
  logSeq   : Tbl Word := []
  deriving DecidableEq, Repr

/-- Why the sequencer has stopped for a machine check, with the address in the read-back (R359). -/
structure Mchk where
  addr : Nat
  deriving DecidableEq, Repr

/-- OPEN_LOAD being verified (R362): whom it answers, KEEP, the image, and the status that its words fail with once the
signatures are good. -/
structure OpenLoad where
  req   : MbxReq
  keep  : Dword
  image : OpenImage
  sig   : SigBlock
  fail  : Option Byte
  deriving DecidableEq, Repr

/-- A write in the commit buffer (R358): bytes of a Comb entry, by its handle, or a word of the open scratch. -/
inductive MicroWrite where
  | comb (handle : Word) (off bytes value : Nat)
  | scratch (index : Nat) (value : Word)
  deriving DecidableEq, Repr

/-- The sequencer (R355–R358): m1 to m31, flags, condition latch, call stack, commit buffer, packet buffer, RESULT words.
It holds what the last open routine left. -/
structure Micro where
  m         : Tbl Dword := []
  z         : Bool := false
  n         : Bool := false
  c         : Bool := false
  v         : Bool := false
  stale     : Bool := false
  active    : Bool := false
  poison    : Bool := false
  svcFail   : Bool := false
  stack     : List Nat := []
  staged    : List MicroWrite := []
  buf       : List Word := []
  results   : List Word := []
  /-- LAST has executed. -/
  committed : Bool := false
  deriving DecidableEq, Repr

/-- The control store and its sequencer (R355–R365). Words 0x0000–0x2FFF are the RUNNING image's microcode and stand as
free values once loaded; the open region's words are data. -/
structure CtlStore where
  loaded    : Bool := false
  open_     : Option OpenImage := none
  /-- OPEN_LOAD being verified (R362). -/
  openReq   : Option OpenLoad := none
  cleared   : Bool := false
  keep      : Dword := 0
  halted    : Bool := false
  /-- A machine check's rewritten word is being read back. -/
  readback  : Option Mchk := none
  /-- The XLATE handler runs: instance and page of the translation that it waits for (R360). -/
  trap      : Option (Nat × Nat) := none
  /-- URGENT traps held while that handler runs, and whether one of them is a squash of the interrupted command (R360). -/
  heldTraps : Nat := 0
  heldSquash : Bool := false
  /-- An open routine that has run past its limit and is to be stopped: its source and whether LAST executed. -/
  overrun      : Option (Src × Bool) := none
  pc        : Nat := 0
  /-- The last word executed was one of the microcode's, whose addresses the spec does not give. -/
  pcMicro   : Bool := false
  micro     : Micro := {}
  mchkCause : Nat := 0
  mchkAddr  : Nat := 0
  mchkMask  : Nat := 0
  traps     : Word := 0
  deriving DecidableEq, Repr

end Sys2Proof.Machine
end

