-- ==== Sys2Proof/Machine/Parts/Guard.lean ====
section
/-!
DEFINITION. The state of the guard core (spec/18). Secret keys that random values make are named by what put them in
place, not by value: no register and no processor outside the boundary reads one (R394).
-/

namespace Sys2Proof.Machine

/-- Why a zeroisation runs, and who waits for it (R400). -/
inductive ZeroCause where
  | seal | zeroize | lifecycle | freeze
  deriving DecidableEq, Repr

/-- A fuse burn in progress (R398, R402): the lifecycle code or the MIN that it burns, and whether it is the retry. -/
inductive BurnKind where
  | lifecycle (target : Nat)
  | min (svn : Nat)
  deriving DecidableEq, Repr

structure Burn where
  kind  : BurnKind
  retry : Bool := false
  /-- The mailbox request answered when the burn ends. -/
  req   : Option MbxReq := none
  deriving DecidableEq, Repr

/-- A swarm key, or a link key derived from one: epoch and its 32 bytes as words (R406, R407). -/
structure SwarmKey where
  epoch : Half
  key   : List Word
  deriving DecidableEq, Repr

/-- An open SPDM session: function, and whether FINISH has completed it (R403). -/
structure Session where
  fn       : Nat
  id       : Word
  finished : Bool := false
  deriving DecidableEq, Repr

/-- An IDE key in the PCIe controller (R405): stream, sub-stream and key set. -/
structure IdeKey where
  stream : Nat
  sub    : Nat
  set    : Nat
  going  : Bool := false
  deriving DecidableEq, Repr

/-- The guard core. -/
structure Guard where
  postDone  : Bool := false
  postPass  : Bool := false
  postBits  : BitVec 10 := 0
  zeroized  : Bool := false
  openHash  : Option (List Word) := none
  /-- Lifecycle code decoded from the fuse map, MIN, FW_HASH fused and revoked bits, and the UID (R397, R410). -/
  lifecycle : Nat := 0
  min       : Nat := 0
  fused     : BitVec 4 := 0
  revoked   : BitVec 4 := 0
  uid       : Dword := 0
  current   : Option SwarmKey := none
  previous  : Option SwarmKey := none
  waiting   : Option SwarmKey := none
  activateAt : Dword := 0
  sessions  : List Session := []
  /-- Start-up tests run on demand, for the request they answer; the time of the retest after a failure. -/
  testing   : Option MbxReq := none
  retestAt  : Option Nat := none
  /-- The zeroisation in progress, with the request that ZEROIZE answers. -/
  zero      : Option (ZeroCause × Option MbxReq) := none
  burn      : Option Burn := none
  /-- Burns that wait for it. -/
  burns     : List Burn := []
  /-- DEVICE, ALIAS and DRBG hold a value; UDS is read-blocked. -/
  deviceKey : Bool := false
  aliasKey  : Bool := false
  drbg      : Bool := false
  udsBlocked : Bool := false
  ide       : List IdeKey := []
  /-- Memory keys in place, by KEYID, with the count of the generation that made each (R408). -/
  memKeys   : Tbl Nat := []
  keyGens   : Nat := 0
  /-- Link keys in place: port and epoch (R407); derivation owed since an activation during a restart. -/
  linkKeys  : Tbl SwarmKey := []
  linkDue   : Bool := false
  /-- Negotiated with each function (R403). -/
  negotiated : Tbl Algorithms := []
  deriving DecidableEq, Repr

end Sys2Proof.Machine
end

