-- ==== Sys2Proof/Machine/Parts/Power.lean ====
section
/-!
DEFINITION. The state of reset, power, thermal logic, freeze and TAP (spec/19 R411–R431, spec/20), and what the fuse
map gave (R10–R14, R415).
-/

namespace Sys2Proof.Machine

/-- Where reset and bring-up stand (R412, R434). -/
inductive ResetPhase where
  | inReset | released | up | heldOff
  deriving DecidableEq, Repr

/-- Power states (R437). -/
inductive PwrState where
  | run | sleepEntry | sleeping | waking
  deriving DecidableEq, Repr

/-- One brood stack in the thermal logic (R441). -/
structure StackThm where
  stkHot  : Bool := false
  stkCrit : Bool := false
  hot     : Bool := false
  deferred : Bool := false
  /-- Once cleared, DEFER does not set again before STK_HOT falls. -/
  blocked : Bool := false
  deferEnd : Nat := 0
  /-- Timebase ns since which both inputs have stayed low, while HOT holds. -/
  lowSince : Option Nat := none
  thr     : Bool := false
  deriving DecidableEq, Repr

/-- Cause of a freeze (R442, chain 0x0000). -/
inductive FreezeCause where
  | pin
  | waggle (point : Nat)
  deriving DecidableEq, Repr

/-- A freeze in progress (R442–R444). -/
structure Freeze where
  cause    : FreezeCause
  captured : Bool
  /-- Counter at capture, 96 bits. -/
  counter  : BitVec 96
  lowSeen  : Bool := false
  /-- TB_REF cycle in which it was taken. -/
  takenAt  : Nat := 0
  zeroed   : Bool := false
  deriving DecidableEq, Repr

/-- What the fuse map gave (R10–R14). -/
structure FuseFacts where
  /-- Global clusters present, in ascending order: their place is the number software uses (R10). -/
  words   : List Word := []
  deriving DecidableEq, Repr

/-- Reset, power, thermal, freeze and TAP state. -/
structure Power where
  /-- BAR reads that a freeze holds, in their order, by function (R418, R454). -/
  heldReads : List (Nat × BarRead) := []
  phase     : ResetPhase := .inReset
  attempts  : Nat := 0
  fuses     : FuseFacts := {}
  /-- Soft reset in progress: Timebase ns at which its wait ends (R433). -/
  softDue   : Option Nat := none
  st        : PwrState := .run
  /-- A wake event met in SLEEP_ENTRY (R437). -/
  wakeSeen  : Bool := false
  refused   : Bool := false
  reason    : Nat := 0
  /-- The retained state of the interrupt controller and the rest passed its check and WAKING waits for processors. -/
  restored  : Bool := false
  stackSet    : Tbl StackThm := []
  thrDie    : BitVec 4 := 0
  freeze    : Option Freeze := none
  /-- FREEZE_IN_N fell during the fuse-map read (R431). -/
  freezeWaits : Bool := false
  /-- FREEZE_IN_N samples. -/
  ir        : Nat := 0
  chain     : Nat := 0
  deriving DecidableEq, Repr

end Sys2Proof.Machine
end

