-- ==== Sys2Proof/Machine/Parts/Sched.lean ====
section
/-!
DEFINITION. The state of the scheduler (spec/08): partitions with their slots and spares, contexts with their steps,
save records and eviction maps, and the bandwidth regulators.
-/

namespace Sys2Proof.Machine

/-- State of a context slot (SCH_P_SLOT, R203). -/
inductive SlotState where
  | empty | loading | resident | saving
  deriving DecidableEq, Repr

/-- State of a context (R203). -/
inductive CtxState where
  | free | swapped | loading | resident | saving | faulted
  deriving DecidableEq, Repr

/-- Condition of a resident context (R204). -/
inductive Cond where
  | idle | runnable | local | page | host | swarm | hold
  /-- Every command of the dispatched step is issued and none of the other conditions holds: shown as RUNNABLE, and no
  reason to keep the issuing slot (DESIGN CHOICE, log 19). -/
  | drained
  deriving DecidableEq, Repr

/-- Roles of a serving partition (R106). -/
inductive Role where
  | main | draft | fallback
  deriving DecidableEq, Repr

/-- What composed a step: RUN_STEP of a training context, the composer for a role, or a cyclic slot. -/
inductive StepOrigin where
  | run
  | serving (partition : Nat) (role : Role)
  | cyclic (table slot : Nat)
  deriving DecidableEq, Repr

/-- A completion record (R85). -/
structure CompletionRec where
  agent      : Nat
  launch     : Nat
  status     : Byte
  refused    : Bool := false
  packed     : Bool := false
  retried    : Bool := false
  stepSeq    : Word := 0
  commands   : Nat := 0
  firstFault : Byte := 0
  core       : Nat := 0
  deriving DecidableEq, Repr

/-- The 16 bytes of a completion record (R85). They have no place for LAUNCH_ID, which R59 copies into completion records:
the record names its launch by index only (DESIGN CHOICE, log 59). -/
def CompletionRec.words (r : CompletionRec) : List Word :=
  [Word.mk (r.launch * 2 ^ 16 + r.status.toNat * 2 ^ 8 + bitAt 2 r.refused + bitAt 1 r.packed + bitAt 0 r.retried),
   r.stepSeq, Word.mk r.commands, Word.mk (r.firstFault.toNat * 2 ^ 24 + r.core % 2048)]

/-- A step ready or dispatched: from RUN_STEP (R308, R234), from the composer (R113) or from a cyclic slot (R230). -/
structure Step where
  seq      : Word := 0
  context  : Nat := 0
  origin   : StepOrigin := .run
  /-- Step number of RUN_STEP (R308). -/
  number   : Word := 0
  program  : Dword := 0
  estNs    : Nat := 0
  /-- Long operation that RUN_STEP opened, if any. -/
  op       : Option Nat := none
  deps     : List (Nat × Word) := []
  windowNs : Nat := 0
  startTime : Nat := 0
  t0       : Nat := 0
  timing   : Dword := 0
  timingCount : Nat := 0
  /-- The timing list once an agent has read it (R234): launch and start. -/
  timed    : List (Nat × Nat) := []
  group    : Nat := 0
  swarmStep : Dword := 0
  hostSrc  : Dword := 0
  hostDst  : Dword := 0
  hostLen  : Dword := 0
  /-- The host copy of R308 still runs. -/
  copying  : Bool := false
  /-- The start time or slot start has been reached: the step is band 8 (R206). -/
  released : Bool := false
  /-- A carried step's next S lies within TB_LEAD_NS: its context is loaded for it (R230). -/
  called   : Bool := false
  /-- S of the occurrence at which a carried step goes on, until its slot issues again (R233). -/
  resumes  : Option Nat := none
  /-- Timed launches whose start has been reached. -/
  begun    : List Nat := []
  /-- Cores on which the first command of a launch has issued, by launch (R230, R235). -/
  starts   : Tbl (List Nat) := []
  stallOnly : Bool := false
  /-- SUMMARY of the program: its last launches write shard summaries for the Sampler (R57, R58). -/
  summary  : Bool := false
  launches : Nat := 0
  dispatchedAt : Nat := 0
  /-- Agents dispatched to, and those whose end-of-step record is still awaited (R19). -/
  agents   : List Nat := []
  awaiting : List Nat := []
  /-- Completion records taken (R85). -/
  records  : List CompletionRec := []
  /-- A status that ends the step whatever its launches say (fence, reset, poison of a record). -/
  forced   : Option Byte := none
  /-- Launches whose end the hub itself decides: index and status (R250, R251, R373). -/
  ends     : List (Nat × Byte) := []
  stopSent : Bool := false
  deriving DecidableEq, Repr

/-- Save record of one core of a context (R202, frame 0), as data. -/
structure SaveRec where
  stepSeq  : Word := 0
  stepHeld : Bool := false
  passOpen : Bool := false
  acc0     : Bool := false
  acc1     : Bool := false
  counters : Tbl (BitVec 48) := []
  base     : Tbl (BitVec 48) := []
  /-- Cursor of each engine queue: launch and command index. -/
  cursors  : Tbl (Nat × Nat) := []
  /-- The engine banks saved, by the name of their contents (ENGINE, R202). -/
  banks    : Nat := 0
  deriving DecidableEq, Repr

/-- A context (R199–R204). -/
structure Context where
  st        : CtxState := .free
  partition : Nat := 0
  inst      : Nat := 0
  prio      : Nat := 0
  sliceUs   : Nat := 0
  /-- PRIO and SLICE_US written by CONTEXT_SET and applied at the next slice (R199). -/
  nextSet   : Option (Nat × Nat) := none
  slot      : Nat := 0
  role      : Option Role := none
  loadedOnce : Bool := false
  destroying : Bool := false
  cond      : Cond := .idle
  condSince : Nat := 0
  readySince : Nat := 0
  dispatched : Option Step := none
  queued    : List Step := []
  /-- Last step number given, and ENDED (R308). -/
  lastNo    : Word := 0
  endedNo   : Word := 0
  recs      : Tbl SaveRec := []
  /-- Eviction map: global core × 4 096 + granule to the frame (pool × 2^32 + serial) × 16 + sub (R202). -/
  evicted   : Tbl Nat := []
  /-- Frames of the save records, by global core: frame 0 and those of the accumulator sets 0 and 1 (R202). -/
  frames    : Tbl (List (Nat × Nat)) := []
  deriving DecidableEq, Repr

/-- RATE and BURST of one regulator class (R215). -/
structure BwrSet where
  rate  : Nat := 0
  burst : Nat := 0
  deriving DecidableEq, Repr

/-- A partition (R196–R198, R205–R213). -/
structure Partition where
  inst     : Nat := 0
  wide     : Bool := false
  qcs      : List Nat := []
  spares   : List Nat := []
  revision : Byte := 0
  slots    : Tbl (SlotState × Nat) := []
  issuing  : Option Nat := none
  lastSlot : Nat := 3
  sliceEnd : Nat := 0
  /-- Slots whose queued commands drain after their slice (R206), with the cc count since which they do. -/
  draining : Tbl Nat := []
  /-- A boundary wait is held (R212) for the slot, with the Timebase ns of the next test. -/
  waiting  : Option (Nat × Nat) := none
  ratio    : Nat := 256
  preempts : Word := 0
  bwaits   : Word := 0
  swaps    : Word := 0
  marked   : Word := 0
  late     : Word := 0
  brood    : BwrSet := {}
  super    : BwrSet := {}
  link     : BwrSet := {}
  held     : Word := 0
  /-- The agents still to report a preempted slot stopped (R210), with the slot that takes over. -/
  stopping : List Nat := []
  stopSlot : Nat := 0
  takeover : Option Nat := none
  deriving DecidableEq, Repr

/-- The scheduler. Quarter-clusters in no partition and not withheld are the free pool. -/
structure Sched where
  parts    : Tbl Partition := []
  ctxs     : Tbl Context := []
  /-- Quarter-clusters that left a partition with a fenced core, with the partition they left (R198). -/
  left     : Tbl Nat := []
  nextSeq  : Word := 1
  rebuilding : Bool := false
  /-- Port buckets: partition × 256 + port to tokens in bytes, and the rate and depth each port holds (R215, R216). -/
  buckets  : Tbl Int := []
  portSet  : Tbl (Nat × Nat) := []
  /-- Refills that each port, by class × 256 + port, has made since reset (R216). -/
  refills  : Tbl Nat := []
  deriving DecidableEq, Repr

end Sys2Proof.Machine
end

