-- ==== Sys2Proof/Machine/Parts/Sample.lean ====
section
/-!
DEFINITION. The state of the Sampler (spec/06): bindings, tables, automata, and the rows it holds.
-/

namespace Sys2Proof.Machine

/-- A sample binding (R136). -/
structure SampleBinding where
  vocab     : Nat
  width     : Nat
  sumBase   : Dword
  rowsMax   : Nat
  logitBase : Dword
  lfmt      : Nat
  penWindow : Nat
  deriving DecidableEq, Repr

/-- A table of the directory of R140: bias entries (R141) or stop sequences (R142). -/
inductive TableBody where
  | bias (entries : List (Nat × Word)) (positive : Bool)
  | stop (seqs : List (List Nat))
  deriving DecidableEq, Repr

structure SampleTable where
  inst : Nat
  body : TableBody
  deriving DecidableEq, Repr

/-- A state record of an automaton (R143). -/
structure AutState where
  maskRow  : Nat
  dflt     : Nat
  excFirst : Nat
  excCount : Nat
  isEnd    : Bool
  deriving DecidableEq, Repr

/-- A grammar automaton (R143). A mask row is a number whose bit t is 1 when token t is allowed. -/
structure Automaton where
  inst   : Nat
  vocab  : Nat
  start  : Nat
  /-- Byte offset of its mask rows. -/
  maskAt : Nat := 0
  bytes  : Nat := 0
  states : List AutState
  masks  : List Nat
  excs   : List (Nat × Nat)
  deriving DecidableEq, Repr

/-- Where a sample row stands (R149, R155, R170): `held` and `scanHeld` wait for a table page before the pipeline and in
full-scan. -/
inductive RowStage where
  | pipeline | scan | held | scanHeld
  deriving DecidableEq, Repr

/-- A sample row held by the Sampler (R135): its step, its member's place and its number within the member. -/
structure SampleRow where
  partition : Nat
  kind      : Nat
  member    : Nat
  row       : Nat
  stage     : RowStage := .pipeline
  deriving DecidableEq, Repr

/-- A token appended in a step and not yet written into the entry by the step end (R163–R166). -/
structure Drawn where
  token   : Nat
  logprob : Half
  flags   : Nat
  /-- Timebase ns at the draw (R166 TIME). -/
  ns      : Nat
  deriving DecidableEq, Repr

/-- What the Sampler has drawn for one member so far in its step. -/
structure MemberDraw where
  partition : Nat
  kind      : Nat
  member    : Nat
  drawn     : List Drawn := []
  reason    : Byte := 0
  autState  : Nat := 0
  deriving DecidableEq, Repr

/-- One draft of a speculative round as the Sampler keeps it (R159, R160): token, q list and automaton state. -/
structure DraftQ where
  token : Nat
  q     : List (Nat × Nat)
  aut   : Nat
  deriving DecidableEq, Repr

/-- The Sampler. Bindings are keyed partition × 4 + role code. -/
structure Sampler where
  bindings : Tbl SampleBinding := []
  tables   : Tbl SampleTable := []
  automata : Tbl Automaton := []
  rows     : List SampleRow := []
  draws    : List MemberDraw := []
  /-- Draft storage by Comb index (R160). -/
  rounds   : Tbl (List DraftQ) := []
  deriving DecidableEq, Repr

end Sys2Proof.Machine
end

