-- ==== Sys2Proof/Machine/Parts/Serve.lean ====
section
/-!
DEFINITION. The state of the step composer (spec/05): bindings, lists, forecast, committed steps, draft group and the
statistics that STEP_P_ shows.
-/

namespace Sys2Proof.Machine

/-- One step program of a role (R106 VARIANTS). -/
structure Variant where
  program : Dword
  seqs    : Nat
  toks    : Nat
  deriving DecidableEq, Repr

/-- The binding of a role (R106). -/
structure RoleBinding where
  model    : Nat
  variants : List Variant
  mtBase   : Dword
  tFixedNs : Nat
  tTokPs   : Nat
  tCtxPs   : Nat
  context  : Nat
  /-- SERVE_UNBIND accepted: no further step is committed (R107). -/
  unbinding : Bool := false
  deriving DecidableEq, Repr

/-- The fields that only MAIN carries (R106). -/
structure MainParams where
  maxSeqs      : Nat := 0
  budget       : Nat := 0
  chunkMax     : Nat := 0
  seqRes       : Nat := 0
  balance      : Nat := 0
  dlFrac       : Nat := 0
  tmaxUs       : Nat := 0
  commitWaitUs : Nat := 0
  specDepth    : Nat := 0
  idleMs       : Nat := 0
  prefixW      : Nat := 0
  deriving DecidableEq, Repr

/-- The pager's report on a forecast member (R112, R184). -/
inductive Report where
  | none | ready | late
  deriving DecidableEq, Repr

/-- A member of a forecast or of a committed step (R111, R113, R120). -/
structure Member where
  index    : Nat
  gen      : BitVec 14
  startPos : Nat
  nTok     : Nat
  charge   : Nat
  sample   : Bool
  verify   : Bool
  specD    : Nat
  decode   : Bool
  homeDie  : Nat
  marked   : Bool := false
  report   : Report := .none
  /-- The Sampler or the composer has written this member's step end (R164). -/
  ended    : Bool := false
  deriving DecidableEq, Repr

/-- What a composed step is (R120 KIND). -/
inductive StepKind where
  | batch | draft | fallback
  deriving DecidableEq, Repr

/-- A committed step of a serving partition. -/
structure ServeStep where
  seq      : Word
  kind     : StepKind
  members  : List Member
  variant  : Nat
  estNs    : Nat
  tokens   : Nat
  draftK   : Nat := 0
  /-- The sample binding in force at the commit, kept to the step's end (R137). -/
  smp      : Option SampleBinding := none
  /-- Set when the step's records are all in (R19), with its status. -/
  status   : Option Byte := none
  deriving DecidableEq, Repr

/-- A speculative round of one stream (R123): its depth and the drafts drawn so far. -/
structure Round where
  index  : Nat
  /-- Its entry of the round table (R124). -/
  entry  : Nat
  d      : Nat
  drafts : List Nat := []
  /-- Draft steps finished for this member; a verify candidate once all are. -/
  done   : Bool := false
  deriving DecidableEq, Repr

/-- The composer's state of one partition. -/
structure ServePart where
  main     : Option RoleBinding := none
  draft    : Option RoleBinding := none
  fallback : Option RoleBinding := none
  mp       : MainParams := {}
  /-- Paging geometry of R172; zero where PAGE_GEOM has not set one. -/
  geomP    : Nat := 0
  geomG    : Nat := 0
  /-- Queues by band, and parked lists by home die (R110), each from head to tail. -/
  decodeQ  : Tbl (List Nat) := []
  prefillQ : Tbl (List Nat) := []
  parkedQ  : Tbl (List Nat) := []
  /-- The held forecast of the next step, and whether one is due. -/
  forecast : Option (List Member) := none
  forecastDue : Bool := false
  /-- A stream has entered READY since the last forecast began: a candidate from the next one on (R114). -/
  fresh : Bool := false
  /-- Timebase time at which the first event of R113 was met. -/
  firstEvent : Option Nat := none
  batch    : Option ServeStep := none
  fbStep   : Option ServeStep := none
  drStep   : Option ServeStep := none
  rounds   : List Round := []
  draftK   : Nat := 0
  /-- Members deferred by a commit that kept none (R114). -/
  deferred : List Nat := []
  /-- Timebase time of the pager's last report on the held forecast (R113). -/
  reportAt : Nat := 0
  lastSeq  : Word := 0
  lastMembers : Nat := 0
  lastDeferred : Nat := 0
  lastTokens : Nat := 0
  lastEst  : Word := 0
  steps    : Word := 0
  dormant  : Word := 0
  deriving DecidableEq, Repr

/-- A change to a stream held until its running step ends (R30): a STREAM_SET with its SELECT mask, a PREFIX_CREATE with
its length and the id it was given, the loss of its token log (R190). -/
inductive Deferred where
  | set (select : Word) (p : StreamParams)
  | mkPrefix (len : Nat) (id : Nat)
  /-- The device address of the last frame lost. -/
  | logLost (addr : Nat)
  deriving DecidableEq, Repr

/-- Is a change the making of prefix `id`? -/
def Deferred.makes (id : Nat) : Deferred → Bool
  | .mkPrefix _ k => k == id
  | _ => false

/-- Is a change the loss of the stream's log or lists? -/
def Deferred.lost : Deferred → Option Nat
  | .logLost a => some a
  | _ => none

/-- The composer. -/
structure Composer where
  parts   : Tbl ServePart := []
  /-- Changes held until a stream's step end, by Comb index (R30). -/
  pend    : Tbl (List Deferred) := []
  /-- Streams in the order of their last parking, oldest first (R181); those no longer PARKED are skipped. -/
  parkOrder : List Nat := []
  /-- Partitions whose forecast is due, in the order in which it fell due (R132). -/
  fcOrder : List Nat := []
  /-- Round-table entries in use device-wide, ascending (R124). -/
  rounds  : List Nat := []
  /-- STEP_P_STATE.HOLD by die, the same for every partition (R129). -/
  hold    : Tbl Bool := []
  /-- Die whose pressure-victim choice runs, and the cc count of its next choice (R129). -/
  victimDue : Tbl Nat := []
  /-- Timebase millisecond of the last idle sweep (R128). -/
  lastSweep : Nat := 0
  deriving DecidableEq, Repr

end Sys2Proof.Machine
end

