-- ==== Sys2Proof/Machine/Parts/Swarm.lean ====
section
/-!
DEFINITION. The state of the Swarm Port (spec/10): the membership and group tables, sequence and replay state, rate
buckets, kept announcements, remote-command slots, requests and second copies.
-/

namespace Sys2Proof.Machine

/-- States of a membership entry (R242). -/
inductive MemberState where
  | empty | joining | up | suspect | absent | barred
  deriving DecidableEq, Repr

/-- A ticket of a member with its stored result (R248): none while the command runs. -/
structure Ticket where
  ticket : Word
  result : Option (Byte × List Word) := none
  deriving DecidableEq, Repr

/-- A membership entry with what the port keeps for the member (R241, R242, R245, R252). -/
structure SwarmMember where
  st       : MemberState := .empty
  chipId   : Dword := 0
  domain   : Word := 0
  permit   : BitVec 3 := 0
  inst     : BitVec 6 := 0
  rate     : Byte := 0
  burst    : Byte := 0
  /-- HIGH and the map of HIGH − 63 to HIGH, bit n for HIGH − n (R245). -/
  high     : Dword := 0
  map      : Dword := 0
  /-- Packets sent to the member since the sequence count began (R246). -/
  sent     : Nat := 0
  /-- The bucket in millionths of a packet, and the Timebase ns of its last refill (R245). -/
  bucket   : Nat := 0
  bucketAt : Nat := 0
  /-- Timebase ns of the last accepted packet, or of the start of the absence timer. -/
  heardAt  : Nat := 0
  /-- In the present heartbeat period: a packet was sent, one was accepted, a window was missed. -/
  sentNow  : Bool := false
  heardNow : Bool := false
  missNow  : Bool := false
  /-- Consecutive good heartbeat periods in SUSPECT. -/
  goodRun  : Nat := 0
  /-- θ and δ of the last exchange, in ns. -/
  theta    : Word := 0
  delta    : Int := 0
  skew     : Bool := false
  traceable : Bool := false
  peerTb   : BitVec 3 := 0
  drops    : Word := 0
  /-- T1 of the exchanges without a reply yet (R252). -/
  exchanges : List Nat := []
  /-- Timebase ns at which the next exchange falls due, this member's part of the period in ns, and the start of the last
  exchange (R252). -/
  ttAt     : Nat := 0
  ttPart   : Nat := 0
  ttRun    : Option Nat := none
  /-- The last 64 tickets, newest first (R248). -/
  tickets  : List Ticket := []
  deriving DecidableEq, Repr

/-- An announcement or abandonment kept until its step is dispatched (R250, R251). -/
inductive KeptBody where
  | announce (t0 windowNs timed : Nat)
  | abandon
  deriving DecidableEq, Repr

structure Kept where
  member    : Nat
  swarmStep : Dword
  body      : KeptBody
  deriving DecidableEq, Repr

/-- Slips accepted for one step from one member (R236, R248). -/
structure SlipRec where
  swarmStep : Dword
  member    : Nat
  serials   : List Nat
  sumNs     : Nat
  deriving DecidableEq, Repr

/-- A remote-command slot (R253). -/
structure RemoteSlot where
  member  : Nat
  ticket  : Word
  frags   : Nat
  got     : Tbl (List Word)
  firstAt : Nat
  /-- The assembled command, once every fragment has arrived, and whether it runs. -/
  entry   : Option (List Word) := none
  running : Bool := false
  /-- Its place in the order in which commands have arrived whole. -/
  order   : Nat := 0
  deriving DecidableEq, Repr

/-- A packet queued for sending, with its LAUNCH_AT (R249). -/
structure Queued where
  member   : Nat
  type     : Nat
  launchAt : Nat
  payload  : List Word
  deriving DecidableEq, Repr

/-- A request of this chip awaiting its response (R248): a TICKET, sent again up to 3 times. -/
structure Request where
  member  : Nat
  type    : Nat
  ticket  : Word
  payload : List Word
  sentAt  : Nat
  tries   : Nat := 0
  /-- Context a capping request belongs to. -/
  context : Nat := 0
  deriving DecidableEq, Repr

/-- A second copy due 10 µs after the first (R248, R273). -/
structure SecondCopy where
  member  : Nat
  type    : Nat
  payload : List Word
  due     : Nat
  deriving DecidableEq, Repr

/-- A member's contribution to a collective launch has arrived (R251, R424). -/
structure Arrival where
  context : Nat
  launch  : Nat
  member  : Nat
  deriving DecidableEq, Repr

/-- The Swarm Port. -/
structure Swarm where
  self      : Option (Nat × Dword × Word) := none
  members   : Tbl SwarmMember := []
  groups    : Tbl (List Nat) := []
  /-- SEQ base: 4 × the Timebase ns at which EN first became 1 (R246). -/
  seqBase   : Option Nat := none
  kept      : List Kept := []
  slips     : List SlipRec := []
  /-- Abandonments applied, by member and SWARM_STEP (R248). -/
  abandoned : List (Nat × Dword) := []
  /-- Steps of a swarm that have ended here: what comes for them later is ignored (R236, R251). -/
  overrun      : List Dword := []
  slots     : Tbl RemoteSlot := []
  /-- Remote commands that have arrived whole (R253). -/
  arrived   : Nat := 0
  /-- Packets queued for sending, in the order queued (R249). -/
  sendq     : List Queued := []
  requests  : List Request := []
  copies    : List SecondCopy := []
  nextTicket : Word := 1
  /-- Serial of the last slip sent per SWARM_STEP (R248). -/
  slipSerial : List (Dword × Nat) := []
  arrivals  : List Arrival := []
  hbAt      : Nat := 0
  deriving DecidableEq, Repr

end Sys2Proof.Machine
end

