-- ==== Sys2Proof/Machine/Parts/Time.lean ====
section
/-!
DEFINITION. The state of the Timebase and of the cyclic tables (spec/09).
-/

namespace Sys2Proof.Machine

/-- Lock state of the Timebase (R224). -/
inductive LockState where
  | freeRun | acquiring | locked | holdover | expired
  deriving DecidableEq, Repr

/-- The Timebase (R220–R226). -/
structure Timebase where
  /-- 96-bit counter: nanoseconds above a 32-bit fraction (R220). -/
  ctr       : BitVec 96 := 0
  /-- TB_INCR, 8.32 bits, and its nominal value is the integration's. -/
  incr      : BitVec 40
  r         : Int := 0
  c         : Int := 0
  err       : Int := 0
  lock      : LockState := .freeRun
  lockCount : Nat := 0
  /-- Candidate edge of ACQUIRING, and whether the acquisition has stepped the counter. -/
  candidate : Option Int := none
  acquired  : Bool := false
  /-- r after each of the last 16 accepted edges, newest first (R224). -/
  rHist     : List Int := []
  /-- Second marked by the last accepted edge, and consecutive seconds missed since. -/
  lastSec   : Nat := 0
  missed    : Nat := 0
  /-- Last second whose miss has been taken. -/
  missSec   : Nat := 0
  /-- Consecutive consistent extra edges, and the last of them. -/
  extraRun  : Nat := 0
  lastExtra : Option Int := none
  todSet    : Bool := false
  capHi     : Word := 0
  capFrac   : Word := 0
  deriving DecidableEq, Repr

/-- Overrun policy of a slot (R227, R232). -/
inductive SlotPolicy where
  | preempt | slip | abort
  deriving DecidableEq, Repr

/-- A slot of a cyclic table image (R227). -/
structure CycSlot where
  en      : Bool
  policy  : SlotPolicy
  context : Nat
  offset  : Nat
  guardUs : Nat
  length  : Nat
  program : Dword
  deriving DecidableEq, Repr

/-- An image of a cyclic table. -/
structure CycImage where
  cycleNs : Nat
  phaseNs : Nat
  slots   : List CycSlot
  /-- The partition of the contexts that the enabled slots name (R228). -/
  part    : Nat := 0
  deriving DecidableEq, Repr

/-- What a slot has done (CYC_S_ registers, R240) and where its occurrence of this cycle stands. -/
structure SlotRun where
  lastStatus : Byte := 0
  carried    : Bool := false
  slipped    : Bool := false
  guardUsed  : Bool := false
  runs       : Word := 0
  overruns   : Word := 0
  lastEnd    : Word := 0
  slip       : Nat := 0
  /-- Step sequence number of the occurrence in progress, its S and its deadline. -/
  seq        : Option Word := none
  startS     : Nat := 0
  deadline   : Nat := 0
  /-- The next occurrence has been led, with the sequence number of the step then queued (none: a carried step). -/
  led        : Bool := false
  ledSeq     : Option Word := none
  begun      : Bool := false
  done       : Bool := false
  overran    : Bool := false
  deriving DecidableEq, Repr

/-- State of a cyclic table (R229). -/
inductive CycState where
  | empty | loaded | armed | running | stopping
  deriving DecidableEq, Repr

/-- A cyclic table. -/
structure CycTable where
  st        : CycState := .empty
  inst      : Nat := 0
  partition : Nat := 0
  image     : CycImage := { cycleNs := 0, phaseNs := 0, slots := [] }
  shadow    : Option CycImage := none
  start     : Nat := 0
  /-- Boundary that began the present cycle. -/
  cycleAt   : Nat := 0
  cycles    : Word := 0
  overruns  : Word := 0
  skips     : Word := 0
  /-- CYC_T_LATE_MAX (R230). -/
  lateMax   : Word := 0
  runs      : Tbl SlotRun := []
  /-- Long operation of CYC_START. -/
  op        : Option Nat := none
  deriving DecidableEq, Repr

end Sys2Proof.Machine
end

