-- ==== Sys2Proof/Machine/FaultTable.lean ====
section
/-!
DEFINITION. The fault sources of every block with the defaults of their fault tables (R54, R88, R104, R133, R170, R194,
R217, R238, R254, R274, R296, R315, R332, R352, R364, R390, R409, R445), as R371 turns them into PRP_F_CFG.
-/

namespace Sys2Proof.Machine

/-- Windows that the fault tables use (R369, R371). -/
inductive FltWindow where
  | none | us1 | s1 | h1
  deriving DecidableEq, Repr

/-- One fault source: block, bit, threshold and window, IRQ mode, MSI mode and MSI_TO, FENCE, HUM, PER_UNIT, and the
bit that its SEVERE latch sets in the same status register, if one is named *_SEVERE. -/
structure FaultSpec where
  block   : Nat
  bit     : Nat
  n       : Nat := 0
  window  : FltWindow := .none
  irq     : Nat := 0
  msi     : Nat := 0
  aim      : Nat := 0
  fence   : Bool := false
  hum     : Bool := false
  perUnit : Bool := false
  sevBit  : Option Nat := none
  deriving DecidableEq, Repr

/-- Sources of the hub's blocks. Block 32 stands for every frame agent's block. Modes are 1 where the table names the
reaction outright and 2 where it stands behind "when severe" (DEDUCED, log 12). -/
def faultSpecs : List FaultSpec :=
  [{ block := 0, bit := 0, n := 255, window := .s1, irq := 2, msi := 2, aim := 1, sevBit := some 2 },
   { block := 0, bit := 1, n := 1, window := .us1, irq := 1, msi := 1, aim := 2 },
   { block := 0, bit := 3, n := 1, window := .us1, irq := 1, msi := 1, aim := 1 },
   { block := 1, bit := 0, n := 4, window := .s1, irq := 1, msi := 1, aim := 0, perUnit := true },
   { block := 1, bit := 1, n := 4, window := .s1, msi := 1, aim := 0, perUnit := true },
   { block := 1, bit := 2, n := 1, window := .us1, msi := 1, aim := 2 },
   { block := 1, bit := 3, n := 1024, window := .s1, msi := 2, aim := 0, perUnit := true },
   { block := 1, bit := 4, n := 1024, window := .s1, msi := 2, aim := 0, perUnit := true },
   { block := 1, bit := 5, n := 64, window := .s1, msi := 2, aim := 1, perUnit := true },
   { block := 2, bit := 0 },
   { block := 2, bit := 1, n := 1, window := .us1, msi := 1, aim := 0 },
   { block := 3, bit := 0, n := 4, window := .h1, irq := 1, msi := 2, aim := 1, sevBit := some 1 },
   { block := 3, bit := 2, n := 1, window := .us1, msi := 1, aim := 1 },
   { block := 3, bit := 3, n := 1, window := .us1, msi := 1, aim := 0 },
   { block := 3, bit := 4, n := 16, window := .s1, msi := 2, aim := 1 },
   { block := 3, bit := 5, n := 1, window := .us1, msi := 1, aim := 1 },
   { block := 4, bit := 0, n := 4, window := .s1, irq := 1, msi := 2, aim := 2 },
   { block := 4, bit := 1, n := 1024, window := .s1, irq := 2, sevBit := some 2 },
   { block := 5, bit := 0, n := 1, window := .us1, irq := 1, msi := 1, aim := 2 },
   { block := 5, bit := 1, n := 64, window := .s1, msi := 2, aim := 0 },
   { block := 5, bit := 2 },
   { block := 5, bit := 3, n := 1, window := .us1, msi := 1, aim := 2 },
   { block := 5, bit := 4, n := 1024, window := .s1, msi := 2, aim := 0 },
   { block := 5, bit := 5, n := 1024, window := .s1, irq := 2 },
   { block := 6, bit := 0, n := 16, window := .h1, irq := 2, msi := 2, aim := 1, sevBit := some 2 },
   { block := 6, bit := 1, n := 1, window := .us1, irq := 1, msi := 1, aim := 2 }] ++
  [{ block := 7, bit := 0, n := 1, window := .us1, irq := 1 },
   { block := 7, bit := 1, n := 1, window := .us1, msi := 1, aim := 1 },
   { block := 7, bit := 2, n := 1, window := .us1, msi := 1, aim := 2 },
   { block := 7, bit := 3, n := 16, window := .h1 },
   { block := 7, bit := 4, n := 1, window := .us1, msi := 1, aim := 0 },
   { block := 7, bit := 5, n := 1024, window := .s1, irq := 2, sevBit := some 6 },
   { block := 7, bit := 7, n := 1, window := .us1, msi := 1, aim := 1 },
   { block := 7, bit := 8, n := 1, window := .us1 },
   { block := 7, bit := 9 },
   { block := 8, bit := 0, n := 16, window := .s1, irq := 2, msi := 2, aim := 2 },
   { block := 8, bit := 1, n := 1, window := .us1, irq := 1, msi := 1, aim := 2 },
   { block := 8, bit := 2, n := 1, window := .us1, irq := 1 },
   { block := 8, bit := 3, n := 1, window := .us1, irq := 1 },
   { block := 8, bit := 4, n := 1024, window := .s1, msi := 2, aim := 0 },
   { block := 8, bit := 5, n := 1024, window := .s1, irq := 2 },
   { block := 8, bit := 6 },
   { block := 9, bit := 0 },
   { block := 9, bit := 1, n := 16, window := .s1, irq := 2, msi := 2, aim := 1, fence := true },
   { block := 9, bit := 2, n := 1, window := .us1, irq := 1, msi := 1, aim := 1 },
   { block := 9, bit := 3, n := 1, window := .us1, msi := 1, aim := 1 },
   { block := 9, bit := 4, n := 1, window := .us1, irq := 1, msi := 1, aim := 1 },
   { block := 9, bit := 5, n := 64, window := .s1, irq := 2 },
   { block := 10, bit := 0, n := 16, window := .s1, msi := 2, aim := 2, perUnit := true, sevBit := some 1 },
   { block := 10, bit := 2, n := 16, window := .s1, irq := 2 },
   { block := 10, bit := 3, n := 64, window := .s1 },
   { block := 10, bit := 4 }] ++
  [{ block := 11, bit := 0, n := 16, window := .s1, irq := 2, msi := 2, aim := 1, fence := true, perUnit := true },
   { block := 11, bit := 1, n := 64, window := .s1, irq := 2, msi := 2, aim := 1, fence := true, perUnit := true },
   { block := 11, bit := 2, n := 4, window := .s1, msi := 1, aim := 1, perUnit := true },
   { block := 11, bit := 3, n := 16, window := .s1, perUnit := true },
   { block := 11, bit := 4, n := 1024, window := .s1, irq := 2, perUnit := true },
   { block := 11, bit := 5, n := 4, window := .s1, irq := 1, msi := 2, aim := 2 },
   { block := 11, bit := 6, n := 1, window := .us1, irq := 1, msi := 1, aim := 1 },
   { block := 11, bit := 7, n := 1, window := .us1, msi := 1, aim := 2 },
   { block := 11, bit := 8 },
   { block := 11, bit := 9 },
   { block := 12, bit := 0, n := 1, window := .us1, irq := 1, msi := 1, aim := 2 },
   { block := 12, bit := 1, n := 1, window := .us1, msi := 1, aim := 0 },
   { block := 12, bit := 2 },
   { block := 12, bit := 3, n := 16, window := .h1, msi := 2, aim := 0 },
   { block := 12, bit := 4, n := 4, window := .h1, irq := 2 },
   { block := 12, bit := 5, n := 1, window := .us1, irq := 1 },
   { block := 12, bit := 6, n := 1, window := .us1, msi := 1, aim := 2 },
   { block := 12, bit := 7, n := 1, window := .us1, msi := 1, aim := 2 },
   { block := 12, bit := 8, n := 1, window := .us1 },
   { block := 13, bit := 0, n := 1, window := .us1, msi := 1, aim := 1 },
   { block := 13, bit := 1, n := 1, window := .us1, msi := 1, aim := 1 },
   { block := 13, bit := 2 },
   { block := 13, bit := 3, n := 1024, window := .s1, msi := 2, aim := 1 },
   { block := 13, bit := 4 },
   { block := 14, bit := 0, msi := 1, aim := 1 },
   { block := 14, bit := 1, n := 1, window := .us1, msi := 1, aim := 1, fence := true },
   { block := 14, bit := 2, n := 1, window := .us1, msi := 1, aim := 1, hum := true },
   { block := 14, bit := 3 },
   { block := 14, bit := 4, n := 1, window := .us1, msi := 1, aim := 1 },
   { block := 14, bit := 5 },
   { block := 14, bit := 6, n := 1, window := .us1, msi := 1, aim := 1, hum := true }] ++
  [{ block := 15, bit := 0, msi := 1, aim := 1 },
   { block := 15, bit := 1, n := 1, window := .us1, msi := 1, aim := 1, hum := true },
   { block := 15, bit := 2, n := 16, window := .s1, irq := 2, msi := 2, aim := 1 },
   { block := 16, bit := 0, n := 1, window := .us1, msi := 1, aim := 1, fence := true, perUnit := true },
   { block := 16, bit := 1 },
   { block := 16, bit := 2, n := 1, window := .us1, msi := 1, aim := 1 },
   { block := 17, bit := 0, n := 1, window := .us1 },
   { block := 17, bit := 1, n := 4, window := .h1, msi := 2, aim := 1 },
   { block := 17, bit := 2, n := 1, window := .us1, msi := 1, aim := 1 },
   { block := 17, bit := 3, n := 16, window := .h1, irq := 1, msi := 2, aim := 1 },
   { block := 17, bit := 4, n := 64, window := .s1, msi := 2, aim := 1, perUnit := true },
   { block := 17, bit := 5, n := 1, window := .us1, msi := 1, aim := 1 },
   { block := 17, bit := 6, n := 1, window := .us1, msi := 1, aim := 1, hum := true },
   { block := 18, bit := 0, n := 64, window := .h1, irq := 1, msi := 2, aim := 1 },
   { block := 18, bit := 1, n := 1, window := .us1, msi := 1, aim := 1 },
   { block := 18, bit := 2 },
   { block := 18, bit := 3 },
   { block := 18, bit := 4 },
   { block := 32, bit := 0 },
   { block := 32, bit := 1 },
   { block := 32, bit := 2, n := 1, window := .us1, irq := 1 },
   { block := 32, bit := 3, n := 4, window := .s1, fence := true, perUnit := true, sevBit := some 6 },
   { block := 32, bit := 4, n := 16, window := .h1 },
   { block := 32, bit := 5, n := 64, window := .s1 }]

/-- The source of a fault id (32 × block + bit), every frame agent sharing block 32's defaults (R366). -/
def faultSpec (id : Nat) : Option FaultSpec :=
  faultSpecs.find? fun f => f.block == (if id / 32 < 32 then id / 32 else 32) && f.bit == id % 32

/-- N, N16 and the window fields of a default (R371); a source not classified has a window of zero (DESIGN CHOICE,
log 12). -/
def FaultSpec.cfg (f : FaultSpec) : Word :=
  let n16 := 255 < f.n
  let n := if n16 then f.n / 16 else f.n
  let wunit := match f.window with | .none => 0 | .us1 => 0 | .s1 => 2 | .h1 => 2
  let wval := match f.window with | .none => 0 | .us1 => 1 | .s1 => 1 | .h1 => 3600
  Word.mk (n * 2 ^ 24 + wunit * 2 ^ 22 + wval * 2 ^ 10 + f.irq * 2 ^ 8 + f.msi * 2 ^ 6 + f.aim * 2 ^ 4 +
    bitAt 3 f.fence + bitAt 2 f.hum + bitAt 1 f.perUnit + bitAt 0 n16)

end Sys2Proof.Machine
end

