-- ==== Sys2Proof/Machine/Registers.lean ====
section
/-!
DEFINITION. The register map of the physical function's BAR0 and of a function page (spec/21, and the register tables
of every chapter): for each register its offset, access, writable bits and reset value, and a name for its offset.
-/

namespace Sys2Proof.Machine

/-- Access of a register (R5). `special` marks a register whose write has more to it than its access code. -/
inductive RegKind where
  | ro | rw | w1c | w1s | wo | rc | special
  deriving DecidableEq, Repr

/-- A run of registers: first offset, how many, their distance, access, writable or clearable bits, reset value. -/
structure RegSpec where
  first  : Nat
  count  : Nat
  stride : Nat
  kind   : RegKind
  mask   : Word
  reset  : Word
  deriving DecidableEq, Repr

def reg (first count stride : Nat) (kind : RegKind) (mask reset : Nat) : RegSpec :=
  { first, count, stride, kind, mask := Word.mk mask, reset := Word.mk reset }

/-! Offsets of the registers, by name. -/

namespace Reg

def msixTable : Nat := 0x000000
def msixPba : Nat := 0x000800
def combCtrl : Nat := 0x040000
def combStatus : Nat := 0x040004
def combFreeCnt : Nat := 0x040008
def combUnusableCnt : Nat := 0x04000C
def combScrubInterval : Nat := 0x040010
def combScrubPasses : Nat := 0x040014
def combInspSel : Nat := 0x040020
def combInspCtrl : Nat := 0x040024
def combInspData : Nat := 0x040040
def combStateCnt : Nat := 0x040180
def combFltSts : Nat := 0x040200
def combFltForce : Nat := 0x040204
def combCeLoc : Nat := 0x040208
def combUeLoc : Nat := 0x04020C
def combStaleCnt : Nat := 0x040210
def combQuotaI : Nat := 0x040400
def combUsedI : Nat := 0x040404
def frmCtrl : Nat := 0x140000
def frmStatus : Nat := 0x140004
def frmPace : Nat := 0x140008
def frmStepSeq : Nat := 0x14000C
def frmLaunch : Nat := 0x140010
def frmCmdCnt : Nat := 0x140014
def frmPackCnt : Nat := 0x140018
def frmRefuseCnt : Nat := 0x14001C
def frmRetryCnt : Nat := 0x140020
def frmBypass : Nat := 0x140040
def frmFltSts : Nat := 0x140080
def frmFltForce : Nat := 0x140084
def frmFltInfo : Nat := 0x140088
def frmFltSeq : Nat := 0x14008C
def frmFltCore : Nat := 0x140090
def frmGateInfo : Nat := 0x140094
def schStallLimit : Nat := 0x060C00
def schWaitFltSts : Nat := 0x060C04
def schWaitFltForce : Nat := 0x060C08
def schWaitToCnt : Nat := 0x060C0C
def schWaitDiag0 : Nat := 0x060C10
def schWaitDiag1 : Nat := 0x060C14
def schWaitDiag2 : Nat := 0x060C18
def schWaitDiag3 : Nat := 0x060C1C
def schWaitDiag4 : Nat := 0x060C20
def schWaitDiag5 : Nat := 0x060C24
def schWaitDiag6 : Nat := 0x060C28
def schWaitDiag7 : Nat := 0x060C2C
def stepCtrl : Nat := 0x050000
def stepPsel : Nat := 0x050004
def stepSpecFree : Nat := 0x050008
def stepPState : Nat := 0x050100
def stepPLimits : Nat := 0x050104
def stepPBudget : Nat := 0x050108
def stepPChunk : Nat := 0x05010C
def stepPBal : Nat := 0x050110
def stepPTmax : Nat := 0x050114
def stepPIdle : Nat := 0x050118
def stepPModel : Nat := 0x05011C
def stepPSeq : Nat := 0x050120
def stepPMembers : Nat := 0x050124
def stepPTokens : Nat := 0x050128
def stepPEst : Nat := 0x05012C
def stepPSteps : Nat := 0x050130
def stepPDormant : Nat := 0x050134
def stepPQdec : Nat := 0x050138
def stepPQpre : Nat := 0x05013C
def stepPHome : Nat := 0x050140
def stepFltSts : Nat := 0x050200
def stepFltForce : Nat := 0x050204
def stepFltInfo : Nat := 0x050208
def stepFltSeq : Nat := 0x05020C
def smpCtrl : Nat := 0x090000
def smpStatus : Nat := 0x090004
def smpRoundBaseLo : Nat := 0x090008
def smpRoundBaseHi : Nat := 0x09000C
def smpRowsCnt : Nat := 0x090010
def smpFullscanCnt : Nat := 0x090014
def smpInexactCnt : Nat := 0x090018
def smpNonfiniteCnt : Nat := 0x09001C
def smpRecDropCnt : Nat := 0x090020
def smpSpecPropCnt : Nat := 0x090024
def smpSpecAccCnt : Nat := 0x090028
def smpQueue : Nat := 0x09002C
def smpBsel : Nat := 0x090040
def smpBVocab : Nat := 0x090044
def smpBSum : Nat := 0x090048
def smpBRows : Nat := 0x09004C
def smpFltSts : Nat := 0x090200
def smpFltForce : Nat := 0x090204
def smpFltInfo : Nat := 0x090208
def smpFltSeq : Nat := 0x09020C
def smpFltHandle : Nat := 0x090210
def pagCtrl : Nat := 0x080000
def pagStatus : Nat := 0x080004
def pagBroodBase : Nat := 0x080008
def pagSuperBase : Nat := 0x08000C
def pagPoolSel : Nat := 0x080010
def pagPoolFirst : Nat := 0x080014
def pagPoolCount : Nat := 0x080018
def pagPoolFree : Nat := 0x08001C
def pagWmLow : Nat := 0x080020
def pagWmMin : Nat := 0x080024
def pagBwCap : Nat := 0x080028
def pagMoveCnt : Nat := 0x080030
def pagLateCnt : Nat := 0x080034
def pagCowCnt : Nat := 0x080038
def pagSharedFree : Nat := 0x08003C
def pagPrefixFree : Nat := 0x080040
def pagRetireFrame : Nat := 0x080060
def pagRetireLevel : Nat := 0x080064
def pagIsel : Nat := 0x080080
def pagIBroodQuota : Nat := 0x080084
def pagIBroodUsed : Nat := 0x080088
def pagISuperQuota : Nat := 0x08008C
def pagISuperUsed : Nat := 0x080090
def pagDlogCtrl : Nat := 0x080094
def pagDlogBaseLo : Nat := 0x080098
def pagDlogBaseHi : Nat := 0x08009C
def pagDlogHead : Nat := 0x0800A0
def pagDlogTail : Nat := 0x0800A4
def pagFltSts : Nat := 0x080200
def pagFltForce : Nat := 0x080204
def pagFltAddrLo : Nat := 0x080208
def pagFltAddrHi : Nat := 0x08020C
def pagFltHandle : Nat := 0x080210
def schCtrl : Nat := 0x060000
def schStatus : Nat := 0x060004
def schParkNs : Nat := 0x060010
def schEvictBpns : Nat := 0x060014
def schSliceDrain : Nat := 0x060018
def schDlSlackNs : Nat := 0x06001C
def schPsel : Nat := 0x060020
def schCsel : Nat := 0x060024
def schPQc : Nat := 0x060100
def schPState : Nat := 0x060110
def schPCores : Nat := 0x060114
def schPSlot : Nat := 0x060120
def schPRatio : Nat := 0x060130
def schPPreempts : Nat := 0x060134
def schPBwaits : Nat := 0x060138
def schPSwaps : Nat := 0x06013C
def schPMarked : Nat := 0x060140
def schPLate : Nat := 0x060144
def schCState : Nat := 0x060200
def schCSeq : Nat := 0x060204
def schCBlockedUs : Nat := 0x060208
def schCEvicted : Nat := 0x06020C
def schFltSts : Nat := 0x060300
def schFltForce : Nat := 0x060304
def schFltInfo : Nat := 0x060308
def schFltSeq : Nat := 0x06030C
def bwrPsel : Nat := 0x070000
def bwrLinkPorts : Nat := 0x070004
def bwrPBrood : Nat := 0x070010
def bwrPSuper : Nat := 0x070014
def bwrPLink : Nat := 0x070018
def bwrPHeld : Nat := 0x070020
def tbCtrl : Nat := 0x0A0000
def tbStatus : Nat := 0x0A0004
def tbNowLo : Nat := 0x0A0008
def tbNowHi : Nat := 0x0A000C
def tbNowFrac : Nat := 0x0A0010
def tbIncrFrac : Nat := 0x0A0014
def tbIncrNs : Nat := 0x0A0018
def tbCorr : Nat := 0x0A001C
def tbErr : Nat := 0x0A0020
def tbPpsDelay : Nat := 0x0A0024
def tbPpsMinw : Nat := 0x0A0028
def tbLock : Nat := 0x0A002C
def tbMissLimit : Nat := 0x0A0030
def tbHoRate : Nat := 0x0A0034
def tbHoLimit : Nat := 0x0A0038
def tbHoSeconds : Nat := 0x0A003C
def tbHoBound : Nat := 0x0A0040
def tbPpsExtra : Nat := 0x0A0044
def tbPpsAccept : Nat := 0x0A0048
def tbTodSecLo : Nat := 0x0A0050
def tbTodSecHi : Nat := 0x0A0054
def tbTodCtrl : Nat := 0x0A0058
def tbLeadNs : Nat := 0x0A005C
def tbSlipThrNs : Nat := 0x0A0060
def tbLateMax : Nat := 0x0A0064
def tbPending : Nat := 0x0A0068
def tbFltSts : Nat := 0x0A0080
def tbFltForce : Nat := 0x0A0084
def tbFltInfo : Nat := 0x0A0088
def cycTsel : Nat := 0x0B0000
def cycTState : Nat := 0x0B0004
def cycTCycleLo : Nat := 0x0B0008
def cycTCycleHi : Nat := 0x0B000C
def cycTPhase : Nat := 0x0B0010
def cycTStartLo : Nat := 0x0B0014
def cycTStartHi : Nat := 0x0B0018
def cycTCycles : Nat := 0x0B001C
def cycTOverruns : Nat := 0x0B0020
def cycTSkips : Nat := 0x0B0024
def cycTLateMax : Nat := 0x0B0028
def cycSsel : Nat := 0x0B0040
def cycSStatus : Nat := 0x0B0044
def cycSRuns : Nat := 0x0B0048
def cycSOverruns : Nat := 0x0B004C
def cycSLastEnd : Nat := 0x0B0050
def cycFltSts : Nat := 0x0B0200
def cycFltForce : Nat := 0x0B0204
def cycFltInfo : Nat := 0x0B0208
def swmCtrl : Nat := 0x0C0000
def swmSelf : Nat := 0x0C0004
def swmHbUs : Nat := 0x0C0008
def swmAbsentUs : Nat := 0x0C000C
def swmSlowRttNs : Nat := 0x0C0010
def swmTtPeriodMs : Nat := 0x0C0014
def swmTtLimitNs : Nat := 0x0C0018
def swmTtLaunchNs : Nat := 0x0C001C
def swmRetryUs : Nat := 0x0C0020
def swmUpCnt : Nat := 0x0C0024
def swmTxCnt : Nat := 0x0C0028
def swmRxCnt : Nat := 0x0C002C
def swmDropCnt : Nat := 0x0C0030
def swmPortMask : Nat := 0x0C0040
def swmMsel : Nat := 0x0C0080
def swmMState : Nat := 0x0C0084
def swmMDomain : Nat := 0x0C0088
def swmMRate : Nat := 0x0C008C
def swmMOffset : Nat := 0x0C0090
def swmMDelay : Nat := 0x0C0094
def swmMHighLo : Nat := 0x0C0098
def swmMHighHi : Nat := 0x0C009C
def swmMDrops : Nat := 0x0C00A0
def swmFltSts : Nat := 0x0C0200
def swmFltForce : Nat := 0x0C0204
def swmFltInfo : Nat := 0x0C0208
def swmFltStepLo : Nat := 0x0C020C
def swmFltStepHi : Nat := 0x0C0210
def capCtrl : Nat := 0x0D0000
def capHeldLimit : Nat := 0x0D0004
def capHeldUsed : Nat := 0x0D0008
def capHeldCaps : Nat := 0x0D000C
def capRiskNow : Nat := 0x0D0010
def capReseekMs : Nat := 0x0D0014
def capCsel : Nat := 0x0D0040
def capCState : Nat := 0x0D0044
def capCCut : Nat := 0x0D0048
def capCCutStepLo : Nat := 0x0D004C
def capCCutStepHi : Nat := 0x0D0050
def capCAtRisk : Nat := 0x0D0054
def capCPending : Nat := 0x0D0058
def capCBuddy : Nat := 0x0D005C
def capCHolds : Nat := 0x0D0060
def capFltSts : Nat := 0x0D0200
def capFltForce : Nat := 0x0D0204
def capFltInfo : Nat := 0x0D0208
def capFltCtx : Nat := 0x0D020C
def hlmCtrl : Nat := 0x0E0000
def hlmRisk : Nat := 0x0E0004
def hlmWindowS : Nat := 0x0E0008
def hlmWeight0 : Nat := 0x0E000C
def hlmWeight1 : Nat := 0x0E0010
def hlmHint : Nat := 0x0E0014
def hlmCnt : Nat := 0x0E0020
def forBootBaseLo : Nat := 0x001000
def forBootBaseHi : Nat := 0x001004
def forBootCfg : Nat := 0x001008
def forBootStart : Nat := 0x00100C
def forBootHeadLo : Nat := 0x001010
def forBootHeadHi : Nat := 0x001014
def forBootCtrl : Nat := 0x001018
def forBootHead : Nat := 0x00101C
def forCtrl : Nat := 0x020000
def forStatus : Nat := 0x020004
def forPollNs : Nat := 0x020008
def forPollIdleUs : Nat := 0x02000C
def forBufUsed : Nat := 0x020010
def forPushCnt : Nat := 0x020014
def forPushDropCnt : Nat := 0x020018
def forForeignCnt : Nat := 0x02001C
def forDbIgnoredCnt : Nat := 0x020020
def forRsel : Nat := 0x020040
def forRState : Nat := 0x020044
def forRHead : Nat := 0x020048
def forRTail : Nat := 0x02004C
def forRFetched : Nat := 0x020050
def forRDepth : Nat := 0x020054
def forRCompl : Nat := 0x020060
def forTsel : Nat := 0x020080
def forTState : Nat := 0x020084
def forTHead : Nat := 0x020088
def forTTail : Nat := 0x02008C
def forFltSts : Nat := 0x020200
def forFltForce : Nat := 0x020204
def forFltInfo : Nat := 0x020208
def forFltIndex : Nat := 0x02020C
def cmdCtrl : Nat := 0x030000
def cmdStatus : Nat := 0x030004
def cmdExecCnt : Nat := 0x030008
def cmdRefuseCnt : Nat := 0x03000C
def cmdLastRefuse : Nat := 0x030010
def cmdLastRing : Nat := 0x030014
def cmdLastDetail : Nat := 0x030018
def cmdSbInterval : Nat := 0x03001C
def cmdLongUsed : Nat := 0x030020
def cmdFltSts : Nat := 0x030040
def cmdFltForce : Nat := 0x030044
def hpuIsel : Nat := 0x010400
def hpuIState : Nat := 0x010404
def hpuIRingQuota : Nat := 0x010408
def hpuIRingUsed : Nat := 0x01040C
def hpuITringQuota : Nat := 0x010410
def hpuITringUsed : Nat := 0x010414
def hpuICtx : Nat := 0x010418
def hpuIPrefix : Nat := 0x01041C
def hpuIQc : Nat := 0x010420
def hpuIBw0 : Nat := 0x010430
def hpuIBw1 : Nat := 0x010434
def hpuIFlrCnt : Nat := 0x010438
def hpuInstDropCnt : Nat := 0x010440
def hpuInstFltSts : Nat := 0x010480
def hpuInstFltForce : Nat := 0x010484
def hpuInstFltInfo : Nat := 0x010488
def mbxCtrl : Nat := 0x002000
def mbxStatus : Nat := 0x002004
def mbxInDb : Nat := 0x002008
def mbxOutAck : Nat := 0x00200C
def mbxDropCnt : Nat := 0x002010
def mbxIn : Nat := 0x002200
def mbxOut : Nat := 0x002400
def dbgFwSel : Nat := 0x120000
def dbgFwState : Nat := 0x120004
def dbgFwRestarts : Nat := 0x120008
def dbgFwLastCause : Nat := 0x12000C
def dbgFwLastPc : Nat := 0x120010
def dbgFwLastTime : Nat := 0x120014
def dbgFwWdt : Nat := 0x120018
def dbgFwForce : Nat := 0x12001C
def dbgFwStatus : Nat := 0x120040
def dbgFwVersion : Nat := 0x120044
def dbgFwImgVer : Nat := 0x120048
def dbgFwStage : Nat := 0x12004C
def dbgFwAreaLo : Nat := 0x120050
def dbgFwAreaHi : Nat := 0x120054
def dbgFwUpdate : Nat := 0x120058
def dbgLogCtrl : Nat := 0x120080
def dbgLogBaseLo : Nat := 0x120084
def dbgLogBaseHi : Nat := 0x120088
def dbgLogHead : Nat := 0x12008C
def dbgLogTail : Nat := 0x120090
def dbgLogDropCnt : Nat := 0x120094
def dbgLogLevel : Nat := 0x120098
def dbgWaggleTrace : Nat := 0x1200C0
def dbgWaggleFreeze : Nat := 0x1200E0
def dbgWaggleHits : Nat := 0x120100
def dbgFwFltSts : Nat := 0x120200
def dbgFwFltForce : Nat := 0x120204
def dbgFwFltInfo : Nat := 0x120208
def hpuLease : Nat := 0x010500
def hpuLeaseLeft : Nat := 0x010504
def hpuOrph : Nat := 0x010510
def cmdUcVersion : Nat := 0x030100
def cmdUcStatus : Nat := 0x030104
def cmdUcPc : Nat := 0x030108
def cmdUcMchk : Nat := 0x03010C
def cmdUcTrapCnt : Nat := 0x030110
def cmdUcMchkCnt : Nat := 0x030114
def cmdUcAddr : Nat := 0x030120
def cmdUcData : Nat := 0x030124
def cmdUcData4 : Nat := 0x030134
def cmdOpenStatus : Nat := 0x030140
def cmdOpenLimit : Nat := 0x030144
def cmdOpenKeepLo : Nat := 0x030148
def cmdOpenKeepHi : Nat := 0x03014C
def cmdOpenEntry : Nat := 0x030180
def cmdUcFltSts : Nat := 0x030200
def cmdUcFltForce : Nat := 0x030204
def prpCtrl : Nat := 0x160000
def prpHumCtrl : Nat := 0x160004
def prpHumStatus : Nat := 0x160008
def prpFenceCmd : Nat := 0x160010
def prpFenceStatus : Nat := 0x160014
def prpFencedQc : Nat := 0x160020
def prpFencedCl : Nat := 0x160030
def prpFencedMem0 : Nat := 0x160034
def prpFencedMem1 : Nat := 0x160038
def prpFencedLink : Nat := 0x16003C
def prpCoreSel : Nat := 0x160048
def prpCoreFence : Nat := 0x16004C
def prpErrSum0 : Nat := 0x160050
def prpErrSum1 : Nat := 0x160054
def prpErrLast : Nat := 0x160058
def prpAckLimit : Nat := 0x160060
def prpFltSts : Nat := 0x160080
def prpFltForce : Nat := 0x160084
def prpFltInfo : Nat := 0x160088
def icCtrl : Nat := 0x110000
def icSrcSel : Nat := 0x110004
def icSrcCfg : Nat := 0x110008
def icSrcState : Nat := 0x11000C
def icStormCfg : Nat := 0x110010
def icSwi0 : Nat := 0x110014
def icSwi1 : Nat := 0x110018
def icGrpSel : Nat := 0x110020
def icGrpHoldoff : Nat := 0x110024
def icGrpState : Nat := 0x110028
def icTClaimN : Nat := 0x110100
def icTCompleteN : Nat := 0x110104
def icTClaimF : Nat := 0x110108
def icTCompleteF : Nat := 0x11010C
def icFltSts : Nat := 0x110400
def icFltForce : Nat := 0x110404
def icFltInfo : Nat := 0x110408
def mbxErrSum0 : Nat := 0x002020
def mbxErrSum1 : Nat := 0x002024
def mbxErrLast : Nat := 0x002028
def grdStatus : Nat := 0x0F0000
def grdLifecycle : Nat := 0x0F0004
def grdSvn : Nat := 0x0F0008
def grdKeys : Nat := 0x0F000C
def grdUidLo : Nat := 0x0F0010
def grdUidHi : Nat := 0x0F0014
def grdSwarmEpoch : Nat := 0x0F0018
def grdSwarmActLo : Nat := 0x0F001C
def grdSwarmActHi : Nat := 0x0F0020
def grdSessions : Nat := 0x0F0024
def grdPost : Nat := 0x0F0028
def grdFltSts : Nat := 0x0F0080
def grdFltForce : Nat := 0x0F0084
def grdFltInfo : Nat := 0x0F0088
def pwrCtrl : Nat := 0x100000
def pwrState : Nat := 0x100004
def pwrReset : Nat := 0x100008
def pwrResetCause : Nat := 0x10000C
def pwrWakeAtLo : Nat := 0x100010
def pwrWakeAtHi : Nat := 0x100014
def pwrThmDefer : Nat := 0x100018
def pwrThmHold : Nat := 0x10001C
def pwrThmFrac : Nat := 0x100020
def pwrThmIn : Nat := 0x100024
def pwrThmOut : Nat := 0x100028
def pwrThmCnt : Nat := 0x10002C
def pwrSleepDropCnt : Nat := 0x100030
def pwrFltSts : Nat := 0x100080
def pwrFltForce : Nat := 0x100084
def pwrFltInfo : Nat := 0x100088
end Reg

/-- The registers of the function page (R448). -/
def regsPage : List RegSpec :=
  [reg 0x000000 4 16 .rw 0xFFFFFFFC 0x00000000,
   reg 0x000004 4 16 .rw 0xFFFFFFFF 0x00000000,
   reg 0x000008 4 16 .rw 0xFFFFFFFF 0x00000000,
   reg 0x00000C 4 16 .special 0x00000001 0x00000000,
   reg 0x000800 2 4 .ro 0x00000000 0x00000000,
   reg 0x001000 1 4 .special 0xFFFFF000 0x00000000,
   reg 0x001004 1 4 .special 0xFFFFFFFF 0x00000000,
   reg 0x001008 1 4 .special 0x0000003F 0x00000006,
   reg 0x00100C 1 4 .special 0xFFFFFFFF 0x00000000,
   reg 0x001010 1 4 .special 0xFFFFFFF8 0x00000000,
   reg 0x001014 1 4 .special 0xFFFFFFFF 0x00000000,
   reg 0x001018 1 4 .special 0x00000001 0x00000000,
   reg 0x00101C 1 4 .ro 0x00000000 0x00000000,
   reg 0x002000 1 4 .rw 0x00000001 0x00000001,
   reg 0x002004 1 4 .ro 0x00000000 0x00000000,
   reg 0x002008 1 4 .special 0x00000001 0x00000000,
   reg 0x00200C 1 4 .wo 0x00000001 0x00000000,
   reg 0x002010 1 4 .rc 0x00000000 0x00000000,
   reg 0x002200 128 4 .special 0xFFFFFFFF 0x00000000,
   reg 0x002400 128 4 .ro 0x00000000 0x00000000,
   reg 0x002020 1 4 .w1c 0xFFFFFFFF 0x00000000,
   reg 0x002024 1 4 .w1c 0xFFFFFFFF 0x00000000,
   reg 0x002028 1 4 .ro 0x00000000 0x00000000]

/-- The registers of the HPU_ window (R333, R334, R354). -/
def regsHpu : List RegSpec :=
  [reg 0x010400 1 4 .rw 0x0000003F 0x00000000,
   reg 0x010404 1 4 .ro 0x00000000 0x20000000,
   reg 0x010408 1 4 .ro 0x00000000 0x00000000,
   reg 0x01040C 1 4 .ro 0x00000000 0x00000000,
   reg 0x010410 1 4 .ro 0x00000000 0x00000000,
   reg 0x010414 1 4 .ro 0x00000000 0x00000000,
   reg 0x010418 1 4 .ro 0x00000000 0x00000000,
   reg 0x01041C 1 4 .ro 0x00000000 0x00000000,
   reg 0x010420 4 4 .ro 0x00000000 0x00000000,
   reg 0x010430 1 4 .ro 0x00000000 0x00000000,
   reg 0x010434 1 4 .ro 0x00000000 0x00000000,
   reg 0x010438 1 4 .ro 0x00000000 0x00000000,
   reg 0x010440 1 4 .rc 0x00000000 0x00000000,
   reg 0x010480 1 4 .w1c 0x0000001F 0x00000000,
   reg 0x010484 1 4 .w1s 0x0000001F 0x00000000,
   reg 0x010488 1 4 .ro 0x00000000 0x00000000,
   reg 0x010500 1 4 .ro 0x00000000 0x000003E8,
   reg 0x010504 1 4 .ro 0x00000000 0x00000000,
   reg 0x010510 8 4 .ro 0x00000000 0x00000000]

/-- The registers of the FOR_ window (R297). -/
def regsFor : List RegSpec :=
  [reg 0x020000 1 4 .rw 0x00000001 0x00000001,
   reg 0x020004 1 4 .ro 0x00000000 0x00000000,
   reg 0x020008 1 4 .rw 0x000FFFFF 0x000003E8,
   reg 0x02000C 1 4 .rw 0x000FFFFF 0x00000064,
   reg 0x020010 1 4 .ro 0x00000000 0x00000000,
   reg 0x020014 1 4 .ro 0x00000000 0x00000000,
   reg 0x020018 1 4 .rc 0x00000000 0x00000000,
   reg 0x02001C 1 4 .rc 0x00000000 0x00000000,
   reg 0x020020 1 4 .rc 0x00000000 0x00000000,
   reg 0x020040 1 4 .rw 0x0000FFFF 0x00000000,
   reg 0x020044 1 4 .ro 0x00000000 0x00000000,
   reg 0x020048 1 4 .ro 0x00000000 0x00000000,
   reg 0x02004C 1 4 .ro 0x00000000 0x00000000,
   reg 0x020050 1 4 .ro 0x00000000 0x00000000,
   reg 0x020054 1 4 .ro 0x00000000 0x00000000,
   reg 0x020060 8 4 .ro 0x00000000 0x00000000,
   reg 0x020080 1 4 .rw 0x0000FFFF 0x00000000,
   reg 0x020084 1 4 .ro 0x00000000 0x00000000,
   reg 0x020088 1 4 .ro 0x00000000 0x00000000,
   reg 0x02008C 1 4 .ro 0x00000000 0x00000000,
   reg 0x020200 1 4 .w1c 0x0000003F 0x00000000,
   reg 0x020204 1 4 .w1s 0x0000003F 0x00000000,
   reg 0x020208 1 4 .ro 0x00000000 0x00000000,
   reg 0x02020C 1 4 .ro 0x00000000 0x00000000]

/-- The registers of the CMD_ window (R316, R365). -/
def regsCmd : List RegSpec :=
  [reg 0x030000 1 4 .rw 0x00000001 0x00000001,
   reg 0x030004 1 4 .ro 0x00000000 0x00000000,
   reg 0x030008 1 4 .ro 0x00000000 0x00000000,
   reg 0x03000C 1 4 .rc 0x00000000 0x00000000,
   reg 0x030010 1 4 .ro 0x00000000 0x00000000,
   reg 0x030014 1 4 .ro 0x00000000 0x00000000,
   reg 0x030018 1 4 .ro 0x00000000 0x00000000,
   reg 0x03001C 1 4 .rw 0x0000FFFF 0x0000000A,
   reg 0x030020 1 4 .ro 0x00000000 0x00000000,
   reg 0x030040 1 4 .w1c 0x00000003 0x00000000,
   reg 0x030044 1 4 .w1s 0x00000003 0x00000000,
   reg 0x030100 1 4 .ro 0x00000000 0x00000000,
   reg 0x030104 1 4 .ro 0x00000000 0x00000000,
   reg 0x030108 1 4 .ro 0x00000000 0x00000000,
   reg 0x03010C 1 4 .ro 0x00000000 0x00000000,
   reg 0x030110 1 4 .ro 0x00000000 0x00000000,
   reg 0x030114 1 4 .rc 0x00000000 0x00000000,
   reg 0x030120 1 4 .rw 0x00003FFF 0x00000000,
   reg 0x030124 4 4 .ro 0x00000000 0x00000000,
   reg 0x030134 1 4 .ro 0x00000000 0x00000000,
   reg 0x030140 1 4 .ro 0x00000000 0x00000000,
   reg 0x030144 1 4 .rw 0xFFFFFFFF 0x00010000,
   reg 0x030148 1 4 .ro 0x00000000 0x00000000,
   reg 0x03014C 1 4 .ro 0x00000000 0x00000000,
   reg 0x030180 32 4 .ro 0x00000000 0x00000000,
   reg 0x030200 1 4 .w1c 0x0000003F 0x00000000,
   reg 0x030204 1 4 .w1s 0x0000003F 0x00000000]

/-- The registers of the COMB_ window (R55). -/
def regsComb : List RegSpec :=
  [reg 0x040000 1 4 .rw 0x00000001 0x00000001,
   reg 0x040004 1 4 .ro 0x00000000 0x00000000,
   reg 0x040008 1 4 .ro 0x00000000 0x00000000,
   reg 0x04000C 1 4 .ro 0x00000000 0x00000000,
   reg 0x040010 1 4 .rw 0x0000FFFF 0x00000400,
   reg 0x040014 1 4 .ro 0x00000000 0x00000000,
   reg 0x040020 1 4 .rw 0xFFFFFFFF 0x00000000,
   reg 0x040024 1 4 .special 0x00000002 0x00000000,
   reg 0x040040 64 4 .ro 0x00000000 0x00000000,
   reg 0x040180 8 4 .ro 0x00000000 0x00000000,
   reg 0x040200 1 4 .w1c 0x0000000F 0x00000000,
   reg 0x040204 1 4 .w1s 0x0000000F 0x00000000,
   reg 0x040208 1 4 .ro 0x00000000 0x00000000,
   reg 0x04020C 1 4 .ro 0x00000000 0x00000000,
   reg 0x040210 1 4 .rc 0x00000000 0x00000000,
   reg 0x040400 64 8 .ro 0x00000000 0x00000000,
   reg 0x040404 64 8 .ro 0x00000000 0x00000000]

/-- The registers of the STEP_ window (R134). -/
def regsStep : List RegSpec :=
  [reg 0x050000 1 4 .rw 0x00000003 0x00000003,
   reg 0x050004 1 4 .rw 0x0000007F 0x00000000,
   reg 0x050008 1 4 .ro 0x00000000 0x00002000,
   reg 0x050100 1 4 .ro 0x00000000 0x00000000,
   reg 0x050104 1 4 .ro 0x00000000 0x00000000,
   reg 0x050108 1 4 .ro 0x00000000 0x00000000,
   reg 0x05010C 1 4 .ro 0x00000000 0x00000000,
   reg 0x050110 1 4 .ro 0x00000000 0x00000000,
   reg 0x050114 1 4 .ro 0x00000000 0x00000000,
   reg 0x050118 1 4 .ro 0x00000000 0x00000000,
   reg 0x05011C 1 4 .ro 0x00000000 0xFFFFFFFF,
   reg 0x050120 1 4 .ro 0x00000000 0x00000000,
   reg 0x050124 1 4 .ro 0x00000000 0x00000000,
   reg 0x050128 1 4 .ro 0x00000000 0x00000000,
   reg 0x05012C 1 4 .ro 0x00000000 0x00000000,
   reg 0x050130 1 4 .ro 0x00000000 0x00000000,
   reg 0x050134 1 4 .ro 0x00000000 0x00000000,
   reg 0x050138 1 4 .ro 0x00000000 0x00000000,
   reg 0x05013C 1 4 .ro 0x00000000 0x00000000,
   reg 0x050140 4 4 .ro 0x00000000 0x00000000,
   reg 0x050200 1 4 .w1c 0x00000007 0x00000000,
   reg 0x050204 1 4 .w1s 0x00000007 0x00000000,
   reg 0x050208 1 4 .ro 0x00000000 0x00000000,
   reg 0x05020C 1 4 .ro 0x00000000 0x00000000]

/-- The registers of the SCH_ window (R105, R218). -/
def regsSch : List RegSpec :=
  [reg 0x060C00 1 4 .rw 0xFFFFFFFF 0x01000000,
   reg 0x060C04 1 4 .w1c 0x00000007 0x00000000,
   reg 0x060C08 1 4 .w1s 0x00000007 0x00000000,
   reg 0x060C0C 1 4 .rc 0x00000000 0x00000000,
   reg 0x060C10 1 4 .special 0x80000000 0x00000000,
   reg 0x060C14 1 4 .ro 0x00000000 0x00000000,
   reg 0x060C18 1 4 .ro 0x00000000 0x00000000,
   reg 0x060C1C 1 4 .ro 0x00000000 0x00000000,
   reg 0x060C20 1 4 .ro 0x00000000 0x00000000,
   reg 0x060C24 1 4 .ro 0x00000000 0x00000000,
   reg 0x060C28 1 4 .ro 0x00000000 0x00000000,
   reg 0x060C2C 1 4 .ro 0x00000000 0x00000000,
   reg 0x060000 1 4 .rw 0x0000007F 0x0000001F,
   reg 0x060004 1 4 .ro 0x00000000 0x00000000,
   reg 0x060010 1 4 .rw 0x000FFFFF 0x000007D0,
   reg 0x060014 1 4 .rw 0x000000FF 0x00000010,
   reg 0x060018 1 4 .rw 0x000FFFFF 0x00001000,
   reg 0x06001C 1 4 .rw 0xFFFFFFFF 0x00030D40,
   reg 0x060020 1 4 .rw 0x0000007F 0x00000000,
   reg 0x060024 1 4 .rw 0x00000FFF 0x00000000,
   reg 0x060100 4 4 .ro 0x00000000 0x00000000,
   reg 0x060110 1 4 .ro 0x00000000 0x00000000,
   reg 0x060114 1 4 .ro 0x00000000 0x00000000,
   reg 0x060120 4 4 .ro 0x00000000 0x00000000,
   reg 0x060130 1 4 .ro 0x00000000 0x00000100,
   reg 0x060134 1 4 .ro 0x00000000 0x00000000,
   reg 0x060138 1 4 .ro 0x00000000 0x00000000,
   reg 0x06013C 1 4 .ro 0x00000000 0x00000000,
   reg 0x060140 1 4 .ro 0x00000000 0x00000000,
   reg 0x060144 1 4 .ro 0x00000000 0x00000000] ++
  [reg 0x060200 1 4 .ro 0x00000000 0x00000000,
   reg 0x060204 1 4 .ro 0x00000000 0x00000000,
   reg 0x060208 1 4 .ro 0x00000000 0x00000000,
   reg 0x06020C 1 4 .ro 0x00000000 0x00000000,
   reg 0x060300 1 4 .w1c 0x0000003F 0x00000000,
   reg 0x060304 1 4 .w1s 0x0000003F 0x00000000,
   reg 0x060308 1 4 .ro 0x00000000 0x00000000,
   reg 0x06030C 1 4 .ro 0x00000000 0x00000000]

/-- The registers of the BWR_ window (R219). -/
def regsBwr : List RegSpec :=
  [reg 0x070000 1 4 .rw 0x0000007F 0x00000000,
   reg 0x070004 1 4 .ro 0x00000000 0x00000000,
   reg 0x070010 1 4 .ro 0x00000000 0x00000000,
   reg 0x070014 1 4 .ro 0x00000000 0x00000000,
   reg 0x070018 1 4 .ro 0x00000000 0x00000000,
   reg 0x070020 1 4 .ro 0x00000000 0x00000000]

/-- The registers of the PAG_ window (R195). -/
def regsPag : List RegSpec :=
  [reg 0x080000 1 4 .rw 0x00000003 0x00000002,
   reg 0x080004 1 4 .ro 0x00000000 0x00000000,
   reg 0x080008 1 4 .ro 0x00000000 0x00000000,
   reg 0x08000C 1 4 .ro 0x00000000 0x00000000,
   reg 0x080010 1 4 .rw 0x0000003F 0x00000000,
   reg 0x080014 1 4 .special 0x001FFFFF 0x00000000,
   reg 0x080018 1 4 .special 0x003FFFFF 0x00000000,
   reg 0x08001C 1 4 .ro 0x00000000 0x00000000,
   reg 0x080020 1 4 .rw 0x00FFFFFF 0x00010000,
   reg 0x080024 1 4 .rw 0x00FFFFFF 0x00004000,
   reg 0x080028 1 4 .rw 0x0000FFFF 0x00000000,
   reg 0x080030 1 4 .ro 0x00000000 0x00000000,
   reg 0x080034 1 4 .rc 0x00000000 0x00000000,
   reg 0x080038 1 4 .ro 0x00000000 0x00000000,
   reg 0x08003C 1 4 .ro 0x00000000 0x00100000,
   reg 0x080040 1 4 .ro 0x00000000 0x00004000,
   reg 0x080060 1 4 .rc 0x00000000 0x00000000,
   reg 0x080064 1 4 .ro 0x00000000 0x00000000,
   reg 0x080080 1 4 .rw 0x0000003F 0x00000000,
   reg 0x080084 1 4 .ro 0x00000000 0x00000000,
   reg 0x080088 1 4 .ro 0x00000000 0x00000000,
   reg 0x08008C 1 4 .ro 0x00000000 0x00000000,
   reg 0x080090 1 4 .ro 0x00000000 0x00000000,
   reg 0x080094 1 4 .special 0xC000001F 0x0000000A,
   reg 0x080098 1 4 .special 0xFFFFFFF8 0x00000000,
   reg 0x08009C 1 4 .special 0x0000FFFF 0x00000000,
   reg 0x0800A0 1 4 .special 0xFFFFFFFF 0x00000000,
   reg 0x0800A4 1 4 .ro 0x00000000 0x00000000,
   reg 0x080200 1 4 .w1c 0x000003FF 0x00000000,
   reg 0x080204 1 4 .w1s 0x000003FF 0x00000000] ++
  [reg 0x080208 1 4 .ro 0x00000000 0x00000000,
   reg 0x08020C 1 4 .ro 0x00000000 0x00000000,
   reg 0x080210 1 4 .ro 0x00000000 0x00000000]

/-- The registers of the SMP_ window (R171). -/
def regsSmp : List RegSpec :=
  [reg 0x090000 1 4 .rw 0x00000003 0x00000001,
   reg 0x090004 1 4 .ro 0x00000000 0x00000000,
   reg 0x090008 1 4 .rw 0xFFFFF000 0x00000000,
   reg 0x09000C 1 4 .rw 0x0000FFFF 0x00000000,
   reg 0x090010 1 4 .ro 0x00000000 0x00000000,
   reg 0x090014 1 4 .ro 0x00000000 0x00000000,
   reg 0x090018 1 4 .rc 0x00000000 0x00000000,
   reg 0x09001C 1 4 .rc 0x00000000 0x00000000,
   reg 0x090020 1 4 .rc 0x00000000 0x00000000,
   reg 0x090024 1 4 .ro 0x00000000 0x00000000,
   reg 0x090028 1 4 .ro 0x00000000 0x00000000,
   reg 0x09002C 1 4 .ro 0x00000000 0x00000000,
   reg 0x090040 1 4 .rw 0x000001FF 0x00000000,
   reg 0x090044 1 4 .ro 0x00000000 0x00000000,
   reg 0x090048 1 4 .ro 0x00000000 0x00000000,
   reg 0x09004C 1 4 .ro 0x00000000 0x00000000,
   reg 0x090200 1 4 .w1c 0x0000007F 0x00000000,
   reg 0x090204 1 4 .w1s 0x0000007F 0x00000000,
   reg 0x090208 1 4 .ro 0x00000000 0x00000000,
   reg 0x09020C 1 4 .ro 0x00000000 0x00000000,
   reg 0x090210 1 4 .ro 0x00000000 0x00000000]

/-- The registers of the TB_ window (R239). -/
def regsTb : List RegSpec :=
  [reg 0x0A0000 1 4 .special 0x00000FF5 0x00000311,
   reg 0x0A0004 1 4 .ro 0x00000000 0x00000000,
   reg 0x0A0008 1 4 .ro 0x00000000 0x00000000,
   reg 0x0A000C 1 4 .ro 0x00000000 0x00000000,
   reg 0x0A0010 1 4 .ro 0x00000000 0x00000000,
   reg 0x0A0014 1 4 .ro 0x00000000 0x00000000,
   reg 0x0A0018 1 4 .ro 0x00000000 0x00000000,
   reg 0x0A001C 1 4 .ro 0x00000000 0x00000000,
   reg 0x0A0020 1 4 .ro 0x00000000 0x00000000,
   reg 0x0A0024 1 4 .rw 0xFFFFFFFF 0x00000000,
   reg 0x0A0028 1 4 .rw 0x000000FF 0x00000008,
   reg 0x0A002C 1 4 .rw 0x00FFFFFF 0x00080064,
   reg 0x0A0030 1 4 .rw 0x0000000F 0x00000002,
   reg 0x0A0034 1 4 .rw 0x0000FFFF 0x0000000A,
   reg 0x0A0038 1 4 .rw 0xFFFFFFFF 0x00001388,
   reg 0x0A003C 1 4 .ro 0x00000000 0x00000000,
   reg 0x0A0040 1 4 .ro 0x00000000 0x00000000,
   reg 0x0A0044 1 4 .rc 0x00000000 0x00000000,
   reg 0x0A0048 1 4 .ro 0x00000000 0x00000000,
   reg 0x0A0050 1 4 .special 0xFFFFFFFF 0x00000000,
   reg 0x0A0054 1 4 .special 0x00000007 0x00000000,
   reg 0x0A0058 1 4 .special 0x00000006 0x00000000,
   reg 0x0A005C 1 4 .rw 0x00FFFFFF 0x000186A0,
   reg 0x0A0060 1 4 .rw 0xFFFFFFFF 0x000007D0,
   reg 0x0A0064 1 4 .rc 0x00000000 0x00000000,
   reg 0x0A0068 1 4 .ro 0x00000000 0x00000000,
   reg 0x0A0080 1 4 .w1c 0x0000007F 0x00000000,
   reg 0x0A0084 1 4 .w1s 0x0000007F 0x00000000,
   reg 0x0A0088 1 4 .ro 0x00000000 0x00000000]

/-- The registers of the CYC_ window (R240). -/
def regsCyc : List RegSpec :=
  [reg 0x0B0000 1 4 .rw 0x00000007 0x00000000,
   reg 0x0B0004 1 4 .ro 0x00000000 0x00000000,
   reg 0x0B0008 1 4 .ro 0x00000000 0x00000000,
   reg 0x0B000C 1 4 .ro 0x00000000 0x00000000,
   reg 0x0B0010 1 4 .ro 0x00000000 0x00000000,
   reg 0x0B0014 1 4 .ro 0x00000000 0x00000000,
   reg 0x0B0018 1 4 .ro 0x00000000 0x00000000,
   reg 0x0B001C 1 4 .ro 0x00000000 0x00000000,
   reg 0x0B0020 1 4 .ro 0x00000000 0x00000000,
   reg 0x0B0024 1 4 .ro 0x00000000 0x00000000,
   reg 0x0B0028 1 4 .rc 0x00000000 0x00000000,
   reg 0x0B0040 1 4 .rw 0x000003FF 0x00000000,
   reg 0x0B0044 1 4 .ro 0x00000000 0x00000000,
   reg 0x0B0048 1 4 .ro 0x00000000 0x00000000,
   reg 0x0B004C 1 4 .ro 0x00000000 0x00000000,
   reg 0x0B0050 1 4 .ro 0x00000000 0x00000000,
   reg 0x0B0200 1 4 .w1c 0x0000001F 0x00000000,
   reg 0x0B0204 1 4 .w1s 0x0000001F 0x00000000,
   reg 0x0B0208 1 4 .ro 0x00000000 0x00000000]

/-- The registers of the SWM_ window (R255). -/
def regsSwm : List RegSpec :=
  [reg 0x0C0000 1 4 .special 0x00000001 0x00000000,
   reg 0x0C0004 1 4 .ro 0x00000000 0x00000000,
   reg 0x0C0008 1 4 .rw 0x000FFFFF 0x00002710,
   reg 0x0C000C 1 4 .rw 0xFFFFFFFF 0x0000C350,
   reg 0x0C0010 1 4 .rw 0xFFFFFFFF 0x00004E20,
   reg 0x0C0014 1 4 .rw 0x0000FFFF 0x000003E8,
   reg 0x0C0018 1 4 .rw 0xFFFFFFFF 0x000003E8,
   reg 0x0C001C 1 4 .rw 0x0000FFFF 0x000007D0,
   reg 0x0C0020 1 4 .rw 0x0000FFFF 0x000000C8,
   reg 0x0C0024 1 4 .ro 0x00000000 0x00000000,
   reg 0x0C0028 1 4 .ro 0x00000000 0x00000000,
   reg 0x0C002C 1 4 .ro 0x00000000 0x00000000,
   reg 0x0C0030 1 4 .rc 0x00000000 0x00000000,
   reg 0x0C0040 3 4 .w1c 0xFFFFFFFF 0x00000000,
   reg 0x0C0080 1 4 .rw 0x00001FFF 0x00000000,
   reg 0x0C0084 1 4 .ro 0x00000000 0x00000000,
   reg 0x0C0088 1 4 .ro 0x00000000 0x00000000,
   reg 0x0C008C 1 4 .ro 0x00000000 0x00000000,
   reg 0x0C0090 1 4 .ro 0x00000000 0x00000000,
   reg 0x0C0094 1 4 .ro 0x00000000 0x00000000,
   reg 0x0C0098 1 4 .ro 0x00000000 0x00000000,
   reg 0x0C009C 1 4 .ro 0x00000000 0x00000000,
   reg 0x0C00A0 1 4 .rc 0x00000000 0x00000000,
   reg 0x0C0200 1 4 .w1c 0x000003FF 0x00000000,
   reg 0x0C0204 1 4 .w1s 0x000003FF 0x00000000,
   reg 0x0C0208 1 4 .ro 0x00000000 0x00000000,
   reg 0x0C020C 1 4 .ro 0x00000000 0x00000000,
   reg 0x0C0210 1 4 .ro 0x00000000 0x00000000]

/-- The registers of the CAP_ window (R275). -/
def regsCap : List RegSpec :=
  [reg 0x0D0000 1 4 .rw 0x00000003 0x00000000,
   reg 0x0D0004 1 4 .rw 0x03FFFFFF 0x00000000,
   reg 0x0D0008 1 4 .ro 0x00000000 0x00000000,
   reg 0x0D000C 1 4 .ro 0x00000000 0x00000000,
   reg 0x0D0010 1 4 .rw 0x000000FF 0x000000C0,
   reg 0x0D0014 1 4 .rw 0x0000FFFF 0x000003E8,
   reg 0x0D0040 1 4 .rw 0x00000FFF 0x00000000,
   reg 0x0D0044 1 4 .ro 0x00000000 0x00000000,
   reg 0x0D0048 1 4 .ro 0x00000000 0x00000000,
   reg 0x0D004C 1 4 .ro 0x00000000 0x00000000,
   reg 0x0D0050 1 4 .ro 0x00000000 0x00000000,
   reg 0x0D0054 1 4 .ro 0x00000000 0x00000000,
   reg 0x0D0058 1 4 .ro 0x00000000 0x00000000,
   reg 0x0D005C 1 4 .ro 0x00000000 0x00000000,
   reg 0x0D0060 1 4 .ro 0x00000000 0x00000000,
   reg 0x0D0200 1 4 .w1c 0x000001FF 0x00000000,
   reg 0x0D0204 1 4 .w1s 0x000001FF 0x00000000,
   reg 0x0D0208 1 4 .ro 0x00000000 0x00000000,
   reg 0x0D020C 1 4 .ro 0x00000000 0x00000000]

/-- The registers of the HLM_ window (R276). -/
def regsHlm : List RegSpec :=
  [reg 0x0E0000 1 4 .rw 0x00000001 0x00000001,
   reg 0x0E0004 1 4 .ro 0x00000000 0x00000000,
   reg 0x0E0008 1 4 .rw 0x00000FFF 0x0000003C,
   reg 0x0E000C 1 4 .rw 0xFFFFFFFF 0x08100101,
   reg 0x0E0010 1 4 .rw 0x00FFFFFF 0x00201008,
   reg 0x0E0014 1 4 .ro 0x00000000 0x00000000,
   reg 0x0E0020 5 4 .ro 0x00000000 0x00000000]

/-- The registers of the GRD_ window (R410). -/
def regsGrd : List RegSpec :=
  [reg 0x0F0000 1 4 .ro 0x00000000 0x00000000,
   reg 0x0F0004 1 4 .ro 0x00000000 0x00000000,
   reg 0x0F0008 1 4 .ro 0x00000000 0x00000000,
   reg 0x0F000C 1 4 .ro 0x00000000 0x00000000,
   reg 0x0F0010 1 4 .ro 0x00000000 0x00000000,
   reg 0x0F0014 1 4 .ro 0x00000000 0x00000000,
   reg 0x0F0018 1 4 .ro 0x00000000 0x00000000,
   reg 0x0F001C 1 4 .ro 0x00000000 0x00000000,
   reg 0x0F0020 1 4 .ro 0x00000000 0x00000000,
   reg 0x0F0024 1 4 .ro 0x00000000 0x00000000,
   reg 0x0F0028 1 4 .ro 0x00000000 0x00000000,
   reg 0x0F0080 1 4 .w1c 0x0000007F 0x00000000,
   reg 0x0F0084 1 4 .w1s 0x0000007F 0x00000000,
   reg 0x0F0088 1 4 .ro 0x00000000 0x00000000]

/-- The registers of the PWR_ window (R446). -/
def regsPwr : List RegSpec :=
  [reg 0x100000 1 4 .special 0x00000003 0x00000002,
   reg 0x100004 1 4 .ro 0x00000000 0x00000000,
   reg 0x100008 1 4 .wo 0xFFFF0001 0x00000000,
   reg 0x10000C 1 4 .ro 0x00000000 0x00000001,
   reg 0x100010 1 4 .rw 0xFFFFFFFF 0x00000000,
   reg 0x100014 1 4 .rw 0xFFFFFFFF 0x00000000,
   reg 0x100018 1 4 .rw 0x0000FFFF 0x000007D0,
   reg 0x10001C 1 4 .rw 0x0000FFFF 0x00000064,
   reg 0x100020 1 4 .ro 0x00000000 0x00000000,
   reg 0x100024 1 4 .ro 0x00000000 0x00000000,
   reg 0x100028 1 4 .ro 0x00000000 0x00000000,
   reg 0x10002C 1 4 .ro 0x00000000 0x00000000,
   reg 0x100030 1 4 .rc 0x00000000 0x00000000,
   reg 0x100080 1 4 .w1c 0x0000001F 0x00000000,
   reg 0x100084 1 4 .w1s 0x0000001F 0x00000000,
   reg 0x100088 1 4 .ro 0x00000000 0x00000000]

/-- The registers of the IC_ window (R392). -/
def regsIc : List RegSpec :=
  [reg 0x110000 1 4 .rw 0x00000001 0x00000001,
   reg 0x110004 1 4 .rw 0x000003FF 0x00000000,
   reg 0x110008 1 4 .special 0xFF3F0000 0x00000000,
   reg 0x11000C 1 4 .special 0x00000008 0x00000000,
   reg 0x110010 1 4 .rw 0xFFFFFC00 0xFF402800,
   reg 0x110014 1 4 .rw 0xFFFFFFFF 0x00000000,
   reg 0x110018 1 4 .rw 0xFFFFFFFF 0x00000000,
   reg 0x110020 1 4 .rw 0x0000003F 0x00000000,
   reg 0x110024 1 4 .special 0x0000FFFF 0x00000000,
   reg 0x110028 1 4 .ro 0x00000000 0x00000000,
   reg 0x110100 35 16 .rc 0x00000000 0x000003FF,
   reg 0x110104 35 16 .wo 0x000003FF 0x00000000,
   reg 0x110108 35 16 .rc 0x00000000 0x000003FF,
   reg 0x11010C 35 16 .wo 0x000003FF 0x00000000,
   reg 0x110400 1 4 .w1c 0x00000007 0x00000000,
   reg 0x110404 1 4 .w1s 0x00000007 0x00000000,
   reg 0x110408 1 4 .ro 0x00000000 0x00000000]

/-- The registers of the DBG_ window (R353). -/
def regsDbg : List RegSpec :=
  [reg 0x120000 1 4 .rw 0x0000003F 0x00000000,
   reg 0x120004 1 4 .ro 0x00000000 0x00000000,
   reg 0x120008 1 4 .ro 0x00000000 0x00000000,
   reg 0x12000C 1 4 .ro 0x00000000 0x00000000,
   reg 0x120010 1 4 .ro 0x00000000 0x00000000,
   reg 0x120014 1 4 .ro 0x00000000 0x00000000,
   reg 0x120018 1 4 .ro 0x00000000 0x00000000,
   reg 0x12001C 1 4 .special 0x00000001 0x00000000,
   reg 0x120040 1 4 .ro 0x00000000 0x00000000,
   reg 0x120044 1 4 .ro 0x00000000 0x00010000,
   reg 0x120048 1 4 .ro 0x00000000 0x00000000,
   reg 0x12004C 1 4 .ro 0x00000000 0x00000000,
   reg 0x120050 1 4 .ro 0x00000000 0x00000000,
   reg 0x120054 1 4 .ro 0x00000000 0x00000000,
   reg 0x120058 1 4 .ro 0x00000000 0x00000000,
   reg 0x120080 1 4 .special 0x001F0001 0x00060000,
   reg 0x120084 1 4 .special 0xFFFFF000 0x00000000,
   reg 0x120088 1 4 .special 0xFFFFFFFF 0x00000000,
   reg 0x12008C 1 4 .special 0xFFFFFFFF 0x00000000,
   reg 0x120090 1 4 .ro 0x00000000 0x00000000,
   reg 0x120094 1 4 .rc 0x00000000 0x00000000,
   reg 0x120098 1 4 .rw 0x000000FF 0x00000010,
   reg 0x1200C0 8 4 .ro 0x00000000 0x00000000,
   reg 0x1200E0 8 4 .ro 0x00000000 0x00000000,
   reg 0x120100 1 4 .ro 0x00000000 0x00000000,
   reg 0x120200 1 4 .w1c 0x0000007F 0x00000000,
   reg 0x120204 1 4 .w1s 0x0000007F 0x00000000,
   reg 0x120208 1 4 .ro 0x00000000 0x00000000]

/-- The registers of the FRM_ window of agent 0 (R89). -/
def regsFrm : List RegSpec :=
  [reg 0x140000 1 4 .rw 0x00000003 0x00000003,
   reg 0x140004 1 4 .ro 0x00000000 0x00000000,
   reg 0x140008 1 4 .rw 0x0000003F 0x00000030,
   reg 0x14000C 1 4 .ro 0x00000000 0x00000000,
   reg 0x140010 1 4 .ro 0x00000000 0x00000000,
   reg 0x140014 1 4 .ro 0x00000000 0x00000000,
   reg 0x140018 1 4 .ro 0x00000000 0x00000000,
   reg 0x14001C 1 4 .rc 0x00000000 0x00000000,
   reg 0x140020 1 4 .rc 0x00000000 0x00000000,
   reg 0x140040 8 4 .ro 0x00000000 0x00000000,
   reg 0x140080 1 4 .w1c 0x0000007F 0x00000000,
   reg 0x140084 1 4 .w1s 0x0000007F 0x00000000,
   reg 0x140088 1 4 .ro 0x00000000 0x00000000,
   reg 0x14008C 1 4 .ro 0x00000000 0x00000000,
   reg 0x140090 1 4 .ro 0x00000000 0x00000000,
   reg 0x140094 1 4 .ro 0x00000000 0x00000000]

/-- The registers of the PRP_ window below its pages (R391). -/
def regsPrp : List RegSpec :=
  [reg 0x160000 1 4 .rw 0x00000001 0x00000001,
   reg 0x160004 1 4 .rw 0x0000FFFF 0x000001F4,
   reg 0x160008 1 4 .ro 0x00000000 0x00000000,
   reg 0x160010 1 4 .wo 0xF00007FF 0x00000000,
   reg 0x160014 1 4 .ro 0x00000000 0x00000000,
   reg 0x160020 4 4 .ro 0x00000000 0x00000000,
   reg 0x160030 1 4 .ro 0x00000000 0x00000000,
   reg 0x160034 1 4 .ro 0x00000000 0x00000000,
   reg 0x160038 1 4 .ro 0x00000000 0x00000000,
   reg 0x16003C 3 4 .ro 0x00000000 0x00000000,
   reg 0x160048 1 4 .rw 0x000007FF 0x00000000,
   reg 0x16004C 1 4 .ro 0x00000000 0x00000000,
   reg 0x160050 1 4 .w1c 0xFFFFFFFF 0x00000000,
   reg 0x160054 1 4 .w1c 0xFFFFFFFF 0x00000000,
   reg 0x160058 1 4 .ro 0x00000000 0x00000000,
   reg 0x160060 1 4 .rw 0x00000FFF 0x00000100,
   reg 0x160080 1 4 .w1c 0x00000007 0x00000000,
   reg 0x160084 1 4 .w1s 0x00000007 0x00000000,
   reg 0x160088 1 4 .ro 0x00000000 0x00000000]

/-- The registers of the window that holds an offset. -/
def windowRegs (w : Nat) : List RegSpec :=
  match w with
  | 0x0 => regsPage
  | 0x1 => regsHpu
  | 0x2 => regsFor
  | 0x3 => regsCmd
  | 0x4 => regsComb
  | 0x5 => regsStep
  | 0x6 => regsSch
  | 0x7 => regsBwr
  | 0x8 => regsPag
  | 0x9 => regsSmp
  | 0xA => regsTb
  | 0xB => regsCyc
  | 0xC => regsSwm
  | 0xD => regsCap
  | 0xE => regsHlm
  | 0xF => regsGrd
  | 0x10 => regsPwr
  | 0x11 => regsIc
  | 0x12 => regsDbg
  | 0x14 => regsFrm
  | 0x16 => regsPrp
  | _ => []

/-- An offset with agent n's FRM_ window laid over agent 0's. -/
def frmFold (off : Nat) : Nat := if off / 0x20000 = 0xA then 0x140000 + off % 0x1000 else off

/-- Does a run of registers hold the offset? -/
def RegSpec.covers (x : RegSpec) (off : Nat) : Bool :=
  decide (x.first ≤ off) && decide ((off - x.first) % x.stride = 0) && decide ((off - x.first) / x.stride < x.count)

/-- The register at an offset of the physical function's BAR0, PRP_F_ pages apart; none where it is reserved (R6). -/
def regSpec (off : Nat) : Option RegSpec :=
  (windowRegs (frmFold off / 0x10000)).find? fun x => x.covers (frmFold off)

/-- The fault id and the register of a PRP_F_ page (R391): 0 CFG, 1 LAST, 2 SEV, 3 TOTAL. -/
def prpPage (off : Nat) : Option (Nat × Nat) :=
  let k := off - 0x161000
  if 0x161000 ≤ off ∧ k < 0x400 * 64 ∧ k % 0x400 < 0x200 then
    some (k / 0x400 * 32 + k % 0x400 / 16, k % 16 / 4)
  else none

/-- Offsets of the PRP_F_ registers of a fault id. -/
def prpFCfg (id : Nat) : Nat := 0x161000 + 0x400 * (id / 32) + 0x10 * (id % 32)
def prpFLast (id : Nat) : Nat := prpFCfg id + 4
def prpFSev (id : Nat) : Nat := prpFCfg id + 8
def prpFTotal (id : Nat) : Nat := prpFCfg id + 12

/-- Key of a register in the register file: function i's page lies at i × 2^24 (R448). -/
def pageKey (fn off : Nat) : Nat := fn * 0x1000000 + off

/-- What a register holds after a device reset (R455), views of structured state apart. -/
def resetVal (key : Nat) : Word :=
  let off := key % 0x1000000
  match prpPage off with
  | some (id, 0) => match faultSpec id with
    | some f => f.cfg
    | none => 0
  | some _ => 0
  | none => match regSpec off with
    | some x => x.reset
    | none => 0

end Sys2Proof.Machine
end

