-- ==== Sys2Proof/Machine/State.lean ====
section
/-!
DEFINITION. The state of the block: its registers, every unit's state, the clocks, the outputs given so far and the
queue of waiting commands; why a command stops; the state right after a power-on reset.
-/

namespace Sys2Proof.Machine

/-- Why a command faults. -/
inductive Fault where
  /-- Raised by the mailbox messages other than HELLO whose function has no matched interface version: R348 calls the
  result undefined and gives no effect. Safe: nothing can be proved of what the hardware does there. -/
  | unmatchedVersion
  deriving DecidableEq, Repr

/-- Why a command is refused. -/
inductive Refusal where
  /-- Raised by an arm of exec whose meaning is not written yet, with the row's mnemonic. Safe: it stops. -/
  | notModelled (mnemonic : String)
  deriving DecidableEq, Repr

/-- Header of a request on HTP_DM (R417): function, PASID, and AT, which marks a translated address. -/
structure Htp where
  fn         : Nat
  pasid      : Nat
  translated : Bool
  deriving DecidableEq, Repr

/-- Header of a request to device memory on VC1 (R419): address, 10-bit tag, partition tag of R216 or none, KEYID of
R408. -/
structure Vc1 where
  addr  : Nat
  tag   : Nat
  part  : Option Nat
  keyid : Nat
  deriving DecidableEq, Repr

/-- What the block gives out: writes and reads on its ports, messages, answers. -/
inductive Output where
  /-- A posted write of words to host memory (R417); one of more bytes than HTP_MPS stands for the writes it is split into
  (R418, log 32). -/
  | hostWrite (h : Htp) (addr : Nat) (words : List Word)
  /-- A read of host memory: how many bytes, split in the same way by HTP_MRRS. -/
  | hostRead (h : Htp) (addr bytes : Nat)
  /-- MSI-X vector of a function (R318). -/
  | msix (h : Htp) (vector : Nat)
  /-- Completion of a register read. -/
  | readData (fn : Nat) (value : Word)
  /-- A write or a read of device memory on VC2 (R419). -/
  | devWrite (h : Vc1) (words : List Word)
  | devRead (h : Vc1) (bytes : Nat)
  /-- A swarm packet with its LAUNCH_AT, 0 for at once: header words before encryption, payload (R244, R419). -/
  | swarm (launchAt : Nat) (header payload : List Word)
  /-- A command to a link engine port, 0x7F for all: LE_CMD_KIND and LE_CMD_DATA (R424). -/
  | linkCmd (port cmd : Nat) (data : Dword)
  /-- A fence-bus message: class, index, KIND, SEQ, CHECK, payload (R375). -/
  | bus (cls index kind : Nat) (seq check : Byte) (payload : Dword)
  /-- A narrow-path request: 32 bytes read from a device address, or written to it, with its tag and KEYID (R420). -/
  | narrow (die tag addr keyid : Nat)
  | narrowWrite (die tag addr keyid : Nat) (words : List Word)
  /-- A DOE answer: function, 0 or the SPDM ERROR code, request code, and what the spec gives of its content (R403, R404). -/
  | doe (fn error code : Nat) (content : List Word)
  /-- A key transfer on the key sideband: class, index, slot, key (R426), and KS_ZERO. -/
  | key (cls index slot : Nat) (data : List Word)
  | keyZero
  /-- Completion of an FLR to the PCIe controller (R325). -/
  | flrDone (fn : Nat)
  /-- Answer to an ATS invalidation (R417), a translation request. -/
  | atsDone (tag : Nat)
  | atsRequest (h : Htp) (addr : Nat)
  /-- A fuse read request, and a program request (R414). -/
  | fuseRead (word : Nat)
  | fuseProgram (word : Nat) (bits : Word)
  /-- Bits shifted out of the TAP, least significant first. -/
  | tap (bits : List Bool)
  /-- A cap or fill page on the fabric's data channels (R260), read from its frame or address in device memory. -/
  | capPage (member : Nat) (shard : Dword) (cut page : Nat) (h : Vc1)
  /-- A page that a member sent, of a cap or of a fill, written to device memory: to a held frame, or to its region. -/
  | capStore (member page : Nat) (h : Vc1)
  /-- The 64 KiB of a frame, read under a KEYID, written at a device address, by INSTANCE_SAVE (R330); and the 64 KiB of a
  page record of an image, read at an address, written to a frame, by INSTANCE_RESTORE (R331). -/
  | frameOut (h : Vc1) (src : Frame) (keyid : Nat)
  | frameIn (h : Vc1) (dst : Frame) (keyid : Nat)
  /-- A page move to a mover of a die, with its partition tag and the KEYIDs of its two frames; a context save or load to
  the agents, a step dispatch to an agent. -/
  | move (die : Nat) (kind : MoveKind) (src dst : Frame) (part : Option Nat) (keys : Nat × Nat)
  /-- The 64 KiB of a replica copied back over a region's page by a die's mover (R189). -/
  | repair (die : Nat) (src dst : Vc1)
  | agentLoad (agent slot context : Nat)
  | agentSave (agent slot context : Nat)
  | dispatch (agent partition slot : Nat) (seq : Word) (program : Dword)
  /-- A record that an agent returns to the hub on the control channel: 16 bytes (R85). -/
  | control (agent : Nat) (record : List Word)
  | preempt (agent partition slot : Nat)
  | stop (agent partition slot : Nat)
  deriving DecidableEq, Repr

/-- A data request that a port holds: its partition tag, the ports and bytes that it takes, what goes out (R216). -/
structure HeldReq where
  partition : Nat
  ports     : List (Nat × Nat)
  out       : Output
  deriving DecidableEq, Repr

/-- The state of the block. -/
structure State where
  /-- Commands that wait, first in first out. -/
  pending : List Instr := []
  /-- Outputs given, newest first. -/
  out : List Output := []
  /-- The model's own: counts the free values drawn (DESIGN CHOICE, log 3). -/
  freeCtr : Nat := 0
  /-- CCLK cycles since the last device reset, and TB_REF cycles. -/
  cc : Nat := 0
  ticks : Nat := 0
  /-- The register file, keyed by Reg offsets; an unlisted register holds its reset value. -/
  regs : Tbl Word := []
  comb : Comb := {}
  agents : Tbl Agent := []
  sched : Sched := {}
  /-- Tagged requests held at their ports, oldest first (R216). -/
  reqs : List HeldReq := []
  comp : Composer := {}
  pager : Pager := {}
  sampler : Sampler := {}
  tb : Timebase := { incr := BitVec.ofNat 40 Config.tbRefPeriod }
  cyc : Tbl CycTable := []
  forager : ForagerState := {}
  interp : Interp := {}
  /-- ATS translations that the Host Port Unit holds (R360, R417): instance and page address. -/
  atc : List (Nat × Nat) := []
  /-- Instances by number; instance 0 is the physical function's and ACTIVE (R317). -/
  insts : Tbl Instance := []
  fw : Firmware := {}
  store : CtlStore := {}
  swarm : Swarm := {}
  cap : Capping := {}
  health : Health := {}
  fences : Fences := {}
  hum : Hum := {}
  ic : IrqCtl := {}
  guard : Guard := {}
  power : Power := {}
  deriving DecidableEq, Repr

/-- What an instance not listed is: instance 0 ACTIVE, the others NONE (R317, R323). -/
def instDefault (i : Nat) : Instance := if i = 0 then { st := .active } else {}

/-- The block right after a power-on reset, RESET_N still low: every flop and SRAM at its reset value (R412, R432). -/
def State.reset : State := {}

end Sys2Proof.Machine
end

