-- ==== Sys2Proof/Machine/Ops.lean ====
section
/-!
DEFINITION. The named operations that every meaning is built from: the clocks, outputs, free values, register file,
instances, and the states in which the block takes commands at all.
-/

namespace Sys2Proof.Machine

/-! ## Lists -/

/-- n copies of zero words, then nothing: a word list read past its end is 0. -/
def wordAt (ws : List Word) (n : Nat) : Word := ws.getD n 0

/-- A doubleword at a byte offset of a packet (R4). -/
def dwordAt (ws : List Word) (byte : Nat) : Dword := Dword.ofWords (wordAt ws (byte / 4)) (wordAt ws (byte / 4 + 1))

/-- Ascending insertion without repeats. -/
def insertAsc (n : Nat) : List Nat → List Nat
  | [] => [n]
  | m :: t => if n < m then n :: m :: t else if n = m then m :: t else m :: insertAsc n t

/-- Members of b added to a, ascending without repeats. -/
def unionAsc (a b : List Nat) : List Nat := b.foldl (fun l n => insertAsc n l) a

/-- A list without what p marks. -/
def dropWhere {α : Type} (p : α → Bool) (l : List α) : List α := l.filter fun x => !p x

/-- The first element that satisfies p replaced by f of it. -/
def updateFirst {α : Type} (p : α → Bool) (f : α → α) : List α → List α
  | [] => []
  | x :: t => if p x then f x :: t else x :: updateFirst p f t

/-! ## Clocks, outputs, free values -/

/-- Timebase time in nanoseconds (R220). -/
def State.ns (s : State) : Nat := s.tb.ctr.toNat / 2 ^ 32

/-- Is a time of the Timebase reached? -/
def State.due (s : State) (t : Option Nat) : Bool := t.any fun n => decide (n ≤ s.ns)

/-- One output more. -/
def State.emit (s : State) (o : Output) : State := { s with out := o :: s.out }

/-- Outputs in order, first given first. -/
def State.emits (s : State) (os : List Output) : State := { s with out := os.reverse ++ s.out }

/-! ## Requests -/

/-- Header of a request to host memory in function fn's name: AT is set where the Host Port Unit holds the translation of
its page (R417). -/
def State.htp (s : State) (fn addr : Nat) : Htp :=
  { fn, pasid := Config.pasid fn % 2 ^ 20, translated := s.atc.contains (fn, addr / 4096) }

/-- A write of host memory, and a read of n bytes. -/
def State.dmaWrite (s : State) (fn addr : Nat) (ws : List Word) : Output := .hostWrite (s.htp fn addr) addr ws
def State.dmaRead (s : State) (fn addr n : Nat) : Output := .hostRead (s.htp fn addr) addr n

/-- Device address of a frame: its pool's base and its number (R195). -/
def State.frameAddr (_ : State) (f : Frame) : Nat :=
  let base := if f.pool < 12 then Config.broodBase.toNat else Config.superBase.toNat
  (base + f.number) * 65536

/-- KEYID of a device address (R408): 0 for what is shared or another chip's, else that of the instance in whose window it
lies; INSTANCE_SAVE and INSTANCE_RESTORE give KEYID 0 for their images themselves. -/
def State.keyid (s : State) (a : Nat) : Nat :=
  let within (base n : Nat) : Bool := decide (base ≤ a) && decide (a < base + n)
  let pf (u : RegionUse) : Bool := match u with
    | .models ms => ms.any fun m => Tbl.find s.pager.models m == some 0
    | .tables => false
    | .automata => false
  let region (x : Region) : Bool := pf x.use && decide (x.replica ≠ 0) &&
    (within x.base.toNat (x.pages * 65536) || within x.replica.toNat (x.pages * 65536))
  if within Config.fwArea.toNat (2 ^ 26) || s.pager.regions.any (fun e => region e.2) ||
      s.cap.held.any (fun h => h.frames.any fun f => within (s.frameAddr f) 65536) then 0
  else match (List.range 64).find? fun i => Config.inWindows i (a / 32 * 32) 32 with
    | some i => i + 1
    | none => Config.keyid (a / 65536) % 128

/-- Header of a request to device memory; the tag is a free value (R419). -/
def State.vc1 (s : State) (part : Option Nat) (a : Nat) : Vc1 :=
  { addr := a, tag := Config.requestTag s.out.length % 1024, part, keyid := s.keyid a }

/-- A write of device memory, and a read of n bytes. -/
def State.vcWrite (s : State) (part : Option Nat) (a : Nat) (ws : List Word) : Output := .devWrite (s.vc1 part a) ws
def State.vcRead (s : State) (part : Option Nat) (a n : Nat) : Output := .devRead (s.vc1 part a) n

/-- Header of a request for a migration image, whose KEYID is 0 (R408). -/
def State.imageHdr (s : State) (a : Nat) : Vc1 := { s.vc1 none a with keyid := 0 }

/-- The free value of kind k that the state draws next (log 3). -/
def State.free (s : State) (k : Nat) : Nat := Config.freeNat k s.freeCtr

/-- The state after a free value is drawn. -/
def State.drew (s : State) : State := { s with freeCtr := s.freeCtr + 1 }

/-! ## Registers -/

/-- A register of the register file. -/
def State.reg (s : State) (k : Nat) : Word := Tbl.get resetVal s.regs k

/-- A register written by the device. -/
def State.setReg (s : State) (k : Nat) (v : Word) : State := { s with regs := Tbl.put resetVal s.regs k v }

/-- Bits set in a register: a sticky bit, a W1S action. -/
def State.orReg (s : State) (k : Nat) (v : Word) : State := s.setReg k (s.reg k ||| v)

/-- Bits cleared in a register. -/
def State.andNotReg (s : State) (k : Nat) (v : Word) : State := s.setReg k (s.reg k &&& ~~~v)

/-- A counter that wraps at 2^32. -/
def State.incReg (s : State) (k : Nat) : State := s.setReg k (s.reg k + 1)

/-- A counter that wraps, advanced by n. -/
def State.addReg (s : State) (k n : Nat) : State := s.setReg k (s.reg k + Word.mk n)

/-- A counter that saturates at 0xFFFF_FFFF. -/
def State.satReg (s : State) (k : Nat) : State := s.setReg k (s.reg k).satInc

/-- A register that keeps the largest value given to it, saturating. -/
def State.maxReg (s : State) (k n : Nat) : State :=
  s.setReg k (if (s.reg k).toNat < n then Word.mk (min n 0xFFFFFFFF) else s.reg k)

/-- A field of a register. -/
def State.regField (s : State) (k h l : Nat) : Nat := (s.reg k).field h l

/-! ## Instances -/

/-- Instance i (R317). -/
def State.inst (s : State) (i : Nat) : Instance := Tbl.get instDefault s.insts i

/-- The instance is ACTIVE: its rings are fetched, its steps composed and dispatched (R323, R328). -/
def State.active (s : State) (i : Nat) : Bool := decide ((s.inst i).st = .active) && (s.inst i).seq.isNone

/-- Instance i changed. -/
def State.setInst (s : State) (i : Nat) (v : Instance) : State := { s with insts := Tbl.put instDefault s.insts i v }

/-- Does the function have an instance (R317)? -/
def State.hasInst (s : State) (i : Nat) : Bool := decide ((s.inst i).st ≠ .none)

/-- Is the device in ORPHAN (R344)? -/
def State.orphan (s : State) : Bool := decide (s.fw.lease = .orphan)

/-- Vector control of an MSI-X table entry, bit 0 masks it, and the pending bits (R448; PRESUMED, the PCIe layout,
log 43). -/
def msixControl (fn vector : Nat) : Nat := pageKey fn (Reg.msixTable + 16 * vector + 12)
def msixPending (fn : Nat) : Nat := pageKey fn Reg.msixPba

/-- An MSI-X message: to a function that has an instance, never in ORPHAN (R318, R345); a masked one stays pending. -/
def State.msix (s : State) (fn vector : Nat) : State :=
  if s.orphan || !s.hasInst fn then s
  else if (s.reg (msixControl fn vector)).bit 0 then s.orReg (msixPending fn) (Word.mk (2 ^ vector))
  else s.emit (.msix (s.htp fn 0) vector)

/-! ## Fuse map facts (R10–R14, R414) -/

/-- Word n of the fuse map, 0 before it is read. -/
def State.fuse (s : State) (n : Nat) : Word := wordAt s.power.fuses.words n

/-- Is cluster n present? -/
def State.clusterUp (s : State) (n : Nat) : Bool := decide (n < 32) && (s.fuse 1).bit n

/-- Is quarter-cluster q present? -/
def State.qcUp (s : State) (q : Nat) : Bool := decide (q < 128) && (s.fuse (2 + q / 32)).bit (q % 32)

/-- Is engine kind e present (R11)? -/
def State.engineUp (s : State) (e : Nat) : Bool := decide (e < 8) && (s.fuse 6).bit e

/-- Is global core g present? Quarter-cluster g / 16 holds it. -/
def State.coreUp (s : State) (g : Nat) : Bool := s.qcUp (g / 16)

/-! ## When the block takes commands -/

/-- Is the device in reset: while RESET_N is low (R412), and on, where the fuse map has failed its check (R13)? -/
def State.inReset (s : State) : Bool := decide (s.power.phase = .inReset) || decide (s.power.phase = .heldOff)

/-- CCLK runs and reset is released: no freeze holds the clocks (R442), the block is not asleep (R437). -/
def State.clocked (s : State) : Bool :=
  decide (s.power.freeze = none) && decide (s.power.st = .run) &&
    (decide (s.power.phase = .released) || decide (s.power.phase = .up))

/-- BAR accesses are served: the fuse map has passed, and no soft reset is under way (R433, R454). -/
def State.barOpen (s : State) : Bool :=
  s.clocked && decide (s.power.phase = .up) && decide (s.power.softDue = none)

/-- A firmware processor by its number (R335). -/
def State.proc (s : State) (p : Nat) : Proc := Tbl.get (fun _ => {}) s.fw.procs p

/-- Processor numbers of R335: control cores 0–31, then scheduler, power and guard core. -/
def schedulerCore : Nat := 32
def powerCore : Nat := 33
def guardCore : Nat := 34

/-- Is the processor RUNNING (R341)? -/
def State.procUp (s : State) (p : Nat) : Bool := decide ((s.proc p).st = .running)

/-! ## Status codes (spec/13 R306) -/

namespace St
def ok : Byte := 0x00
def pending : Byte := 0x01
def partialDone : Byte := 0x02
def busy : Byte := 0x03
def badOpcode : Byte := 0x10
def badLength : Byte := 0x11
def staleHandle : Byte := 0x12
def badState : Byte := 0x13
def badDescriptor : Byte := 0x14
def badAddress : Byte := 0x15
def noResource : Byte := 0x20
def engineAbsent : Byte := 0x23
def fenced : Byte := 0x24
def dataPoisoned : Byte := 0x30
def waitTimeout : Byte := 0x31
def slotOverrun : Byte := 0x32
def operandTimeout : Byte := 0x33
def engineFault : Byte := 0x34
def counterOverflow : Byte := 0x35
def summaryBad : Byte := 0x36
def timePast : Byte := 0x37
def machineCheck : Byte := 0x38
def discarded : Byte := 0x40
def squashed : Byte := 0x41
def fillSourceLost : Byte := 0x50
def partnerAbsent : Byte := 0x51
def stepMismatch : Byte := 0x52
def capNone : Byte := 0x53
def replayMismatch : Byte := 0x54
def version : Byte := 0x60
def auth : Byte := 0x61
def orphaned : Byte := 0x62
def openTimeout : Byte := 0xEE
def openBadStatus : Byte := 0xEF
end St

end Sys2Proof.Machine
end

