-- ==== Sys2Proof/Machine/Clock.lean ====
section
/-!
DEFINITION. The passage of time: one TB_REF cycle, which is what a step does when no command waits (log 1).
-/

namespace Sys2Proof.Machine

/-- One TB_REF cycle: the Timebase counter advances by TB_INCR (R220); CCLK advances by a number of cycles that the
spec leaves open, and not at all while the clocks are stopped or the block sleeps (R437, R442). Nothing advances in
reset (R13, R412). -/
def tbRefCycle (s : State) : State :=
  if s.inReset then s
  else
    { s with tb := { s.tb with ctr := s.tb.ctr + s.tb.incr.setWidth 96 },
             ticks := s.ticks + 1,
             cc := if s.clocked then s.cc + Config.ccPerRef s.ticks else s.cc }

end Sys2Proof.Machine
end

