-- ==== Sys2Proof/Machine/Faults.lean ====
section
/-!
DEFINITION. What every block shares of spec/17: raising a fault event (R366–R371), error messages to the host (R389),
the interrupt controller's lines (R381–R388), sending on the fence bus (R375–R377), stopping HUM_OUT (R380).
-/

namespace Sys2Proof.Machine

/-! ## Names of fault sources -/

namespace Flt
def combCe : Nat := 0
def combUe : Nat := 1
def combHard : Nat := 3
def fetchErr : Nat := 32
def notPosted : Nat := 33
def complErr : Nat := 34
def badDoorbell : Nat := 35
def badTokenHead : Nat := 36
def foreign : Nat := 37
def refused : Nat := 64
def sbErr : Nat := 65
def ucParity : Nat := 96
def ucHard : Nat := 98
def ucStack : Nat := 99
def openStatus : Nat := 100
def openCleared : Nat := 101
def tableErr : Nat := 128
def defer : Nat := 129
def savePoison : Nat := 160
def evictNoframe : Nat := 161
def drainConvert : Nat := 162
def shrink : Nat := 163
def dlNofallback : Nat := 164
def dlLate : Nat := 165
def waitTimeout : Nat := 192
def overflow : Nat := 193
def ctxPoison : Nat := 224
def regionPoison : Nat := 225
def regionLost : Nat := 226
def mirrorRepair : Nat := 227
def logLost : Nat := 228
def late : Nat := 229
def superLow : Nat := 231
def retireOvf : Nat := 232
def dlogOvf : Nat := 233
def sumBad : Nat := 256
def smpPoison : Nat := 257
def tablePoison : Nat := 258
def roundErr : Nat := 259
def recDrop : Nat := 260
def nonfinite : Nat := 261
def inexact : Nat := 262
def tbMiss : Nat := 288
def tbExtra : Nat := 289
def tbHoldover : Nat := 290
def tbExpired : Nat := 291
def phaseJump : Nat := 292
def lateStart : Nat := 293
def slotOverrun : Nat := 320
def slotSkip : Nat := 322
def slotLate : Nat := 323
def slotGuard : Nat := 324
def swmAuth : Nat := 352
def swmReplay : Nat := 353
def swmMalformed : Nat := 354
def remoteDenied : Nat := 355
def swmRate : Nat := 356
def swmWindow : Nat := 357
def swmAbsent : Nat := 358
def swmMismatch : Nat := 359
def swmSuspect : Nat := 360
def swmSkew : Nat := 361
def buddyLost : Nat := 384
def noBuddy : Nat := 385
def correlated : Nat := 386
def lossHold : Nat := 387
def cutVoid : Nat := 388
def fillLost : Nat := 389
def noCap : Nat := 390
def capMismatch : Nat := 391
def heldPoison : Nat := 392
def saveErr : Nat := 416
def restoreErr : Nat := 417
def flr : Nat := 418
def noInst : Nat := 419
def mbxDrop : Nat := 420
def fwWdt : Nat := 448
def fwHalted : Nat := 449
def fwSealed : Nat := 450
def fwOrphan : Nat := 451
def imgReject : Nat := 452
def logDrop : Nat := 453
def hubHalted : Nat := 454
def fenceApplied : Nat := 480
def noAck : Nat := 481
def busErr : Nat := 482
def storm : Nat := 512
def badComplete : Nat := 513
def retErr : Nat := 514
def postFail : Nat := 544
def entropy : Nat := 545
def pct : Nat := 546
def sigReject : Nat := 547
def spdmErr : Nat := 548
def zeroized : Nat := 549
def zeroFail : Nat := 550
def throttle : Nat := 576
def crit : Nat := 577
def deferCut : Nat := 578
def sleepRefused : Nat := 579
def thawed : Nat := 580
/-- Sources of frame agent n. -/
def frm (n bit : Nat) : Nat := 1024 + 32 * n + bit
end Flt

/-- Status register of a fault block (R366). -/
def fltSts (block : Nat) : Option Nat :=
  match block with
  | 0 => some Reg.combFltSts
  | 1 => some Reg.forFltSts
  | 2 => some Reg.cmdFltSts
  | 3 => some Reg.cmdUcFltSts
  | 4 => some Reg.stepFltSts
  | 5 => some Reg.schFltSts
  | 6 => some Reg.schWaitFltSts
  | 7 => some Reg.pagFltSts
  | 8 => some Reg.smpFltSts
  | 9 => some Reg.tbFltSts
  | 10 => some Reg.cycFltSts
  | 11 => some Reg.swmFltSts
  | 12 => some Reg.capFltSts
  | 13 => some Reg.hpuInstFltSts
  | 14 => some Reg.dbgFwFltSts
  | 15 => some Reg.prpFltSts
  | 16 => some Reg.icFltSts
  | 17 => some Reg.grdFltSts
  | 18 => some Reg.pwrFltSts
  | b => if 32 ≤ b ∧ b < 64 then some (Reg.frmFltSts + 0x1000 * (b - 32)) else none

/-- The fault block whose force register lies at an offset. -/
def forceBlock (off : Nat) : Option Nat :=
  (List.range 64).find? fun b => match fltSts b with
    | some sts => sts + 4 == off
    | none => false

/-! ## Fence bus, sending (R375–R377) -/

/-- CRC-8 of R375: polynomial 0x07 over the bits of a list, most significant first. -/
def crc8 (bits : List Bool) : Byte :=
  bits.foldl (fun c b => if (c.getLsbD 7) != b then (c <<< 1) ^^^ 0x07#8 else c <<< 1) 0

/-- The n low bits of a number, most significant first. -/
def msbBits (n x : Nat) : List Bool := (List.range n).reverse.map fun i => x.testBit i

/-- KIND codes of R375. -/
def BusKind.code : BusKind → Nat
  | .fence => 1
  | .unfence => 2
  | .reg => 3
  | .irq => 4

/-- CHECK of a message (R375): over bits [95:72] and [63:0]. -/
def busCheck (kind cls index : Nat) (seq : Byte) (payload : Dword) : Byte :=
  crc8 (msbBits 4 kind ++ msbBits 4 cls ++ msbBits 8 index ++ msbBits 8 seq.toNat ++ msbBits 64 payload.toNat)

/-- Key of a target. -/
def busKey (cls index : Nat) : Nat := cls * 256 + index

def State.target (s : State) (cls index : Nat) : BusTarget := Tbl.get (fun _ => {}) s.fences.bus (busKey cls index)

def State.setTarget (s : State) (cls index : Nat) (t : BusTarget) : State :=
  { s with fences := { s.fences with bus := Tbl.put (fun _ => {}) s.fences.bus (busKey cls index) t } }

/-- The message of a queue that goes first: FENCE and UNFENCE ahead of REG, REG ahead of IRQ, each in order (R376). -/
def busPick (q : List BusMsg) : Option BusMsg :=
  match q.find? (fun m => m.kind == .fence || m.kind == .unfence) with
  | some m => some m
  | none => match q.find? (fun m => m.kind == .reg) with
    | some m => some m
    | none => q.head?

/-- One transmission of a message to a target. -/
def State.busEmit (s : State) (cls index : Nat) (m : BusMsg) (seq : Byte) : State :=
  s.emit (.bus cls index m.kind.code seq (busCheck m.kind.code cls index seq m.payload) m.payload)

/-- The hub sends a target its next message, when none is on its way (R376). -/
def State.busPump (s : State) (cls index : Nat) : State :=
  let t := s.target cls index
  match t.dead, t.sent, busPick t.queue with
  | false, none, some m =>
    let seq := t.next
    let q := t.queue.erase m
    (s.setTarget cls index { t with next := t.next + 1, queue := q,
                                    sent := some { msg := m, seq, sentCc := s.cc } }).busEmit cls index m seq
  | _, _, _ => s

/-- The fence bus has no target in a fused-off cluster (R14, R23). -/
def State.onBus (s : State) (cls index : Nat) : Bool := cls != 0 || s.clusterUp index

/-- A message queued to a target; a later IRQ message stands for an earlier one not yet sent (R377). -/
def State.busSend (s : State) (cls index : Nat) (m : BusMsg) : State :=
  let t := s.target cls index
  if t.dead || !s.onBus cls index then s
  else
    let q := match m.kind with
      | .irq => dropWhere (fun x => x.kind == .irq) t.queue
      | _ => t.queue
    (s.setTarget cls index { t with queue := q ++ [m] }).busPump cls index

/-! ## Interrupt controller lines (R381–R387) -/

/-- Is the source of the map of R381? Others, and source 0, are never pending. -/
def irqListed (n : Nat) : Bool :=
  (decide (1 ≤ n) && decide (n ≤ 99)) || (decide (101 ≤ n) && decide (n ≤ 280)) || (decide (704 ≤ n) && decide (n ≤ 767))

def State.irq (s : State) (n : Nat) : IrqSrc := Tbl.get (fun _ => {}) s.ic.srcs n

def State.setIrq (s : State) (n : Nat) (x : IrqSrc) : State :=
  { s with ic := { s.ic with srcs := Tbl.put (fun _ => {}) s.ic.srcs n x } }

/-- Is the group's hold-off timer running (R385)? -/
def State.grpRuns (s : State) (g : Nat) : Bool :=
  match Tbl.find s.ic.timers g with
  | some due => decide (s.cc < due)
  | none => false

/-- Presentable (R382). -/
def State.presentable (s : State) (n : Nat) (x : IrqSrc) : Bool :=
  irqListed n && x.cfg.bit 31 && x.level && !x.masked && decide (x.active = none) && !s.grpRuns (x.cfg.field 21 16)

/-- A source presentable to a processor and class. -/
def State.presents (s : State) (p : Nat) (fast : Bool) (n : Nat) (x : IrqSrc) : Bool :=
  s.presentable n x && decide (x.cfg.field 29 24 = p) && decide (x.cfg.bit 30 = fast)

/-- Request line of a processor and class (R382): held low while IC_CTRL.EN = 0. -/
def State.reqLine (s : State) (p : Nat) (fast : Bool) : Bool :=
  (s.reg Reg.icCtrl).bit 0 && s.ic.srcs.any fun e => s.presents p fast e.1 e.2

/-- Levels of a control core's two request lines, as an IRQ message carries them (R375). -/
def State.lineLevels (s : State) (p : Nat) : Nat := bitAt 0 (s.reqLine p false) + bitAt 1 (s.reqLine p true)

/-- IRQ messages to the agents whose control core's lines have changed (R377). -/
def State.icSync (s : State) : State :=
  (List.range 32).foldl (fun s p =>
    let now := s.lineLevels p
    let was := bitAt 0 (s.ic.lines.contains (2 * p)) + bitAt 1 (s.ic.lines.contains (2 * p + 1))
    if now = was then s
    else
      let rest := dropWhere (fun l => l / 2 == p) s.ic.lines
      let lines := (if now.testBit 0 then [2 * p] else []) ++ (if now.testBit 1 then [2 * p + 1] else []) ++ rest
      ({ s with ic := { s.ic with lines } }).busSend 0 p { kind := .irq, payload := BitVec.ofNat 64 now }) s

/-! ## Classification by counting (R369) -/

/-- Threshold n of a PRP_F_CFG. -/
def fltThreshold (cfg : Word) : Nat := if cfg.bit 0 then 16 * cfg.field 31 24 else cfg.field 31 24

/-- Window of the WUNIT and WVAL fields in ns: WVAL 0 taken as 1, WUNIT 3 as s, at most 3 600 s (R391). -/
def fltWindowNs (cfg : Word) : Nat :=
  let u := match cfg.field 23 22 with
    | 0 => 1000
    | 1 => 1000000
    | _ => 1000000000
  min (max 1 (cfg.field 21 10) * u) 3600000000000

/-- A counter after an event at time t. -/
def FltCount.event (x : FltCount) (t w : Nat) : FltCount :=
  if x.c = 0 ∨ w ≤ t - x.ws then { c := 1, ws := t } else { x with c := min 4095 (x.c + 1) }

/-- An IRQ, MSI or MSI_TO field with 3 taken as 2. -/
def modeField (cfg : Word) (l : Nat) : Nat := min 2 (cfg.field (l + 1) l)

/-! ## Error messages to the host (R389) -/

/-- Bits of a summary pair, 0 when both words are zero. -/
def State.sumEmpty (s : State) (lo hi : Nat) : Bool := decide (s.reg lo = 0) && decide (s.reg hi = 0)

/-- A message for an instance: its summary bit, the last-error register, vector 1 when the summary leaves zero. -/
def State.errToInst (s : State) (i id : Nat) (status : Byte) : State :=
  let lo := pageKey i Reg.mbxErrSum0
  let hi := pageKey i Reg.mbxErrSum1
  let first := s.sumEmpty lo hi
  let s := s.orReg (if id / 32 < 32 then lo else hi) (Word.mk (2 ^ (id / 32 % 32)))
  let s := s.setReg (pageKey i Reg.mbxErrLast) (Word.mk (status.toNat * 2 ^ 24 + id))
  if first then s.msix i 1 else s

/-- A device-wide message for the physical function, vector 2. -/
def State.errToPf (s : State) (id : Nat) (status : Byte) : State :=
  let first := s.sumEmpty Reg.prpErrSum0 Reg.prpErrSum1
  let s := s.orReg (if id / 32 < 32 then Reg.prpErrSum0 else Reg.prpErrSum1) (Word.mk (2 ^ (id / 32 % 32)))
  let s := s.setReg Reg.prpErrLast (Word.mk (status.toNat * 2 ^ 24 + id))
  if first then s.msix 0 2 else s

/-- The message of a source under MSI_TO; one without an owning instance is device-wide (R370). -/
def State.errMessage (s : State) (aim id : Nat) (inst : Option Nat) (status : Byte) : State :=
  match aim, inst with
  | 0, some i => s.errToInst i id status
  | 1, _ => s.errToPf id status
  | _, some i => (s.errToInst i id status).errToPf id status
  | _, none => s.errToPf id status

/-! ## HUM_OUT stops (R380) -/

/-- A stop condition: the first cause is recorded; the line falls at the next toggle time (HUM_TOGGLE). -/
def State.humStop (s : State) (id : Nat) : State :=
  if s.hum.stopped then s else { s with hum := { s.hum with stopped := true, cause := id } }

/-- HALF_US in TB_REF cycles of the nominal period, taken within 100 to 10 000 µs (R378). -/
def State.humHalf (s : State) : Nat :=
  max 100 (min (s.regField Reg.prpHumCtrl 15 0) 10000) * 1000 * 2 ^ 32 / Config.tbRefPeriod

/-! ## Events (R367–R370) -/

/-- One event of a source: the unit it names, the owning instance, the status returned, whether it was forced, and the
unit that FENCE fences, as class and index of R372. -/
structure FltEvent where
  id     : Nat
  unit   : Nat := 0
  inst   : Option Nat := none
  status : Byte := 0
  forced : Bool := false
  fence  : Option (Nat × Nat) := none
  /-- The source's table gives this event no message to the host (R54, a FREE entry). -/
  silent : Bool := false
  deriving DecidableEq, Repr

/-- The mask that a source's FENCE sets where R370 gives it a mask rather than a fence: the ingress port of
authentication and replay failures (R254), PPS_IN (R238). -/
def State.fltMask (s : State) (id unit : Nat) : State :=
  if id = Flt.swmAuth ∨ id = Flt.swmReplay then
    s.orReg (Reg.swmPortMask + 4 * (unit / 32)) (Word.mk (2 ^ (unit % 32)))
  else if id = Flt.tbExtra then
    (s.andNotReg Reg.tbCtrl 1).orReg Reg.tbFltSts 0x40
  else s

/-- The reactions of a source that turns severe (R370). -/
def State.turnSevere (s : State) (e : FltEvent) (cfg : Word) : State :=
  let s := s.setReg (prpFSev e.id) (Word.mk (2 ^ 31 + e.unit % 2 ^ 13))
  let s := match faultSpec e.id, fltSts (e.id / 32) with
    | some f, some sts => match f.sevBit with
      | some b => s.orReg sts (Word.mk (2 ^ b))
      | none => s
    | _, _ => s
  let s := if modeField cfg 6 = 2 ∧ e.silent = false then s.errMessage (modeField cfg 4) e.id e.inst e.status else s
  let s := if 32 ≤ e.id / 32 ∧ e.id % 32 = 5 then
    s.andNotReg (Reg.frmCtrl + 0x1000 * (e.id / 32 - 32)) 1 else s
  if e.forced && (s.reg Reg.prpCtrl).bit 0 then s
  else
    let s := if cfg.bit 2 then s.humStop e.id else s
    if cfg.bit 3 then
      let s := s.fltMask e.id e.unit
      match e.fence with
      | some u => { s with fences := { s.fences with demand := s.fences.demand ++ [u] } }
      | none => s
    else s

/-! ## The health monitor (R267) -/

/-- One event of an event input: 0 MEM_CE, 1 COMB_CE, 2 LINK, 3 ENGINE, 4 THERMAL. -/
def State.healthEvent (s : State) (input : Nat) : State :=
  let l := Tbl.get (fun _ => []) s.health.events input
  { s with health := { s.health with events := Tbl.insert s.health.events input (s.ns :: l) } }

/-- The event input of the health monitor that a fault source feeds: COMB_CE, or the ENGINE source of a frame agent
(R267). A forced event counts as any. -/
def healthInput (id : Nat) : Option Nat :=
  if id = Flt.combCe then some 1 else if 1024 ≤ id ∧ id % 32 = 3 then some 3 else none

/-- Sticky bit, counts and reactions of one event, the interrupt line of the block apart. -/
def State.raiseQuiet (s : State) (e : FltEvent) : State :=
  match fltSts (e.id / 32) with
  | none => s
  | some sts =>
    if 1024 ≤ e.id ∧ s.clusterUp (e.id / 32 - 32) = false then s else
    let cfg := s.reg (prpFCfg e.id)
    let unit := if cfg.bit 1 then e.unit else 0
    let key := e.id * 8192 + unit
    let x := (Tbl.get (fun _ => {}) s.fences.counts key : FltCount).event s.ns (fltWindowNs cfg)
    let turns := decide (x.c = fltThreshold cfg) && !(s.reg (prpFSev e.id)).bit 31
    let s := match healthInput e.id with
      | some i => s.healthEvent i
      | none => s
    let s := s.orReg sts (Word.mk (2 ^ (e.id % 32)))
    let s := { s with fences := { s.fences with counts := Tbl.put (fun _ => {}) s.fences.counts key x } }
    let s := (s.setReg (prpFLast e.id) (Word.mk (x.c * 2 ^ 20 + e.unit % 2 ^ 13))).satReg (prpFTotal e.id)
    let s := if modeField cfg 6 = 1 ∧ e.silent = false then s.errMessage (modeField cfg 4) e.id e.inst e.status else s
    if turns then s.turnSevere e cfg else s

/-- The interrupt line of a fault block: high while any of its sources selects it under IRQ (R370). -/
def State.blockLine (s : State) (b : Nat) : Bool :=
  match fltSts b with
  | none => false
  | some sts => (List.range 32).any fun i =>
      match modeField (s.reg (prpFCfg (32 * b + i))) 8 with
      | 0 => false
      | 1 => (s.reg sts).bit i
      | _ => (s.reg (prpFSev (32 * b + i))).bit 31

/-- The unit behind an interrupt source that a storm may fence (R387, R372): its class and index. -/
def stormUnit (n : Nat) : Option (Nat × Nat) :=
  if 165 ≤ n ∧ n ≤ 176 then some (2, n - 165)
  else if 177 ≤ n ∧ n ≤ 208 then some (3, n - 177)
  else if 209 ≤ n ∧ n ≤ 280 then some (4, n - 209)
  else if 736 ≤ n ∧ n ≤ 767 then some (1, n - 736)
  else none

/-- A source's level changes: a rise is counted against IC_STORM_CFG, and a storm masks the source and is one event of
IC_FLT_STS.STORM (R384, R387). The flag answers whether that event happened. -/
def State.irqLevelCore (s : State) (n : Nat) (level : Bool) : State × Bool :=
  let x := s.irq n
  if x.level = level ∨ irqListed n = false then (s, false)
  else if level = false then (s.setIrq n { x with level := false }, false)
  else
    let cfg := s.reg Reg.icStormCfg
    let k := ({ c := x.rises, ws := x.ws } : FltCount).event s.ns (fltWindowNs cfg)
    let storm := decide (k.c = cfg.field 31 24) && !x.masked
    let x' := { x with level := true, rises := k.c, ws := k.ws, masked := x.masked || storm,
                       reasserted := x.reasserted || decide (x.active ≠ none) }
    let s := s.setIrq n x'
    if storm then
      let s := s.setReg Reg.icFltInfo (Word.mk (n + x.cfg.field 29 24 * 2 ^ 26))
      (s.raiseQuiet { id := Flt.storm, unit := n, fence := stormUnit n }, true)
    else (s, false)

/-- The level of a source set, with the interrupt controller's own block line after a storm, and the request lines. -/
def State.irqLevel (s : State) (n : Nat) (level : Bool) : State :=
  let r := s.irqLevelCore n level
  let s := if r.2 then (r.1.irqLevelCore (704 + 16) (r.1.blockLine 16)).1 else r.1
  s.icSync

/-- The interrupt line of a fault block brought up to date. -/
def State.syncLine (s : State) (b : Nat) : State := s.irqLevel (704 + b) (s.blockLine b)

/-- One event of a fault source (R367–R370). -/
def State.raise (s : State) (e : FltEvent) : State := (s.raiseQuiet e).syncLine (e.id / 32)

/-- The 32 bytes of a log record (R350). -/
def logWords (proc level code : Nat) (seq : Word) (ns : Dword) (args : List Word) : List Word :=
  [Word.mk (proc * 2 ^ 26 + level * 2 ^ 16 + code), seq, ns.lo, ns.hi] ++
    (args ++ [0, 0, 0]).take 3 ++ [2]

/-- A log record (R350): written only at or above DBG_LOG_LEVEL, dropped where the ring is full or in ORPHAN, its last 8
bytes after the others. Which processor writes it is open, as are arguments that no rule gives (free values, log 52). -/
def State.logEvent (s : State) (level code : Nat) (args : List Word) : State :=
  if !(s.reg Reg.dbgLogCtrl).bit 0 || decide (level < s.regField Reg.dbgLogLevel 7 0) then s
  else
    let sz := s.regField Reg.dbgLogCtrl 20 16
    let cap := 2 ^ (if 6 ≤ sz ∧ sz ≤ 16 then sz else 6)
    let proc := s.free 25 % 35
    if cap ≤ (s.reg Reg.dbgLogTail - s.reg Reg.dbgLogHead).toNat ∨ s.orphan = true then
      ((s.drew.satReg Reg.dbgLogDropCnt).setReg Reg.dbgFwFltInfo (Word.mk proc)).raise { id := Flt.logDrop }
    else
      let seq : Word := Tbl.get (fun _ => 0) s.fw.logSeq proc
      let args := args ++ (List.range (3 - args.length)).map fun i => Word.mk (s.free (26 + i))
      let at_ := (Dword.ofWords (s.reg Reg.dbgLogBaseLo) (s.reg Reg.dbgLogBaseHi)).toNat + 32 * ((s.reg Reg.dbgLogTail).toNat % cap)
      let ws := logWords proc level code seq (BitVec.ofNat 64 s.ns) args
      let s := { s with fw := { s.fw with logSeq := Tbl.put (fun _ => 0) s.fw.logSeq proc (seq + 1) } }
      (s.drew.incReg Reg.dbgLogTail).emits
        [s.dmaWrite 0 at_ (ws.take 6), s.dmaWrite 0 (at_ + 24) (ws.drop 6)]

end Sys2Proof.Machine
end

