-- ==== Sys2Proof/Machine/SchedOps.lean ====
section
/-!
DEFINITION. Access to partitions, contexts and agents, and the operations on a dispatched step that several blocks use:
its launches' ends, its status (R87), a step stop (R86).
-/

namespace Sys2Proof.Machine

/-! ## Access -/

def State.ctx (s : State) (c : Nat) : Context := Tbl.get (fun _ => {}) s.sched.ctxs c

def State.setCtx (s : State) (c : Nat) (x : Context) : State :=
  { s with sched := { s.sched with ctxs := Tbl.put (fun _ => {}) s.sched.ctxs c x } }

/-- Does a step wait in a context's queue, not dispatched yet? -/
def State.stepWaits (s : State) (seq : Word) : Bool := s.sched.ctxs.any fun e => e.2.queued.any fun q => q.seq == seq
def State.modCtx (s : State) (c : Nat) (f : Context → Context) : State := s.setCtx c (f (s.ctx c))

def State.part (s : State) (p : Nat) : Option Partition := Tbl.find s.sched.parts p

/-- Partition p, an empty one where none exists. -/
def State.partD (s : State) (p : Nat) : Partition := (s.part p).getD {}

def State.modPart (s : State) (p : Nat) (f : Partition → Partition) : State :=
  { s with sched := { s.sched with parts := Tbl.adjust f s.sched.parts p } }

def State.agent (s : State) (a : Nat) : Agent := Tbl.get (fun _ => {}) s.agents a

def State.setAgent (s : State) (a : Nat) (x : Agent) : State :=
  { s with agents := Tbl.put (fun _ => {}) s.agents a x }

def State.modAgent (s : State) (a : Nat) (f : Agent → Agent) : State := s.setAgent a (f (s.agent a))

/-- Slot s of a partition: its state and context (R200). -/
def Partition.slot (p : Partition) (k : Nat) : SlotState × Nat := Tbl.get (fun _ => (.empty, 0)) p.slots k

/-- A slot changed. -/
def Partition.setSlot (p : Partition) (k : Nat) (x : SlotState × Nat) : Partition :=
  { p with slots := Tbl.put (fun _ => (.empty, 0)) p.slots k x }

/-- Agents that serve a partition's quarter-clusters, ascending (R19). -/
def Partition.agents (p : Partition) : List Nat := p.qcs.foldl (fun l q => insertAsc (q / 4) l) []

/-- Global cores of a quarter-cluster (R10). -/
def qcCores (q : Nat) : List Nat := (List.range 16).map fun i => 16 * q + i

/-- Global cores of a partition in rank order: ascending global number (R62). -/
def Partition.cores (p : Partition) : List Nat :=
  (p.qcs.foldl (fun l q => insertAsc q l) []).flatMap qcCores

/-- Band of a context: 8 from the start of a time-triggered step until it ends (R199, R206). -/
def Context.band (x : Context) : Nat :=
  match x.dispatched with
  | some st => if st.released then 8 else x.prio / 32
  | none => x.prio / 32

/-- Partition, slot and step of the dispatched step of context c. -/
def State.stepOf (s : State) (c : Nat) : Option Step := (s.ctx c).dispatched

def State.modStep (s : State) (c : Nat) (f : Step → Step) : State :=
  s.modCtx c fun x => { x with dispatched := x.dispatched.map f }

/-! ## Launches and the step's status -/

/-- A launch has ended at the hub: every dispatched agent has returned its record (R85). -/
def Step.launchEnded (st : Step) (l : Nat) : Bool :=
  st.agents.all fun a => st.records.any fun r => r.agent == a && r.launch == l

/-- Status of a launch at the step's end: what the hub decided for it, else the first record other than ST_OK among the
agents', in the order taken (DESIGN CHOICE, log 59), a status other than ST_SQUASHED first. -/
def Step.launchStatus (st : Step) (l : Nat) : Byte :=
  match st.ends.find? (fun e => e.1 == l) with
  | some e => e.2
  | none =>
    let rs := (st.records.filter fun r => r.launch == l).map fun r => r.status
    match rs.find? (fun b => b != St.ok && b != St.squashed) with
    | some b => b
    | none => if rs.contains St.squashed then St.squashed else St.ok

/-- Status of a step (R87): that of the lowest-indexed launch that is neither ST_OK nor ST_SQUASHED; ST_OK when every
launch ended ST_OK; ST_SQUASHED where launches were squashed, or the step was stopped before its launches were known,
and none names another status (DESIGN CHOICE, log 14). -/
def Step.status (st : Step) : Byte :=
  match st.forced with
  | some b => b
  | none =>
    let beyond := (st.ends.filter fun e => decide (st.launches ≤ e.1)).map fun e => e.2
    let all := (List.range st.launches).map st.launchStatus ++ beyond
    match all.find? (fun b => b != St.ok && b != St.squashed) with
    | some b => b
    | none => if all.contains St.squashed || (st.stopSent && st.launches == 0) then St.squashed else St.ok

/-! ## Step stop (R86) -/

/-- The hub sends a step stop to every dispatched agent, once, and ABORT of the context to the link engines (R424).
REPLAYABLE of a bound context is set when the step has
written nothing (R269). -/
def State.stopStep (s : State) (c : Nat) : State :=
  match s.stepOf c with
  | none => s
  | some st =>
    if st.stopSent then s
    else
      let s := s.modStep c fun x => { x with stopSent := true }
      let marks := Tbl.adjust (fun k => { k with replayable := !k.stepWrote }) s.cap.ctxs c
      let s := { s with cap := { s.cap with ctxs := marks } }
      let s := s.emit (.linkCmd 0x7F 1 (BitVec.ofNat 64 (c * 2 ^ 52)))
      st.awaiting.foldl (fun s a => s.emit (.stop a (s.ctx c).partition (s.ctx c).slot)) s

/-- The step of context c stopped, its launch l ending with a status of the hub's: the rest end ST_SQUASHED. -/
def State.stopWith (s : State) (c l : Nat) (status : Byte) : State :=
  (s.modStep c fun st => { st with ends := (l, status) :: st.ends }).stopStep c

/-- The lowest-indexed launch of a step's timing list that has not ended (R250, R251); 0 where the list names none. -/
def Step.firstTimed (st : Step) : Nat :=
  ((st.timed.map fun e => e.1).filter fun l => !st.launchEnded l).foldl (fun m l => min m l) 65536 % 65536

/-- The context whose dispatched step carries a SWARM_STEP. -/
def State.swarmCtx (s : State) (step : Dword) : Option Nat :=
  (s.sched.ctxs.find? fun e => match e.2.dispatched with
    | some st => st.t0 != 0 && st.swarmStep == step
    | none => false).map fun e => e.1

/-- FLT_INFO and FLT_SEQ of the scheduler (R218). -/
def State.schInfo (s : State) (status : Byte) (c p : Nat) (seq : Word) : State :=
  (s.setReg Reg.schFltInfo (Word.mk (status.toNat * 2 ^ 24 + c * 2 ^ 12 + p))).setReg Reg.schFltSeq seq

/-! ## Serving partitions -/

def State.serve (s : State) (p : Nat) : ServePart := Tbl.get (fun _ => {}) s.comp.parts p

/-- A partition's state written: a forecast that falls due takes its place behind the others (R132). -/
def State.setServe (s : State) (p : Nat) (x : ServePart) : State :=
  let others := dropWhere (fun q => q == p) s.comp.fcOrder
  let fcOrder := if x.forecastDue == (s.serve p).forecastDue then s.comp.fcOrder
    else if x.forecastDue then others ++ [p] else others
  { s with comp := { s.comp with parts := Tbl.put (fun _ => {}) s.comp.parts p x, fcOrder } }

def State.modServe (s : State) (p : Nat) (f : ServePart → ServePart) : State := s.setServe p (f (s.serve p))

end Sys2Proof.Machine
end

