-- ==== Sys2Proof/Machine/SwarmOps.lean ====
section
/-!
DEFINITION. The Swarm Port's shared operations (spec/10): access to members, sending a packet, the checks of a received
one (R244, R245), changes of a member's state, the stop of a swarm step.
-/

namespace Sys2Proof.Machine

/-! ## Access -/

def State.member (s : State) (m : Nat) : SwarmMember := Tbl.get (fun _ => {}) s.swarm.members m

def State.setMember (s : State) (m : Nat) (x : SwarmMember) : State :=
  { s with swarm := { s.swarm with members := Tbl.put (fun _ => {}) s.swarm.members m x } }

def State.modMember (s : State) (m : Nat) (f : SwarmMember → SwarmMember) : State := s.setMember m (f (s.member m))

/-- UP or SUSPECT. -/
def SwarmMember.present (x : SwarmMember) : Bool := decide (x.st = .up) || decide (x.st = .suspect)

/-- This chip's own index. -/
def State.selfIndex (s : State) : Option Nat := s.swarm.self.map fun t => t.1

/-- Members of group g (R241). -/
def State.group (s : State) (g : Nat) : List Nat := Tbl.get (fun _ => []) s.swarm.groups g

/-- Times of the port's registers in ns, with the values that R255 takes for too small ones. -/
def State.hbNs (s : State) : Nat := max 100 (s.regField Reg.swmHbUs 19 0) * 1000
def State.absentNs (s : State) : Nat := max ((s.reg Reg.swmAbsentUs).toNat * 1000) (2 * s.hbNs)
def State.retryNs (s : State) : Nat := max 1 (s.regField Reg.swmRetryUs 15 0) * 1000
def State.ttPeriodNs (s : State) : Nat := max 1 (s.regField Reg.swmTtPeriodMs 15 0) * 1000000
def State.ttLaunchNs (s : State) : Nat := max 500 (s.regField Reg.swmTtLaunchNs 15 0)

/-! Packet types of R247 and R273. -/

namespace Pkt
def hello : Nat := 0x01
def helloAck : Nat := 0x02
def heartbeat : Nat := 0x03
def timeReq : Nat := 0x08
def timeResp : Nat := 0x09
def collAnnounce : Nat := 0x10
def stepSlip : Nat := 0x11
def collAbandon : Nat := 0x12
def stateNotice : Nat := 0x18
def capOffer : Nat := 0x20
def capAccept : Nat := 0x21
def capReport : Nat := 0x22
def capPlan : Nat := 0x23
def capCut : Nat := 0x24
def capSeal : Nat := 0x25
def capAck : Nat := 0x26
def capFill : Nat := 0x27
def remoteCmd : Nat := 0x30
def remoteResult : Nat := 0x31
end Pkt

/-- Words of a doubleword, low first (R4). -/
def dwordWords (d : Dword) : List Word := [d.lo, d.hi]

/-! ## Sending -/

/-- May the port send to member m now? It is enabled, a swarm key is current (R406), and the member's entry is neither
EMPTY nor BARRED nor this chip's own (R241, R242). -/
def State.canSend (s : State) (m : Nat) : Bool :=
  (s.reg Reg.swmCtrl).bit 0 && decide (s.guard.current ≠ none) && decide (s.selfIndex ≠ some m) &&
    decide ((s.member m).st ≠ .empty) && decide ((s.member m).st ≠ .barred)

/-- TB_STATUS.STATE (R239). -/
def LockState.code : LockState → Nat
  | .freeRun => 0
  | .acquiring => 1
  | .locked => 2
  | .holdover => 3
  | .expired => 4

/-- TRACEABLE: LOCKED or HOLDOVER (R224). -/
def Timebase.traceable (t : Timebase) : Bool := decide (t.lock = .locked) || decide (t.lock = .holdover)

/-- The header of a packet to member m (R244). -/
def State.swarmHeader (s : State) (m type seq : Nat) (payload : List Word) : List Word :=
  let epoch := (s.guard.current.map fun k => k.epoch.toNat).getD 0
  [Word.mk (2 ^ 28 + type * 2 ^ 20 + (payload.length + 1) / 2), Word.mk (s.selfIndex.getD 0 * 2 ^ 16 + m), Word.mk seq,
   Word.mk (seq / 2 ^ 32), Word.mk (epoch * 2 ^ 16), Word.mk (bitAt 3 s.tb.traceable + s.tb.lock.code), 0, 0]

/-- The class in which a packet type is queued (R249). -/
def pktClass (type : Nat) : Nat :=
  if type = Pkt.stepSlip ∨ type = Pkt.collAbandon ∨ type = Pkt.stateNotice then 0
  else if type = Pkt.timeReq ∨ type = Pkt.timeResp then 1
  else if type = Pkt.collAnnounce ∨ (Pkt.capOffer ≤ type ∧ type ≤ Pkt.capFill) then 2
  else 3

/-- One packet queued for a member, to be launched at a time or at once (R249). -/
def State.sendPktAt (s : State) (m type launchAt : Nat) (payload : List Word) : State :=
  if s.canSend m then
    let s := s.setMember m { s.member m with sentNow := true }
    { s with swarm := { s.swarm with sendq := s.swarm.sendq ++ [{ member := m, type, launchAt, payload }] } }
  else s

/-- A queued packet sent, with the next SEQ of its destination (R246), unless the port no longer sends to the member. -/
def State.sendOut (s : State) (q : Queued) : State :=
  if s.canSend q.member then
    let x := s.member q.member
    let seq := s.swarm.seqBase.getD 0 + x.sent
    ((s.setMember q.member { x with sent := x.sent + 1 }).incReg Reg.swmTxCnt).emit
      (.swarm q.launchAt (s.swarmHeader q.member q.type seq q.payload) q.payload)
  else s

/-- The send queue served by strict priority of its classes, each in the order queued (R249); between two commands the port
sends all that is queued (log 57). -/
def State.sendDrain (s : State) : State :=
  let ofClass (c : Nat) : List Queued := s.swarm.sendq.filter fun q => pktClass q.type == c
  (ofClass 0 ++ ofClass 1 ++ ofClass 2 ++ ofClass 3).foldl State.sendOut { s with swarm := { s.swarm with sendq := [] } }

def State.sendPkt (s : State) (m type : Nat) (payload : List Word) : State := s.sendPktAt m type 0 payload

/-- One packet to each of a list of members. -/
def State.sendAll (s : State) (ms : List Nat) (type : Nat) (payload : List Word) : State :=
  ms.foldl (fun s m => s.sendPkt m type payload) s

/-- A packet sent twice, the second copy 10 µs after the first (R248, R273). -/
def State.sendTwice (s : State) (ms : List Nat) (type : Nat) (payload : List Word) : State :=
  let s := s.sendAll ms type payload
  let later := ms.map fun m => ({ member := m, type, payload, due := s.ns + 10000 } : SecondCopy)
  { s with swarm := { s.swarm with copies := s.swarm.copies ++ later } }

/-- A request under R248: sent with a new TICKET and kept until it is answered. The TICKET is what f places. -/
def State.sendRequest (s : State) (m type context : Nat) (f : Word → List Word) : State :=
  let t := s.swarm.nextTicket
  let q : Request := { member := m, type, ticket := t, payload := f t, sentAt := s.ns, context }
  let s := { s with swarm := { s.swarm with nextTicket := t + 1, requests := s.swarm.requests ++ [q] } }
  s.sendPkt m type (f t)

/-- This chip's HELLO payload (R247). -/
def State.helloPayload (s : State) : List Word :=
  match s.swarm.self with
  | some (_, chip, domain) => dwordWords chip ++ [domain, 0]
  | none => [0, 0, 0, 0]

/-! ## Receiving (R244, R245) -/

/-- SWM_FLT_INFO (R255). -/
def State.swmInfo (s : State) (status : Byte) (port m : Nat) : State :=
  s.setReg Reg.swmFltInfo (Word.mk (status.toNat * 2 ^ 24 + port * 2 ^ 13 + m))

/-- Check 1: the source is a member that the port hears, the packet is for this chip, the port is neither masked nor
fenced (R244, R372). -/
def State.srcOk (s : State) (h : SwarmHdr) : Bool :=
  decide (h.src < 8192) && decide (s.selfIndex = some h.dst) && decide (h.src ≠ h.dst) &&
    decide ((s.member h.src).st ≠ .empty) && decide ((s.member h.src).st ≠ .barred) &&
    !(s.reg (Reg.swmPortMask + 4 * (h.port / 32))).bit (h.port % 32) && !s.fences.links.contains h.port

/-- Check 2: the epoch is the current or the previous one, and the tag verifies. -/
def State.epochOk (s : State) (h : SwarmHdr) : Bool :=
  h.tagOk && ((s.guard.current.any fun k => k.epoch == h.epoch) || (s.guard.previous.any fun k => k.epoch == h.epoch))

/-- Check 4 (R245): the replay state after a SEQ that passes; none where it does not. -/
def SwarmMember.replay (x : SwarmMember) (seq : Dword) : Option SwarmMember :=
  let n := seq.toNat
  let hi := x.high.toNat
  if n = 0 then none
  else if hi < n then
    let d := n - hi
    some { x with high := seq, map := if d < 64 then (x.map <<< d) ||| 1 else 1 }
  else if hi - n < 64 ∧ x.map.getLsbD (hi - n) = false then
    some { x with map := x.map ||| (1#64 <<< (hi - n)) }
  else none

/-- The bucket refilled to time t: RATE packets per ms, in millionths of a packet, up to BURST (R245). -/
def SwarmMember.refill (x : SwarmMember) (t : Nat) : SwarmMember :=
  { x with bucket := min (x.burst.toNat * 1000000) (x.bucket + (t - x.bucketAt) * x.rate.toNat), bucketAt := t }

/-- The ending of requests that a member owes an answer, for the reason that it is absent or barred: the requests that
ended, and the state without them (R242). -/
def State.takeRequests (s : State) (m : Nat) : List Request × State :=
  (s.swarm.requests.filter fun q => q.member == m,
   { s with swarm := { s.swarm with requests := dropWhere (fun q => q.member == m) s.swarm.requests,
                                    copies := dropWhere (fun q => q.member == m) s.swarm.copies } })

/-- Does an event of a counted source turn it severe (R369, R370)? Read before the event is raised. -/
def State.willTurn (s : State) (id unit : Nat) : Bool :=
  let cfg := s.reg (prpFCfg id)
  let key := id * 8192 + (if cfg.bit 1 then unit else 0)
  let x := (Tbl.get (fun _ => {}) s.fences.counts key : FltCount).event s.ns (fltWindowNs cfg)
  decide (x.c = fltThreshold cfg) && !(s.reg (prpFSev id)).bit 31

/-- A dropped packet counted (R255). -/
def State.swmDrop (s : State) : State := s.satReg Reg.swmDropCnt

end Sys2Proof.Machine
end

