-- ==== Sys2Proof/Machine/Entry.lean ====
section
/-!
DEFINITION. Rings, entries, completions and long operations as the command interpreter handles them (spec/12 R284,
spec/13): the checks 1 to 4 of R300, the completion of R305, status blocks (R309–R313), the execution of a command.
-/

namespace Sys2Proof.Machine

/-! ## Rings -/

/-- Ring r, where nothing is listed: a boot ring is DISABLED after reset, any other is FREE (R287). -/
def ringDefault (r : Nat) : Ring := if r < 64 then { st := .disabled, inst := r } else {}

def State.ring (s : State) (r : Nat) : Ring := Tbl.get ringDefault s.forager.rings r

def State.setRing (s : State) (r : Nat) (x : Ring) : State :=
  { s with forager := { s.forager with rings := Tbl.put ringDefault s.forager.rings r x } }

def State.modRing (s : State) (r : Nat) (f : Ring → Ring) : State := s.setRing r (f (s.ring r))

/-- Size of a ring in units (R277). -/
def Ring.size (x : Ring) : Nat := 2 ^ x.sizeLog2

/-- Host address of unit x (R278). -/
def Ring.unitAddr (x : Ring) (index : Word) : Nat := x.base.toNat + 64 * (index.toNat % x.size)

/-- Units of an entry from the low word of its entry word (R279). -/
def entryUnits (w : Word) : Nat := w.field 7 2 + 1

/-- MARK of an entry word. -/
def entryMark (w : Word) : Nat := w.field 1 0

/-! ## Commands -/

/-- A command that the interpreter executes: where it comes from, whose it is, its words. -/
structure Cmd where
  src    : Src
  inst   : Nat
  /-- The member that sent it in a REMOTE_CMD (R253). -/
  remote : Option Nat
  /-- Ring index of the entry, or the TICKET. -/
  index  : Word
  ws     : List Word
  deriving DecidableEq, Repr

/-- A word at a byte offset of the entry. -/
def Cmd.word (c : Cmd) (byte : Nat) : Word := wordAt c.ws (byte / 4)

/-- A field at a byte offset, bits [h:l]. -/
def Cmd.field (c : Cmd) (byte h l : Nat) : Nat := (c.word byte).field h l

/-- A bit at a byte offset. -/
def Cmd.bit (c : Cmd) (byte n : Nat) : Bool := (c.word byte).bit n

/-- A doubleword at a byte offset. -/
def Cmd.dword (c : Cmd) (byte : Nat) : Dword := dwordAt c.ws byte

/-- OPCODE (R298). -/
def Cmd.opcode (c : Cmd) : Nat := (wordAt c.ws 0).field 31 24

/-- DETAIL where no single field failed (R305). -/
def noField : Nat := 0xFFFFFFFF

/-! ## Checks 1 to 4 of R300 -/

/-- Named bits of a command's parameters as (byte offset, mask) of each word (R306). -/
abbrev ParamMask := List (Nat × Nat)

def fullWord : Nat := 0xFFFFFFFF

/-- Two whole words. -/
def fullDword (byte : Nat) : ParamMask := [(byte, fullWord), (byte + 4, fullWord)]

/-- A STATUS_ADDR (R309): bits [4:1] reserved. -/
def statusAddr (byte : Nat) : ParamMask := [(byte, 0xFFFFFFE1), (byte + 4, fullWord)]

/-- Parameter bits of bytes 0x04–0x87 of a Comb entry (R37), laid at a packet offset. -/
def combMask (at_ : Nat) : ParamMask :=
  ([(0x00, 0xFFFE7800), (0x04, fullWord), (0x08, 0x0FFFFFFF), (0x0C, fullWord), (0x1C, fullWord), (0x20, fullWord),
    (0x28, fullWord), (0x2C, fullWord), (0x30, fullWord), (0x34, fullWord), (0x38, 0x001FFFFF), (0x3C, fullWord),
    (0x40, fullWord), (0x44, fullWord), (0x48, fullWord), (0x4C, fullWord), (0x50, fullWord), (0x54, 0x800FFFFF),
    (0x58, 0x800FFFFF), (0x5C, 0x800FFFFF), (0x60, 0x800FFFFF), (0x64, fullWord), (0x68, fullWord), (0x7C, 0xFFFF),
    (0x80, fullWord)] : ParamMask).map fun e => (at_ + e.1, e.2)

/-- Parameters of INSTANCE_CREATE and INSTANCE_RESIZE. -/
def instanceMask : ParamMask :=
  [(0x08, 0x13F), (0x0C, 0x1FFFF), (0x10, 0x7FFFF), (0x14, 0x1FFF)] ++ fullDword 0x18 ++ fullDword 0x20 ++
    [(0x28, 0x0FFFFFFF), (0x2C, 0x7FFFFFFF), (0x30, fullWord), (0x34, 0xFFFF), (0x38, 0x1FFFF), (0x3C, 0x7FFF)]

/-- The exact unit count and the parameter bits of a command, none for an undefined opcode (R299, R306). -/
def cmdForm (op : Nat) (ws : List Word) : Option (Nat × ParamMask) :=
  match op with
  | 0x00 => some (1, [])
  | 0x01 => some (1, [(0x08, 0xFFFF), (0x0C, 0xF011F)] ++ fullDword 0x10 ++ fullDword 0x18 ++ [(0x20, fullWord)])
  | 0x02 => some (1, [(0x08, 0xFFFF)])
  | 0x03 => some (1, [(0x08, 0x1FFFF)])
  | 0x04 => some (1, [(0x08, 0xFFFF)])
  | 0x05 => some (1, [(0x08, 0xFFFF), (0x0C, 0x1F)] ++ fullDword 0x10 ++ [(0x18, fullWord)])
  | 0x06 => some (1, [(0x08, 0xFFFF)])
  | 0x08 => some (1, [(0x08, 0xFFFF)])
  | 0x20 => some (1, instanceMask)
  | 0x21 => some (1, instanceMask)
  | 0x22 => some (1, [(0x08, 0x13F)] ++ statusAddr 0x10)
  | 0x23 => some (1, [(0x08, 0x3F)])
  | 0x24 => some (1, [(0x08, 0x3F)])
  | 0x25 => some (1, [(0x08, 0x3F)] ++ fullDword 0x10 ++ statusAddr 0x18)
  | 0x26 => some (1, [(0x08, 0x3F)] ++ fullDword 0x10 ++ statusAddr 0x18)
  | 0x27 => some (1, [(0x08, 0x3F)])
  | 0x28 => some (1, [(0x08, 0x3F0F737F), (0x0C, 0xFF)] ++ fullDword 0x10 ++ fullDword 0x18)
  | 0x29 => some (1, [(0x08, 0x7F)])
  | 0x2A => some (1, [(0x08, 0xFF007F), (0x0C, 0x1FFFF)])
  | 0x2B => some (1, [(0x08, 0xFF0FFF), (0x0C, 0x1FFFF)])
  | 0x2C => some (1, [(0x08, 0xFFF)])
  | 0x2D => some (1, [(0x08, 0x37F), (0x0C, 0xFFFF0FFF)])
  | 0x2E => some (1, [(0x08, 0x7F), (0x0C, 0x1FF1FFF)])
  | 0x40 => some (1, [(0x08, 0x1FFFF), (0x0C, 0x1FF)] ++ fullDword 0x10 ++ statusAddr 0x18)
  | 0x41 => some (1, [(0x08, 0xFFFF)])
  | 0x42 =>
    let v := (wordAt ws 2).field 19 16 + 1
    let lims := if (wordAt ws 2).field 9 8 = 0 then
        [(0x24, 0x1FFF), (0x28, 0x7FFFF), (0x2C, 0xFF7FFF), (0x30, 0x0F0FFFFF), (0x34, fullWord), (0x38, 0xFFFF),
         (0x3C, fullWord)]
      else (List.range 7).map fun i => (0x24 + 4 * i, fullWord)
    let vars := (List.range v).flatMap fun i =>
      fullDword (0x40 + 16 * i) ++ [(0x48 + 16 * i, 0x1FFF), (0x4C + 16 * i, 0x7FFFF)]
    some (1 + (v + 3) / 4, [(0x08, 0xF037F), (0x0C, 0xFFFF)] ++ fullDword 0x10 ++
      [(0x18, fullWord), (0x1C, fullWord), (0x20, fullWord)] ++ lims ++ vars)
  | 0x43 => some (1, [(0x08, 0x37F)])
  | 0x44 => some (1, [(0x08, 0x37F), (0x0C, 0x1FFFFF), (0x10, 0xF01FF), (0x14, 0x7FFFFFF)] ++ fullDword 0x18 ++
      fullDword 0x20)
  | 0x45 => some (1, [(0x08, 0x1FFFF), (0x0C, 0x1FFF)] ++ fullDword 0x10)
  | 0x46 => some (1, [(0x08, 0xFFFF)])
  | 0x47 => some (1, [(0x08, 0xFFF), (0x0C, fullWord)] ++ fullDword 0x10 ++ statusAddr 0x18)
  | 0x48 => some (1, [(0x08, 0xFFF)])
  | 0x60 => some (3, combMask 0x08 ++ fullDword 0x90)
  | 0x61 => some (3, [(0x08, fullWord), (0x0C, 0xFFFF)] ++ combMask 0x10)
  | 0x62 => some (1, [(0x08, fullWord)] ++ fullDword 0x10)
  | 0x63 => some (1, [(0x08, fullWord)])
  | 0x64 => some (1, [(0x08, fullWord)])
  | 0x65 => some (1, [(0x08, fullWord), (0x0C, fullWord)] ++ fullDword 0x10)
  | 0x66 => some (1, [(0x08, fullWord)])
  | 0x67 => some (1, [(0x08, fullWord)])
  | 0x68 => some (1, [(0x08, fullWord), (0x0C, fullWord), (0x10, fullWord)] ++ fullDword 0x18 ++ statusAddr 0x20)
  | 0x69 => some (1, [(0x08, fullWord), (0x0C, fullWord)])
  | 0x6A => some (1, [(0x08, 0x3FFF)])
  | 0x80 =>
    let dep (b : Nat) : ParamMask := [(b, fullWord), (b + 4, 0x8FFF0000)]
    some (3, [(0x08, 0xFFF)] ++ fullDword 0x10 ++ [(0x18, fullWord), (0x1C, fullWord)] ++ fullDword 0x20 ++
      fullDword 0x28 ++ fullDword 0x30 ++ [(0x38, 0xFF01FF)] ++ fullDword 0x40 ++ statusAddr 0x48 ++ fullDword 0x50 ++
      fullDword 0x58 ++ fullDword 0x60 ++ dep 0x68 ++ dep 0x70 ++ dep 0x78 ++ dep 0x80)
  | 0xA0 => some (1, [(0x08, 0x7), (0x0C, 0x7FF)] ++ fullDword 0x10 ++ [(0x18, 0x3FFFFFFF)] ++ fullDword 0x20)
  | 0xA1 => some (1, [(0x08, 0x7)] ++ fullDword 0x10 ++ statusAddr 0x18)
  | 0xA2 => some (1, [(0x08, 0x107)])
  | 0xA3 => some (1, [(0x08, 0x7)])
  | 0xC0 => some (1, [(0x08, 0x1FFF)] ++ fullDword 0x10 ++ [(0x18, fullWord)])
  | 0xC1 => some (1, [(0x08, 0x1FFF)] ++ fullDword 0x10 ++ [(0x18, fullWord), (0x1C, 0x7FC0FFFF)])
  | 0xC2 => some (1, [(0x08, 0x1FFF)])
  | 0xC3 => some (1, [(0x08, 0xFF)] ++ fullDword 0x10)
  | 0xC4 =>
    let n := (wordAt ws 3).field 22 16
    let regs := (List.range n).flatMap fun i => fullDword (0x20 + 16 * i) ++ [(0x28 + 16 * i, 0x7FFFFF)]
    some (max 1 ((32 + 16 * n + 63) / 64), [(0x08, 0x11FF0FFF), (0x0C, 0x7F1FFF)] ++ fullDword 0x10 ++
      fullDword 0x18 ++ regs)
  | 0xC5 => some (1, [(0x08, 0xFFF)])
  | 0xC6 => some (1, [(0x08, 0x10FFF), (0x0C, 0x1FFF), (0x10, fullWord)] ++ statusAddr 0x18)
  | 0xC7 => some (1, [(0x08, 0xFF)])
  | 0xD0 => some (1, [(0x08, 0x3FF)])
  | _ => none

/-- Is it an opcode of the open region (R306)? -/
def openOpcode (op : Nat) : Bool := decide (0xE0 ≤ op) && decide (op < 0x100)

/-- Byte offset, from `byte` on, of the byte that holds the lowest set bit that the mask of the word does not name. -/
def reservedByte (w : Word) (mask : Nat) : Option Nat :=
  ((List.range 32).find? fun i => w.getLsbD i && !mask.testBit i).map fun i => i / 8

/-- The first reserved bit set in the parameters: its byte offset (R300 check 4, R305). -/
def reservedParam (ws : List Word) (mask : ParamMask) : Option Nat :=
  (List.range (ws.length - 2)).findSome? fun i =>
    let b := 8 + 4 * i
    (reservedByte (wordAt ws (i + 2)) (((mask.find? fun e => e.1 == b).map fun e => e.2).getD 0)).map fun k => b + k

/-- Commands that only the physical function may issue (R301). -/
def pfOnly (op : Nat) : Bool :=
  [0x20, 0x21, 0x23, 0x24, 0x25, 0x26, 0x27, 0x2D, 0x08, 0xC0, 0xC1, 0xC2, 0xC3, 0xD0].contains op

/-- Check 3 of R300: the issuer under R301, as DETAIL of the refusal. -/
def Cmd.authFail (c : Cmd) : Option Nat :=
  let op := c.opcode
  if c.remote.isSome && decide (0xC0 ≤ op) && decide (op ≤ 0xC3) then some noField
  else if c.inst = 0 then none
  else if pfOnly op then some noField
  else if op = 0x22 ∧ c.field 0x08 5 0 ≠ c.inst then some 0x08
  else if op = 0x28 ∧ c.field 0x08 29 24 ≠ c.inst then some 0x0B
  else none

/-- Checks 1 to 4 of R300: status and DETAIL of the first that fails. -/
def State.formFail (s : State) (c : Cmd) : Option (Byte × Nat) :=
  let w := wordAt c.ws 0
  let op := c.opcode
  let routine := (s.store.open_.map fun o => wordAt o.entries (op - 0xE0)).getD 0
  if w.field 15 8 ≠ 1 then some (St.version, 0x01)
  else if openOpcode op then
    if !routine.bit 31 then some (St.badOpcode, 0x03)
    else if entryUnits w ≠ routine.field 29 24 + 1 then some (St.badLength, 0x00)
    else if w.field 23 17 ≠ 0 then some (St.badLength, 0x02)
    else none
  else match cmdForm op c.ws with
    | none => some (St.badOpcode, 0x03)
    | some (units, mask) => match c.authFail with
      | some d => some (St.auth, d)
      | none =>
        if entryUnits w ≠ units then some (St.badLength, 0x00)
        else if w.field 23 17 ≠ 0 then some (St.badLength, 0x02)
        else (reservedParam c.ws mask).map fun d => (St.badLength, d)

/-! ## Status blocks (R309–R313) -/

/-- The write of words at a block's address: host memory, or device memory inside the windows (R309). -/
def State.blockWrite (s : State) (o : LongOp) (byte : Nat) (ws : List Word) : State :=
  let a := o.addr.toNat / 32 * 32 + byte
  if o.addr.getLsbD 0 then s.emit (s.vcWrite none a ws) else s.emit (s.dmaWrite o.inst a ws)

/-- Low word of a block (R310). -/
def LongOp.head (o : LongOp) (upd : Nat) (status : Byte) : Word :=
  Word.mk (o.opcode.toNat * 2 ^ 24 + upd % 65536 * 256 + status.toNat)

/-- PARTIAL of a TOKEN_LOG_READ is the stream's POS at each update after the first (R46, R312); once the handle is stale,
the POS last shown. -/
def State.opPartial (s : State) (o : LongOp) : LongOp :=
  match o.body with
  | .tokenRead i gen _ _ _ =>
    let e := (Tbl.find s.comb.entries i).getD {}
    if o.upd = 0 ∨ e.gen.toNat ≠ gen ∨ e.st = .free then o
    else { o with part := BitVec.ofNat 64 e.pos.toNat, status := if o.ended then o.status else St.partialDone }
  | _ => o

/-- One update of the block of operation k (R311): three writes, then the operation is forgotten once its final status
is written. Nothing goes to a block after a write error, nor to host memory in ORPHAN (R313, R315). -/
def State.blockUpdate (s : State) (k : Nat) : State :=
  match Tbl.find s.interp.ops k with
  | none => s
  | some o =>
    let done (s : State) (o : LongOp) : State :=
      if o.ended then { s with interp := { s.interp with ops := Tbl.erase s.interp.ops k,
                                                         owners := Tbl.insert s.interp.owners k o.inst } }
      else { s with interp := { s.interp with ops := Tbl.insert s.interp.ops k o } }
    let o := s.opPartial o
    if o.failed then done s { o with due := false }
    else if s.orphan && !o.addr.getLsbD 0 then s
    else
      let n := o.upd + 1
      let time := Word.mk (s.ns % 2 ^ 32)
      let s := s.blockWrite o 0 [o.head n o.shown, o.index]
      let s := s.blockWrite o 8 [o.progress.lo, o.progress.hi, o.part.lo, o.part.hi, o.aux, time]
      let s := s.blockWrite o 0 [o.head (n + 1) o.status, o.index]
      done s { o with upd := (n + 1) % 65536, shown := o.status, shownAt := s.ns, due := false }

/-- A long operation changed, where it has not ended. -/
def State.modOp (s : State) (o : Nat) (f : LongOp → LongOp) : State :=
  let ops := Tbl.adjust (fun x => if x.ended then x else f x) s.interp.ops o
  { s with interp := { s.interp with ops } }

/-- The answer to a remote command: kept with its TICKET and sent (R248, R253). -/
def State.answerRemote (s : State) (m : Nat) (ticket : Word) (status : Byte) (results : List Word) : State :=
  let rs := (results ++ [0, 0, 0, 0]).take 4
  let keep (t : Ticket) : Ticket := { t with result := some (status, rs) }
  let s := s.modMember m fun x => { x with tickets := updateFirst (fun t => t.ticket == ticket) keep x.tickets }
  s.sendPkt m Pkt.remoteResult ([ticket, Word.mk status.toNat] ++ rs)

/-- A long operation given its final status: the update that writes it is never delayed (R311), and a remote command is
answered (R253). -/
def State.opEnd (s : State) (o : Nat) (status : Byte) : State :=
  match Tbl.find s.interp.ops o with
  | none => s
  | some x =>
    if x.ended then s
    else
      let s := (s.modOp o fun x => { x with status, ended := true, due := true }).blockUpdate o
      match x.reply with
      | some (m, ticket, rs) => s.answerRemote m ticket status rs
      | none => s

/-- PROGRESS and PARTIAL of a long operation (R312). -/
def State.opProgress (s : State) (o : Nat) (progress part : Dword) : State :=
  s.modOp o fun x => { x with progress, part, due := true, status := if part = 0 then x.status else St.partialDone }

/-- CMD_SB_INTERVAL in ns, 0 taken as 1 (R316). -/
def State.sbInterval (s : State) : Nat := max 1 (s.regField Reg.cmdSbInterval 15 0) * 1000

/-- Long operations tracked other than RUN_STEP (R309). -/
def State.longUsed (s : State) : Nat :=
  Tbl.count (fun _ o => match o.body with
    | .runStep _ _ => false
    | _ => true) s.interp.ops

/-- Has every long operation accepted from ring r written a final status (R303)? -/
def State.barrierMet (s : State) (r : Nat) : Bool := !s.interp.ops.any fun e => e.2.ring == some r

/-! ## Completion (R284, R305) -/

/-- The six words that a completion writes at 0x08–0x1F. -/
def complWords (results : List Word) (detail : Nat) (time : Nat) : List Word :=
  [wordAt results 0, wordAt results 1, wordAt results 2, wordAt results 3, Word.mk detail, Word.mk time]

/-- Entry word of a completion (R284). -/
def complEntry (e : Entry) (status : Byte) : List Word :=
  [Word.mk (status.toNat * 256 + (entryUnits (wordAt e.words 0) - 1) * 4 + 2), e.index]

/-- The writes of one completion, and the head past it. -/
def State.writeCompl (s : State) (r : Nat) (ws : List Word) : State :=
  let x := s.ring r
  let index := wordAt ws 1
  let a := x.unitAddr index
  let s := s.emits [s.dmaWrite x.inst (a + 8) (ws.drop 2), s.dmaWrite x.inst a (ws.take 2)]
  s.modRing r fun x => { x with head := if x.stuck then x.head else index + Word.mk (entryUnits (wordAt ws 0)), lastDone := ws,
                                shadowDue := decide (x.headAddr ≠ 0) }

/-- A completion: written, or held while the device is in ORPHAN (R289). -/
def State.complete (s : State) (r : Nat) (e : Entry) (status : Byte) (results : List Word) (detail : Nat) : State :=
  let ws := complEntry e status ++ complWords results detail (s.ns % 2 ^ 32)
  if s.orphan then
    let s := s.modRing r fun x => { x with heldCompl := x.heldCompl ++ [ws] }
    { s with fw := { s.fw with orphan := { s.fw.orphan with complHeld := true } } }
  else s.writeCompl r ws

/-- Entries at the front of a ring's buffer that were marked invalid complete ST_DISCARDED at once, in their order, when
nothing before them is started (R283). -/
def State.flushDiscarded (s : State) (r : Nat) : Nat → State
  | 0 => s
  | n + 1 =>
    let x := s.ring r
    match x.queue, x.started with
    | e :: t, none =>
      if entryMark (wordAt e.words 0) = 3 then
        ((s.setRing r { x with queue := t }).complete r e St.discarded [] noField).flushDiscarded r n
      else s
    | _, _ => s

/-- The count of a completed command, and the REFUSED event of one that completed other than ST_OK or ST_PENDING
(R315, R316). -/
def State.countDone (s : State) (c : Cmd) (status : Byte) (detail : Nat) : State :=
  let s := s.incReg Reg.cmdExecCnt
  let s := if status = St.staleHandle then s.satReg Reg.combStaleCnt else s
  if status = St.ok ∨ status = St.pending then s
  else
    let s := s.satReg Reg.cmdRefuseCnt
    let s := s.setReg Reg.cmdLastRefuse (Word.mk (c.opcode * 2 ^ 24 + status.toNat * 2 ^ 16 + c.inst))
    let s := match c.src with
      | .ring r => s.setReg Reg.cmdLastRing (Word.mk r)
      | .remote _ => s
    (s.setReg Reg.cmdLastDetail (Word.mk detail)).raise { id := Flt.refused, inst := some c.inst, status }

/-- The XLATE handler ends: the URGENT traps held meanwhile are taken (R360). -/
def CtlStore.handlerEnds (x : CtlStore) : CtlStore :=
  { x with trap := none, traps := x.traps + Word.mk x.heldTraps, heldTraps := 0, heldSquash := false }

/-- The entry of a command completed, wherever it came from: the interpreter is free, and what waits behind the ring's
started entry goes on. A remote command is answered, unless it goes on as a long operation (R253). -/
def State.finishCmd (s : State) (c : Cmd) (status : Byte) (results : List Word) (detail : Nat) : State :=
  let store := if s.interp.current = some c.src then s.store.handlerEnds else s.store
  let s := { s with interp := { s.interp with
    current := if s.interp.current = some c.src then none else s.interp.current,
    waiting := dropWhere (fun w => w.1 == c.src) s.interp.waiting },
                     store := { store with
    pcMicro := !openOpcode c.opcode,
    overrun := if s.store.overrun.any fun (o : Src × Bool) => o.1 == c.src then none else s.store.overrun } }
  let s := match c.src with
    | .ring r => match (s.ring r).started with
      | some e =>
        let s := s.modRing r fun x => { x with started := none }
        (s.complete r e status results detail).flushDiscarded r ((s.ring r).queue.length)
      | none => s
    | .remote k => match Tbl.find s.swarm.slots k with
      | some x =>
        let s := { s with swarm := { s.swarm with slots := Tbl.erase s.swarm.slots k } }
        if status = St.pending then s else s.answerRemote x.member x.ticket status results
      | none => s
  s.countDone c status detail

/-! ## Execution -/

/-- What a command's checks 5 to 7 of R300 and its effect answer. -/
inductive Answer where
  /-- Refused with a status and DETAIL: nothing changes. -/
  | refuse (status : Byte) (detail : Nat)
  /-- Completed ST_OK, or with a status of its own. -/
  | done (s : State) (results : List Word)
  | ends (s : State) (status : Byte) (results : List Word)
  /-- Accepted as a long operation, its STATUS_ADDR at a byte offset; `go` carries on with it (R309). -/
  | long (s : State) (addr : Nat) (body : OpBody) (aux : Word) (results : List Word) (go : Nat → State → State)
  /-- Completed by a later event. -/
  | later (s : State) (w : Waiting)

/-- May the interpreter start an entry now (R304, R316, R345, R359, R433, R435)? -/
def State.canStart (s : State) : Bool :=
  decide (s.fw.phase = .run) && s.comb.initDone && (s.reg Reg.cmdCtrl).bit 0 && decide (s.interp.current = none) &&
    !s.store.halted && decide (s.store.readback = none) && s.store.trap.isNone &&
    s.store.overrun.isNone && decide (s.power.softDue = none)

/-- The command that a source holds: its started entry, or its assembled remote command. -/
def State.holds (s : State) (src : Src) : Option Cmd :=
  match src with
  | .ring r => (s.ring r).started.map fun e =>
      { src, inst := (s.ring r).inst, remote := none, index := e.index, ws := e.words }
  | .remote k => (Tbl.find s.swarm.slots k).bind fun x => x.entry.map fun ws =>
      { src, inst := (s.member x.member).inst.toNat, remote := some x.member, index := x.ticket, ws }

/-- Is a remote command executed or waiting for an event already? -/
def State.remoteRuns (s : State) (src : Src) : Bool :=
  match src with
  | .ring _ => false
  | .remote k => (Tbl.find s.swarm.slots k).any fun x => x.running

/-- Does the command in remote slot k come first of those of its member that wait to run (R253)? -/
def State.remoteTurn (s : State) (k : Nat) : Bool :=
  match Tbl.find s.swarm.slots k with
  | none => false
  | some x => !s.swarm.slots.any fun e =>
      e.2.member == x.member && e.2.entry.isSome && !e.2.running && decide (e.2.order < x.order)

/-- The command that a source offers for execution: the started entry that the interpreter holds, unless a trap handler
runs or the routine has overrun, or a remote command while nothing executes. -/
def State.cmd (s : State) (src : Src) : Option Cmd :=
  let offered : Bool := match src with
    | .ring _ => decide (s.interp.current = some src) && s.store.trap.isNone && s.store.overrun.isNone
    | .remote k => s.canStart && !s.remoteRuns src && s.remoteTurn k
  if offered then s.holds src else none

/-- A hub block requests the interpreter: an URGENT trap is taken, or held while the XLATE handler runs (R360). -/
def State.urgent (s : State) : State :=
  if s.store.trap.isSome then { s with store := { s.store with heldTraps := s.store.heldTraps + 1 } }
  else { s with store := { s.store with traps := s.store.traps + 1 } }

/-- Has a command that waits for a later event committed nothing yet: a CONTEXT_DESTROY whose context is in a transition
(R203, R288; log 60)? -/
def State.uncommitted (s : State) (w : Waiting) : Bool :=
  match w with
  | .ctxDestroy k => decide ((s.ctx k).st = .loading) || decide ((s.ctx k).st = .saving)
  | .cycStop _ => false

/-- A squash of the command of ring r, which has started and not committed (R288): the command to complete ST_SQUASHED. -/
def State.squashable (s : State) (r : Nat) : Option Cmd :=
  let held := s.interp.current = some (.ring r) ∧ s.store.overrun.any (·.2) = false
  let waits := s.interp.waiting.any fun w => w.1 == .ring r && s.uncommitted w.2
  if held ∨ waits = true then s.holds (.ring r) else none

/-- The limit of tracked operations (R309). -/
def State.longFail (s : State) (body : OpBody) : Option (Byte × Nat) :=
  match body with
  | .runStep _ _ => none
  | _ => if 4096 ≤ s.longUsed then some (St.busy, noField) else none

/-- A long operation put among the tracked ones, its block written (R309). -/
def State.openOp (s : State) (c : Cmd) (addr : Nat) (body : OpBody) (aux : Word) (results : List Word) : State :=
  let k := s.interp.nextOp
  let ring := match c.src with
    | .ring r => some r
    | .remote _ => none
  let o : LongOp := { inst := c.inst, opcode := BitVec.ofNat 8 c.opcode, body, ring, aux,
                      reply := c.remote.map fun m => (m, c.index, results),
                      index := c.index, addr := c.dword addr }
  let s := { s with interp := { s.interp with nextOp := k + 1, ops := Tbl.insert s.interp.ops k o } }
  s.blockUpdate k

/-- The acceptance of a long operation (R309): its entry completes ST_PENDING, it goes on. -/
def State.acceptLong (s : State) (c : Cmd) (addr : Nat) (body : OpBody) (aux : Word) (results : List Word)
    (go : Nat → State → State) : State :=
  go s.interp.nextOp ((s.openOp c addr body aux results).finishCmd c St.pending results 0)

/-- Byte offset of STATUS_ADDR in a long operation's packet (R306, R309). -/
def statusField (op : Nat) : Option Nat :=
  match op with
  | 0x22 => some 0x10
  | 0x25 => some 0x18
  | 0x26 => some 0x18
  | 0x40 => some 0x18
  | 0x47 => some 0x18
  | 0x68 => some 0x20
  | 0x80 => some 0x48
  | 0xA1 => some 0x18
  | 0xC6 => some 0x18
  | _ => none

/-- The range check of STATUS_ADDR (R309): its offset where it fails. -/
def Cmd.statusFail (c : Cmd) : Option Nat :=
  (statusField c.opcode).bind fun addr =>
    let a := c.dword addr
    if a = 0 ∨ (a.getLsbD 0 = false ∧ c.remote.isSome = true) ∨
        (a.getLsbD 0 = true ∧ Config.inWindows c.inst (a.toNat / 32 * 32) 32 = false) then some addr else none

/-- The answer of a command once STATUS_ADDR is checked among its ranges: a range that fails at a lower offset goes
first (R300 check 5). -/
def Answer.checked (x : Answer) (bad : Option Nat) : Answer :=
  match bad with
  | none => x
  | some addr => match x with
    | .refuse status d => if status = St.badLength ∧ d < addr then x else .refuse St.badLength addr
    | _ => .refuse St.badLength addr

/-- Execution of the command of a source, where that source offers one of this opcode. -/
def State.perform (s : State) (src : Src) (op : Nat) (body : Cmd → State → Answer) : State :=
  match s.cmd src with
  | none => s
  | some c =>
    if c.opcode ≠ op then s
    else if c.remote.isSome && !s.active c.inst then s.finishCmd c St.badState [] noField
    else
      let refused (status : Byte) (d : Nat) : State := s.finishCmd c status [] d
      match (body c s).checked c.statusFail with
      | .refuse status d => refused status d
      | .done t rs => t.finishCmd c St.ok rs 0
      | .ends t status rs => t.finishCmd c status rs (if status = St.ok then 0 else noField)
      | .later t w =>
        let slots := match src with
          | .remote k => Tbl.adjust (fun x => { x with running := true }) t.swarm.slots k
          | .ring _ => t.swarm.slots
        { t with
          swarm := { t.swarm with slots },
          interp := { t.interp with current := none, waiting := t.interp.waiting ++ [(src, w)] } }
      | .long t addr body aux rs go => match s.longFail body with
        | some (status, d) => refused status d
        | none => t.acceptLong c addr body aux rs go

/-- The completion of a command that waited for a later event. -/
def State.finishWaiting (s : State) (w : Waiting) (status : Byte) : State :=
  match s.interp.waiting.find? fun e => e.2 == w with
  | none => s
  | some (src, _) =>
    match s.holds src with
    | some c => s.finishCmd c status [] (if status = St.ok then 0 else noField)
    | none => { s with interp := { s.interp with waiting := dropWhere (fun e => e.2 == w) s.interp.waiting } }

end Sys2Proof.Machine
end

