-- ==== Sys2Proof/Machine/PoolOps.lean ====
section
/-!
DEFINITION. Frame pools (R178, R179): taking a frame, giving one back, free frames by die and tier, the units charged to
an instance.
-/

namespace Sys2Proof.Machine

def State.pool (s : State) (k : Nat) : Pool := Tbl.get (fun _ => {}) s.pager.pools k

def State.setPool (s : State) (k : Nat) (x : Pool) : State :=
  { s with pager := { s.pager with pools := Tbl.put (fun _ => {}) s.pager.pools k x } }

/-- Is the pool's port fenced (R372)? -/
def State.poolFenced (s : State) (k : Nat) : Bool :=
  if k < 12 then s.fences.stackSet.contains k else s.fences.packages.contains (k - 16)

/-- Free frames of a pool: 0 where its port is fenced (R372). -/
def State.poolFree (s : State) (k : Nat) : Nat := if s.poolFenced k then 0 else (s.pool k).free

/-- Die of a pool (R21). -/
def poolDie (k : Nat) : Nat := if k < 12 then k / 3 else (k - 16) / 8

/-! ## The narrow path (R192, R420) -/

/-- Tags of a die that no outstanding request uses, of 256. -/
def State.freeTags (s : State) (d : Nat) : List Nat :=
  let used := s.pager.np.map fun q => q.tag
  (List.range 256).filter fun t => !used.contains (d * 256 + t)

/-- An access given out under a tag. -/
def State.npSend (s : State) (a : NpAccess) (t : Nat) : State :=
  let q : NpReq := { die := a.die, tag := a.die * 256 + t, index := a.index, page := a.key, write := a.write.isSome,
                     sentCc := s.cc }
  let at_ := a.addr / 32 * 32
  ({ s with pager := { s.pager with np := s.pager.np ++ [q] } }).emit (match a.write with
    | some ws => .narrowWrite a.die t at_ (s.keyid at_) ws
    | none => .narrow a.die t at_ (s.keyid at_))

/-- The waiting accesses of a die given out, oldest first, as far as tags are free. -/
def State.npPump (s : State) (d : Nat) : State :=
  match s.pager.npWait.filter fun a => a.die == d with
  | [] => s
  | q =>
    let tags := s.freeTags d
    let rest := dropWhere (fun a => a.die == d) s.pager.npWait ++ q.drop tags.length
    (q.zip tags).foldl (fun s x => s.npSend x.1 x.2) { s with pager := { s.pager with npWait := rest } }

/-- Accesses queued on the narrow paths. -/
def State.npQueue (s : State) (as : List NpAccess) : State :=
  [0, 1, 2, 3].foldl State.npPump { s with pager := { s.pager with npWait := s.pager.npWait ++ as } }

/-- The key of an access that belongs to no stream's walk: the Sampler's, of an automaton's mask row (R27); the frame
table's; a write. -/
def tableKey : Nat := 2 ^ 22

/-- 32 bytes written on a die's narrow path. -/
def npWrite (die addr : Nat) (ws : List Word) : NpAccess := { die, index := 0, key := tableKey, addr, write := some ws }

/-- The frame-table record of a frame written with its new owner: address and words are free values (R182, R192,
log 7). -/
def State.frameRecord (s : State) (f : Frame) : State :=
  s.npQueue [npWrite (poolDie f.pool) (Config.frameRecord f.pool f.serial)
    ((List.range 8).map fun k => Config.frameWord s.out.length k)]

/-! ## Pools -/

/-- Pools of a die by tier: three brood stacks, eight super packages (R21, R195). -/
def broodPools (die : Nat) : List Nat := [3 * die, 3 * die + 1, 3 * die + 2]
def superPools (die : Nat) : List Nat := (List.range 8).map fun i => 16 + 8 * die + i

/-- A frame taken from pool k, if it has one: which of the free ones is a free choice (log 21). -/
def State.takeFrame (s : State) (k : Nat) : Option (Frame × State) :=
  if 0 < s.poolFree k then
    let p := s.pool k
    (p.pick (Config.frameNo k p.taken)).map fun n =>
      let f : Frame := { pool := k, serial := n }
      (f, (s.setPool k { p with used := insertAsc n p.used, taken := p.taken + 1 }).frameRecord f)
  else none

/-- A frame taken from the pool of a list with the most free frames, the lower number on a tie (DESIGN CHOICE, log 15). -/
def State.bestPool (s : State) (ks : List Nat) : Option Nat :=
  ks.foldl (fun b k => match b with
    | some j => if s.poolFree j < s.poolFree k then some k else b
    | none => if 0 < s.poolFree k then some k else none) none

def State.takeAny (s : State) (ks : List Nat) : Option (Frame × State) :=
  match s.bestPool ks with
  | some k => s.takeFrame k
  | none => none

/-- n frames taken from a list of pools, all or none. -/
def State.takeMany (s : State) (ks : List Nat) : Nat → Option (List Frame × State)
  | 0 => some ([], s)
  | n + 1 => match s.takeAny ks with
    | some (f, s') => match s'.takeMany ks n with
      | some (fs, s'') => some (f :: fs, s'')
      | none => none
    | none => none

/-- A frame given back to its pool. -/
def State.giveFrame (s : State) (f : Frame) : State :=
  let p := s.pool f.pool
  (s.setPool f.pool { p with used := p.used.erase f.serial }).frameRecord f

def State.giveFrames (s : State) (fs : List Frame) : State := fs.foldl State.giveFrame s

/-- A frame withheld: poisoned hard, it returns to no pool (R191). -/
def State.withhold (s : State) (f : Frame) : State :=
  let p := s.pool f.pool
  (s.setPool f.pool { p with used := p.used.erase f.serial, withheld := insertAsc f.serial p.withheld }).frameRecord f

/-- Free frames of a list of pools. -/
def State.freeIn (s : State) (ks : List Nat) : Nat := ks.foldl (fun n k => n + s.poolFree k) 0

/-- Has any of the pools frames? -/
def State.anyFrames (s : State) (ks : List Nat) : Bool := ks.any fun k => decide (0 < (s.pool k).count)

/-- Units of the brood and super tier that an instance uses (R179). -/
def State.broodUsed (s : State) (i : Nat) : Nat := Tbl.get (fun _ => 0) s.pager.broodUsed i
def State.superUsed (s : State) (i : Nat) : Nat := Tbl.get (fun _ => 0) s.pager.superUsed i

def State.setBroodUsed (s : State) (i n : Nat) : State :=
  { s with pager := { s.pager with broodUsed := Tbl.put (fun _ => 0) s.pager.broodUsed i n } }

def State.setSuperUsed (s : State) (i n : Nat) : State :=
  { s with pager := { s.pager with superUsed := Tbl.put (fun _ => 0) s.pager.superUsed i n } }

/-- Units charged to an instance's quota, and given back. -/
def State.chargeBrood (s : State) (i n : Nat) : State := s.setBroodUsed i (s.broodUsed i + n)
def State.refundBrood (s : State) (i n : Nat) : State := s.setBroodUsed i (s.broodUsed i - n)
def State.chargeSuper (s : State) (i n : Nat) : State := s.setSuperUsed i (s.superUsed i + n)
def State.refundSuper (s : State) (i n : Nat) : State := s.setSuperUsed i (s.superUsed i - n)

end Sys2Proof.Machine
end

