-- ==== Sys2Proof/Machine/InstOps.lean ====
section
/-!
DEFINITION. Quotas and what instances use of them (R319, R320); when an instance's work may run.
-/

namespace Sys2Proof.Machine

/-- Sum of a quota over the virtual-function instances. -/
def State.vfSum (s : State) (f : Quotas → Nat) : Nat :=
  s.insts.foldl (fun n e => if e.1 = 0 ∨ e.2.st = .none then n else n + f e.2.q) 0

/-- An instance's quota: what it was granted, or the remainder of the device total for instance 0 (R320). -/
def State.quotaOf (s : State) (i total : Nat) (f : Quotas → Nat) : Nat :=
  if i = 0 then total - s.vfSum f else f (s.inst i).q

/-- Quarter-clusters of an instance: those granted, or the present ones granted to no other (R319, R320). -/
def State.instQc (s : State) (i q : Nat) : Bool :=
  if i = 0 then s.qcUp q && !s.insts.any fun e => decide (e.1 ≠ 0) && decide (e.2.st ≠ .none) && e.2.q.qc.getLsbD q
  else (s.inst i).q.qc.getLsbD q

/-! Device totals of R320. -/

def State.totalComb (s : State) : Nat := 262144 - Tbl.count (fun _ e => e.st == .unusable) s.comb.entries
def State.totalBrood (s : State) : Nat := 16 * (List.range 12).foldl (fun n k => n + (s.pool k).count) 0
def State.totalSuper (s : State) : Nat := 16 * (List.range 32).foldl (fun n k => n + (s.pool (16 + k)).count) 0

def State.ringQuota (s : State) (i : Nat) : Nat := s.quotaOf i 65472 (·.rings)
def State.tringQuota (s : State) (i : Nat) : Nat := s.quotaOf i 65536 (·.trings)
def State.combQuota (s : State) (i : Nat) : Nat := if s.comb.initDone then s.quotaOf i s.totalComb (·.comb) else 0
def State.ctxQuota (s : State) (i : Nat) : Nat := s.quotaOf i 4096 (·.contexts)
def State.prefixQuota (s : State) (i : Nat) : Nat := s.quotaOf i 16384 (·.prefixes)
def State.broodQuota (s : State) (i : Nat) : Nat := s.quotaOf i s.totalBrood (·.brood)
def State.superQuota (s : State) (i : Nat) : Nat := s.quotaOf i s.totalSuper (·.super)

/-- ADMITTED to DORMANT (R40). -/
def CombEntry.live (e : CombEntry) : Bool :=
  match e.st with
  | .admitted | .ready | .active | .parked | .dormant => true
  | .free | .retired | .unusable => false

/-! What an instance uses. -/

def State.ringsUsed (s : State) (i : Nat) : Nat :=
  Tbl.count (fun r x => decide (64 ≤ r) && decide (x.st ≠ .free) && x.inst == i) s.forager.rings
def State.tringsUsed (s : State) (i : Nat) : Nat := Tbl.count (fun _ x => x.inst == i) s.forager.tokens
def CombEntry.used (e : CombEntry) : Bool := decide (e.st ≠ .free) && decide (e.st ≠ .unusable)
def State.combUsed (s : State) (i : Nat) : Nat :=
  Tbl.count (fun _ e => e.used && e.inst.toNat == i) s.comb.entries
def State.ctxUsed (s : State) (i : Nat) : Nat :=
  Tbl.count (fun _ x => decide (x.st ≠ .free) && x.inst == i) s.sched.ctxs
def State.prefixUsed (s : State) (i : Nat) : Nat := Tbl.count (fun _ x => x.inst == i) s.pager.prefixes

/-- May n more units of a tier be charged to the instance (R179)? -/
def State.broodRoom (s : State) (i n : Nat) : Bool := decide (s.broodUsed i + n ≤ s.broodQuota i)
def State.superRoom (s : State) (i n : Nat) : Bool := decide (s.superUsed i + n ≤ s.superQuota i)

/-! ## Packets that make objects (R299) -/

/-- A command packet of so many units (R299), its fields given as byte offset and value. -/
def packet (op units : Nat) (fs : List (Nat × Nat)) : List Word :=
  (List.range (16 * units)).map fun i =>
    if i = 0 then Word.mk (op * 2 ^ 24 + 2 ^ 8 + (units - 1) * 4)
    else Word.mk (fs.foldl (fun n f => if f.1 = 4 * i then n + f.2 else n) 0)

/-- A doubleword field. -/
def d64 (off n : Nat) : List (Nat × Nat) := [(off, n % 2 ^ 32), (off + 4, n / 2 ^ 32)]

def Quotas.packet (q : Quotas) (i : Nat) (wairon : Bool) : List Word :=
  let qc := q.qc.toNat
  Machine.packet 0x20 1 ([(0x08, i + bitAt 8 wairon), (0x0C, q.rings), (0x10, q.comb), (0x14, q.contexts), (0x28, q.brood),
    (0x2C, q.super), (0x30, q.bwSuper * 2 ^ 16 + q.bwBrood), (0x34, q.bwLink), (0x38, q.trings), (0x3C, q.prefixes)] ++
    d64 0x18 (qc % 2 ^ 64) ++ d64 0x20 (qc / 2 ^ 64))

end Sys2Proof.Machine
end

