-- ==== Sys2Proof/Machine/CombOps.lean ====
section
/-!
DEFINITION. The Comb's shared operations (spec/02): entries and handles, the words of an entry, the free list, quotas
after an entry becomes UNUSABLE, errors of stored words.
-/

namespace Sys2Proof.Machine

/-- The contents of an entry that nothing has changed since initialisation (R50). -/
def combDefault (_ : Nat) : CombEntry := {}

def State.entry (s : State) (i : Nat) : CombEntry := Tbl.get combDefault s.comb.entries i

def State.setEntry (s : State) (i : Nat) (e : CombEntry) : State :=
  { s with comb := { s.comb with entries := Tbl.put combDefault s.comb.entries i e } }

def State.modEntry (s : State) (i : Nat) (f : CombEntry → CombEntry) : State := s.setEntry i (f (s.entry i))

/-- The handle of an entry (R33). -/
def handleOf (i : Nat) (e : CombEntry) : Nat := e.gen.toNat * 2 ^ 18 + i

/-- INDEX of a handle. -/
def handleIndex (h : Word) : Nat := h.toNat % 2 ^ 18

/-- Does a handle name a stream of the instance (R35)? -/
def State.handleOk (s : State) (inst : Nat) (h : Word) : Bool :=
  let e := s.entry (handleIndex h)
  decide (h.toNat / 2 ^ 18 = e.gen.toNat) && e.used && e.inst.toNat == inst

/-- STATE codes of R37. -/
def StreamState.code : StreamState → Nat
  | .free => 0
  | .admitted => 1
  | .ready => 2
  | .active => 3
  | .parked => 4
  | .dormant => 5
  | .retired => 6
  | .unusable => 7

/-- The 64 words of an entry (R37), its queue links given. -/
def CombEntry.words (e : CombEntry) (next prev : Word) : List Word :=
  let n (x : Nat) : Word := Word.mk x
  [n (e.st.code * 2 ^ 28 + e.gen.toNat * 2 ^ 14 + e.inst.toNat * 2 ^ 8 + e.reason.toNat),
   n (e.p.prio.toNat * 2 ^ 24 + e.p.partition.toNat * 2 ^ 17 + e.homeDie.toNat * 2 ^ 15 + bitAt 14 e.p.autoRelease +
      bitAt 13 e.p.keep + bitAt 12 e.p.specEn + bitAt 11 e.p.grammarEn + bitAt 10 e.poison + bitAt 9 e.parkPending +
      bitAt 8 e.retirePending + bitAt 4 e.orphanPark + e.fails.toNat),
   n (e.p.draftModel.toNat * 2 ^ 16 + e.p.model.toNat), n (e.p.automaton.toNat * 2 ^ 16 + e.p.fallback.toNat),
   e.promptLen, e.prefillPos, e.pos, e.genCount, e.p.maxNew, e.p.maxCtx, n e.autState.toNat, e.p.deadlineUs,
   e.p.temperature, e.p.topP, e.p.minP, n e.p.topK.toNat, e.p.repPenalty, e.p.presPenalty, e.p.freqPenalty,
   e.p.biasTable, e.p.seed.lo, e.p.seed.hi, e.p.stopToken0, e.p.stopToken1, e.p.stopToken2, e.p.stopToken3, e.p.stopSeq,
   e.p.tokenTag, e.pageList.lo, e.pageList.hi, e.tokenLog.lo, e.tokenLog.hi, n e.p.tokenRing.toNat, e.p.prefixId,
   e.broodPages, e.superPages, e.admitTime.lo, e.admitTime.hi, e.lastStepTime.lo, e.lastStepTime.hi, e.lastStepSeq,
   e.steps, e.fallbacks, e.specProposed, e.specAccepted, e.resumes] ++
  (if e.st = .free ∨ e.st = .unusable then [0, 0] else [next, prev]) ++ List.replicate 12 0 ++
  [e.openScratch0, e.openScratch1, e.openScratch2, e.openScratch3]

/-- The parameters of a packet that holds bytes 0x04–0x87 of an entry at a byte offset (R306). -/
def packetParams (c : Cmd) (at_ : Nat) : StreamParams :=
  let w (off : Nat) : Word := c.word (at_ + off - 4)
  { prio := BitVec.ofNat 8 ((w 0x04).field 31 24), partition := BitVec.ofNat 7 ((w 0x04).field 23 17),
    autoRelease := (w 0x04).bit 14, keep := (w 0x04).bit 13, specEn := (w 0x04).bit 12, grammarEn := (w 0x04).bit 11,
    draftModel := BitVec.ofNat 16 ((w 0x08).field 31 16), model := BitVec.ofNat 16 ((w 0x08).field 15 0),
    automaton := BitVec.ofNat 12 ((w 0x0C).field 27 16), fallback := BitVec.ofNat 16 ((w 0x0C).field 15 0),
    maxNew := w 0x20, maxCtx := w 0x24, deadlineUs := w 0x2C, temperature := w 0x30, topP := w 0x34, minP := w 0x38,
    topK := BitVec.ofNat 21 ((w 0x3C).field 20 0), repPenalty := w 0x40, presPenalty := w 0x44, freqPenalty := w 0x48,
    biasTable := w 0x4C, seed := Dword.ofWords (w 0x50) (w 0x54), stopToken0 := w 0x58, stopToken1 := w 0x5C,
    stopToken2 := w 0x60, stopToken3 := w 0x64, stopSeq := w 0x68, tokenTag := w 0x6C,
    tokenRing := BitVec.ofNat 16 ((w 0x80).field 15 0), prefixId := w 0x84 }

/-! ## The free list (R36) -/

/-- Is entry i UNUSABLE? -/
def State.unusable (s : State) (i : Nat) : Bool := decide ((s.entry i).st = .unusable)

/-- Entries on the free list. -/
def State.combFree (s : State) : Nat :=
  (262144 - s.comb.fresh) - Tbl.count (fun i e => decide (s.comb.fresh ≤ i) && e.st == .unusable) s.comb.entries +
    s.comb.returned.length

/-- The first index from n on that is not UNUSABLE, looking at most `fuel` further. -/
def State.skipUnusable (s : State) : Nat → Nat → Nat
  | 0, n => n
  | fuel + 1, n => if s.unusable n then s.skipUnusable fuel (n + 1) else n

/-- The first index that has never been allocated and can be. -/
def State.combFresh (s : State) : Nat := s.skipUnusable s.comb.entries.length s.comb.fresh

/-- The head of the free list. -/
def State.combHead (s : State) : Option Nat :=
  if s.combFresh < 262144 then some s.combFresh else s.comb.returned.head?

/-- The free list without its head. -/
def State.combPop (s : State) : State :=
  if s.combFresh < 262144 then { s with comb := { s.comb with fresh := s.combFresh + 1 } }
  else { s with comb := { s.comb with returned := s.comb.returned.tail } }

/-- The generation after a release (R34). -/
def nextGen (g : BitVec 14) : BitVec 14 := if g = 16383 then 1 else g + 1

/-- An entry back to FREE with its generation advanced, at the tail of the free list (R34, R36, R50). -/
def State.freeEntry (s : State) (i : Nat) : State :=
  let s := s.setEntry i { gen := nextGen (s.entry i).gen }
  { s with comb := { s.comb with returned := s.comb.returned ++ [i] } }

/-! ## Errors of stored words (R48, R51–R54) -/

/-- COMB_CE_LOC and COMB_UE_LOC of a word (R55). -/
def combLoc (i w : Nat) : Word := Word.mk (i % 16 * 2 ^ 28 + i / 16 * 2 ^ 14 + w * 2 ^ 8)

def State.setUpset (s : State) (i w : Nat) (u : Option Upset) : State :=
  let k := i * 64 + w
  let upsets := match u with
    | some u => Tbl.insert s.comb.upsets k u
    | none => Tbl.erase s.comb.upsets k
  { s with comb := { s.comb with upsets } }

/-- Has entry i a stuck word, so that a read-back after a rewrite fails? -/
def State.entryStuck (s : State) (i : Nat) : Bool := s.comb.upsets.any fun e => e.1 / 64 == i && e.2 == .stuck

/-- Words of entry i that are uncorrectable. -/
def State.entryBad (s : State) (i : Nat) : List Nat :=
  (s.comb.upsets.filter fun e => e.1 / 64 == i && e.2 != .single).map fun e => e.1 % 64

/-- An entry rewritten: every upset but a stuck cell is gone. -/
def State.rewriteWords (s : State) (i : Nat) : State :=
  { s with comb := { s.comb with upsets := dropWhere (fun e => e.1 / 64 == i && e.2 != .stuck) s.comb.upsets } }

/-- The instance that gives up a unit when a FREE entry becomes UNUSABLE and instance 0 has none to spare: the one whose
quota exceeds its use by the most, the lower number on a tie (R48). -/
def State.combGiver (s : State) : Option Nat :=
  let spare (i : Nat) : Nat := s.combQuota i - s.combUsed i
  (s.insts.filter fun e => decide (e.1 ≠ 0) && decide (e.2.st ≠ .none)).foldl (fun b e => match b with
    | some j => if spare j < spare e.1 then some e.1 else b
    | none => if 0 < spare e.1 then some e.1 else none) none

/-- One unit of Comb quota withdrawn from a virtual-function instance. -/
def State.takeCombUnit (s : State) (i : Nat) : State :=
  if i = 0 then s
  else
    let x := s.inst i
    s.setInst i { x with q := { x.q with comb := x.q.comb - 1 } }

/-- Entry i becomes UNUSABLE (R48, R53). `held`: the instance whose stream held it. The quota of instance 0 is the
remainder, so that a unit taken from it needs no write. -/
def State.makeUnusable (s : State) (i : Nat) (held : Option Nat) : State :=
  let giver := match held with
    | some j => some j
    | none => if s.combUsed 0 < s.combQuota 0 then some 0 else s.combGiver
  let s := s.setEntry i { st := .unusable, gen := (s.entry i).gen }
  let s := { s with comb := { s.comb with returned := s.comb.returned.erase i } }
  let s := match giver with
    | some j => s.takeCombUnit j
    | none => s
  s.raise { id := Flt.combHard, unit := i % 16 }

end Sys2Proof.Machine
end

