-- ==== Sys2Proof/Machine/PagerOps.lean ====
section
/-!
DEFINITION. The context pager's shared operations (spec/07): placement, list blocks, token logs, pages and their moves,
shared frames, dirty logs, reports of failed frames, brood pressure.
-/

namespace Sys2Proof.Machine

/-! ## Placement (R178) -/

/-- Dies in the order in which they supply frames: the home die, then the others in ascending order. -/
def dieOrder (home : Nat) : List Nat := home :: dropWhere (fun d => d == home) [0, 1, 2, 3]

/-- One frame for a stream homed on a die. -/
def State.takePlaced (s : State) (pools : Nat → List Nat) (home : Nat) : Option (Frame × State) :=
  (dieOrder home).findSome? fun d => s.takeAny (pools d)

/-- A frame and its mirror on one die: in two pools where the die has two with free frames, else in one. -/
def State.takePair (s : State) (pools : Nat → List Nat) (home : Nat) : Option (LogPair × State) :=
  (dieOrder home).findSome? fun d => match s.takeAny (pools d) with
    | some (f, t) =>
      let rest := dropWhere (fun k => k == f.pool) (pools d)
      match (match t.takeAny rest with
        | some x => some x
        | none => t.takeFrame f.pool) with
      | some (g, u) => some ({ primary := f, mirror := g }, u)
      | none => none
    | none => none

/-! ## List blocks (R177) -/

def carveKey (f : Frame) : Nat := f.pool * 2 ^ 32 + f.serial

/-- The first run of n free carvings of a frame, aligned to n. -/
def carveSlot (used : List Nat) (n : Nat) : Option Nat :=
  (List.range 16).find? fun p => decide (p % n = 0) && (List.range n).all fun i => !used.contains (p + i)

def State.setCarved (s : State) (k : Nat) (x : Option (List Nat × Bool)) : State :=
  let carved := match x with
    | some v => Tbl.insert s.pager.carved k v
    | none => Tbl.erase s.pager.carved k
  { s with pager := { s.pager with carved } }

/-- n carvings taken from pool k: from a frame already carved, else from a new one. -/
def State.carve (s : State) (k n : Nat) : Option (Frame × Nat × State) :=
  let open_ := s.pager.carved.findSome? fun e =>
    if e.1 / 2 ^ 32 = k ∧ e.2.2 = false ∧ s.poolFenced k = false then
      (carveSlot e.2.1 n).map fun p => (e.1 % 2 ^ 32, p, e.2.1)
    else none
  match open_ with
  | some (serial, p, used) =>
    let f : Frame := { pool := k, serial }
    some (f, p, s.setCarved (carveKey f) (some (used ++ (List.range n).map fun i => p + i, false)))
  | none => match s.takeFrame k with
    | some (f, t) => some (f, 0, t.setCarved (carveKey f) (some (List.range n, false)))
    | none => none

/-- The pool of a list that carves n and has the most free frames. -/
def State.carvePool (s : State) (ks : List Nat) (n : Nat) : Option Nat :=
  (ks.filter fun k => (s.carve k n).isSome).foldl (fun b k => match b with
    | some j => if s.poolFree j < s.poolFree k then some k else b
    | none => some k) none

/-- A list block of n carvings in each of its two copies. -/
def State.takeBlock (s : State) (home n : Nat) : Option (Block × State) :=
  (dieOrder home).findSome? fun d =>
    match (s.carvePool (broodPools d) n).bind fun k => s.carve k n with
    | some (f, p, t) =>
      let rest := dropWhere (fun k => k == f.pool) (broodPools d)
      let k2 := (t.carvePool rest n).getD f.pool
      match t.carve k2 n with
      | some (g, q, u) => some ({ first := f, carve1 := p, second := g, carve2 := q }, u)
      | none => none
    | none => none

/-- Carvings given back; the frame returns to its pool with the last of them, or is withheld (R190). -/
def State.uncarve (s : State) (f : Frame) (p n : Nat) : State :=
  match Tbl.find s.pager.carved (carveKey f) with
  | none => s
  | some (used, held) =>
    let used := dropWhere (fun c => decide (p ≤ c) && decide (c < p + n)) used
    if used.isEmpty then
      let s := s.setCarved (carveKey f) none
      if held then s.withhold f else s.giveFrame f
    else s.setCarved (carveKey f) (some (used, held))

def State.freeBlock (s : State) (b : Block) (n : Nat) : State := (s.uncarve b.first b.carve1 n).uncarve b.second b.carve2 n

def State.blockAddr (s : State) (b : Block) : Dword := BitVec.ofNat 64 (s.frameAddr b.first + b.carve1 * 4096)

/-! ## Regulated requests (R215, R216) -/

/-- Ports of a class: their first key within a partition and their number. -/
def classPorts (cls : Nat) : Nat × Nat :=
  match cls with
  | 0 => (0, 12)
  | 1 => (12, 32)
  | _ => (44, Config.linkPorts)

/-- The port of a frame: that of its stack or package (R21). -/
def framePort (f : Frame) : Nat := if f.pool < 12 then f.pool else f.pool - 4

/-- The port of a device address: that of the pool in which its frame lies, else of a stack or package that no rule names
(free value, log 53). -/
def State.addrPort (s : State) (a : Nat) : Nat :=
  let page := a / 65536
  let super := decide (Config.superBase.toNat ≤ page)
  let n := page - if super then Config.superBase.toNat else Config.broodBase.toNat
  match s.pager.pools.find? fun e => (super == decide (16 ≤ e.1)) && decide (Config.poolBase e.1 + e.2.first ≤ n) &&
      decide (n < Config.poolBase e.1 + e.2.first + e.2.count) with
  | some e => framePort { pool := e.1, serial := 0 }
  | none => if super then 12 + Config.addrPort page % 32 else Config.addrPort page % 12

/-- The port key of the link that leads to a member: one cabled to it, else one that no rule names (free value, log 53). -/
def linkPort (member : Nat) : Nat :=
  (classPorts 2).1 + ((List.range Config.linkPorts).find? fun k => Config.portPartner k == member).getD
    (Config.addrPort member % Config.linkPorts)

/-- The die that a memory port stands on. -/
def portDie (port : Nat) : Nat := if port < 12 then port / 3 else (port - 12) / 8

/-- Key of a partition's bucket at a port. -/
def bucketKey (part port : Nat) : Nat := part * 256 + port

/-- Does a partition's bucket at a port admit a request: it holds more than 0 B, or the class is unregulated? -/
def State.bucketOpen (s : State) (part port : Nat) : Bool :=
  (Tbl.find s.sched.portSet (bucketKey part port)).isNone ||
    decide (0 < Tbl.get (fun _ => (0 : Int)) s.sched.buckets (bucketKey part port))

/-- Bytes subtracted from a bucket; with `floor`, not below its depth under 0. -/
def State.takeTokens (s : State) (part : Nat) (q : Nat × Nat) (floor : Bool) : State :=
  match Tbl.find s.sched.portSet (bucketKey part q.1) with
  | none => s
  | some e =>
    let b : Int := Tbl.get (fun _ => 0) s.sched.buckets (bucketKey part q.1) - q.2
    let b := if floor then max b (-((e.2 * 4096 : Nat) : Int)) else b
    { s with sched := { s.sched with buckets := Tbl.put (fun _ => 0) s.sched.buckets (bucketKey part q.1) b } }

/-- A tagged request admitted: its bytes are subtracted and it goes out. -/
def State.admitReq (s : State) (r : HeldReq) : State :=
  (r.ports.foldl (fun s q => s.takeTokens r.partition q false) s).emit r.out

/-- Has every port that a request takes tokens for it? -/
def State.reqOpen (s : State) (r : HeldReq) : Bool := r.ports.all fun q => s.bucketOpen r.partition q.1

/-- A tagged request: admitted, or held and counted in BWR_P_HELD. -/
def State.request (s : State) (part : Nat) (ports : List (Nat × Nat)) (out : Output) : State :=
  let r : HeldReq := { partition := part, ports, out }
  if s.reqOpen r then s.admitReq r
  else { s.modPart part fun x => { x with held := x.held + 1 } with reqs := s.reqs ++ [r] }

/-- Save, eviction and restore traffic: admitted at once, and subtracted down to the floor. -/
def State.urgentTraffic (s : State) (part port bytes : Nat) : State := s.takeTokens part (port, bytes) true

/-- Held requests admitted, oldest first, as buckets fill. -/
def State.admitHeld (s : State) : State :=
  s.reqs.foldl (fun s r => if s.reqOpen r then s.admitReq r else { s with reqs := s.reqs ++ [r] }) { s with reqs := [] }

/-- A read or a write of device memory for a partition's traffic. -/
def State.tagRead (s : State) (part a n : Nat) : State := s.request part [(s.addrPort a, n)] (s.vcRead (some part) a n)
def State.tagWrite (s : State) (part a : Nat) (ws : List Word) : State :=
  s.request part [(s.addrPort a, 4 * ws.length)] (s.vcWrite (some part) a ws)

/-! ## What the pager holds for a stream -/

def State.mem (s : State) (i : Nat) : StreamMem := Tbl.get (fun _ => {}) s.pager.mem i

def State.setMem (s : State) (i : Nat) (m : StreamMem) : State :=
  { s with pager := { s.pager with mem := Tbl.put (fun _ => {}) s.pager.mem i m } }

def State.modMem (s : State) (i : Nat) (f : StreamMem → StreamMem) : State := s.setMem i (f (s.mem i))

/-- An entry of a leaf list, absent ones reading TIER = 0 (R174). -/
def StreamMem.page (m : StreamMem) (lp : Nat) : Page := Tbl.get (fun _ => {}) m.pages lp

/-! ## Faults (R194, R195) -/

def tierCode : Tier → Nat
  | .none => 0
  | .brood => 1
  | .super => 2

/-- PAG_FLT_ADDR and PAG_FLT_HANDLE, then the event (R195). -/
def State.pagFault (s : State) (id addr handle : Nat) (inst : Option Nat) (status : Byte) : State :=
  let s := (s.setReg Reg.pagFltAddrLo (Word.mk addr)).setReg Reg.pagFltAddrHi (Word.mk (addr / 2 ^ 32 % 65536))
  (s.setReg Reg.pagFltHandle (Word.mk handle)).raise { id, inst, status }

/-! ## Dirty logs (R193) -/

def State.dlog (s : State) (i : Nat) : DirtyLog := Tbl.get (fun _ => {}) s.pager.dlogs i

def State.setDlog (s : State) (i : Nat) (d : DirtyLog) : State :=
  { s with pager := { s.pager with dlogs := Tbl.put (fun _ => {}) s.pager.dlogs i d } }

/-- A record of kind and index for an owner, under its partition's tag; dropped, with OVERFLOW, where the ring is full. -/
def State.dlogPut (s : State) (part inst id kind index : Nat) : State :=
  let d := s.dlog inst
  if !d.en then s
  else if d.size ≤ (d.tail - d.head).toNat then
    (s.setDlog inst { d with overflow := true }).pagFault Flt.dlogOvf 0 id (some inst) 0
  else
    let base := (d.baseHi.toNat % 65536 * 2 ^ 32 + d.baseLo.toNat) / 8 * 8
    (s.setDlog inst { d with tail := d.tail + 1, recs := d.recs ++ [(kind, index, id)] }).tagWrite part
      (base + 8 * (d.tail.toNat % d.size)) [Word.mk (kind * 2 ^ 30 + index), Word.mk id]

/-- The handle of the stream at index i. -/
def State.handle (s : State) (i : Nat) : Nat := handleOf i (s.entry i)

/-- A record of kind and index for the stream at index i. -/
def State.dlogAdd (s : State) (i kind index : Nat) : State :=
  let e := s.entry i
  s.dlogPut e.p.partition.toNat e.inst.toNat (s.handle i) kind index

/-! ## The words of the lists (R174, R176, R177) -/

/-- A list block of stream i: 0 its root list, 1 its log list, 2 + j its leaf list j. -/
def StreamMem.block (m : StreamMem) (which : Nat) : Option Block :=
  match which with
  | 0 => m.root
  | 1 => m.logList
  | j + 2 => Tbl.find m.leaves j

/-- Root entry j: VALID and LEAF. -/
def State.rootEntry (s : State) (m : StreamMem) (j : Nat) : Dword :=
  match Tbl.find m.leaves j with
  | some b => BitVec.ofNat 64 (2 ^ 63 + (s.blockAddr b).toNat % 2 ^ 48)
  | none => 0

/-- A leaf entry: TIER, SHARED, POISON, MOVING, FRAME, FILL. -/
def State.leafEntry (s : State) (p : Page) : Dword :=
  let addr := match p.frame with
    | some f => s.frameAddr f % 2 ^ 48
    | none => 0
  BitVec.ofNat 64 (tierCode p.tier * 2 ^ 62 + bitAt 61 p.shared + bitAt 60 p.poison + bitAt 59 p.moving + addr + p.fill)

/-- The two halves of log-list entry j: VALID and PRIMARY, MIRROR. -/
def State.logEntry (s : State) (m : StreamMem) (j : Nat) : List Dword :=
  match Tbl.find m.log j with
  | some p => [BitVec.ofNat 64 (2 ^ 63 + s.frameAddr p.primary % 2 ^ 48), BitVec.ofNat 64 (s.frameAddr p.mirror % 2 ^ 48)]
  | none => [0, 0]

/-- The 8-byte entry n of a list block. -/
def State.listEntry (s : State) (m : StreamMem) (which n : Nat) : Dword :=
  match which with
  | 0 => s.rootEntry m n
  | 1 => (s.logEntry m (n / 2)).getD (n % 2) 0
  | j + 2 => s.leafEntry (m.page (512 * j + n))

/-- Entry n of a list block written: the 32 bytes around it, in both copies, on the narrow path of each copy's die
(R177, R192). -/
def State.writeEntry (s : State) (i which n : Nat) : State :=
  let m := s.mem i
  match m.block which with
  | none => s
  | some b =>
    let ws := (List.range 4).flatMap fun k => let d := s.listEntry m which (n / 4 * 4 + k); [d.lo, d.hi]
    let put (f : Frame) (carve : Nat) : NpAccess :=
      npWrite (poolDie f.pool) (s.frameAddr f + carve * 4096 + n / 4 * 32) ws
    s.npQueue [put b.first b.carve1, put b.second b.carve2]

/-- Index of a list block in a record of kind 2: a leaf list by its root entry, the root list 512, the log list 513
(DESIGN CHOICE, log 54). -/
def blockIndex (which : Nat) : Nat :=
  match which with
  | 0 => 512
  | 1 => 513
  | j + 2 => j

/-- The words of a list block: 512 entries, or 1 024 of a log list. -/
def State.blockWords (s : State) (m : StreamMem) (which : Nat) : List Word :=
  (List.range (if which = 1 then 1024 else 512)).flatMap fun n => let d := s.listEntry m which n; [d.lo, d.hi]

/-- One copy of a list block written whole, in accesses of 32 bytes each. -/
def State.writeCopy (s : State) (i which : Nat) (f : Frame) (carve : Nat) : State :=
  let ws := s.blockWords (s.mem i) which
  s.npQueue ((List.range (ws.length / 8)).map fun k =>
    npWrite (poolDie f.pool) (s.frameAddr f + carve * 4096 + 32 * k) ((ws.drop (8 * k)).take 8))

/-- A list block made: both copies written, and the block logged (R177, R193). -/
def State.madeBlock (s : State) (i which : Nat) : State :=
  match (s.mem i).block which with
  | none => s
  | some b => ((s.writeCopy i which b.first b.carve1).writeCopy i which b.second b.carve2).dlogAdd i 2 (blockIndex which)

/-- Entry n of a list block rewritten, and the block logged (R193). -/
def State.rewrote (s : State) (i which n : Nat) : State :=
  (s.writeEntry i which n).dlogAdd i 2 (blockIndex which)

/-- A leaf entry written. -/
def State.setPage (s : State) (i lp : Nat) (p : Page) : State :=
  (s.modMem i fun m => { m with pages := Tbl.put (fun _ => {}) m.pages lp p }).rewrote i (2 + lp / 512) (lp % 512)

/-- BROOD_PAGES and SUPER_PAGES changed. -/
def State.countPages (s : State) (i : Nat) (brood super : Int) : State :=
  s.modEntry i fun e => { e with broodPages := Word.mk (e.broodPages.toNat + brood).toNat,
                                 superPages := Word.mk (e.superPages.toNat + super).toNat }

/-! ## Reports of failed frames (R191) -/

/-- A frame reported, for a fault source: it enters the FIFO, an error message goes to the physical function (R389), and it
is not used again. -/
def State.report (s : State) (id : Nat) (hard : Bool) (tier : Tier) (frame : Nat) : State :=
  let base := if tier = .super then Config.superBase.toNat else Config.broodBase.toNat
  if 64 ≤ s.pager.retire.length then s.pagFault Flt.retireOvf ((base + frame) * 65536) 0 none 0
  else
    let r : Retired := { hard, tier, frame }
    let s := { s with pager := { s.pager with retire := s.pager.retire ++ [r] } }
    s.errMessage 1 id none 0

/-! ## Shared frames (R185, R187, R190) -/

/-- A frame that held a page is given up: it returns to its pool, unless it is poisoned (R191). -/
def State.releaseFrame (s : State) (f : Frame) (poison : Bool) : State :=
  if poison then s.withhold f else s.giveFrame f

/-- One reference to a shared frame dropped; with the last the frame returns to its pool, or is reported and withheld
where it is poisoned. -/
def State.dropCount (s : State) (k : Nat) : State :=
  match Tbl.find s.pager.shared k with
  | none => s
  | some x =>
    if x.count ≤ 1 then
      let past (p : Prefix) : Prefix := { p with shares := p.shares.erase k }
      let s := { s with pager := { s.pager with
        shared := Tbl.erase s.pager.shared k, prefixes := s.pager.prefixes.map fun (e : Nat × Prefix) => (e.1, past e.2) } }
      let s := match Tbl.find s.pager.prefixes x.pfx with
        | some y => s.refundBrood y.inst 16
        | none => s
      let s := if x.poison then s.report Flt.ctxPoison false .brood x.frame.number else s
      s.releaseFrame x.frame x.poison
    else { s with pager := { s.pager with shared := Tbl.insert s.pager.shared k { x with count := x.count - 1 } } }

def State.addShared (s : State) (k : Nat) : State :=
  { s with pager := { s.pager with shared := Tbl.adjust (fun x => { x with count := x.count + 1 }) s.pager.shared k } }

/-- A prefix whose own reference is dropped and whose frames, another prefix's among them, have no reference left is
forgotten (R187). -/
def State.prefixSweep (s : State) (id : Nat) : State :=
  match Tbl.find s.pager.prefixes id with
  | none => s
  | some x =>
    if x.freed && x.shares.isEmpty && !s.pager.shared.any fun e => e.2.pfx == id then
      let s := x.log.foldl (fun s e => ((s.giveFrame e.2.primary).giveFrame e.2.mirror).refundSuper x.inst 32) s
      { s with pager := { s.pager with prefixes := Tbl.erase s.pager.prefixes id } }
    else s

/-- One reference to a shared frame dropped, and every freed prefix that held the frame forgotten where it was the last
(R187). -/
def State.dropShared (s : State) (k : Nat) : State :=
  ((s.pager.prefixes.filter fun e => e.2.freed).map fun e => e.1).foldl State.prefixSweep (s.dropCount k)

/-! ## Releasing a stream's memory (R182) -/

/-- PREFIX_FREE of a prefix (R187): its id is retired for new admissions, its own references are dropped. -/
def State.freePrefix (s : State) (id : Nat) (x : Prefix) : State :=
  let mark (x : Prefix) : Prefix :=
    { x with freed := true, pages := [], wanted := [], shares := x.pages.map fun e => e.2.shareId }
  let pend := (s.comp.pend.map fun e => (e.1, e.2.filter fun d => !d.makes id)).filter fun e => !e.2.isEmpty
  let s := { s with pager := { s.pager with prefixes := Tbl.adjust mark s.pager.prefixes id }, comp := { s.comp with pend } }
  let s := x.pages.foldl (fun s e => s.dropShared e.2.shareId) s
  s.prefixSweep id

/-- One page of stream i freed. A frame whose move is in flight is freed when the move completes. -/
def State.freePage (s : State) (i lp : Nat) : State :=
  let e := s.entry i
  let p := (s.mem i).page lp
  let s := s.setPage i lp {}
  if p.shared then (s.dropShared p.shareId).countPages i (-1) 0
  else match p.tier, p.frame with
    | .brood, some f =>
      let s := (s.countPages i (-1) 0).refundBrood e.inst.toNat 16
      if p.moving && !p.poison then s else s.releaseFrame f p.poison
    | .super, some f =>
      let s := (s.countPages i 0 (-1)).refundSuper e.inst.toNat 16
      if p.moving && !p.poison then s else s.releaseFrame f p.poison
    | _, _ => s

/-- All context pages and leaf lists of a stream freed (entry to DORMANT). -/
def State.dropPages (s : State) (i : Nat) : State :=
  let e := s.entry i
  let s := ((s.mem i).pages.map fun x => x.1).foldl (fun s lp => s.freePage i lp) s
  let leaves := (s.mem i).leaves
  let s := leaves.foldl (fun s b => (s.freeBlock b.2 1).refundBrood e.inst.toNat 2) s
  let s := s.modMem i fun m => { m with leaves := [], pages := [] }
  let s := leaves.foldl (fun s b => s.rewrote i 0 b.1) s
  s.modEntry i fun e => { e with broodPages := 0, superPages := 0 }

/-- Is a TOKEN_LOG_READ of the stream under way (R46)? Its log is then kept until the operation ends. -/
def State.logRead (s : State) (i gen : Nat) : Bool :=
  s.interp.ops.any fun e => !e.2.ended && match e.2.body with
    | .tokenRead j g _ _ _ => j == i && g == gen
    | _ => false

/-- The key under which a log is kept once its stream is retired and a read of it goes on. -/
def logKey (i gen : Nat) : Nat := gen * 2 ^ 18 + i

/-- The token log held under a key freed. -/
def State.dropLog (s : State) (k : Nat) : State :=
  let m := s.mem k
  let s := m.log.foldl (fun s e => ((s.giveFrame e.2.primary).giveFrame e.2.mirror).refundSuper m.inst 32) s
  let s := match m.logList with
    | some b => (s.freeBlock b 2).refundBrood m.inst 4
    | none => s
  s.setMem k {}

/-- Everything a stream holds freed (entry to RETIRED), the log only once no read of it is under way (R46). -/
def State.dropMemory (s : State) (i : Nat) : State :=
  let s := s.dropPages i
  let s := match (s.mem i).root with
    | some b => ((s.freeBlock b 1).refundBrood (s.mem i).inst 2).modMem i fun m => { m with root := none }
    | none => s
  let s := { s with pager := { s.pager with waiting := dropWhere (fun j => j == i) s.pager.waiting,
                                            mirrors := dropWhere (fun e => e.1 == i && e.2.1 != 2) s.pager.mirrors,
                                            nominees := dropWhere (fun n => n.index == i) s.pager.nominees } }
  let m := s.mem i
  if s.logRead i m.gen then (s.setMem (logKey i m.gen) m).setMem i {} else s.dropLog i

/-! ## Allocation (R179, R180, R183) -/

/-- The leaf list that covers a logical page, made where it does not exist. -/
def State.needLeaf (s : State) (i lp : Nat) : Option State :=
  let m := s.mem i
  if (Tbl.find m.leaves (lp / 512)).isSome then some s
  else if !s.broodRoom m.inst 2 then none
  else match s.takeBlock (s.entry i).homeDie.toNat 1 with
    | some (b, t) =>
      let t := (t.chargeBrood m.inst 2).modMem i fun m => { m with leaves := Tbl.insert m.leaves (lp / 512) b }
      some ((t.madeBlock i (2 + lp / 512)).rewrote i 0 (lp / 512))
    | none => none

/-- A fresh brood frame for a page, FILL = 0. -/
def State.newPage (s : State) (i lp : Nat) : Option State :=
  match s.needLeaf i lp with
  | none => none
  | some s =>
    let m := s.mem i
    if !s.broodRoom m.inst 16 then none
    else match s.takePlaced broodPools (s.entry i).homeDie.toNat with
      | some (f, t) =>
        some (((t.chargeBrood m.inst 16).setPage i lp { tier := .brood, frame := some f }).countPages i 1 0)
      | none => none

/-- n frame pairs of a token log taken for an instance (R176, R178, R179). -/
def State.takePairs (s : State) (inst home n : Nat) : Option (Tbl LogPair × State) :=
  if !s.superRoom inst (32 * n) then none
  else ((List.range n).foldl (fun (o : Option (Tbl LogPair × State)) j => o.bind fun (l, s) =>
    (s.takePair superPools home).map fun (p, t) => (l ++ [(j, p)], t)) (some ([], s))).map fun (l, s) =>
      (l, s.chargeSuper inst (32 * n))

/-- Log-list entries that positions below `stop` need, of the 512 that the list has (R176). -/
def logEntries (stop : Nat) : Nat := min 512 ((stop + 16383) / 16384)

/-- The log list extended so that it covers positions below `stop`. -/
def State.extendLog (s : State) (i stop : Nat) : Option State :=
  let need := (List.range (logEntries stop)).filter fun j => (Tbl.find (s.mem i).log j).isNone
  need.foldl (fun o j => o.bind fun s =>
    if !s.superRoom (s.mem i).inst 32 then none
    else (s.takePair superPools (s.entry i).homeDie.toNat).map fun (p, t) =>
      ((t.chargeSuper (s.mem i).inst 32).modMem i fun m => { m with log := Tbl.insert m.log j p }).rewrote i 1 (2 * j))
    (some s)

/-- The words of positions pos to pos + n − 1 written to both frames of log-list entry j (R176, R177). -/
def State.writeLogFrame (s : State) (i j pos n : Nat) : State :=
  let m := s.mem i
  match Tbl.find m.log j with
  | none => s
  | some p =>
    let lo := max pos (16384 * j)
    let hi := min (pos + n) (16384 * (j + 1))
    let ws := (List.range (hi - lo)).map fun k => Word.mk (Tbl.get (fun _ => 0) m.tokens (lo + k))
    let part := (s.entry i).p.partition.toNat
    let at_ (f : Frame) : Nat := s.frameAddr f + 4 * (lo % 16384)
    (s.tagWrite part (at_ p.primary) ws).tagWrite part (at_ p.mirror) ws

/-- Tokens written from a position on, in both copies of the log (R177). -/
def State.writeTokens (s : State) (i pos : Nat) (toks : List Nat) : State :=
  let ins (acc : Nat × Tbl Nat) (t : Nat) : Nat × Tbl Nat := (acc.1 + 1, Tbl.insert acc.2 acc.1 (t % 2 ^ 20))
  let s := s.modMem i fun m => { m with tokens := (toks.foldl ins (pos, m.tokens)).2 }
  let frames := if toks.isEmpty then [] else
    (List.range ((pos + toks.length - 1) / 16384 - pos / 16384 + 1)).map fun k => pos / 16384 + k
  frames.foldl (fun s j =>
    (s.writeLogFrame i j pos toks.length).dlogAdd i 1 j) s

/-- The token at a position of a stream's log. -/
def State.token (s : State) (i pos : Nat) : Nat := Tbl.get (fun _ => 0) (s.mem i).tokens pos

/-! ## Moves (R192) -/

def State.mover (s : State) (d : Nat) : List Move := Tbl.get (fun _ => []) s.pager.movers d

def State.setMover (s : State) (d : Nat) (l : List Move) : State :=
  { s with pager := { s.pager with movers := Tbl.put (fun _ => []) s.pager.movers d l } }

/-- The Timebase ns that PAG_BW_CAP, KiB per µs, gives a 64 KiB frame at least; 0 is no cap (R192, R195). The cap is Timebase
time and the 512 cc of a frame are not: R3 keeps the two apart. -/
def State.moveNs (s : State) : Nat :=
  let cap := s.regField Reg.pagBwCap 15 0
  if cap = 0 then 0 else (64 * 1000 + cap - 1) / cap

/-- The partition of a stream's or a prefix's traffic (R216). -/
def State.ownerPart (s : State) (o : MoveOwner) : Nat :=
  match o with
  | .stream i _ => (s.entry i).p.partition.toNat
  | .pfx k => ((Tbl.find s.pager.prefixes k).map fun x => x.partition).getD 0
  | .settled i _ => (s.entry i).p.partition.toNat

/-- The front move of a die's mover is started. -/
def State.startMove (s : State) (d : Nat) : State :=
  match s.mover d with
  | m :: t =>
    if m.started then s
    else (s.setMover d ({ m with started := true, due := s.cc + 512, dueNs := s.ns + s.moveNs } :: t)).request
      (s.ownerPart m.owner) [(framePort m.src, 65536), (framePort m.dst, 65536)]
      (.move d m.kind m.src m.dst (some (s.ownerPart m.owner)) (s.keyid (s.frameAddr m.src), s.keyid (s.frameAddr m.dst)))
  | [] => s

/-- A move queued to the mover of its destination's die. -/
def State.queueMove (s : State) (m : Move) : State :=
  let d := poolDie m.dst.pool
  (s.setMover d (s.mover d ++ [m])).startMove d

/-- A page promoted: its brood frame is taken and its move queued. -/
def State.promote (s : State) (i lp : Nat) : Option State :=
  let m := s.mem i
  let p := m.page lp
  match p.frame with
  | none => none
  | some src =>
    if !s.broodRoom m.inst 16 then none
    else match s.takePlaced broodPools (s.entry i).homeDie.toNat with
      | some (dst, t) =>
        some (((t.chargeBrood m.inst 16).setPage i lp { p with moving := true }).queueMove
          { owner := .stream i (s.entry i).gen.toNat, inst := m.inst, page := lp, kind := .promote, src, dst })
      | none => none

/-- A parked stream's page demoted. -/
def State.demote (s : State) (i lp : Nat) : Option State :=
  let m := s.mem i
  let p := m.page lp
  match p.frame with
  | none => none
  | some src =>
    if !s.superRoom m.inst 16 then none
    else match s.takePlaced superPools (s.entry i).homeDie.toNat with
      | some (dst, t) =>
        some (((t.chargeSuper m.inst 16).setPage i lp { p with moving := true }).queueMove
          { owner := .stream i (s.entry i).gen.toNat, inst := m.inst, page := lp, kind := .demote, src, dst })
      | none => none

/-- A page that a demotion may take: brood, private, at rest, its frame not reported (R191). -/
def Page.demotable (p : Page) : Bool := p.tier == .brood && !p.shared && !p.moving && !p.poison

/-- A move of stream i's page whose list entry a command writes at once: it is queued to its mover as any other
(log 18). -/
def State.moveNow (s : State) (i lp : Nat) (kind : MoveKind) (src dst : Frame) : State :=
  s.queueMove { owner := .settled i (s.entry i).gen.toNat, inst := (s.mem i).inst, page := lp, kind, src, dst }

/-- A page demoted within one command, where a command needs the frame now (R179, log 18). -/
def State.demoteNow (s : State) (i lp : Nat) : State :=
  let m := s.mem i
  let p := m.page lp
  match p.frame with
  | none => s
  | some src =>
    if !s.superRoom m.inst 16 then s
    else match s.takePlaced superPools (s.entry i).homeDie.toNat with
      | some (dst, t) =>
        let t := ((t.chargeSuper m.inst 16).refundBrood m.inst 16).giveFrame src
        let t := (t.setPage i lp { p with tier := .super, frame := some dst }).countPages i (-1) 1
        t.moveNow i lp .demote src dst
      | none => s

/-- Parked streams of an instance, the oldest parking first. -/
def State.parkedOf (s : State) (inst : Nat) : List Nat :=
  s.comp.parkOrder.filter fun i => decide ((s.entry i).st = .parked) && decide ((s.entry i).inst.toNat = inst)

/-- The instance's own parked streams demoted under R181 until `enough` holds: not with DEMOTE_EN = 0 (R179). -/
def State.reclaimTo (s : State) (inst : Nat) (enough : State → Bool) : State :=
  if !(s.reg Reg.pagCtrl).bit 1 then s
  else (s.parkedOf inst).foldl (fun s i =>
    ((s.mem i).pages.map fun x => x.1).foldl (fun s lp =>
      if enough s || !((s.mem i).page lp).demotable then s else s.demoteNow i lp) s) s

/-- Demoted until n more brood units fit the instance's quota. -/
def State.reclaim (s : State) (inst n : Nat) : State := s.reclaimTo inst fun s => s.broodRoom inst n

/-- Moves that have not started and that p marks are cancelled: their destination frames return (R184). One whose list
entry is written already goes on. -/
def State.dropMoves (s : State) (q : Move → Bool) : State :=
  let p (m : Move) : Bool := q m && match m.owner with
    | .settled _ _ => false
    | _ => true
  [0, 1, 2, 3].foldl (fun s d =>
    let l := s.mover d
    let out := l.filter fun m => !m.started && p m
    let s := s.setMover d (l.filter fun m => m.started || !p m)
    out.foldl (fun s m => match m.owner with
      | .stream i _ =>
        let inst := (s.mem i).inst
        let s := if m.kind = .demote then s.refundSuper inst 16 else s.refundBrood inst 16
        (s.setPage i m.page { (s.mem i).page m.page with moving := false }).giveFrame m.dst
      | .pfx _ => s.giveFrame m.dst
      | .settled _ _ => s) s) s

/-- Moves of a forecast given up, which a demotion is not. -/
def State.cancelMoves (s : State) (p : Move → Bool) : State := s.dropMoves fun m => m.kind != .demote && p m

/-- No further page of a stream is demoted once it leaves PARKED (R184). -/
def State.endDemotion (s : State) (i : Nat) : State :=
  s.dropMoves fun m => m.kind == .demote && match m.owner with
    | .stream j _ => i == j
    | _ => false

/-! ## Second copies (R190) -/

/-- The pool for a fresh second copy: another pool of the die that the survivor stands on, else the survivor's own, else
the other dies. -/
def State.takeBeside (s : State) (pools : Nat → List Nat) (f : Frame) : Option (Frame × State) :=
  let d := poolDie f.pool
  match s.takeAny (dropWhere (fun k => k == f.pool) (pools d)) with
  | some x => some x
  | none => match s.takeFrame f.pool with
    | some x => some x
    | none => (dropWhere (fun e => e == d) [0, 1, 2, 3]).findSome? fun e => s.takeAny (pools e)

/-- A frame of list blocks that no new carving is taken from. -/
def State.closeCarved (s : State) (f : Frame) : State :=
  match Tbl.find s.pager.carved (carveKey f) with
  | some (used, _) => s.setCarved (carveKey f) (some (used, true))
  | none => s

/-- A new carving beside the survivor of a list block. -/
def State.carveBeside (s : State) (f : Frame) (n : Nat) : Option (Frame × Nat × State) :=
  let d := poolDie f.pool
  let try_ (ks : List Nat) : Option (Frame × Nat × State) := (s.carvePool ks n).bind fun k => s.carve k n
  match try_ (dropWhere (fun k => k == f.pool) (broodPools d)) with
  | some x => some x
  | none => match try_ [f.pool] with
    | some x => some x
    | none => (dropWhere (fun e => e == d) [0, 1, 2, 3]).findSome? fun e => try_ (broodPools e)

/-- Has a log frame pair, or a list block, one copy left, so that a fresh one is owed? -/
def LogPair.single (p : LogPair) : Bool := p.primary == p.mirror
def Block.single (b : Block) : Bool := b.first == b.second && b.carve1 == b.carve2

/-- The words of a token log from the first position of frame j on, up to the last one that the log holds. -/
def logFrameWords (tokens : Tbl Nat) (j : Nat) : List Word :=
  let n := tokens.foldl (fun n e => if e.1 / 16384 = j then max n (e.1 % 16384 + 1) else n) 0
  (List.range n).map fun k => Word.mk (Tbl.get (fun _ => 0) tokens (16384 * j + k))

/-- Every frame of a token log written whole, both copies of each. -/
def State.writeFrames (s : State) (part : Nat) (log : Tbl LogPair) (tokens : Tbl Nat) : State :=
  log.foldl (fun s e =>
    let ws := logFrameWords tokens e.1
    (s.tagWrite part (s.frameAddr e.2.primary) ws).tagWrite part (s.frameAddr e.2.mirror) ws) s

def State.writeLog (s : State) (i : Nat) : State :=
  s.writeFrames (s.entry i).p.partition.toNat (s.mem i).log (s.mem i).tokens

def State.writePrefixLog (s : State) (id : Nat) : State :=
  match Tbl.find s.pager.prefixes id with
  | some x => s.writeFrames x.partition x.log x.tokens
  | none => s

/-- May no list entry of the stream be changed now, since a step runs it (R175)? -/
def State.listsBusy (s : State) (i : Nat) : Bool := decide ((s.entry i).st = .active)

/-- The fresh copy of log frame j of stream i, written to a new frame. -/
def State.copyLog (s : State) (i j : Nat) : Option State :=
  match Tbl.find (s.mem i).log j with
  | none => some s
  | some p =>
    if !p.single then some s
    else if s.listsBusy i then none
    else (s.takeBeside superPools p.mirror).map fun (g, t) =>
      let t := t.modMem i fun m => { m with log := Tbl.insert m.log j { p with primary := g } }
      let t := t.tagWrite (t.entry i).p.partition.toNat (t.frameAddr g) (logFrameWords (t.mem i).tokens j)
      (t.dlogAdd i 1 j).rewrote i 1 (2 * j)

/-- The fresh copy of log frame j of prefix id. -/
def State.copyPrefixLog (s : State) (id j : Nat) : Option State :=
  match Tbl.find s.pager.prefixes id with
  | none => some s
  | some x => match Tbl.find x.log j with
    | none => some s
    | some p =>
      if !p.single then some s
      else (s.takeBeside superPools p.mirror).map fun (g, t) =>
        let put (x : Prefix) : Prefix := { x with log := Tbl.insert x.log j { p with primary := g } }
        let t := { t with pager := { t.pager with prefixes := Tbl.adjust put t.pager.prefixes id } }
        t.tagWrite x.partition (t.frameAddr g) (logFrameWords x.tokens j)

/-- The frames of a list block of stream i, as the pager holds them. -/
def State.keepBlock (s : State) (i which : Nat) (b : Block) : State :=
  s.modMem i fun m => match which with
    | 0 => { m with root := some b }
    | 1 => { m with logList := some b }
    | j + 2 => { m with leaves := Tbl.insert m.leaves j b }

/-- A list block of stream i put into its place, whose address the entry or the root list holds. -/
def State.setBlock (s : State) (i which : Nat) (b : Block) : State :=
  let s := s.keepBlock i which b
  match which with
  | 0 => s.modEntry i fun e => { e with pageList := s.blockAddr b }
  | 1 => s.modEntry i fun e => { e with tokenLog := s.blockAddr b }
  | j + 2 => s.rewrote i 0 j

/-- The fresh copy of a list block of stream i, written to a carving of a new frame. -/
def State.copyBlock (s : State) (i which : Nat) : Option State :=
  match (s.mem i).block which with
  | none => some s
  | some b =>
    if !b.single then some s
    else if s.listsBusy i then none
    else (s.carveBeside b.second (if which = 1 then 2 else 1)).map fun (f, p, t) =>
      let t := t.setBlock i which { b with first := f, carve1 := p }
      (t.writeCopy i which f p).dlogAdd i 2 (blockIndex which)

/-- The survivor of a list block put into its place. -/
def State.placeBlock (s : State) (i which : Nat) : Option State :=
  match (s.mem i).block which with
  | none => some s
  | some b => if s.listsBusy i then none else some (s.setBlock i which b)

/-- What is owed under a key: 0 the fresh copy of a log frame, 1 of a list block, 2 of a prefix's log frame; 3 the change of
the entry that names a list block, since its first copy is lost. -/
def State.copyOwed (s : State) (o : Nat × Nat × Nat) : Option State :=
  match o.2.1 with
  | 0 => s.copyLog o.1 o.2.2
  | 1 => s.copyBlock o.1 o.2.2
  | 3 => s.placeBlock o.1 o.2.2
  | _ => s.copyPrefixLog o.1 o.2.2

/-- A fresh copy written, or owed until a frame can be had and no step runs the stream (R175). -/
def State.owe (s : State) (o : Nat × Nat × Nat) : State :=
  match s.copyOwed o with
  | some t => t
  | none => { s with pager := { s.pager with mirrors := s.pager.mirrors ++ [o] } }

/-- The fresh copies owed tried again, oldest first. -/
def State.retryMirrors (s : State) : State :=
  s.pager.mirrors.foldl State.owe { s with pager := { s.pager with mirrors := [] } }

/-! ## Brood pressure (R181) -/

def State.wmLow (s : State) : Nat := s.regField Reg.pagWmLow 23 0
def State.wmMin (s : State) : Nat := min s.wmLow (s.regField Reg.pagWmMin 23 0)

/-- Pages that streams of a die in ADMITTED still wait for: the shortage that counts toward pressure (R180, log 54). -/
def State.shortage (s : State) (d : Nat) : Nat :=
  (s.pager.waiting.filter fun i => (s.mem i).waiting && decide ((s.entry i).homeDie.toNat = d)).foldl
    (fun n i => n + max 1 (s.serve (s.entry i).p.partition.toNat).geomG) 0

/-- Free brood frames of a die, those that waiting streams are short of taken off. -/
def State.dieFree (s : State) (d : Nat) : Nat := s.freeIn (broodPools d) - s.shortage d

def State.pressure (s : State) (d : Nat) : Bool := Tbl.get (fun _ => false) s.pager.pressure d

/-- Is demotion running on die d? A die without a pool has nothing to compare (log 42). -/
def State.demotes (s : State) (d : Nat) : Bool :=
  s.anyFrames (broodPools d) && (s.reg Reg.pagCtrl).bit 1 && decide (s.dieFree d < s.wmLow)

/-- Pressure on each die brought up to date: raised below PAG_WM_MIN (below PAG_WM_LOW without demotion), lowered at or
above PAG_WM_LOW, which also lowers HOLD (R129). -/
def State.syncPressure (s : State) : State :=
  [0, 1, 2, 3].foldl (fun s d =>
    let raiseAt := if (s.reg Reg.pagCtrl).bit 1 then s.wmMin else s.wmLow
    let now := if s.anyFrames (broodPools d) = false then false
      else if s.dieFree d < raiseAt then true
      else if s.wmLow ≤ s.dieFree d then false else s.pressure d
    if now = s.pressure d then s
    else
      let s := { s with pager := { s.pager with pressure := Tbl.put (fun _ => false) s.pager.pressure d now } }
      if now then { s with comp := { s.comp with victimDue := Tbl.insert s.comp.victimDue d s.cc } }
      else
        let hold := Tbl.put (fun _ => false) s.comp.hold d false
        { s with comp := { s.comp with hold, victimDue := Tbl.erase s.comp.victimDue d } }) s

end Sys2Proof.Machine
end

