-- ==== Sys2Proof/Machine/StreamOps.lean ====
section
/-!
DEFINITION. The composer's lists (R110) and the transitions of a stream (R40): entering READY, parking, dormancy,
retirement, release, the fields of STREAM_SET, the choice of a home die.
-/

namespace Sys2Proof.Machine

/-- r of R109. -/
def CombEntry.toRun (e : CombEntry) : Nat := e.pos.toNat - e.prefillPos.toNat

/-- Band of a stream (R109). -/
def CombEntry.band (e : CombEntry) : Nat := e.p.prio.toNat / 32

/-! ## Lists (R110) -/

def listGet (q : Tbl (List Nat)) (k : Nat) : List Nat := Tbl.get (fun _ => []) q k
def listPut (q : Tbl (List Nat)) (k : Nat) (l : List Nat) : Tbl (List Nat) := Tbl.put (fun _ => []) q k l

/-- A list table without a stream. -/
def listDrop (q : Tbl (List Nat)) (i : Nat) : Tbl (List Nat) :=
  (q.map fun e => (e.1, dropWhere (fun j => j == i) e.2)).filter fun e => !e.2.isEmpty

/-- Stream i taken off whatever list of its partition it is on. -/
def State.leaveLists (s : State) (i : Nat) : State :=
  s.modServe (s.entry i).p.partition.toNat fun x =>
    { x with decodeQ := listDrop x.decodeQ i, prefillQ := listDrop x.prefillQ i, parkedQ := listDrop x.parkedQ i }

/-- Stream i at the tail of the queue of its class and band. -/
def State.joinReady (s : State) (i : Nat) : State :=
  let e := s.entry i
  s.modServe e.p.partition.toNat fun x =>
    if e.toRun = 1 then { x with decodeQ := listPut x.decodeQ e.band (listGet x.decodeQ e.band ++ [i]) }
    else { x with prefillQ := listPut x.prefillQ e.band (listGet x.prefillQ e.band ++ [i]) }

/-- Stream i is the last to have parked. -/
def State.lastParked (s : State) (i : Nat) : State :=
  { s with comp := { s.comp with parkOrder := dropWhere (fun j => j == i) s.comp.parkOrder ++ [i] } }

/-- Stream i in its place in its partition's parked list for its home die, which stands in order of parking (R128). -/
def State.joinParked (s : State) (i : Nat) : State :=
  let e := s.entry i
  let d := e.homeDie.toNat
  let s := if s.comp.parkOrder.contains i then s else s.lastParked i
  s.modServe e.p.partition.toNat fun x =>
    { x with parkedQ := listPut x.parkedQ d (s.comp.parkOrder.filter fun j => j == i || (listGet x.parkedQ d).contains j) }

/-- The list that holds stream i, empty where none does. -/
def State.listOf (s : State) (i : Nat) : List Nat :=
  let x := s.serve (s.entry i).p.partition.toNat
  (((x.decodeQ ++ x.prefillQ ++ x.parkedQ).find? fun e => e.2.contains i).map fun e => e.2).getD []

/-- The neighbour after i in a list, as a link. -/
def linkAfter (i : Nat) : List Nat → Word
  | a :: b :: t => if a = i then Word.mk b else linkAfter i (b :: t)
  | _ => 0xFFFFFFFF

/-- The 64 words of entry i with its links (R37, R110). -/
def State.entryWords (s : State) (i : Nat) : List Word :=
  let l := s.listOf i
  (s.entry i).words (linkAfter i l) (linkAfter i l.reverse)

/-! ## Rounds (R123) -/

/-- A stream loses its speculative round, if it has one. -/
def State.loseRound (s : State) (i : Nat) : State :=
  let p := (s.entry i).p.partition.toNat
  match (s.serve p).rounds.find? fun r => r.index == i with
  | some r =>
    let s := s.modServe p fun x => { x with rounds := dropWhere (fun r => r.index == i) x.rounds }
    { s with
      comp := { s.comp with rounds := s.comp.rounds.erase r.entry },
      sampler := { s.sampler with rounds := Tbl.erase s.sampler.rounds i } }
  | none => s

/-- The draft group of a partition discarded: its members lose their rounds (R107, R131). -/
def State.endDrafting (s : State) (p : Nat) : State :=
  ((s.serve p).rounds.filter fun r => !r.done).foldl (fun s r => s.loseRound r.index) s

/-! ## Transitions (R40) -/

/-- A forecast falls due where a stream has entered READY since the last one began and the partition has no step running
or held (R111, R114). -/
def State.idleForecast (s : State) (p : Nat) : State :=
  s.modServe p fun x =>
    if x.fresh ∧ x.batch = none ∧ x.fbStep = none ∧ x.forecast = none then { x with forecastDue := true } else x

/-- A stream of the partition has entered READY. -/
def State.wakeForecast (s : State) (p : Nat) : State := (s.modServe p fun x => { x with fresh := true }).idleForecast p

/-- Streams that ORPHAN parks are counted in its record (R346). -/
def State.countOrphanPark (s : State) (reason : Byte) : State :=
  if reason = 0x09 ∧ s.orphan = true then
    { s with fw := { s.fw with orphan := { s.fw.orphan with streamsParked := s.fw.orphan.streamsParked + 1 } } }
  else s

/-- The pager's work for a forecast member that leaves READY is given up: moves not started are cancelled (R184). -/
def State.endNominee (s : State) (i : Nat) : State :=
  if s.pager.nominees.any fun n => n.index == i then
    let s := s.cancelMoves fun m => match m.owner with
      | .stream j _ => i == j
      | _ => false
    { s with pager := { s.pager with nominees := dropWhere (fun n => n.index == i) s.pager.nominees } }
  else s

/-- A stream has joined a parked list for die d: under pressure the choice of victims resumes at once (R129). -/
def State.resumeChoice (s : State) (d : Nat) : State :=
  if s.pressure d && (Tbl.find s.comp.victimDue d).isNone then
    { s with comp := { s.comp with victimDue := Tbl.insert s.comp.victimDue d s.cc } }
  else s

/-- A stream parks: the pending park is taken with it. -/
def State.park (s : State) (i : Nat) (reason : Byte) : State :=
  let s := ((s.loseRound i).leaveLists i).endNominee i
  let s := s.modEntry i fun e => { e with st := .parked, reason, parkPending := false, orphanPark := false }
  (((s.lastParked i).joinParked i).countOrphanPark reason).resumeChoice (s.entry i).homeDie.toNat

/-- A stream enters READY; in ORPHAN it parks at once (R345). -/
def State.enterReady (s : State) (i : Nat) : State :=
  let s := if (s.entry i).st = .parked then s.endDemotion i else s
  let s := (s.leaveLists i).modEntry i fun e => { e with st := .ready }
  if s.orphan then (s.joinReady i).park i 0x09
  else (s.joinReady i).wakeForecast (s.entry i).p.partition.toNat

/-- REASON of a park taken from PARK_PENDING. -/
def CombEntry.parkReason (e : CombEntry) : Byte := if e.orphanPark then 0x09 else 0x08

/-- A PARKED stream becomes DORMANT: its context pages are dropped (R182). -/
def State.dormant (s : State) (i : Nat) (reason : Byte) : State :=
  let s := (s.leaveLists i).modEntry i fun e => { e with st := .dormant, reason }
  (s.dropPages i).modServe (s.entry i).p.partition.toNat fun x => { x with dormant := x.dormant + 1 }

/-- A RETIRED entry released: rewritten and, where it is poisoned, read back first (R40, R53). -/
def State.release (s : State) (i : Nat) : State :=
  let e := s.entry i
  let s := s.rewriteWords i
  if e.poison && s.entryStuck i then s.makeUnusable i (some e.inst.toNat) else s.freeEntry i

/-- A stream retires (R41): pages, token log and shared references are released; under AUTO_RELEASE the entry too. -/
def State.retire (s : State) (i : Nat) (reason : Byte) : State :=
  let s := (s.loseRound i).leaveLists i
  let s := s.dropMemory i
  let s := { s with comp := { s.comp with pend := Tbl.erase s.comp.pend i } }
  let s := s.modEntry i fun e => { e with st := .retired, reason, parkPending := false, retirePending := false,
                                          orphanPark := false }
  if (s.entry i).p.autoRelease then s.release i else s

/-- A stream retires with REASON 0x14 (R190): its lists cannot be read, so that its frames wait for the sweep of the
frame table. `addr` is the last frame lost. -/
def State.retireLost (s : State) (i addr : Nat) : State :=
  let m := s.mem i
  let s := (s.setMem (logKey i m.gen) m).setMem i {}
  let s := { s with pager := { s.pager with sweep := s.pager.sweep ++ [(i, m.gen)] } }
  (s.pagFault Flt.logLost addr (s.handle i) (some (s.entry i).inst.toNat) 0).retire i 0x14

/-! ## Struck words (R51, R52) -/

/-- An uncorrectable word in the entry of a stream: the entry is poisoned and the stream retires (R40). -/
def State.poisonEntry (s : State) (i : Nat) : State :=
  let e := s.entry i
  let inst := e.inst.toNat
  let s := s.modEntry i fun e => { e with poison := true }
  let s := if e.st = .retired then s.modEntry i fun e => { e with reason := 0x13 } else s.retire i 0x13
  s.raise { id := Flt.combUe, unit := i % 16, inst := some inst, status := St.dataPoisoned }

/-- What an operation does about one struck word that it reads (R51, R52). -/
def State.strike (s : State) (x : Strike) : State :=
  let e := s.entry x.index
  if x.kind = 1 then
    (s.setReg Reg.combCeLoc (combLoc x.index x.word)).raise { id := Flt.combCe, unit := x.index % 16 }
  else
    let kind := if x.kind = 2 then Upset.double else Upset.stuck
    let s := s.setReg Reg.combUeLoc (combLoc x.index x.word)
    match e.st with
    | .unusable => s
    | .free =>
      let s := (s.setUpset x.index x.word (some kind)).raise { id := Flt.combUe, unit := x.index % 16, silent := true }
      let s := s.rewriteWords x.index
      if s.entryStuck x.index then s.makeUnusable x.index none else s
    | _ => (s.setUpset x.index x.word (some kind)).poisonEntry x.index

/-- The struck words of a selection that no operation has met: single-bit errors, and the others of an entry that is
neither poisoned nor UNUSABLE. -/
def State.unmet (s : State) (sel : Nat → Nat → Bool) : List Strike :=
  s.comb.upsets.filterMap fun e =>
    let i := e.1 / 64
    if sel i (e.1 % 64) && (e.2 == .single || (!(s.entry i).poison && !s.unusable i)) then
      some { index := i, word := e.1 % 64, kind := match e.2 with
        | .single => 1
        | .double => 2
        | .stuck => 3 }
    else none

/-- A read meets a struck word: a single-bit error is corrected and written back. Nothing is left to meet where what was
met before it rewrote the entry. -/
def State.meet (s : State) (x : Strike) : State :=
  if (Tbl.find s.comb.upsets (x.index * 64 + x.word)).isNone then s
  else (if x.kind = 1 then s.setUpset x.index x.word none else s).strike x

/-- An operation reads the selected words. -/
def State.readWords (s : State) (sel : Nat → Nat → Bool) : State := (s.unmet sel).foldl State.meet s

/-- All 64 words of entry i, and those of some of its rows of 8 words (R37, R49). -/
def wholeEntry (i : Nat) : Nat → Nat → Bool := fun j _ => i == j
def entryRows (i : Nat) (rows : List Nat) : Nat → Nat → Bool := fun j w => i == j && rows.contains (w / 8)

/-- The rows of an entry that each operation reads. A forecast and a commit: R51, R132. A command: those of the fields that
it tests and of the addresses that it follows (DESIGN CHOICE, log 9). -/
def forecastRows : List Nat := [0, 1, 3, 5]
def commitRows : List Nat := [0]
def setRows : List Nat := [0, 1, 2, 3, 4]
def resumeRows : List Nat := [0, 1]
def listRows : List Nat := [0, 3]
def endRows : List Nat := [0, 1, 5]

/-- Does a read of the selected words meet an uncorrectable one? -/
def State.meetsUncorrectable (s : State) (sel : Nat → Nat → Bool) : Bool := (s.unmet sel).any fun x => decide (x.kind ≠ 1)

/-! ## STREAM_SET (R307) -/

/-- The packet's fields for the groups that SELECT names, the entry's own for the others. -/
def StreamParams.select (old new : StreamParams) (sel : Word) : StreamParams :=
  let b (n : Nat) : Bool := sel.bit n
  { prio := if b 0 then new.prio else old.prio
    partition := if b 1 then new.partition else old.partition
    autoRelease := if b 2 then new.autoRelease else old.autoRelease
    keep := if b 2 then new.keep else old.keep
    specEn := if b 2 then new.specEn else old.specEn
    grammarEn := if b 2 then new.grammarEn else old.grammarEn
    draftModel := if b 3 then new.draftModel else old.draftModel
    model := if b 3 then new.model else old.model
    automaton := if b 4 then new.automaton else old.automaton
    fallback := if b 3 then new.fallback else old.fallback
    maxNew := if b 5 then new.maxNew else old.maxNew
    maxCtx := if b 6 then new.maxCtx else old.maxCtx
    deadlineUs := if b 7 then new.deadlineUs else old.deadlineUs
    temperature := if b 8 then new.temperature else old.temperature
    topP := if b 8 then new.topP else old.topP
    minP := if b 8 then new.minP else old.minP
    topK := if b 8 then new.topK else old.topK
    repPenalty := if b 8 then new.repPenalty else old.repPenalty
    presPenalty := if b 8 then new.presPenalty else old.presPenalty
    freqPenalty := if b 8 then new.freqPenalty else old.freqPenalty
    biasTable := if b 9 then new.biasTable else old.biasTable
    seed := if b 10 then new.seed else old.seed
    stopToken0 := if b 11 then new.stopToken0 else old.stopToken0
    stopToken1 := if b 11 then new.stopToken1 else old.stopToken1
    stopToken2 := if b 11 then new.stopToken2 else old.stopToken2
    stopToken3 := if b 11 then new.stopToken3 else old.stopToken3
    stopSeq := if b 12 then new.stopSeq else old.stopSeq
    tokenTag := if b 13 then new.tokenTag else old.tokenTag
    tokenRing := if b 14 then new.tokenRing else old.tokenRing
    prefixId := if b 15 then new.prefixId else old.prefixId }

/-- START of a loaded automaton. -/
def State.autStart (s : State) (a : Nat) : Nat :=
  match Tbl.find s.sampler.automata a with
  | some x => x.start
  | none => 0

/-- The fields of a STREAM_SET applied to a stream (R307): a change of partition, or of band in READY, moves it between
lists (R40), and a change of partition ends its speculative round, which is the old partition's (R123). -/
def State.applySet (s : State) (i : Nat) (sel : Word) (new : StreamParams) : State :=
  let e := s.entry i
  let q := e.p.select new sel
  let starts := q.grammarEn && (sel.bit 4 || !e.p.grammarEn)
  let aut := if starts then BitVec.ofNat 16 (s.autStart q.automaton.toNat) else e.autState
  let moved := decide (q.partition ≠ e.p.partition)
  let band := decide (q.prio.toNat / 32 ≠ e.band)
  let put (s : State) : State := s.modEntry i fun e => { e with p := q, autState := aut }
  match e.st with
  | .ready =>
    if moved || band then
      let s := if moved then s.loseRound i else s
      let s := (put (s.leaveLists i)).joinReady i
      if moved then s.wakeForecast q.partition.toNat else s
    else put s
  | .parked => if moved then (put (s.leaveLists i)).joinParked i else put s
  | .active => put (if moved then s.loseRound i else s)
  | _ => put s

/-! ## The home die (R126) -/

/-- Die of a quarter-cluster (R10). -/
def qcDie (q : Nat) : Nat := q / 32

/-- Streams of a partition in ADMITTED–PARKED homed on die d. -/
def State.homed (s : State) (p d : Nat) : Nat :=
  Tbl.count (fun _ e => e.p.partition.toNat == p && e.homeDie.toNat == d && match e.st with
    | .admitted | .ready | .active | .parked => true
    | .free | .dormant | .retired | .unusable => false) s.comb.entries

/-- The die with the least load for a stream of partition p, none where the partition holds no core. The load is
compared as h × weight × c', the weight 16 − PREFIX_W on each die that holds pages of the stream's shared prefix. -/
def State.chooseHome (s : State) (p : Nat) (pfx : Word) : Option Nat :=
  let qcs := (s.partD p).qcs
  let cores (d : Nat) : Nat := 16 * (qcs.filter fun q => qcDie q == d).length
  let near (x : Prefix) (d : Nat) : Bool := x.pages.any fun e => e.2.frame.any fun f => poolDie f.pool == d
  let weight (d : Nat) : Nat := match Tbl.find s.pager.prefixes pfx.toNat with
    | some x => if near x d ∧ pfx ≠ 0xFFFFFFFF then 16 - (s.serve p).mp.prefixW else 16
    | none => 16
  let less (a b : Nat) : Bool :=
    let x := s.homed p a * weight a * cores b
    let y := s.homed p b * weight b * cores a
    decide (x < y) || (decide (x = y) && decide (s.freeIn (broodPools b) < s.freeIn (broodPools a)))
  ([0, 1, 2, 3].filter fun d => decide (0 < cores d)).foldl (fun b d => match b with
    | some a => if less d a then some d else b
    | none => some d) none

end Sys2Proof.Machine
end

