-- ==== Sys2Proof/Machine/NomineeOps.lean ====
section
/-!
DEFINITION. The pager's work for the members of a forecast (R183, R184): the list walk on the narrow path, promotions,
fresh frames, copies on write, and the retry of what waits for a frame.
-/

namespace Sys2Proof.Machine

/-- The place in a nominee's wanted list that stands for its log list. -/
def logWanted : Nat := 262144

/-- First and last block that a nominee's member writes (R183). -/
def State.nomBlocks (s : State) (n : Nominee) : Nat × Nat :=
  let p := max 1 (s.serve n.partition).geomP
  (n.startPos / p, (n.startPos + n.nTok - 1) / p)

def State.geomG (s : State) (p : Nat) : Nat := max 1 (s.serve p).geomG

/-- A poisoned block of a stream at its next forecast (R190): its pages are freed and the stream prefills from its start.
It joins its class anew, which counts as an entry into READY (R114): the forecast that found it drops it at its commit. -/
def State.healBlock (s : State) (i k p g : Nat) : State :=
  let s := (List.range g).foldl (fun s j => s.freePage i (k * g + j)) s
  let e := s.entry i
  if k * p < e.prefillPos.toNat then
    (((s.leaveLists i).modEntry i fun e => { e with prefillPos := Word.mk (k * p) }).joinReady i).wakeForecast
      e.p.partition.toNat
  else s

/-- A private copy of a shared page begun: its frame is taken and the copy queued (R187). -/
def State.copyPage (s : State) (i lp g : Nat) : Option State :=
  let m := s.mem i
  let p := m.page lp
  match p.frame with
  | none => none
  | some src =>
    if !s.broodRoom m.inst 16 then none
    else match s.takePlaced broodPools (s.entry i).homeDie.toNat with
      | some (dst, t) =>
        let t := ((t.chargeBrood m.inst 16).setPage i lp { p with moving := true }).queueMove
          { owner := .stream i (s.entry i).gen.toNat, inst := m.inst, page := lp, kind := .copy, src, dst }
        some (if lp % g = 0 then { t with pager := { t.pager with cowCnt := t.pager.cowCnt + 1 } } else t)
      | none => none

/-- Does the shared-frame entry of a page say POISON (R190)? -/
def State.sharedPoison (s : State) (p : Page) : Bool :=
  p.shared && (Tbl.find s.pager.shared p.shareId).any fun x => x.poison

/-- A page of a stream on a fenced port is found poisoned, a shared one in its shared-frame entry (R190, R372); the fence
itself stops no step (R373). -/
def State.lostPage (s : State) (i lp : Nat) : State :=
  let p := (s.mem i).page lp
  match p.frame with
  | some f =>
    if !s.poolFenced f.pool || p.poison || p.moving || s.sharedPoison p then s
    else
      let t := if p.shared then
          { s with pager := { s.pager with
            shared := Tbl.adjust (fun x => { x with poison := true }) s.pager.shared p.shareId } }
        else (s.setPage i lp { p with poison := true }).report Flt.ctxPoison false p.tier f.number
      t.pagFault Flt.ctxPoison (s.frameAddr f) (s.handle i) (some (s.mem i).inst) St.dataPoisoned
  | none => s

/-- The key of a root access in a walk: the four root entries from 4 k on. -/
def rootKey (k : Nat) : Nat := 2 ^ 20 + k

/-- A walk over every logical page of a nominee's blocks: its root accesses, then its leaf accesses of four entries each
(R183, R192). -/
def State.walkOf (s : State) (n : Nominee) : List Nat :=
  let last := ((s.nomBlocks n).2 + 1) * s.geomG n.partition
  ((List.range ((last + 2047) / 2048)).map rootKey) ++ (List.range ((last + 3) / 4)).map fun k => 4 * k

/-- The work for a prefill member whose position a poisoned block has moved back, from its new position on. -/
def State.renominee (s : State) (n : Nominee) : Nominee :=
  let at_ := (s.entry n.index).prefillPos.toNat
  if n.startPos ≤ at_ then n
  else
    let charge := (((s.serve n.partition).forecast.getD []).find? fun m => m.index == n.index).map fun m => m.charge
    let n := { n with startPos := at_, nTok := charge.getD n.nTok, answered := [] }
    { n with walk := s.walkOf n }

/-- What the pager has to do for a page of a member's blocks (R183, R187, R190). -/
inductive PageWork where
  | none | heal | await | copy | promote | fresh
  deriving DecidableEq, Repr

def State.pageWork (s : State) (n : Nominee) (lp : Nat) : PageWork :=
  let k := lp / s.geomG n.partition
  let b := s.nomBlocks n
  let written := decide (b.1 ≤ k) && decide (k ≤ b.2)
  let p := (s.mem n.index).page lp
  if p.poison || s.sharedPoison p then .heal
  else if p.moving then .await
  else if p.shared && written then .copy
  else match p.tier with
    | .super => .promote
    | .none => if written then .fresh else .none
    | .brood => .none

/-- Units that a new page of stream i takes of the brood quota: its frame's, and those of a leaf list that is yet to be
made (R179). -/
def State.pageUnits (s : State) (i lp : Nat) : Nat :=
  if (Tbl.find (s.mem i).leaves (lp / 512)).isSome then 16 else 18

/-- A fresh page for a member, after what its instance can reclaim; wanted where it cannot be had. -/
def State.freshPage (s : State) (n : Nominee) (lp : Nat) : State × Nominee :=
  let s := s.reclaim (s.mem n.index).inst (s.pageUnits n.index lp)
  match s.newPage n.index lp with
  | some t => (t, n)
  | none => (s, { n with wanted := insertAsc lp n.wanted })

/-- One page of a member's blocks: what the pager does for it, and the nominee after it. A page on a fenced port is
poisoned (R372). No list entry of an ACTIVE stream changes: what it needs waits for the step's end (R175). A poisoned block
that the member writes gets all its frames anew, those of pages that the walk has passed among them (R190). -/
def State.needPage (s : State) (n : Nominee) (lp : Nat) : State × Nominee :=
  let i := n.index
  let g := s.geomG n.partition
  let active := decide ((s.entry i).st = .active)
  let s := if active then s else s.lostPage i lp
  let work := s.pageWork n lp
  let want (s : State) : State × Nominee := (s, { n with wanted := insertAsc lp n.wanted })
  let room (s : State) : State := s.reclaim (s.mem i).inst 16
  let moved (o : Option State) (s : State) : State × Nominee := match o with
    | some t => (t, { n with moves := insertAsc lp n.moves })
    | none => want s
  if work = .none then (s, n)
  else if work = .await then (s, { n with moves := insertAsc lp n.moves })
  else if active then (s, { n with deferred := insertAsc lp n.deferred })
  else match work with
    | .heal =>
      let s := s.healBlock i (lp / g) (max 1 (s.serve n.partition).geomP) g
      let m := s.renominee n
      if m.startPos ≠ n.startPos then (s, m)
      else
        let block := (List.range g).map fun j => lp / g * g + j
        (block.filter fun q => !n.walk.contains (q / 4 * 4)).foldl (fun x q =>
          if x.1.pageWork n q = .fresh then x.1.freshPage x.2 q else x) (s, n)
    | .copy => moved ((room s).copyPage i lp g) (room s)
    | .promote => moved ((room s).promote i lp) (room s)
    | _ => s.freshPage n lp

/-- The log list extended for a nominee (R180): a failure is SUPER_LOW, unless it has been told, and a late member (R179).
The list of an ACTIVE stream is extended at its step's end (R175). -/
def State.needLog (s : State) (n : Nominee) (told : Bool) : State × Nominee :=
  let stop := n.startPos + n.nTok + 9
  let done := (List.range (logEntries stop)).all fun j => (Tbl.find (s.mem n.index).log j).isSome
  if !done && decide ((s.entry n.index).st = .active) then (s, { n with deferred := insertAsc logWanted n.deferred })
  else match s.extendLog n.index stop with
    | some t => (t, n)
    | none =>
      (if told then s else s.pagFault Flt.superLow 0 (s.handle n.index) (some (s.mem n.index).inst) 0,
       { n with wanted := insertAsc logWanted n.wanted })

/-- Is all of a nominee's work done? A list write has been given out with the change that made it (log 54). -/
def Nominee.done (n : Nominee) : Bool :=
  n.walk.isEmpty && n.wanted.isEmpty && n.deferred.isEmpty && n.moves.isEmpty

/-- Is a nominee late: can a frame that it needs not be had (R184)? -/
def Nominee.late (n : Nominee) : Bool := !n.wanted.isEmpty

def State.putNominee (s : State) (n : Nominee) : State :=
  let f (m : Nominee) : Nominee := if m.partition = n.partition ∧ m.index = n.index then n else m
  { s with pager := { s.pager with nominees := s.pager.nominees.map f } }

def State.nominee (s : State) (p i : Nat) : Option Nominee :=
  s.pager.nominees.find? fun n => n.partition == p && n.index == i

/-- The list block and the byte in it that an access of a walk reads. -/
def accessAt (key : Nat) : Nat × Nat :=
  if tableKey ≤ key then (2 + tableKey, 0)
  else if 2 ^ 20 ≤ key then (0, 32 * (key - 2 ^ 20))
  else (2 + key / 512, key % 512 * 8)

/-- May an access of a walk be issued: its root entry has been read, and it has neither been issued nor answered? -/
def State.mayAccess (s : State) (n : Nominee) (key : Nat) : Bool :=
  !n.answered.contains key && !(s.pager.np.any fun q => q.index == n.index && q.page == key) &&
    !(s.pager.npWait.any fun a => a.index == n.index && a.key == key) &&
    (decide (2 ^ 20 ≤ key) || !n.walk.contains (rootKey (key / 2048)))

/-- The read of a list block that an access of a walk makes. -/
def State.listRead (s : State) (n : Nominee) (key : Nat) : Option NpAccess :=
  ((s.mem n.index).block (accessAt key).1).map fun b =>
    { die := poolDie b.first.pool, index := n.index, key, addr := (s.blockAddr b).toNat + (accessAt key).2, write := none }

/-- The next accesses of every walk queued in forecast order; up to 256 are outstanding on a die (R420). -/
def State.npIssue (s : State) : State :=
  s.npQueue (s.pager.nominees.flatMap fun n => (n.walk.filter (s.mayAccess n)).filterMap (s.listRead n))

/-- The pager's work for a forecast member. -/
def State.nomineeOf (s : State) (p : Nat) (m : Member) : Nominee :=
  let n : Nominee := { partition := p, index := m.index, gen := m.gen.toNat, startPos := m.startPos, nTok := m.nTok,
                       walk := [] }
  { n with walk := s.walkOf n }

/-- A nominee put into its place, at the end of the forecast's list. -/
def State.pushNominee (s : State) (n : Nominee) : State :=
  let others := dropWhere (fun x => x.partition == n.partition && x.index == n.index) s.pager.nominees
  { s with pager := { s.pager with nominees := others ++ [n] } }

/-- A nominee for a forecast member. -/
def State.nominate (s : State) (p : Nat) (m : Member) : State :=
  let r := s.needLog (s.nomineeOf p m) false
  r.1.pushNominee r.2

/-- An access of a nominee's walk seen to: the four pages of a leaf access. -/
def State.walked (s : State) (n : Nominee) (key : Nat) : State :=
  let n := { n with walk := n.walk.erase key, answered := n.answered.erase key }
  let last := ((s.nomBlocks n).2 + 1) * s.geomG n.partition
  let lps := if 2 ^ 20 ≤ key then [] else [key, key + 1, key + 2, key + 3].filter fun lp => decide (lp < last)
  let r := lps.foldl (fun x lp => x.1.needPage x.2 lp) (s, n)
  r.1.putNominee r.2

/-- The next access of a partition's walks in forecast order, once it has been answered, or reads a leaf list that does not
exist. -/
def State.nextWalk (s : State) (p : Nat) : Option (Nominee × Nat) :=
  match s.pager.nominees.find? fun n => n.partition == p && !n.walk.isEmpty with
  | none => none
  | some n => match n.walk with
    | [] => none
    | key :: _ =>
      if n.answered.contains key || ((s.mem n.index).block (accessAt key).1).isNone then some (n, key) else none

/-- The answered accesses of a partition's walks seen to, in forecast order, so that its moves are queued in that order
(R183). -/
def State.walkOn (s : State) (p : Nat) : Nat → State
  | 0 => s
  | fuel + 1 => match s.nextWalk p with
    | some (n, key) => (s.walked n key).walkOn p fuel
    | none => s

/-- Every partition's walks taken on as far as they are answered. -/
def State.walkAll (s : State) : State :=
  (s.pager.nominees.foldl (fun l n => insertAsc n.partition l) []).foldl (fun s p =>
    s.walkOn p ((s.pager.nominees.foldl (fun k n => k + n.walk.length) 0) * 2 + 1)) s

/-- Does a nominee wait for a frame, or for a step that has ended meanwhile? -/
def State.mayRetry (s : State) (n : Nominee) : Bool :=
  !n.wanted.isEmpty || (!n.deferred.isEmpty && decide ((s.entry n.index).st ≠ .active))

/-- What waits for a frame or for the end of a step tried again, in forecast order (R184). -/
def State.retryWanted (s : State) : State :=
  ((s.pager.nominees.filter s.mayRetry).map fun n => (n.partition, n.index)).foldl (fun s k =>
    match s.nominee k.1 k.2 with
    | none => s
    | some n =>
      let r := (unionAsc n.wanted n.deferred).foldl (fun (x : State × Nominee) lp =>
        if lp = logWanted then x.1.needLog x.2 (n.wanted.contains logWanted) else x.1.needPage x.2 lp) (s, { n with wanted := [], deferred := [] })
      r.1.putNominee r.2) s

/-! ## The pages of a prefix (R185) -/

/-- A super page given a brood frame within one command, and its move queued (log 18), where a frame can be had. -/
def State.promoteNow (s : State) (i lp : Nat) : Option State :=
  let s := s.reclaim (s.mem i).inst 16
  let m := s.mem i
  let p := m.page lp
  match p.tier, p.frame with
  | .super, some src =>
    if !s.broodRoom m.inst 16 then none
    else (s.takePlaced broodPools (s.entry i).homeDie.toNat).map fun (dst, t) =>
      let t := ((t.chargeBrood m.inst 16).refundSuper m.inst 16).giveFrame src
      ((t.setPage i lp { p with tier := .brood, frame := some dst }).countPages i 1 (-1)).moveNow i lp .promote src dst
  | _, _ => some s

/-- Logical pages of the blocks that hold the first len positions. -/
def State.prefixPages (s : State) (i len : Nat) : List Nat :=
  let x := s.serve (s.entry i).p.partition.toNat
  List.range (((len - 1) / max 1 x.geomP + 1) * max 1 x.geomG)

def State.modPrefix (s : State) (id : Nat) (f : Prefix → Prefix) : State :=
  { s with pager := { s.pager with prefixes := Tbl.adjust f s.pager.prefixes id } }

/-- A page of the prefix created: its block is logged (R193). -/
def State.prefixPage (s : State) (i id lp : Nat) (p : Page) : State :=
  let part := (s.entry i).p.partition.toNat
  (s.modPrefix id fun x => { x with pages := Tbl.insert x.pages lp p }).dlogPut part (s.entry i).inst.toNat id 3
    (lp / s.geomG part)

/-- One page of the stream shared with the prefix: a reference count of 2, or one more where another prefix holds it. One
whose frame cannot be had, or is poisoned or moving, waits (DESIGN CHOICE, log 54). -/
def State.sharePage (s : State) (i id lp : Nat) : State :=
  let want (s : State) : State := s.modPrefix id fun x => { x with wanted := insertAsc lp x.wanted }
  match s.promoteNow i lp with
  | none => want s
  | some s =>
    let p := (s.mem i).page lp
    if p.poison || p.moving then want s
    else match p.tier, p.shared, p.frame with
      | .brood, false, some f =>
        let k := Tbl.freshFrom s.pager.shared 0
        let p := { p with shared := true, shareId := k }
        let s := { s with pager := { s.pager with
          shared := Tbl.insert s.pager.shared k { frame := f, count := 2, pfx := id } } }
        (s.setPage i lp p).prefixPage i id lp p
      | .brood, true, some _ => (s.addShared p.shareId).prefixPage i id lp p
      | _, _, _ => want s

/-- The pages of prefixes that wait for a frame tried again, unless their stream is ACTIVE (R175, R185). -/
def State.retryPrefixes (s : State) : State :=
  (s.pager.prefixes.filter fun e => !e.2.wanted.isEmpty).foldl (fun s e => match e.2.source with
    | some (i, gen) =>
      if (s.entry i).gen.toNat = gen ∧ (s.entry i).live = true ∧ (s.entry i).st ≠ .active then
        e.2.wanted.foldl (fun s lp => s.sharePage i e.1 lp) (s.modPrefix e.1 fun x => { x with wanted := [] })
      else s
    | none => s) s

/-- After anything that moves frames: what waits is tried again and pressure is brought up to date. -/
def State.pagerSync (s : State) : State :=
  (if s.pager.nominees.any s.mayRetry then s.retryMirrors.retryPrefixes.retryWanted
    else s.retryMirrors.retryPrefixes).walkAll.npIssue.syncPressure

/-- A move of stream i's page has ended: the nominee that waits for it queues the promotion, or waits no longer. -/
def State.moveEnded (s : State) (i lp : Nat) : State :=
  match s.pager.nominees.find? fun n => n.index == i && n.moves.contains lp with
  | none => s
  | some n =>
    let n := { n with moves := n.moves.erase lp }
    let r := s.needPage n lp
    r.1.putNominee r.2

end Sys2Proof.Machine
end

