-- ==== Sys2Proof/Machine/Aes.lean ====
section
/-!
DEFINITION. The random values of the Sampler (spec/06 R157): AES-128 in counter mode.
-/

namespace Sys2Proof.Machine

/-- Multiplication in the field of AES, polynomial x^8 + x^4 + x^3 + x + 1. -/
def gfMul (a b : Byte) : Byte :=
  ((List.range 8).foldl (fun (x : Byte × Byte) i =>
    (if b.getLsbD i then x.1 ^^^ x.2 else x.1, if x.2.getLsbD 7 then (x.2 <<< 1) ^^^ 0x1B#8 else x.2 <<< 1)) (0, a)).1

/-- The inverse in that field, 0 for 0: the 254th power. -/
def gfInv (a : Byte) : Byte :=
  let sq (x : Byte) : Byte := gfMul x x
  let a2 := sq a
  let a4 := sq a2
  let a8 := sq a4
  let a16 := sq a8
  let a32 := sq a16
  let a64 := sq a32
  gfMul (gfMul (gfMul (gfMul (gfMul (gfMul a2 a4) a8) a16) a32) a64) (sq a64)

/-- SubBytes of one byte. -/
def sbox (a : Byte) : Byte :=
  let x := gfInv a
  let rot (n : Nat) : Byte := x.rotateLeft n
  x ^^^ rot 1 ^^^ rot 2 ^^^ rot 3 ^^^ rot 4 ^^^ 0x63#8

/-- Byte i of a list. -/
def byteAt (l : List Byte) (i : Nat) : Byte := l.getD i 0

def xorBytes (a b : List Byte) : List Byte := List.zipWith (fun x y => x ^^^ y) a b

/-- The next round key from the last. -/
def nextKey (rcon : Byte) (k : List Byte) : List Byte :=
  let w (i : Nat) : List Byte := (k.drop (4 * i)).take 4
  let t := [sbox (byteAt k 13) ^^^ rcon, sbox (byteAt k 14), sbox (byteAt k 15), sbox (byteAt k 12)]
  let w0 := xorBytes (w 0) t
  let w1 := xorBytes (w 1) w0
  let w2 := xorBytes (w 2) w1
  w0 ++ w1 ++ w2 ++ xorBytes (w 3) w2

/-- SubBytes and ShiftRows. -/
def subShift (s : List Byte) : List Byte :=
  (List.range 16).map fun i => sbox (byteAt s ((i / 4 + i % 4) % 4 * 4 + i % 4))

def mixColumns (s : List Byte) : List Byte :=
  (List.range 16).map fun i =>
    let c := i / 4 * 4
    let at_ (j : Nat) : Byte := byteAt s (c + (i + j) % 4)
    gfMul 2 (at_ 0) ^^^ gfMul 3 (at_ 1) ^^^ at_ 2 ^^^ at_ 3

/-- AES-128 of one block (FIPS 197). -/
def aesEncrypt (key block : List Byte) : List Byte :=
  let rcons : List Byte := [0x01, 0x02, 0x04, 0x08, 0x10, 0x20, 0x40, 0x80, 0x1B]
  let r := rcons.foldl (fun (x : List Byte × List Byte) rc =>
    let k := nextKey rc x.1
    (k, xorBytes (mixColumns (subShift x.2)) k)) (key, xorBytes block key)
  xorBytes (subShift r.2) (nextKey 0x36 r.1)

/-- The n bytes of a number, most significant first. -/
def beBytes (n x : Nat) : List Byte := (List.range n).map fun i => BitVec.ofNat 8 (x / 256 ^ (n - 1 - i))

/-- u24 of a predicted position and purpose (R157). -/
def u24 (seed : Dword) (pos : Nat) (purpose : Nat) : Nat :=
  let key := beBytes 8 seed.toNat ++ beBytes 8 (~~~seed).toNat
  let b := aesEncrypt key (beBytes 4 pos ++ beBytes 1 purpose ++ List.replicate 11 0)
  (byteAt b 0).toNat * 65536 + (byteAt b 1).toNat * 256 + (byteAt b 2).toNat

end Sys2Proof.Machine
end

