-- ==== Sys2Proof/Machine/ComposerOps.lean ====
section
/-!
DEFINITION. The step composer's shared operations (spec/05): candidates, composition, the member table, commit, the
draft group.
-/

namespace Sys2Proof.Machine

/-! ## Bindings -/

def ServePart.role (x : ServePart) : Role → Option RoleBinding
  | .main => x.main
  | .draft => x.draft
  | .fallback => x.fallback

def ServePart.setRole (x : ServePart) (r : Role) (b : Option RoleBinding) : ServePart :=
  match r with
  | .main => { x with main := b }
  | .draft => { x with draft := b }
  | .fallback => { x with fallback := b }

def Role.code : Role → Nat
  | .main => 0
  | .draft => 1
  | .fallback => 2

def StepKind.code : StepKind → Nat
  | .batch => 0
  | .draft => 1
  | .fallback => 2

def StepKind.role : StepKind → Role
  | .batch => .main
  | .draft => .draft
  | .fallback => .fallback

/-- V_SEQS and V_TOKENS of a role's last variant. -/
def RoleBinding.lastSeqs (b : RoleBinding) : Nat := (b.variants.getLast?.map fun v => v.seqs).getD 0
def RoleBinding.lastToks (b : RoleBinding) : Nat := (b.variants.getLast?.map fun v => v.toks).getD 0

/-- S and B of MAIN (R107). -/
def ServePart.limS (x : ServePart) : Nat := min x.mp.maxSeqs ((x.main.map RoleBinding.lastSeqs).getD 0)
def ServePart.limB (x : ServePart) : Nat := min x.mp.budget ((x.main.map RoleBinding.lastToks).getD 0)

/-- The lowest variant that holds n members and t tokens (R119). -/
def RoleBinding.pick (b : RoleBinding) (n t : Nat) : Nat :=
  ((List.range b.variants.length).find? fun k => match b.variants[k]? with
    | some v => decide (n ≤ v.seqs) && decide (t ≤ v.toks)
    | none => false).getD (b.variants.length - 1)

/-! ## Candidates (R111) -/

/-- A candidate: its predicted START_POS, r and POS. -/
structure Cand where
  index : Nat
  start : Nat
  r     : Nat
  pos   : Nat
  /-- Draft tokens of a verify candidate. -/
  d     : Nat
  deriving DecidableEq, Repr

/-- The round of a stream, in its partition. -/
def State.roundOf (s : State) (p i : Nat) : Option Round := (s.serve p).rounds.find? fun r => r.index == i

/-- A queued stream as a candidate; one still drafting is none, and one whose round is done is a verify candidate while it
is in decode class (R123). -/
def State.queuedCand (s : State) (p i : Nat) : Option Cand :=
  let e := s.entry i
  match s.roundOf p i with
  | some r =>
    if r.done then
      some { index := i, start := e.prefillPos.toNat, r := e.toRun, pos := e.pos.toNat, d := if e.toRun = 1 then r.d else 0 }
    else none
  | none => some { index := i, start := e.prefillPos.toNat, r := e.toRun, pos := e.pos.toNat, d := 0 }

/-- A member of the running step as a candidate of the next, none for a verify member (R111); one whose step end has been
written, or that has retired, is no member any more. -/
def State.memberCand (s : State) (m : Member) : Option Cand :=
  if m.verify ∨ m.ended ∨ (s.entry m.index).st ≠ .active ∨ (s.entry m.index).gen ≠ m.gen then none
  else
    let pos := (s.entry m.index).pos.toNat
    if m.sample then some { index := m.index, start := pos, r := 1, pos := pos + 1, d := 0 }
    else some { index := m.index, start := m.startPos + m.nTok, r := pos - (m.startPos + m.nTok), pos, d := 0 }

/-- The candidates of a class, by band from 7 down: those queued, then those of the running step. A prefill member whose
chunk leaves r = 1 without reaching POS counts in the class that it is predicted to have (DESIGN CHOICE, log 59). -/
def State.candidates (s : State) (p : Nat) (decode : Bool) : List Cand :=
  let x := s.serve p
  let q := if decode then x.decodeQ else x.prefillQ
  let running := ((x.batch.map fun b => b.members).getD [] ++ (x.fbStep.map fun b => b.members).getD []).filterMap
    s.memberCand
  let cls (c : Cand) : Bool := if decode then decide (c.r = 1) else decide (2 ≤ c.r)
  [7, 6, 5, 4, 3, 2, 1, 0].flatMap fun b =>
    (listGet q b).filterMap (s.queuedCand p) ++
      running.filter fun c => cls c && decide ((s.entry c.index).band = b)

/-! ## Composition (R116–R118) -/

/-- A step under composition. -/
structure Compose where
  members : List Member := []
  toks    : Nat := 0
  mem     : Nat := 0
  cap     : Nat := 0
  deriving DecidableEq, Repr

/-- A member made of a candidate. -/
def State.candMember (s : State) (c : Cand) (charge nTok : Nat) (sample decode : Bool) : Member :=
  { index := c.index, gen := (s.entry c.index).gen, startPos := c.start, nTok, charge, sample,
    verify := decide (0 < c.d), specD := c.d, decode, homeDie := (s.entry c.index).homeDie.toNat }

/-- Decode candidates in order, until one would exceed the sequences or the tokens (R117). -/
def State.addDecode (s : State) (b : RoleBinding) (mp : MainParams) (lim budget : Nat) : List Cand → Compose → Compose
  | [], x => x
  | c :: t, x =>
    if lim < x.members.length + 1 ∨ budget < x.toks + (c.d + 1) then x
    else
      let dl := (s.entry c.index).p.deadlineUs.toNat
      let cap := if dl = 0 then x.cap else min x.cap (dl * mp.dlFrac * 1000 / 256)
      let m := s.candMember c (c.d + 1) (c.d + 1) true true
      s.addDecode b mp lim budget t
        { members := x.members ++ [m], toks := x.toks + (c.d + 1), mem := x.mem + c.pos * b.tCtxPs / 1000, cap }

/-- Prefill candidates in order (R118). -/
def State.addPrefill (s : State) (b : RoleBinding) (mp : MainParams) (lim budget : Nat) (decoded : Bool) :
    List Cand → Compose → Compose
  | [], x => x
  | y :: t, x =>
    if x.members.length = lim ∨ x.cap < x.mem then x
    else
      let ps := max 1 b.tTokPs
      let room := min (budget - x.toks) (x.cap * 1000 / ps - x.toks)
      let room := if decoded then min room (mp.balance * x.mem * 1000 / (16 * ps) - x.toks) else room
      let c := min mp.chunkMax (min ((y.r + 63) / 64 * 64) (room / 64 * 64))
      if c < 64 then x
      else
        let carried := min c y.r
        let m := s.candMember y c carried (decide (carried = y.r)) false
        s.addPrefill b mp lim budget decoded t
          { x with members := x.members ++ [m], toks := x.toks + c, mem := x.mem + (y.start + carried) * b.tCtxPs / 1000 }

/-- The next step of a partition, composed over its candidates. -/
def State.composeBatch (s : State) (p : Nat) (b : RoleBinding) : List Member :=
  let x := s.serve p
  let dec := s.candidates p true
  let all := s.candidates p false
  let pre := all.filter fun c => !Tbl.get (fun _ => false) s.comp.hold (s.entry c.index).homeDie.toNat
  let res := if all.isEmpty then 0 else x.mp.seqRes
  let a := s.addDecode b x.mp (x.limS - res) x.limB dec { mem := b.tFixedNs, cap := x.mp.tmaxUs * 1000 }
  (s.addPrefill b x.mp x.limS x.limB (!a.members.isEmpty) pre a).members

/-- EST_NS of a step over members with their final positions (R116), saturated to 32 bits. -/
def State.estNs (s : State) (b : RoleBinding) (ms : List Member) : Nat :=
  let at_ (m : Member) : Nat := if m.decode then (s.entry m.index).pos.toNat else m.startPos + m.nTok
  let mem := ms.foldl (fun n m => n + at_ m * b.tCtxPs / 1000) b.tFixedNs
  let toks := ms.foldl (fun n m => n + m.charge) 0
  min (max mem (toks * b.tTokPs / 1000)) 0xFFFFFFFF

/-! ## The member table (R120) -/

/-- Does a partition hold cores on a die? -/
def State.dieHasCores (s : State) (p d : Nat) : Bool := (s.partD p).qcs.any fun q => q / 32 == d

/-- Dies in the order of their member groups: those that the partition holds no core of any more come last (R127). -/
def State.groupDies (s : State) (p : Nat) : List Nat :=
  ([0, 1, 2, 3].filter fun d => s.dieHasCores p d) ++ [0, 1, 2, 3].filter fun d => !s.dieHasCores p d

/-- Members in table order: by home die, decode and verify members before prefill members, else as composed. -/
def tableOrder (dies : List Nat) (ms : List Member) : List Member :=
  dies.flatMap fun d =>
    (ms.filter fun m => m.homeDie == d && m.decode) ++ (ms.filter fun m => m.homeDie == d && !m.decode)

/-- Words of the records, each with its TOK_OFFSET. -/
def State.tableRecords (s : State) : Nat → List Member → List Word
  | _, [] => []
  | off, m :: t =>
    let e := s.entry m.index
    [Word.mk (handleOf m.index e), Word.mk m.startPos,
     Word.mk (bitAt 31 m.sample + bitAt 30 m.verify + m.specD * 2 ^ 26 + m.homeDie * 2 ^ 24 + m.nTok), Word.mk off,
     e.pageList.lo, e.pageList.hi, e.tokenLog.lo, e.tokenLog.hi] ++ s.tableRecords (off + m.charge) t

/-- The table's words. FIRST of a die is the place of its group in table order (DESIGN CHOICE for a die without cores of
the partition, log 55). -/
def State.tableWords (s : State) (p : Nat) (x : ServeStep) : List Word :=
  let ms := x.members
  let count (d : Nat) : Nat := (ms.filter fun m => m.homeDie == d).length
  let before (d : Nat) : List Nat := (s.groupDies p).takeWhile fun c => c != d
  let first (d : Nat) : Nat := (ms.filter fun m => (before d).contains m.homeDie).length
  let die (d : Nat) : Word := Word.mk (first d * 2 ^ 16 + count d)
  [x.seq, Word.mk (x.kind.code * 2 ^ 30 + x.variant * 2 ^ 26 + ms.length), Word.mk x.tokens,
   Word.mk (ms.foldl (fun n m => n + m.nTok) 0), die 0, die 1, die 2, die 3,
   Word.mk ((ms.filter fun m => m.decode).length * 2 ^ 16 + (ms.filter fun m => m.sample).length), Word.mk x.estNs,
   Word.mk (x.draftK * 2 ^ 8 + p), 0, 0, 0, 0, 0] ++ s.tableRecords 0 ms

/-! ## Handing a step to the scheduler -/

/-- A step added to a context's queue. -/
def State.queueStep (s : State) (c : Nat) (st : Step) : State :=
  s.modCtx c fun x => { x with queued := x.queued ++ [st], readySince := if x.queued.isEmpty then s.ns else x.readySince }

/-- A composed step: its table written and the step queued at its role's context. -/
def State.issueStep (s : State) (p : Nat) (b : RoleBinding) (x : ServeStep) : State :=
  let s := s.tagWrite p b.mtBase.toNat (s.tableWords p x)
  let program := (b.variants[x.variant]?.map fun v => v.program).getD 0
  s.queueStep b.context { seq := x.seq, context := b.context, origin := .serving p x.kind.role, program, estNs := x.estNs }

/-- A new step sequence number (R19). -/
def State.takeSeq (s : State) : Word × State := (s.sched.nextSeq, { s with sched := { s.sched with nextSeq := s.sched.nextSeq + 1 } })

/-! ## Commit (R113, R114, R125, R214) -/

/-- What a commit does with one forecast member. -/
inductive CommitAct where
  | keep (m : Member)
  | defer
  | drop
  deriving DecidableEq, Repr

/-- A forecast member at commit: dropped where its state, partition or class has changed, deferred where the pager has
not reported it ready, else kept with its final positions. A verify member that has lost its round decodes plainly
(R123). -/
def State.commitMember (s : State) (p : Nat) (m : Member) : CommitAct :=
  let e := s.entry m.index
  let drafting := (s.roundOf p m.index).any fun r => !r.done
  let decode := decide (e.toRun = 1)
  if e.st ≠ .ready ∨ e.gen ≠ m.gen ∨ e.p.partition.toNat ≠ p ∨ decode ≠ m.decode ∨ drafting = true then .drop
  else if m.report ≠ .ready then .defer
  else
    let start := e.prefillPos.toNat
    let m := { m with homeDie := e.homeDie.toNat }
    let m := if m.verify && (s.roundOf p m.index).isNone then { m with verify := false, specD := 0, charge := 1 } else m
    let nTok := if m.verify then m.specD + 1 else if m.decode then 1 else min m.charge e.toRun
    .keep { m with startPos := start, nTok, sample := m.verify || decide (start + nTok = e.pos.toNat) }

/-- The pager's report on a forecast member. -/
def State.setReport (s : State) (p i : Nat) (r : Report) : State :=
  s.modServe p fun x =>
    { x with forecast := x.forecast.map (fun l => l.map fun m => if m.index = i then { m with report := r } else m),
             reportAt := s.ns }

/-- Is a report on a forecast member still owed? -/
def State.reportOwed (s : State) (p i : Nat) : Bool :=
  ((s.serve p).forecast.getD []).any fun m => m.index == i && m.report == .none

/-- A late report, once per forecast (R184). -/
def State.reportLate (s : State) (p i : Nat) : State :=
  if s.reportOwed p i then
    ((s.setReport p i .late).satReg Reg.pagLateCnt).pagFault Flt.late 0 (s.handle i) (some (s.entry i).inst.toNat) 0
  else s

/-- A deferral (R133): one never reported counts in PAG_LATE_CNT too (R184). -/
def State.countDefer (s : State) (p : Nat) (m : Member) : State :=
  let inst := (s.entry m.index).inst.toNat
  let s := (s.setReg Reg.stepFltInfo (Word.mk p)).setReg Reg.stepFltSeq (s.serve p).lastSeq
  let s := s.raise { id := Flt.defer, inst := some inst }
  if m.report = .none then
    (s.satReg Reg.pagLateCnt).pagFault Flt.late 0 (handleOf m.index (s.entry m.index)) (some inst) 0
  else s

/-- Is a kept member predicted to miss its deadline (R214)? -/
def State.willMiss (s : State) (p est : Nat) (m : Member) : Bool :=
  let e := s.entry m.index
  let ref := max e.admitTime.toNat e.lastStepTime.toNat
  let pred := s.ns + est * (s.partD p).ratio / 256 + (s.reg Reg.schDlSlackNs).toNat
  (s.reg Reg.schCtrl).bit 3 && m.decode && !m.verify && decide (e.p.deadlineUs ≠ 0) &&
    decide (ref + e.p.deadlineUs.toNat * 1000 < pred)

/-- The fall-back members: marked ones whose FALLBACK_MODEL the partition has bound, in table order, within the role's
limits (R125). -/
def State.fallbackTake (s : State) (b : Option RoleBinding) : List Member → List Member
  | [] => []
  | m :: t => match b with
    | none => []
    | some b =>
      let lim := min b.lastSeqs b.lastToks
      ((m :: t).filter fun m => m.marked && (s.entry m.index).p.fallback.toNat == b.model).take lim

/-- ACTIVE written to a committed member. -/
def State.activate (s : State) (seq : Word) (m : Member) : State :=
  (s.leaveLists m.index).modEntry m.index fun e => { e with st := .active, lastStepSeq := seq }

/-- A step of members over a role's binding. -/
def State.mkStep (s : State) (p : Nat) (b : RoleBinding) (kind : StepKind) (seq : Word) (ms : List Member)
    (est draftK : Nat) : ServeStep :=
  let ms := tableOrder (s.groupDies p) ms
  let tokens := ms.foldl (fun n m => n + m.charge) 0
  { seq, kind, members := ms, variant := b.pick ms.length tokens, estNs := est, tokens, draftK,
    smp := Tbl.find s.sampler.bindings (p * 4 + kind.role.code) }

/-- The rows of some entries read for struck words, as a forecast or a commit reads them (R51, R132, R133). -/
def State.readRows (s : State) (rows : List Nat) (is : List Nat) : State :=
  is.foldl (fun s i => s.readWords (entryRows i rows)) s

/-- A kept member nominated. One that is not kept as a verify member leaves READY outside its round, and loses a round
that it may have (R123). -/
def State.nominateMember (s : State) (seq : Word) (m : Member) : State :=
  (if m.verify then s else s.loseRound m.index).activate seq m

/-- The commit of the next step of a partition: an uncorrectable word in row 0 has retired a member first (R133). EST_NS of
a fall-back step, as of a draft step, is taken from its own role's cost fields, where R116 names MAIN's (DESIGN CHOICE,
log 59). -/
def State.commitStep (s : State) (p : Nat) : State :=
  let s := s.readRows commitRows (((s.serve p).forecast.getD []).map fun m => m.index)
  let x := s.serve p
  match x.main, x.forecast with
  | some b, some fc =>
    let acts := fc.map fun m => (m, s.commitMember p m)
    let kept := acts.filterMap fun a => match a.2 with
      | .keep m => some m
      | _ => none
    let deferred := acts.filterMap fun a => match a.2 with
      | .defer => some a.1
      | _ => none
    let s := deferred.foldl (fun s m => s.countDefer p m) s
    let later := deferred.map fun m => m.index
    let gone := (acts.filter fun a => a.2 == .drop).map fun a => a.1.index
    let s := s.cancelMoves fun m => match m.owner with
      | .stream i _ => gone.contains i
      | _ => false
    let nominees := dropWhere (fun n => n.partition == p && !later.contains n.index) s.pager.nominees
    let s := { s with pager := { s.pager with nominees } }
    if kept.isEmpty then
      s.modServe p fun x => { x with forecast := none, firstEvent := none, deferred := later, forecastDue := false,
                                     fresh := false }
    else
      let est := s.estNs b kept
      let (seq, s) := s.takeSeq
      let marked := (tableOrder (s.groupDies p) kept).map fun m => { m with marked := s.willMiss p est m }
      let fb := s.fallbackTake x.fallback marked
      let rest := dropWhere (fun m => fb.contains m) marked
      let stay := rest.filter fun m => m.marked
      let s := stay.foldl (fun s _ =>
        ((s.modPart p fun q => { q with marked := q.marked + 1 }).schInfo 0 b.context p seq).raise
          { id := Flt.dlNofallback, inst := some (s.partD p).inst }) s
      let batch := s.mkStep p b .batch seq rest est 0
      let s := rest.foldl (fun s m => s.nominateMember seq m) s
      let s := if rest.isEmpty then s else s.issueStep p b batch
      let (fbSeq, s) : Word × State := if fb.isEmpty || rest.isEmpty then (seq, s) else s.takeSeq
      let (fbStep, s) : Option ServeStep × State := match x.fallback, fb with
        | some f, _ :: _ =>
          let st := s.mkStep p f .fallback fbSeq (fb.map fun (m : Member) => { m with charge := 1 }) (s.estNs f fb) 0
          let s := fb.foldl (fun s m => s.nominateMember fbSeq m) s
          (some st, s.issueStep p f st)
        | _, _ => (none, s)
      s.modServe p fun x =>
        { x with forecast := none, firstEvent := none, forecastDue := true, deferred := later,
                 batch := if rest.isEmpty then none else some batch, fbStep, lastSeq := seq,
                 lastMembers := kept.length, lastDeferred := deferred.length, lastTokens := batch.tokens,
                 lastEst := Word.mk est, steps := if rest.isEmpty then x.steps else x.steps + 1 }
  | _, _ => s

/-! ## The draft group (R122–R124) -/

/-- d of R122 for a stream, 0 where it is not eligible. -/
def State.specDepth (s : State) (p i : Nat) : Nat :=
  let x := s.serve p
  let e := s.entry i
  match x.draft with
  | none => 0
  | some b =>
    if e.p.specEn = false ∨ b.unbinding = true ∨ e.p.draftModel.toNat ≠ b.model then 0
    else
      let d := min x.mp.specDepth (e.p.maxCtx.toNat - e.pos.toNat - 1)
      if e.p.maxNew = 0 then d else min d (e.p.maxNew.toNat - e.genCount.toNat - 1)

/-- The lowest free entry of the round table, of 8 192 (DESIGN CHOICE, log 55). -/
def State.freeRound (s : State) : Option Nat := (List.range 8192).find? fun n => !s.comp.rounds.contains n

/-- The draft group formed at the end of a batch step from the streams whose step ended ST_OK in decode class: one
round-table entry each, of 8 192 device-wide, and no more than the DRAFT role's limits. -/
def State.formGroup (s : State) (p : Nat) (eligible : List Nat) : State :=
  let x := s.serve p
  match x.draft with
  | none => s
  | some b =>
    if x.rounds.any fun r => !r.done then s
    else
      let ok := (eligible.filter fun i => decide (0 < s.specDepth p i) && decide ((s.entry i).st = .ready) &&
        (s.roundOf p i).isNone).take (min b.lastSeqs b.lastToks)
      ok.foldl (fun (s : State) i => match s.freeRound with
        | some n =>
          let r : Round := { index := i, entry := n, d := s.specDepth p i }
          ({ s with comp := { s.comp with rounds := insertAsc n s.comp.rounds } }).modServe p fun x =>
            { x with rounds := x.rounds ++ [r], draftK := 0 }
        | none => s) s

/-- The members of a group's draft step k: those with d ≥ k that are still READY, and those among them that the role's
limits S and B leave out (R107, R123). -/
def State.draftMembers (s : State) (p k : Nat) (b : RoleBinding) : List Round × List Round :=
  let rs := (s.serve p).rounds.filter fun r => !r.done && decide (k ≤ r.d) && decide ((s.entry r.index).st = .ready)
  let lim := min b.lastSeqs b.lastToks
  (rs.take lim, rs.drop lim)

/-- The next draft step of a group, one token for each member, which becomes ACTIVE (R40). A member that the role's limits
leave out loses its round (DESIGN CHOICE, log 55). -/
def State.composeDraft (s : State) (p : Nat) : State :=
  let x := s.serve p
  match x.draft with
  | none => s
  | some b =>
    let k := x.draftK + 1
    let s := s.readRows commitRows ((s.draftMembers p k b).1.map fun r => r.index)
    let (rs, out) := s.draftMembers p k b
    if rs.isEmpty ∨ x.drStep ≠ none ∨ b.unbinding then s
    else
      let s := out.foldl (fun s r => s.loseRound r.index) s
      let (seq, s) := s.takeSeq
      let ms := rs.map fun r =>
        let e := s.entry r.index
        ({ index := r.index, gen := e.gen, startPos := e.pos.toNat - 1 + (k - 1), nTok := 1, charge := 1, sample := true,
           verify := false, specD := r.d, decode := true, homeDie := e.homeDie.toNat } : Member)
      let st := s.mkStep p b .draft seq ms (s.estNs b ms) k
      let s := ms.foldl (fun s m => s.activate seq m) s
      (s.issueStep p b st).modServe p fun x => { x with drStep := some st, draftK := k }

end Sys2Proof.Machine
end

