-- ==== Sys2Proof/Machine/Float.lean ====
section
/-!
DEFINITION. Binary32 as the Sampler uses it (R144, R145): order and classes of bit patterns; exact values and the rounded
operations, e^x and ln x among them; FP16 (R151).
-/

namespace Sys2Proof.Machine

/-- The magnitude bits of a pattern. -/
def fmag (w : Word) : Nat := w.toNat % 2 ^ 31

def fNaN (w : Word) : Bool := decide (0x7F800000 < fmag w)

/-- A number whose order is that of the values; both zeros are 0. -/
def fkey (w : Word) : Int := if w.getLsbD 31 then -(fmag w : Int) else (fmag w : Int)

/-- A value, not NaN, between two patterns, both included. -/
def fIn (lo hi w : Word) : Bool := !fNaN w && decide (fkey lo ≤ fkey w) && decide (fkey w ≤ fkey hi)

/-! ## Values -/

/-- A binary32 value: a finite one has a sign, a zero too, and a magnitude that is a whole number of units of 2^−149. -/
inductive FP where
  | nan
  | inf (neg : Bool)
  | fin (neg : Bool) (mag : Nat)
  deriving DecidableEq, Repr

namespace FP

/-- The value of a bit pattern. -/
def ofWord (w : Word) : FP :=
  let m := fmag w
  let neg := w.getLsbD 31
  if 0x7F800000 < m then .nan
  else if m = 0x7F800000 then .inf neg
  else
    let e := m / 2 ^ 23
    .fin neg (if e = 0 then m else (m % 2 ^ 23 + 2 ^ 23) * 2 ^ (e - 1))

/-- +0. -/
def zero : FP := .fin false 0

/-- n / d rounded to a whole number, ties to even. -/
def rne (n d : Nat) : Nat :=
  let q := n / d
  let r := n % d
  if 2 * r < d then q else if d < 2 * r then q + 1 else q + q % 2

/-- Units in 2^128, the first magnitude that is infinite. -/
def limit : Nat := 2 ^ 277

/-- The value of magnitude n / d units and of a sign rounded to binary32: to nearest, ties to even (R145). -/
def round (neg : Bool) (n d : Nat) : FP :=
  let e := (n / d).log2
  let q := 2 ^ (e - 23)
  let m := rne n (d * q) * q
  if limit ≤ m then .inf neg else .fin neg m

/-- 2^149 units make 1. -/
def unit : Nat := 2 ^ 149

def neg : FP → FP
  | .nan => .nan
  | .inf s => .inf (!s)
  | .fin s a => .fin (!s) a

/-- A sum; an exact zero is −0 only of two negative operands. -/
def add : FP → FP → FP
  | .nan, _ => .nan
  | _, .nan => .nan
  | .inf s, .inf t => if s = t then .inf s else .nan
  | .inf s, .fin _ _ => .inf s
  | .fin _ _, .inf s => .inf s
  | .fin s a, .fin t b =>
    if s = t then round s (a + b) 1
    else if a = b then zero
    else if b < a then round s (a - b) 1
    else round t (b - a) 1

def sub (x y : FP) : FP := add x (neg y)

def mul : FP → FP → FP
  | .nan, _ => .nan
  | _, .nan => .nan
  | .inf s, .inf t => .inf (s != t)
  | .inf s, .fin t a => if a = 0 then .nan else .inf (s != t)
  | .fin t a, .inf s => if a = 0 then .nan else .inf (s != t)
  | .fin s a, .fin t b => round (s != t) (a * b) unit

def div : FP → FP → FP
  | .nan, _ => .nan
  | _, .nan => .nan
  | .inf _, .inf _ => .nan
  | .inf s, .fin t _ => .inf (s != t)
  | .fin s _, .inf t => .fin (s != t) 0
  | .fin s a, .fin t b =>
    if b = 0 then (if a = 0 then .nan else .inf (s != t)) else round (s != t) (a * unit) b

/-! ## e^x and ln x, correctly rounded (R145) -/

/-- Fraction bits of the fixed point in which both are evaluated: far more than any binary32 result needs to be told
from its neighbours' midpoints. -/
def prec : Nat := 400

/-- e^−(n/2^prec) in fixed point for n < 2^prec: the series, each term from the last. -/
def expSeries (n : Nat) : Nat :=
  let r := (List.range 90).foldl (fun (x : Int × Int) (k : Nat) =>
    let t := -(x.1 * (n : Int) / (((k + 1) * 2 ^ prec : Nat) : Int))
    (t, x.2 + t)) ((2 ^ prec : Int), (2 ^ prec : Int))
  r.2.toNat

/-- e^−(a units) in fixed point. -/
def expNeg (a : Nat) : Nat :=
  let y := expSeries (a * 2 ^ prec / unit / 2 ^ 8)
  (List.range 8).foldl (fun y _ => y * y / 2 ^ prec) y

def exp : FP → FP
  | .nan => .nan
  | .inf s => if s then zero else .inf false
  | .fin s a =>
    if a = 0 then .fin false unit
    else if 200 * unit ≤ a then (if s then zero else .inf false)
    else
      let y := expNeg a
      if s then round false (y * unit) (2 ^ prec) else round false (2 ^ prec * unit) y

/-- Twice the inverse hyperbolic tangent of n/d in fixed point, for n/d up to 1/3. -/
def atanh2 (n d : Nat) : Nat :=
  let t := n * 2 ^ prec / d
  let t2 := t * t / 2 ^ prec
  2 * ((List.range 140).foldl (fun (x : Nat × Nat) k => (x.1 * t2 / 2 ^ prec, x.2 + x.1 / (2 * k + 1))) (t, 0)).2

def ln : FP → FP
  | .nan => .nan
  | .inf s => if s then .nan else .inf false
  | .fin s a =>
    if a = 0 then .inf true
    else if s then .nan
    else if a = unit then zero
    else
      let k := a.log2
      let one := 2 ^ k
      let m := (atanh2 (a - one) (a + one) : Int)
      let l := ((k : Int) - 149) * (atanh2 1 3 : Int) + m
      round (decide (l < 0)) (l.natAbs * unit) (2 ^ prec)

/-- A raw logit as it is taken: NaN is −∞, +∞ the largest finite value; the flag is NONFINITE (R145). -/
def maxFin : FP := .fin false (limit - 2 ^ 253)

def raw (x : FP) : FP × Bool :=
  match x with
  | .nan => (.inf true, true)
  | .inf false => (maxFin, true)
  | y => (y, false)

/-- A step's result: an overflow to +∞ is the largest finite value, with NONFINITE (R147). -/
def step (x : FP) : FP × Bool :=
  match x with
  | .inf false => (maxFin, true)
  | y => (y, false)

/-- A number whose order is that of finite values; both zeros are 0. -/
def key (neg : Bool) (a : Nat) : Int := if neg then -(a : Int) else a

/-- Order of values; no NaN reaches it. -/
def lt : FP → FP → Bool
  | .inf true, .inf true => false
  | .inf true, _ => true
  | _, .inf true => false
  | .inf false, _ => false
  | _, .inf false => true
  | .fin s a, .fin t b => decide (key s a < key t b)
  | _, _ => false

/-- Equal values: both zeros are one. -/
def same (x y : FP) : Bool := x == y || match x, y with
  | .fin s a, .fin t b => decide (key s a = key t b)
  | _, _ => false

/-- FP16 of a LOGPROB (R151): clamped to ±65 504, NaN written as −65 504; the flag says it was NaN. -/
def half (x : FP) : Half × Bool :=
  let top : Nat := 65504 * unit
  match x with
  | .nan => (0xFBFF, true)
  | .inf s => (if s then 0xFBFF else 0x7BFF, false)
  | .fin s a =>
    let sign := if s then 2 ^ 15 else 0
    if top ≤ a then (BitVec.ofNat 16 (sign + 0x7BFF), false)
    else
      let small := 2 ^ 125
      let e := (a / small).log2
      let q := e - 10
      (BitVec.ofNat 16 (sign + q * 2 ^ 10 + rne a (small * 2 ^ q)), false)

end FP

end Sys2Proof.Machine
end

