-- ==== Sys2Proof/Machine/SamplerOps.lean ====
section
/-!
DEFINITION. The arithmetic of one sample row (spec/06 R138–R161): summaries, adjusted values, truncation, the draw, the
tests of drafts. Nothing here changes the state.
-/

namespace Sys2Proof.Machine

/-! ## Candidates and their rank (R146) -/

/-- A token id and a value. -/
abbrev Logit := Nat × FP

/-- Does a rank higher than b? -/
def Logit.above (a b : Logit) : Bool := FP.lt b.2 a.2 || (!FP.lt a.2 b.2 && decide (a.1 < b.1))

def insertRank (x : Logit) : List Logit → List Logit
  | [] => [x]
  | y :: t => if Logit.above x y then x :: y :: t else y :: insertRank x t

/-- Candidates in descending rank. -/
def sortRank (l : List Logit) : List Logit := l.foldl (fun t x => insertRank x t) []

/-! ## Summaries (R138, R139) -/

def SampleBinding.shards (b : SampleBinding) : Nat := (b.vocab + 4095) / 4096

/-- Tokens of shard s. -/
def SampleBinding.shardSize (b : SampleBinding) (s : Nat) : Nat := min 4096 (b.vocab - 4096 * s)

/-- Words of a summary. -/
def SampleBinding.sumWords (b : SampleBinding) : Nat := 4 + 2 * b.width

/-- A shard's statistics and candidates, raw logits as R145 takes them. -/
structure Summary where
  max    : FP
  sumexp : FP
  cands  : List Logit
  /-- COUNT lies below the shard's token count. -/
  cut    : Bool
  nonfinite : Bool
  deriving DecidableEq, Repr

/-- The summary of shard s from a row's words, none where it is malformed (R139). -/
def SampleBinding.summary (b : SampleBinding) (seq : Word) (s : Nat) (row : List Word) : Option Summary :=
  let ws := (row.drop (s * b.sumWords)).take b.sumWords
  let n := (wordAt ws 2).field 8 0
  let size := b.shardSize s
  let locals := (List.range n).map fun i => (wordAt ws (5 + 2 * i)).field 11 0
  let raws := (List.range n).map fun i => FP.raw (FP.ofWord (wordAt ws (4 + 2 * i)))
  let cands : List Logit := (List.zip locals raws).map fun e => (4096 * s + e.1, e.2.1)
  let top := FP.raw (FP.ofWord (wordAt ws 0))
  let descends : Bool := (List.range (n - 1)).all fun i => match cands[i]?, cands[i + 1]? with
    | some x, some y => Logit.above x y
    | _, _ => true
  let ok := decide ((wordAt ws 2).field 31 16 = s) && decide (wordAt ws 3 = seq) && decide (n = min b.width size) &&
    locals.all (fun l => decide (l < size)) && decide (locals.eraseDups.length = n) && descends &&
    (match cands.head? with
      | some x => FP.same x.2 top.1
      | none => true)
  if ok then some { max := top.1, sumexp := FP.ofWord (wordAt ws 1), cands, cut := decide (n < size),
                    nonfinite := top.2 || raws.any fun r => r.2 }
  else none

/-- All summaries of a row, none where one is malformed. -/
def SampleBinding.summaries (b : SampleBinding) (seq : Word) (row : List Word) : Option (List Summary) :=
  let l := (List.range b.shards).map fun s => b.summary seq s row
  if l.all Option.isSome then some (l.filterMap id) else none

/-- Shards of a row's full logits, with the statistics that full-scan forms itself (R151, R155). -/
def SampleBinding.scan (b : SampleBinding) (row : List Word) : List Summary :=
  let logit (t : Nat) : FP × Bool :=
    if b.lfmt = 0 then
      let w := wordAt row (t / 2)
      FP.raw (FP.ofWord (Word.mk ((if t % 2 = 0 then w.field 15 0 else w.field 31 16) * 2 ^ 16)))
    else FP.raw (FP.ofWord (wordAt row t))
  (List.range b.shards).map fun s =>
    let ls := (List.range (b.shardSize s)).map fun i => (4096 * s + i, logit (4096 * s + i))
    let max := ls.foldl (fun m e => if FP.lt m e.2.1 then e.2.1 else m) (.inf true)
    let sumexp := ls.foldl (fun a e => FP.add a (FP.exp (FP.sub e.2.1 max))) FP.zero
    { max, sumexp, cands := ls.map fun e => (e.1, e.2.1), cut := false, nonfinite := ls.any fun e => e.2.2 }

/-! ## What a row is sampled with -/

structure RowIn where
  p        : StreamParams
  vocab    : Nat
  width    : Nat
  /-- Position that the row predicts, and the tokens of its penalty window. -/
  pos      : Nat
  window   : List Nat
  bias     : List (Nat × Word)
  positive : Bool
  /-- Mask row of the grammar, bit t for token t. -/
  mask     : Option Nat
  deriving DecidableEq, Repr

def RowIn.greedy (r : RowIn) : Bool := decide (fkey r.p.temperature = 0)

/-- TOP_K, at or above VOCAB taken as 0 (R144). -/
def RowIn.topK (r : RowIn) : Nat := if r.vocab ≤ r.p.topK.toNat then 0 else r.p.topK.toNat

def RowIn.scaled (r : RowIn) (l : FP) : FP × Bool :=
  if r.greedy then (l, false) else FP.step (FP.div l (FP.ofWord r.p.temperature))

/-- The adjusted value of a candidate, and whether a step overflowed (R147). -/
def RowIn.adjust (r : RowIn) (x : Logit) : FP × Bool :=
  let v := r.scaled x.2
  let n := r.window.count x.1
  let then_ (v : FP × Bool) (f : FP → FP) : FP × Bool :=
    let w := FP.step (f v.1)
    (w.1, v.2 || w.2)
  let rep := FP.ofWord r.p.repPenalty
  let v := if n = 0 then v
    else
      let v := then_ v fun v => if FP.lt FP.zero v then FP.div v rep else FP.mul v rep
      let v := then_ v fun v => FP.sub v (FP.ofWord r.p.presPenalty)
      then_ v fun v => FP.sub v (FP.mul (FP.round false (n * FP.unit) 1) (FP.ofWord r.p.freqPenalty))
  let b := match r.bias.find? fun e => e.1 == x.1 with
    | some e => FP.ofWord e.2
    | none => FP.zero
  let v := then_ v fun v => FP.add v b
  match r.mask with
  | some m => if m.testBit x.1 then v else (.inf true, v.2)
  | none => v

/-- S in descending rank, and NONFINITE of the adjustment. -/
def RowIn.finite (r : RowIn) (l : List Logit) : List Logit × Bool :=
  let vs := l.map fun x => (x.1, r.adjust x)
  (sortRank ((vs.filter fun e => e.2.1 != .inf true).map fun e => (e.1, e.2.1)), vs.any fun e => e.2.2)

/-! ## Truncation and the draw (R148, R149) -/

/-- W of a value below the highest one. -/
def weight (v m : FP) : Nat :=
  match FP.exp (FP.sub v m) with
  | .fin _ a => a / 2 ^ 117
  | _ => 0

/-- The shortest prefix whose sum of weights reaches a bound given as n/2^149. -/
def reachPrefix (bound : Nat) : Nat → List (Nat × Nat × FP) → List (Nat × Nat × FP)
  | _, [] => []
  | acc, x :: t => if bound ≤ (acc + x.2.1) * FP.unit then [x] else x :: reachPrefix bound (acc + x.2.1) t

/-- F with its weights, in descending rank (R148). -/
def RowIn.truncate (r : RowIn) (s : List Logit) : List (Nat × Nat) :=
  let kept := if r.topK = 0 then s else s.take r.topK
  match kept.head? with
  | none => []
  | some top =>
    let ws := kept.map fun x => (x.1, weight x.2 top.2, FP.exp (FP.sub x.2 top.2))
    let z := ws.foldl (fun n x => n + x.2.1) 0
    let ws := match FP.ofWord r.p.topP with
      | .fin _ a => if a < FP.unit then reachPrefix (a * z) 0 ws else ws
      | _ => ws
    let minP := FP.ofWord r.p.minP
    (ws.filter fun x => !FP.lt x.2.2 minP).map fun x => (x.1, x.2.1)

def insertId (x : Nat × Nat) : List (Nat × Nat) → List (Nat × Nat)
  | [] => [x]
  | y :: t => if x.1 < y.1 then x :: y :: t else y :: insertId x t

/-- Weighted ids in ascending order. -/
def byId (l : List (Nat × Nat)) : List (Nat × Nat) := l.foldl (fun t x => insertId x t) []

def totalOf (l : List (Nat × Nat)) : Nat := l.foldl (fun n x => n + x.2) 0

/-- The first id at which the running sum passes t. -/
def pickAt (t : Nat) : Nat → List (Nat × Nat) → Option Nat
  | _, [] => none
  | acc, x :: l => if t < acc + x.2 then some x.1 else pickAt t (acc + x.2) l

/-- The draw of R149 from weighted ids. -/
def drawFrom (l : List (Nat × Nat)) (u : Nat) : Option Nat := pickAt (u * totalOf l / 2 ^ 24) 0 (byId l)

/-! ## A sampled row -/

/-- What a row is sampled over: S, raw logits of its candidates, shard statistics, and how it came about. -/
structure RowOut where
  s         : List Logit
  raws      : List Logit
  stats     : List (FP × FP)
  full      : Bool := false
  inexact   : Bool := false
  nonfinite : Bool := false
  deriving DecidableEq, Repr

/-- Kept list and floors of the merge (R153). -/
def mergeKept (l : List Summary) : List Logit × List Logit :=
  let all := sortRank (l.flatMap fun x => x.cands)
  let kept := all.take 256
  let floors := l.filterMap fun x => if x.cut then x.cands.getLast? else none
  (kept, if 256 < all.length then floors ++ kept.getLast?.toList else floors)

/-- Summary mode (R154), none where a condition fails; and the row over the kept list whatever fails (R156). -/
def RowIn.overSummaries (r : RowIn) (l : List Summary) : Bool × RowOut :=
  let (kept, floors) := mergeKept l
  let (s, nf) := r.finite kept
  let k := if r.greedy then 1 else r.topK
  let one := FP.ofWord 0x3F800000
  let c1 := r.greedy || (decide (1 ≤ r.topK) && decide (r.topK ≤ r.width))
  let c3 := !FP.lt (FP.ofWord r.p.repPenalty) one && !FP.lt (FP.ofWord r.p.presPenalty) FP.zero &&
    !FP.lt (FP.ofWord r.p.freqPenalty) FP.zero
  let c5 := match s[k - 1]? with
    | some x => floors.all fun f => !Logit.above (f.1, (r.scaled f.2).1) x
    | none => false
  (c1 && !r.positive && c3 && decide (k ≤ s.length) && c5,
   { s, raws := kept, stats := l.map fun x => (x.max, x.sumexp), nonfinite := nf || l.any fun x => x.nonfinite })

/-- Full-scan mode (R155). -/
def RowIn.overLogits (r : RowIn) (l : List Summary) : RowOut :=
  let all := l.flatMap fun x => x.cands
  let (s, nf) := r.finite all
  { s, raws := all, stats := l.map fun x => (x.max, x.sumexp), full := true,
    nonfinite := nf || l.any fun x => x.nonfinite }

/-- The token of an empty S: the lowest that the grammar allows, or 0 (R152). -/
def RowIn.emptyToken (r : RowIn) : Nat :=
  match r.mask with
  | some m => ((List.range r.vocab).find? fun t => m.testBit t).getD 0
  | none => 0

/-- LOGPROB of a token, and whether it was NaN (R151, R152). -/
def RowOut.logprob (o : RowOut) (t : Nat) : Half × Bool :=
  if o.s.isEmpty then (0xFBFF, false)
  else
    let l := ((o.raws.find? fun x => x.1 == t).map fun x => x.2).getD (.inf true)
    let m := o.stats.foldl (fun m x => if FP.lt m x.1 then x.1 else m) (.inf true)
    let zr := o.stats.foldl (fun a x => FP.add a (FP.mul x.2 (FP.exp (FP.sub x.1 m)))) FP.zero
    FP.half (FP.sub (FP.sub l m) (FP.ln zr))

/-- A token of an ordinary, bonus or draft row with a purpose code: rank 0 when greedy, the token of an empty S, else a
draw from F. -/
def RowIn.choose (r : RowIn) (o : RowOut) (f : List (Nat × Nat)) (purpose : Nat) : Nat :=
  match o.s.head? with
  | none => r.emptyToken
  | some top => if r.greedy then top.1 else (drawFrom f (u24 r.p.seed r.pos purpose)).getD top.1

/-! ## Drafts (R159, R161) -/

/-- Weight of an id in a list, 0 where it is absent. -/
def weightOf (l : List (Nat × Nat)) (t : Nat) : Nat := ((l.find? fun x => x.1 == t).map fun x => x.2).getD 0

/-- Does a verify row accept draft t, whose q list is given? -/
def RowIn.accepts (r : RowIn) (o : RowOut) (f q : List (Nat × Nat)) (t : Nat) : Bool :=
  if r.greedy then o.s.head?.any fun x => x.1 == t
  else decide (u24 r.p.seed r.pos 0x01 * weightOf q t * totalOf f < weightOf f t * 2 ^ 56)

/-- The token that stands for a rejected draft, and whether it was drawn from the residual. -/
def RowIn.replace (r : RowIn) (o : RowOut) (f q : List (Nat × Nat)) : Nat × Bool :=
  match o.s.head? with
  | none => (r.emptyToken, false)
  | some top =>
    if r.greedy then (top.1, false)
    else
      let n := totalOf f
      let res := (f.map fun x => (x.1, x.2 * 2 ^ 32 - weightOf q x.1 * n)).filter fun x => decide (0 < x.2)
      let u := u24 r.p.seed r.pos 0x02
      if res.isEmpty then ((drawFrom f u).getD top.1, false) else ((drawFrom res u).getD top.1, true)

/-- q of a draft row: at most 256 candidates, ids ascending (R159, R160). -/
def qList (f : List (Nat × Nat)) : List (Nat × Nat) :=
  let n := totalOf f
  byId (f.map fun x => (x.1, min (x.2 * 2 ^ 32 / max 1 n) (2 ^ 32 - 1)))

/-! ## Automata (R143) -/

/-- The state after a token. -/
def Automaton.next (a : Automaton) (st t : Nat) : Nat :=
  match a.states[st]? with
  | some x => match ((a.excs.drop x.excFirst).take x.excCount).find? fun e => e.1 == t with
    | some e => e.2
    | none => x.dflt
  | none => 0

def Automaton.maskOf (a : Automaton) (st : Nat) : Nat :=
  match a.states[st]? with
  | some x => a.masks.getD x.maskRow 0
  | none => 0

def Automaton.ends (a : Automaton) (st : Nat) : Bool := a.states[st]?.any fun x => x.isEnd

end Sys2Proof.Machine
end

