-- ==== Sys2Proof/Machine/Launch.lean ====
section
/-!
DEFINITION. Launch descriptors and their arithmetic (spec/03 R59–R76, spec/04 R92–R95): the fields of a descriptor, its
validity, operand ranges, dealing, folding and the commands of one core. Nothing here reads the state.
-/

namespace Sys2Proof.Machine

/-! ## Fields (R59) -/

/-- An operand of a descriptor. -/
structure Operand where
  base      : Nat
  space     : Nat
  transpose : Bool
  skewed    : Bool
  dest      : Bool
  pitch     : Nat
  extent    : Nat
  deriving DecidableEq, Repr

/-- A launch descriptor. Levels at or above LEVELS have count 1 and increments 0. -/
structure Desc where
  dfmt      : Nat
  engine    : Nat
  coreAbs   : Bool
  accMode   : Nat
  packable  : Bool
  conv      : Bool
  levels    : Nat
  weighted  : Bool
  split     : Nat
  sync      : Nat
  opWord    : Word
  fmts      : List Nat
  coreCount : Nat
  coreFirst : Nat
  fpFirst   : Nat
  fpCount   : Nat
  counts    : List Nat
  /-- Increments by level, then operand. -/
  incs      : List (List Int)
  ops       : List Operand
  tileM     : Nat
  tileN     : Nat
  tileK     : Nat
  inW       : Nat
  inH       : Nat
  outW      : Nat
  outH      : Nat
  kh        : Nat
  kw        : Nat
  sh        : Nat
  sw        : Nat
  dh        : Nat
  dw        : Nat
  pt        : Nat
  pl        : Nat
  cin       : Nat
  wait      : Word
  signal    : Word
  /-- LAUNCH_ID, the compiler's tag. -/
  launchId  : Nat
  deriving DecidableEq, Repr

/-- OPERANDS as the descriptor has it. -/
def operandCount (ws : List Word) : Nat := (ws.getD 0 0).field 12 10

/-- The descriptor in 64 words. -/
def Desc.ofWords (ws : List Word) : Desc :=
  let w (off : Nat) : Word := ws.getD (off / 4) 0
  let lv := (w 0).field 19 17
  let n := operandCount ws
  let used (l : Nat) : Bool := decide (l < lv)
  { dfmt := (w 0).field 31 28, engine := (w 0).field 27 25, coreAbs := (w 0).bit 24, accMode := (w 0).field 23 22,
    packable := (w 0).bit 21, conv := (w 0).bit 20, levels := lv, weighted := (w 0).bit 16,
    split := (w 0).field 15 13, sync := (w 0).field 9 7, opWord := w 4,
    fmts := [(w 4).field 23 20, (w 4).field 19 16, (w 4).field 15 12],
    coreCount := (w 8).field 31 16, coreFirst := (w 8).field 15 0,
    fpFirst := (w 12).field 11 0, fpCount := (w 12).field 27 16,
    counts := (List.range 6).map fun l => if used l then (w (0x20 + 4 * l)).field 16 0 else 1,
    incs := (List.range 6).map fun l => (List.range 4).map fun k =>
      if used l then (w (0x38 + 16 * l + 4 * k)).toInt else 0,
    ops := (List.range n).map fun k =>
      let a := w (0x9C + 16 * k)
      { base := a.field 15 0 * 2 ^ 32 + (w (0x98 + 16 * k)).toNat, space := a.field 31 30, transpose := a.bit 29,
        skewed := a.bit 28, dest := a.bit 27, pitch := (w (0xA0 + 16 * k)).toNat, extent := (w (0xA4 + 16 * k)).toNat },
    tileN := (w 0xD8).field 31 16, tileM := (w 0xD8).field 15 0, tileK := (w 0xDC).field 19 0,
    inW := (w 0xE8).field 31 16, inH := (w 0xE8).field 15 0, outW := (w 0xEC).field 31 16, outH := (w 0xEC).field 15 0,
    kh := (w 0xF0).field 31 28, kw := (w 0xF0).field 27 24, sh := (w 0xF0).field 23 20, sw := (w 0xF0).field 19 16,
    dh := (w 0xF0).field 15 12, dw := (w 0xF0).field 11 8, pt := (w 0xF0).field 7 4, pl := (w 0xF0).field 3 0,
    cin := (w 0xF4).field 31 16, wait := w 0xF8, signal := w 0xFC, launchId := (w 0x10).field 15 0 }

def Desc.count (d : Desc) (l : Nat) : Nat := d.counts.getD l 1
def Desc.inc (d : Desc) (l k : Nat) : Int := (d.incs.getD l []).getD k 0
def Desc.isMx (d : Desc) : Bool := d.engine == 0

/-! ## Validity (R61, R75, R94) -/

/-- Is a format code an MX format? -/
def mxFormat (f : Nat) : Bool := decide (1 ≤ f) && decide (f ≤ 5)

/-- The rules of a convolution (R75). -/
def Desc.convOk (d : Desc) : Bool :=
  let fit (len pad dil k stride out : Nat) : Bool :=
    decide (1 ≤ out) && decide (dil * (k - 1) + 1 ≤ len + 2 * pad) &&
      decide (out ≤ (len + 2 * pad - dil * (k - 1) - 1) / stride + 1)
  decide (d.tileM = d.outH * d.outW) && [d.kh, d.kw, d.sh, d.sw, d.dh, d.dw].all (fun x => decide (1 ≤ x)) &&
    decide (d.tileK = d.kh * d.kw * d.cin) && (!mxFormat (d.fmts.getD 0 0) || decide (d.cin % 32 = 0)) &&
    fit d.inH d.pt d.dh d.kh d.sh d.outH && fit d.inW d.pl d.dw d.kw d.sw d.outW

/-- Rules of an MX launch. TILE_K must be a multiple of 32 where FMT_A or FMT_B is an MX format; FMT_OUT does not count
(DESIGN CHOICE, log 50). -/
def Desc.mxOk (d : Desc) (stallOnly : Bool) : Bool :=
  let op (k : Nat) : Operand := d.ops.getD k { base := 0, space := 0, transpose := false, skewed := false,
                                               dest := false, pitch := 0, extent := 0 }
  decide (d.accMode ≠ 0) && decide (3 ≤ d.ops.length) && (op 2).dest && d.ops.all (fun o => o.space == 0) &&
    (op 0).skewed && (op 1).skewed && decide (d.tileM ≠ 0) && decide (d.tileN ≠ 0) && decide (d.tileK ≠ 0) &&
    (!(mxFormat (d.fmts.getD 0 0) || mxFormat (d.fmts.getD 1 0)) || decide (d.tileK % 32 = 0)) &&
    !(stallOnly && decide (d.accMode = 2)) && (!d.conv || d.convOk)

/-- A descriptor is valid (R61, R94); operands: its OPERANDS field. A reserved bit of SIGNAL makes it invalid whatever
S_EN is (DESIGN CHOICE, log 50). -/
def Desc.valid (d : Desc) (operands : Nat) (stallOnly : Bool) : Bool :=
  let fmtOk (k : Nat) : Bool :=
    !decide (k < operands) || decide (d.fmts.getD k 0 ≤ (if d.isMx && decide (k < 2) then 5 else 6))
  decide (d.dfmt = 1) && decide (d.accMode ≠ 3) && decide (1 ≤ d.levels) && decide (d.levels ≤ 6) &&
    decide (d.split < d.levels) && decide (d.sync ≠ 7) && !(decide (d.levels ≤ d.sync) && decide (d.sync ≤ 5)) &&
    decide (1 ≤ operands) && decide (operands ≤ 4) && d.counts.all (fun c => decide (c ≠ 0)) &&
    [0, 1, 2].all fmtOk && d.ops.all (fun o => o.space != 3) &&
    !(d.signal.bit 31 && decide (d.signal.field 7 0 = 0)) && decide (d.signal.field 24 8 = 0) &&
    (if d.isMx then d.mxOk stallOnly else decide (d.accMode = 0) && !d.packable && !d.conv)

/-! ## The program's CRC (R57) -/

/-- CRC-32 of R57 over words, bytes in address order: reflected, initial and final value all ones. -/
def crc32 (ws : List Word) : Word :=
  ~~~(ws.foldl (fun c w => (List.range 32).foldl (fun (c : Word) i =>
    if (c.getLsbD 0) != w.getLsbD i then (c >>> 1) ^^^ 0xEDB88320#32 else c >>> 1) c) 0xFFFFFFFF#32)

/-! ## Operand ranges (R64) -/

/-- Last address of a space. -/
def spaceLimit (space : Nat) : Int :=
  match space with
  | 0 => 0x00BFFFFF
  | 1 => 0x0BFFFFFF
  | _ => 2 ^ 48 - 1

/-- Lowest and highest byte that operand k touches. -/
def Desc.range (d : Desc) (k : Nat) (o : Operand) : Int × Int :=
  (List.range 6).foldl (fun (x : Int × Int) l =>
    let v := d.inc l k * (d.count l - 1 : Int)
    (x.1 + min 0 v, x.2 + max 0 v)) ((o.base : Int), (o.base : Int) + o.extent - 1)

def Desc.rangesOk (d : Desc) : Bool :=
  (List.range d.ops.length).all fun k => match d.ops[k]? with
    | some o => let r := d.range k o
                decide (0 ≤ r.1) && decide (r.2 ≤ spaceLimit o.space)
    | none => true

/-! ## Dealing (R66) -/

/-- The split iterations of one core. -/
inductive Share where
  | block (first len : Nat)
  | list (l : List Nat)
  deriving DecidableEq, Repr

def Share.len : Share → Nat
  | .block _ n => n
  | .list l => l.length
def Share.at (x : Share) (i : Nat) : Nat :=
  match x with
  | .block f _ => f + i
  | .list l => l.getD i 0

/-- BLOCK dealing of n iterations over c cores: the share of position j. -/
def blockShare (n c j : Nat) : Share :=
  let q := (n + c - 1) / max 1 c
  .block (min n (j * q)) (min n ((j + 1) * q) - min n (j * q))

/-- The position with the smallest accumulated pass count, the lower on a tie. -/
def leastLoaded (acc : List Nat) : Nat :=
  ((List.range acc.length).foldl (fun (b : Nat × Nat) j =>
    if acc.getD j 0 < b.2 then (j, acc.getD j 0) else b) (0, acc.getD 0 0)).1

/-- WEIGHTED dealing: position of each split iteration in ascending order. -/
def weightedDeal (passes : List Nat) : Nat → List Nat → List Nat → List Nat
  | 0, _, out => out.reverse
  | n + 1, acc, out =>
    let j := leastLoaded acc
    weightedDeal passes n (acc.set j (acc.getD j 0 + passes.getD j 0)) (j :: out)

def weightedShare (n : Nat) (passes : List Nat) (j : Nat) : Share :=
  let who := weightedDeal passes n (passes.map fun _ => 0) []
  .list ((List.range n).filter fun i => who.getD i 0 == j)

/-! ## Folding (R70, R72, R76) -/

/-- Columns that a core with b bypassed strips presents; 0 where its MX is absent. -/
def presented (b : Nat) : Nat := if b ≤ 8 then 128 - 8 * b else 0

/-- Passes of a tile on a core of width wc. -/
def Desc.passes (d : Desc) (wc : Nat) : Nat := ((d.tileM + 127) / 128) * ((d.tileN + wc - 1) / max 1 wc)

/-- Bits of an element (R60). -/
def formatBits (f : Nat) : Nat :=
  match f with
  | 0 => 16
  | 1 => 8
  | 2 => 8
  | 3 => 6
  | 4 => 6
  | 5 => 4
  | _ => 32

/-- Offset of operand k in pass (pm, pn) (R72). The A operand of a convolution is addressed by pixel (R76). Operand 3, for
which the table has no row, has offset 0 in every pass (DESIGN CHOICE, log 50). -/
def Desc.foldOffset (d : Desc) (wc pm pn k : Nat) : Nat :=
  let bytes (n : Nat) : Nat := n * formatBits (d.fmts.getD k 0) / 8
  match d.ops[k]? with
  | none => 0
  | some o => match k with
    | 0 => if d.conv then 0 else if o.transpose then bytes (128 * pm) else 128 * pm * o.pitch
    | 1 => if o.transpose then wc * pn * o.pitch else bytes (wc * pn)
    | 2 => 128 * pm * o.pitch + bytes (wc * pn)
    | _ => 0

/-- Rows of a convolution pass that are fed zeros at kernel position (kh, kw) (R76). -/
def Desc.zeroRows (d : Desc) (pm rows kh kw : Nat) : List Nat :=
  (List.range rows).filter fun r =>
    let p := 128 * pm + r
    let ih : Int := (p / max 1 d.outW * d.sh : Int) - d.pt + kh * d.dh
    let iw : Int := (p % max 1 d.outW * d.sw : Int) - d.pl + kw * d.dw
    !(decide (0 ≤ ih) && decide (ih < d.inH) && decide (0 ≤ iw) && decide (iw < d.inW))

/-- Commands of one innermost iteration. -/
def Desc.perIter (d : Desc) (wc : Nat) : Nat :=
  if d.isMx then d.passes wc * (if d.conv then d.kh * d.kw else 1) else 1

/-! ## The commands of one core (R65, R67, R68, R95) -/

/-- Iterations of level l that a core runs. -/
def Desc.size (d : Desc) (sh : Share) (l : Nat) : Nat := if l = d.split then sh.len else d.count l

/-- Innermost iterations that a core runs below level l. -/
def Desc.below (d : Desc) (sh : Share) (l : Nat) : Nat := (List.range l).foldl (fun n k => n * d.size sh k) 1

/-- Innermost iterations of a core. -/
def Desc.iters (d : Desc) (sh : Share) : Nat := d.below sh 6

/-- Commands of a core: one empty command where it receives no iteration. -/
def Desc.total (d : Desc) (sh : Share) (wc : Nat) : Nat :=
  if d.iters sh = 0 then 1 else d.iters sh * d.perIter wc

/-- Loop indexes of innermost iteration it, level 0 first. -/
def Desc.indices (d : Desc) (sh : Share) (it : Nat) : List Nat :=
  (List.range 6).map fun l =>
    let i := it / d.below sh l % max 1 (d.size sh l)
    if l = d.split then sh.at i else i

/-- Address of operand k at loop indexes, 48 bits (R65). -/
def Desc.addr (d : Desc) (idx : List Nat) (k : Nat) (base : Nat) : Nat :=
  (((List.range 6).foldl (fun (a : Int) l => a + (idx.getD l 0 : Int) * d.inc l k) (base : Int)) % (2 ^ 48 : Int)).toNat

/-- What a command carries: its operand addresses, shape, whether it is the first and the last of its pass, the number
of its synchronised iteration and whether it carries the wait and the signal. -/
structure CmdSpec where
  empty   : Bool
  addrs   : List Nat
  pm      : Nat := 0
  pn      : Nat := 0
  kh      : Nat := 0
  kw      : Nat := 0
  first   : Bool := true
  last    : Bool := true
  syncN   : Nat := 0
  waits   : Bool
  signals : Bool
  /-- Operand addresses of the innermost iteration, from which regions are formed (R78). -/
  regions : List Nat
  deriving DecidableEq, Repr

/-- Command k of a core. Every kernel step of a convolution's pass has the same B address (DESIGN CHOICE, log 50). -/
def Desc.command (d : Desc) (sh : Share) (wc k : Nat) : CmdSpec :=
  if d.iters sh = 0 then { empty := true, addrs := [], waits := true, signals := true, regions := [] }
  else
    let m := d.perIter wc
    let it := k / m
    let sub := k % m
    let inner := if d.sync = 6 then d.iters sh else d.below sh d.sync
    let idx := d.indices sh it
    let at_ := (List.range d.ops.length).map fun j => d.addr idx j ((d.ops[j]?.map fun o => o.base).getD 0)
    let steps := if d.conv then d.kh * d.kw else 1
    let fn := (d.tileN + wc - 1) / max 1 wc
    let pass := sub / max 1 steps
    let step := sub % max 1 steps
    let pm := pass / max 1 fn
    let pn := pass % max 1 fn
    { empty := false,
      addrs := if d.isMx then (List.range at_.length).map fun j => (at_.getD j 0 + d.foldOffset wc pm pn j) % 2 ^ 48
               else at_,
      pm, pn, kh := step / max 1 d.kw, kw := step % max 1 d.kw, first := step == 0, last := step + 1 == steps,
      syncN := it / max 1 inner, waits := decide (it % max 1 inner = 0) && decide (sub = 0),
      signals := decide (it % max 1 inner = inner - 1) && decide (sub + 1 = m), regions := at_ }

/-- A number put at the end of a list that does not hold it. -/
def putNew (g : Nat) (l : List Nat) : List Nat := if l.contains g then l else l ++ [g]

/-- Granules of the scratchpad that n bytes from a touch (R77). -/
def granulesOf (a n : Nat) : List Nat :=
  if n = 0 then []
  else ((List.range ((a + n - 1) / 4096 - a / 4096 + 1)).map fun i => a / 4096 + i).filter fun g => decide (g < 3072)

/-- Source granules of a command (R78): operands 0, 1 and 3 of an MX command, every scratchpad source of VX, SX, ST. -/
def Desc.sources (d : Desc) (c : CmdSpec) : List Nat :=
  if d.engine = 3 then []
  else (List.range d.ops.length).foldl (fun l k => match d.ops[k]? with
    | some o =>
      let src := if d.isMx then decide (k ≠ 2) else !o.dest && decide (o.space = 0)
      if src then (granulesOf (c.regions.getD k 0) o.extent).foldl (fun l g => putNew g l) l else l
    | none => l) []

/-- Destination granules of a command, each once (R77). DEST_k says which operands are written, also of an LD or ST launch
whose DEST bits go against the fixed roles (DESIGN CHOICE, log 50). -/
def Desc.dests (d : Desc) (c : CmdSpec) : List Nat :=
  (List.range d.ops.length).foldl (fun l k => match d.ops[k]? with
    | some o =>
      if o.dest && decide (o.space = 0) then (granulesOf (c.regions.getD k 0) o.extent).foldl (fun l g => putNew g l) l
      else l
    | none => l) []

/-- Device-memory bytes that the whole launch may write (R259). -/
def Desc.devRanges (d : Desc) : List (Nat × Nat) :=
  (List.range d.ops.length).foldl (fun l k => match d.ops[k]? with
    | some o => if o.dest && decide (o.space = 2) then
        let r := d.range k o
        l ++ [(r.1.toNat, r.2.toNat)] else l
    | none => l) []

/-- May launch d share passes with launch e: the cores that each names, as logical numbers (R62), and the widths of those
of d (R82)? -/
def packs (d e : Desc) (cores others : List Nat) (widths : List Nat) : Bool :=
  d.isMx && e.isMx && d.packable && e.packable && decide (cores = others) && decide (d.weighted = e.weighted) &&
    decide (d.count d.split = e.count e.split) && decide (d.fmts = e.fmts) && decide (d.accMode = e.accMode) &&
    !d.conv && !e.conv && decide (d.tileM ≤ 64) && decide (e.tileM ≤ 64) &&
    widths.all fun w => decide (d.tileN ≤ w / 2) && decide (e.tileN ≤ w / 2)

end Sys2Proof.Machine
end

