-- ==== Sys2Proof/Machine/CapOps.lean ====
section
/-!
DEFINITION. The capping engine's shared operations (spec/11): marks, buddies and their search, cuts and their closing,
the leader's plans, the loss of a buddy, fills; and the events of the health monitor.
-/

namespace Sys2Proof.Machine

/-! ## Access -/

def State.capCtx (s : State) (c : Nat) : Option CapCtx := Tbl.find s.cap.ctxs c

def State.modCap (s : State) (c : Nat) (f : CapCtx → CapCtx) : State :=
  { s with cap := { s.cap with ctxs := Tbl.adjust f s.cap.ctxs c } }

/-- The context bound to a SHARD_ID on this chip (R256). -/
def State.shardCtx (s : State) (shard : Dword) : Option Nat :=
  (s.cap.ctxs.find? fun e => e.2.shard == shard).map fun e => e.1

/-- Pages of a binding, numbered from 0 across its regions. -/
def CapCtx.pages (k : CapCtx) : Nat := k.regions.foldl (fun n r => n + r.2) 0

/-- The owning instance of a context, for messages. -/
def State.ctxInst (s : State) (c : Nat) : Option Nat := some (s.ctx c).inst

/-- CAP_FLT_INFO and CAP_FLT_CTX (R275), then the event. -/
def State.capFault (s : State) (id c m : Nat) (status : Byte) : State :=
  ((s.setReg Reg.capFltInfo (Word.mk (status.toNat * 2 ^ 24 + m))).setReg Reg.capFltCtx (Word.mk c)).raise
    { id, inst := s.ctxInst c, status }

/-! ## Marks (R258) -/

/-- Region pages that the byte range [lo, hi) touches: page numbers counted from `first`. -/
def regionPages : List (Dword × Nat) → Nat → Nat → Nat → List Nat
  | [], _, _, _ => []
  | (base, n) :: t, first, lo, hi =>
    let b := base.toNat
    let a := max lo b
    let e := min hi (b + n * 65536)
    (if a < e then (List.range ((e - 1 - b) / 65536 - (a - b) / 65536 + 1)).map fun i => first + (a - b) / 65536 + i
     else []) ++ regionPages t (first + n) lo hi

/-- Device address of page n of a list of regions. -/
def pageAddr : List (Dword × Nat) → Nat → Nat
  | [], _ => 0
  | (base, n) :: t, page => if page < n then base.toNat + page * 65536 else pageAddr t (page - n)

/-- The pages of [lo, hi) that lie in a region of context c marked in DIRTY. A write that lands after its step has been
stopped leaves nothing to replay (R269). -/
def State.capMark (s : State) (c lo hi : Nat) : State :=
  match s.capCtx c with
  | none => s
  | some k =>
    let ps := regionPages k.regions 0 lo hi
    if ps.isEmpty then s
    else s.modCap c fun k => { k with dirty := unionAsc k.dirty ps, stepWrote := true, replayable := false }

/-- A host DMA write of [lo, hi): the pages of every bound context that it reaches are marked (R258). -/
def State.capMarkAll (s : State) (lo hi : Nat) : State :=
  (s.cap.ctxs.map fun e => e.1).foldl (fun s c => s.capMark c lo hi) s

/-! ## Buddies (R265) -/

/-- Is member m of a failure domain that this chip shares (R241, R265)? -/
def State.correlatedWith (s : State) (m : Nat) : Bool :=
  match s.swarm.self with
  | some (_, _, d) => decide (d &&& (s.member m).domain ≠ 0)
  | none => false

/-- UP members of the group, in ascending (index − self) mod 8 192. -/
def State.capOrder (s : State) (k : CapCtx) : List Nat :=
  let self := s.selfIndex.getD 0
  let up := (s.group k.group).filter fun m => m != self && decide ((s.member m).st = .up)
  (up.filter fun m => decide (self < m)) ++ (up.filter fun m => decide (m < self))

/-- The next candidate of a search: disjoint ones first, passed-over ones under OVERRIDE. -/
def State.capNext (s : State) (k : CapCtx) (tried : List Nat) : Option Nat :=
  let free := (s.capOrder k).filter fun m => !tried.contains m && !k.buddies.any fun b => b.member == m
  match free.find? (fun m => !s.correlatedWith m) with
  | some m => some m
  | none => if k.override then free.head? else none

/-- The search goes on: the next candidate is offered the cap, or the search ends short and sets NO_BUDDY, or it has
found BUDDIES (R265). -/
def State.capSeek (s : State) (c : Nat) (tried : List Nat) : State :=
  match s.capCtx c with
  | none => s
  | some k =>
    if k.want ≤ k.buddies.length then
      s.modCap c fun k => { k with search := none, noBuddy := false, reseekAt := none }
    else match s.capNext k tried with
      | some m =>
        let t := s.swarm.nextTicket
        let d := match s.swarm.self with
          | some (_, _, d) => d
          | none => 0
        let s := s.sendRequest m Pkt.capOffer c fun t => dwordWords k.shard ++ [Word.mk k.pages, t, d, 0]
        s.modCap c fun k => { k with search := some { tried := m :: tried, waiting := some (m, t) }, noBuddy := false }
      | none =>
        let ms := max 1 (s.regField Reg.capReseekMs 15 0)
        let at_ := s.ns + ms * 1000000
        (s.modCap c fun k => { k with search := none, noBuddy := true, reseekAt := some at_ }).capFault
          Flt.noBuddy c 0 0

/-- A candidate taken as a buddy: every page of the next cut goes to it (R265). -/
def State.capTake (s : State) (c m : Nat) : State :=
  let corr := s.correlatedWith m
  let s := s.modCap c fun k =>
    { k with buddies := k.buddies ++ [{ member := m, pending := List.range k.pages, correlated := corr }] }
  if corr then s.capFault Flt.correlated c m 0 else s

/-! ## Cuts (R260, R263) -/

/-- Does the open cut go to this buddy? One accepted since the cut waits for the next (R265). -/
def Buddy.inCut (b : Buddy) : Bool := decide (b.joinCut ≠ 0)

/-- Does page p stand in some PENDING map of the open cut? -/
def CapCtx.pends (k : CapCtx) (p : Nat) : Bool := k.buddies.any fun b => b.inCut && b.pending.contains p

/-- Every page marked since the last group-closed cut: DIRTY, and where a cut is open, or closed here only, its pages
(R263). -/
def CapCtx.marked (k : CapCtx) : List Nat :=
  let own := if k.cut.isSome || decide (k.groupCut < k.closedCut) then unionAsc k.dirty k.cutPages else k.dirty
  (k.buddies.filter Buddy.inCut).foldl (fun l b => unionAsc l b.pending) own

/-- A buddy when cut n is undone: one that joined at it has every page to be sent again (R263, R265). -/
def Buddy.leaveCut (b : Buddy) (pages n : Nat) : Buddy :=
  if b.inCut then
    { b with pending := if b.joinCut = n then List.range pages else [], sent := [], acked := 0, closed := false,
             joinCut := if b.joinCut = n then 0 else b.joinCut }
  else b

/-- A launch is held no longer for a page that every buddy has been sent or that lies in its staging frame (R259). -/
def CapCtx.settleHolds (k : CapCtx) : CapCtx :=
  let waits (p : Nat) : Bool := k.pends p && !k.staged.any fun g => g.copied && g.page == p
  { k with launchHolds := (k.launchHolds.map fun h => { h with pages := h.pages.filter waits }).filter
             fun h => !h.pages.isEmpty }

/-- Staging frames whose page every buddy has acknowledged are freed (R259). -/
def State.freeStaged (s : State) (c : Nat) : State :=
  match s.capCtx c with
  | none => s
  | some k =>
    let done := k.staged.filter fun g => g.copied && g.waiting.isEmpty
    let s := s.modCap c fun k => { k with staged := k.staged.filter fun g => !(g.copied && g.waiting.isEmpty) }
    done.foldl (fun s g => (s.giveFrame g.frame).refundBrood (s.ctx c).inst 16) s

/-- What changed PENDING maps let go: launches that they held, staging frames that no buddy waits for. -/
def State.pendingChanged (s : State) (c : Nat) : State := (s.modCap c CapCtx.settleHolds).freeStaged c

/-- A CUT packet to one buddy. -/
def State.sendCut (s : State) (k : CapCtx) (n : Nat) (step : Dword) (b : Buddy) (void : Bool) : State :=
  s.sendTwice [b.member] Pkt.capCut
    (dwordWords k.shard ++ [Word.mk n, Word.mk k.groupCut] ++ dwordWords step ++
      [Word.mk (b.pending.length % 2 ^ 23 + bitAt 23 void), 0])

/-- The cut as one action at the end of step P: every PENDING map takes DIRTY, DIRTY empties, CUT goes out (R263). -/
def State.capCutNow (s : State) (c n : Nat) (step : Dword) : State :=
  match s.capCtx c with
  | none => s
  | some k =>
    let join (b : Buddy) : Buddy :=
      { b with pending := unionAsc b.pending k.dirty, closed := false, sent := [], acked := 0,
               joinCut := if b.joinCut = 0 then n else b.joinCut }
    let k' := { k with buddies := k.buddies.map join, dirty := [], cutPages := k.dirty, plan := none, lastCut := n,
                       cut := some { number := n, step } }
    let s := s.modCap c fun _ => k'
    k'.buddies.foldl (fun s b => s.sendCut k' n step b false) s

/-- A cut undone: its pages go back into DIRTY and the buddies discard theirs (R263). -/
def State.capVoid (s : State) (c n : Nat) : State :=
  match s.capCtx c with
  | none => s
  | some k =>
    let back := k.marked
    let step := match k.cuts.find? (fun r => r.number == n), k.cut with
      | some r, _ => r.step
      | none, some u => u.step
      | none, none => 0
    let s := s.modCap c fun k => { k with dirty := back, cut := none, cutPages := [], plan := none, lastCut := n,
                                          closedCut := if k.closedCut = n then k.groupCut else k.closedCut,
                                          buddies := k.buddies.map fun b => b.leaveCut k.pages n,
                                          staged := k.staged.map fun g => { g with waiting := [] } }
    let s := (k.buddies.filter Buddy.inCut).foldl (fun s b => s.sendCut k n step b true) s
    (s.pendingChanged c).capFault Flt.cutVoid c 0 0

/-! ## The leader (R261, R262) -/

/-- The leader of a group as this chip sees it. -/
def State.capLeader (s : State) (g : Nat) : Option Nat :=
  let self := s.selfIndex.getD 8192
  let up := (s.group g).filter fun m => decide (m < self) && (s.member m).present
  match up with
  | [] => s.selfIndex
  | m :: t => some (t.foldl min m)

def State.leads (s : State) (g : Nat) : Bool := decide (s.capLeader g = s.selfIndex) && decide (s.selfIndex ≠ none)

def State.leader (s : State) (g : Nat) : LeaderState := Tbl.get (fun _ => {}) s.cap.leaders g

def State.setLeader (s : State) (g : Nat) (x : LeaderState) : State :=
  { s with cap := { s.cap with leaders := Tbl.put (fun _ => {}) s.cap.leaders g x } }

/-- Members that the leader counts: those of the group in UP or SUSPECT, and itself. -/
def State.counted (s : State) (g : Nat) : List Nat :=
  (s.group g).filter fun m => decide (s.selfIndex = some m) || (s.member m).present

/-- Every counted member has reported the last planned cut closed (R262); so have all when there is none. -/
def State.allClosed (s : State) (g : Nat) (x : LeaderState) : Bool :=
  match x.plan with
  | none => true
  | some (n, _) => x.voided || (s.counted g).all fun m => match Tbl.find x.reports m with
      | some r => decide (n ≤ r.closed)
      | none => false

/-- The interval I of R262 for a loss bound L. -/
def capInterval (l risk : Nat) (urgent : Bool) : Nat :=
  if urgent then 1 else max 1 (l * (256 - risk) / 512)

/-- Payload of PLAN (R273). -/
def planWords (x : LeaderState) (g : Nat) (next void : Bool) (p : Dword) (n : Nat) : List Word :=
  dwordWords x.groupStep ++ [Word.mk x.groupCut, Word.mk (g + bitAt 8 next + bitAt 9 void)] ++ dwordWords p ++
    [Word.mk n, 0]

/-- Does a context's group-closed cut stand with BUDDIES buddies that all took part in it (R266, R268)? -/
def CapCtx.secured (k : CapCtx) : Bool :=
  decide (k.buddies.length = k.want) && k.buddies.all fun b => decide (b.joinCut ≠ 0) && decide (b.joinCut ≤ k.groupCut)

/-- A group-closed cut becomes known to a bound context (R264, R268). -/
def State.capGroupClosed (s : State) (c cut : Nat) (step : Dword) : State :=
  s.modCap c fun k =>
    if cut ≤ k.groupCut then k
    else
      let k := { k with groupCut := cut, xg := some step }
      if k.secured && (decide (k.st = .seeking) || decide (k.st = .exposed)) then
        { k with st := .guarded, urgent := false }
      else k

/-- A plan taken by a bound context (R262, R263). `late`: step P has already ended. -/
def State.capTakePlan (s : State) (c n : Nat) (p : Dword) (next void : Bool) : State :=
  match s.capCtx c with
  | none => s
  | some k =>
    if void then
      if (k.cut.any fun u => u.number == n) || (k.closedCut == n && k.groupCut < n) then s.capVoid c n
      else if k.plan.any fun q => q.1 == n then s.modCap c fun k => { k with plan := none, lastCut := n }
      else if n = k.lastCut + 1 then s.modCap c fun k => { k with lastCut := n, cutMissed := false }
      else s
    else if next && decide (n = k.lastCut + 1) then
      match k.lastStep with
      | some x => if p ≤ x then s.modCap c fun k => { k with cutMissed := true }
                  else s.modCap c fun k => { k with plan := some (n, p) }
      | none => s.modCap c fun k => { k with plan := some (n, p) }
    else s

/-- Contexts bound to a group. -/
def State.groupCtxs (s : State) (g : Nat) : List Nat :=
  (s.cap.ctxs.filter fun e => e.2.group == g).map fun e => e.1

/-- A PLAN applied on this member, whether it came in a packet or this chip leads. -/
def State.applyPlan (s : State) (g : Nat) (groupStep : Dword) (groupCut : Nat) (next void : Bool) (p : Dword)
    (n : Nat) : State :=
  (s.groupCtxs g).foldl (fun s c => (s.capGroupClosed c groupCut groupStep).capTakePlan c n p next void) s

/-- The leader sends PLAN to the whole group and applies it itself. -/
def State.sendPlan (s : State) (g : Nat) (next void : Bool) (p : Dword) (n : Nat) : State :=
  let x := s.leader g
  let ms := dropWhere (fun m => decide (s.selfIndex = some m)) (s.group g)
  (s.sendTwice ms Pkt.capPlan (planWords x g next void p n)).applyPlan g x.groupStep x.groupCut next void p n

/-- The group-closed cap changes once every counted member has closed the planned cut: the leader sends PLAN (R262). -/
def State.leaderCount (s : State) (g : Nat) : State :=
  let x := s.leader g
  match x.plan with
  | none => s
  | some (n, p) =>
    if s.leads g && !x.voided && decide (x.groupCut < n) && s.allClosed g x then
      (s.setLeader g { x with groupCut := n, groupStep := p }).sendPlan g false false 0 0
    else s

/-- A report taken by the leader (R261–R263): CUT_MISSED voids the planned cut; the group-closed cap may change. -/
def State.leaderReport (s : State) (g m : Nat) (r : CapReport) : State :=
  let x := s.leader g
  let x := { x with reports := Tbl.insert x.reports m r, risk := max x.risk r.risk, urgent := x.urgent || r.urgent }
  let s := s.setLeader g x
  match x.plan with
  | some (n, p) =>
    if r.missed && !x.voided then (s.setLeader g { x with voided := true }).sendPlan g false true p n else s.leaderCount g
  | none => s

/-- At the end of its own step X the leader may plan a cut at X + 2 (R262). -/
def State.leaderPlan (s : State) (g l : Nat) (step : Dword) : State :=
  let x := s.leader g
  let p := step + 2
  let c := match x.plan with
    | some (_, c) => c
    | none => 0
  if s.leads g && s.allClosed g x && decide (capInterval l x.risk x.urgent ≤ (p - c).toNat) then
    let n := x.next
    let x := { x with plan := some (n, p), voided := false, next := n + 1, risk := 0, urgent := false,
                      made := (n, p) :: x.made }
    (s.setLeader g x).sendPlan g true false p n
  else s

/-! ## Step ends (R258, R261–R263, R269, R272) -/

/-- The risk that a report carries: 0 while the monitor is off (R276). -/
def State.riskNow (s : State) : Nat := if (s.reg Reg.hlmCtrl).bit 0 then s.health.risk else 0

/-- CAP_REPORT of a member at a step end, sent to the leader or taken by this chip itself. -/
def State.capReportOut (s : State) (c : Nat) (step : Dword) : State :=
  match s.capCtx c with
  | none => s
  | some k =>
    let risk := s.riskNow
    let urgent := k.urgent || decide (s.regField Reg.capRiskNow 7 0 ≤ risk)
    let r : CapReport := { step, closed := k.closedCut, risk, urgent, missed := k.cutMissed }
    let s := s.modCap c fun k => { k with cutMissed := false }
    match s.capLeader k.group with
    | none => s
    | some m =>
      if s.selfIndex = some m then s.leaderReport k.group m r
      else s.sendPkt m Pkt.capReport (dwordWords step ++
        [Word.mk k.closedCut, Word.mk (risk + bitAt 8 urgent + bitAt 9 r.missed + k.group * 2 ^ 10), 0, 0])

/-- A cap is closed on the member when every buddy of the cut has acknowledged CLOSED (R263); with none left it stays open
(R264). The leader is told at once, so that it can tell the group (R262, the worked example of R264). -/
def State.capTryClose (s : State) (c : Nat) : State :=
  match s.capCtx c with
  | none => s
  | some k => match k.cut with
    | none => s
    | some u => match u.loss with
      | none => s
      | some _ =>
        let inCut := k.buddies.filter Buddy.inCut
        if inCut.isEmpty || inCut.any (fun b => !b.closed) then s
        else (s.modCap c fun k => { k with cut := none, closedCut := u.number }).capReportOut c (k.lastStep.getD 0)

/-- SEAL to every buddy of the cut at the end of step P + 1 (R263). -/
def State.capSealOut (s : State) (c : Nat) (loss : Dword) : State :=
  match s.capCtx c with
  | none => s
  | some k => match k.cut with
    | none => s
    | some u =>
      let rec_ : CutRec := { number := u.number, step := u.step, loss }
      let s := s.modCap c fun k => { k with cut := some { u with loss := some loss }, cuts := rec_ :: k.cuts }
      (k.buddies.filter Buddy.inCut).foldl (fun s b => s.sendRequest b.member Pkt.capSeal c fun t =>
        dwordWords k.shard ++ [Word.mk u.number, t] ++ dwordWords loss) s

/-- What a bound context does at the end of its step: the loss word is what LOSS_ADDR holds, a value of the program's.
A step that ended ST_OK counts, seals the open cut of the step before, and makes a planned cut; one that was stopped
turns a plan at its number into CUT_MISSED (R264). -/
def State.capStepEnd (s : State) (c : Nat) (st : Step) (status : Byte) (loss : Dword) : State :=
  match s.capCtx c with
  | none => s
  | some k =>
    let step := st.swarmStep
    let atPlan := k.plan.any fun q => q.2 == step
    if status = St.ok then
      let s := s.modCap c fun k => { k with lastStep := some step, xg := match k.xg with
        | some x => some x
        | none => some (step - 1) }
      let s := match k.cut with
        | some u => if u.loss = none ∧ u.step + 1 = step then s.capSealOut c loss else s
        | none => s
      let s := match k.plan, atPlan with
        | some (n, _), true => s.capCutNow c n step
        | _, _ => s
      let s := s.capReportOut c step
      s.leaderPlan k.group k.l step
    else
      let s := if atPlan then s.modCap c fun k => { k with plan := none, cutMissed := true } else s
      s.capReportOut c step

/-! ## Loss of a buddy, fills (R266, R270, R271) -/

/-- Pages that a fill of cut G asks for: only those marked since, when the maps cover every write since G; else every
page (R270). -/
def CapCtx.fillPages (k : CapCtx) (g : Nat) : List Nat :=
  if k.groupCut = g ∧ k.closedCut ≤ g then k.marked else List.range k.pages

/-- The newest cut that a member of group g may ask for, 0 where nothing tells it. A chip that has made or closed cuts knows
what its buddies hold; a spare knows the cuts that PLANs named (log 56). -/
def State.newestCut (s : State) (k : CapCtx) : Nat :=
  let x := s.leader k.group
  let closed := max k.closedCut k.groupCut
  let open_ := match k.cut with
    | some u => if k.buddies.any (fun b => b.inCut && b.closed) then u.number else 0
    | none => 0
  let named := x.made.foldl (fun n e => max n e.1) x.groupCut
  if k.cuts.isEmpty then max closed named else max closed open_

/-- A CAP_FILL request to a source. -/
def State.fillRequest (s : State) (c m g first : Nat) : State :=
  match s.capCtx c with
  | none => s
  | some k => s.sendRequest m Pkt.capFill c fun t => dwordWords k.shard ++ [Word.mk g, t, Word.mk first, 0]

/-- A fill whose source fails or does not hold the cut: under AUTO the next member goes on; else the fill ends with a
status, ST_CAP_NONE where no member is left, and the context is HELD (R268, R271). -/
def State.fillGoOn (s : State) (c : Nat) (f : Fill) (status : Byte) : State :=
  match s.capCtx c with
  | none => s
  | some k =>
    let next := if f.auto then (s.capOrder k).find? fun m => !(f.source :: f.tried).contains m else none
    match next with
    | some m =>
      let f' := { f with source := m, tried := f.source :: f.tried }
      (s.modCap c fun k => { k with fill := some f' }).fillRequest c m f.cut (f.left.headD 0)
    | none =>
      let status := if f.auto then St.capNone else status
      let none_ := decide (status = St.capNone)
      let s := s.modCap c fun k => { k with fill := none, st := .held, noCap := k.noCap || none_ }
      let s := match f.op with
        | some o => s.opEnd o status
        | none => s
      if none_ then s.capFault Flt.noCap c 0 St.capNone else s

/-- The source of a fill is lost (R271). -/
def State.fillLost (s : State) (c : Nat) : State :=
  match (s.capCtx c).bind fun k => k.fill with
  | none => s
  | some f => (s.capFault Flt.fillLost c f.source St.fillSourceLost).fillGoOn c f St.fillSourceLost

/-- The SWARM_STEP of cut g: what the member's own cut, a PLAN of its group (R262, R273) or the pages of its fill give; free
where nothing has told it yet. -/
def State.cutStep (s : State) (k : CapCtx) (g : Nat) : Dword :=
  let filled := ((k.fill.filter fun f => f.cut == g).bind fun f => f.step).toList
  let own := (k.cuts.filter fun r => r.number == g).map fun r => r.step
  let group := if k.groupCut = g then k.xg.toList else []
  let x := s.leader k.group
  let led := if x.groupCut = g then [x.groupStep] else []
  let plans := (x.made.filter fun e => e.1 == g).map fun e => e.2
  (own ++ group ++ led ++ plans ++ filled).headD (BitVec.ofNat 64 (s.free 22))

/-- A fill's last page is written (R268): the steps of the context are counted on from G (R272). -/
def State.fillDone (s : State) (c : Nat) (f : Fill) : State :=
  match s.capCtx c with
  | none => s
  | some k =>
    let step := s.cutStep k f.cut
    let s := s.drew.modCap c fun k =>
      { k with fill := none, st := .restored, dirty := [], plan := none, cut := none, lastStep := some step,
               cutPages := [], groupCut := f.cut, xg := some step, lastCut := max k.lastCut f.cut, sealWord := f.loss,
               staged := k.staged.map fun g => { g with waiting := [] },
               buddies := k.buddies.map fun b =>
                 { b with pending := if b.inCut then [] else b.pending, sent := [], acked := 0, closed := false } }
    let s := s.pendingChanged c
    match f.op with
    | some o => s.opEnd o St.ok
    | none => s

/-- A buddy of context c is lost (R266). -/
def State.buddyLost (s : State) (c m : Nat) : State :=
  match s.capCtx c with
  | none => s
  | some k =>
    if k.buddies.any fun b => b.member == m then
      let s := s.modCap c fun k => { k with buddies := dropWhere (fun b => b.member == m) k.buddies, urgent := true,
                                            staged := k.staged.map fun g => { g with waiting := g.waiting.erase m },
                                            st := if k.st = .guarded then .exposed else k.st }
      let s := ((s.pendingChanged c).capFault Flt.buddyLost c m 0).capTryClose c
      if k.search = none then s.capSeek c [] else s
    else s

/-- What the loss of member m means to one context: a lost buddy, a search's next candidate, a fill's lost source. -/
def State.capCtxLost (s : State) (m c : Nat) : State :=
  let s := s.buddyLost c m
  let s := match (s.capCtx c).bind fun k => k.search with
    | some q => match q.waiting with
      | some (w, _) => if w = m then s.capSeek c q.tried else s
      | none => s
    | none => s
  match (s.capCtx c).bind fun k => k.fill with
  | some f => if f.source = m then s.fillLost c else s
  | none => s

/-! ## Caps held for other chips (R260, R265, R266) -/

def HeldCap.is (x : HeldCap) (m : Nat) (shard : Dword) : Bool := x.owner == m && x.shard == shard

def State.held (s : State) (m : Nat) (shard : Dword) : Option HeldCap := s.cap.held.find? fun x => x.is m shard

def State.modHeld (s : State) (m : Nat) (shard : Dword) (f : HeldCap → HeldCap) : State :=
  { s with cap := { s.cap with held := updateFirst (fun x => x.is m shard) f s.cap.held } }

/-- A held cap given up, with its frames. -/
def State.dropHeld (s : State) (m : Nat) (shard : Dword) : State :=
  match s.held m shard with
  | none => s
  | some x =>
    let s := { s with cap := { s.cap with held := dropWhere (fun y => y.is m shard) s.cap.held } }
    s.giveFrames x.frames

/-- The committed cut of a held cap, else the incoming one. -/
def HeldCap.cutNumber (x : HeldCap) : Nat :=
  match x.committed, x.incoming with
  | some y, _ => y.number
  | none, some u => u.number
  | none, none => 0

/-- A held cap lost (R266, R274): dropped, and CAP_FILL with LOST is sent to its owner. -/
def State.loseHeld (s : State) (x : HeldCap) : State :=
  (s.dropHeld x.owner x.shard).sendRequest x.owner Pkt.capFill 4096 fun t =>
    dwordWords x.shard ++ [Word.mk x.cutNumber, t, Word.mk (2 * 2 ^ 24), 0]

/-- A pool is withdrawn (R372): every cap with a frame in it is lost. -/
def State.heldPoolLost (s : State) (pool : Nat) : State :=
  (s.cap.held.filter fun x => x.frames.any fun f => f.pool == pool).foldl State.loseHeld s

/-- Everything that the loss of member m means to capping (R266, R271): a leader counts the group anew without it (R262). -/
def State.capMemberLost (s : State) (m : Nat) : State :=
  let s := (s.cap.ctxs.map fun e => e.1).foldl (fun s c => s.capCtxLost m c) s
  (s.cap.leaders.map fun e => e.1).foldl State.leaderCount s

end Sys2Proof.Machine
end

