-- ==== Sys2Proof/Machine/SwarmState.lean ====
section
/-!
DEFINITION. Changes of a member's state with all they mean (R242, R251), the stop of a swarm step, and the receipt of a
packet through the checks of R244.
-/

namespace Sys2Proof.Machine

/-- Members of a step's group other than this chip. -/
def State.others (s : State) (g : Nat) : List Nat := dropWhere (fun m => decide (s.selfIndex = some m)) (s.group g)

/-- COLL_ABANDON of a step to its group (R247, R248). -/
def State.sendAbandon (s : State) (st : Step) (launch : Nat) (status : Byte) (m : Nat) : State :=
  s.sendTwice (s.others st.group) Pkt.collAbandon
    (dwordWords st.swarmStep ++ [Word.mk (launch % 65536 + status.toNat * 65536), Word.mk m])

/-- A member enters SUSPECT (R242). -/
def State.suspect (s : State) (m : Nat) : State :=
  if (s.member m).st = .up then
    ((s.modMember m fun x => { x with st := .suspect, goodRun := 0 }).swmInfo 0 0 m).raise { id := Flt.swmSuspect }
  else s

/-- SWM_FLT_STEP_LO and _HI. -/
def State.swmStepInfo (s : State) (step : Dword) : State :=
  (s.setReg Reg.swmFltStepLo step.lo).setReg Reg.swmFltStepHi step.hi

/-- A window miss of member m in the step of context c (R251): one stop, with COLL_ABANDON naming m; of each member that
misses, SUSPECT and the WINDOW event. -/
def State.missWindow (s : State) (c m : Nat) : State :=
  match s.stepOf c with
  | none => s
  | some st =>
    let l := st.firstTimed
    let s := if st.stopSent then s
      else (s.stopWith c l St.partnerAbsent).sendAbandon st l St.partnerAbsent m
    let s := (s.modMember m fun x => { x with missNow := true }).suspect m
    ((s.swmStepInfo st.swarmStep).swmInfo St.partnerAbsent 0 m).raise
      { id := Flt.swmWindow, inst := s.ctxInst c, status := St.partnerAbsent }

/-- Has member m's contribution to launch l of context c's step arrived? -/
def State.arrived (s : State) (c l m : Nat) : Bool :=
  s.swarm.arrivals.any fun a => a.context == c && a.launch == l && a.member == m

/-- Launches of a step whose start has been reached and that wait for member m. -/
def State.waitsFor (s : State) (c : Nat) (st : Step) (m : Nat) : Bool :=
  (s.group st.group).contains m && st.begun.any fun l => !st.launchEnded l && !s.arrived c l m

/-- A member that is no longer heard is a window miss at once for every collective that waits for it (R251). -/
def State.memberGone (s : State) (m : Nat) : State :=
  (s.sched.ctxs.map fun e => e.1).foldl (fun s c => match s.stepOf c with
    | some st => if st.t0 ≠ 0 ∧ s.waitsFor c st m = true then s.missWindow c m else s
    | none => s) s

/-- The n members in UP or SUSPECT take their time exchanges in ascending order at n even parts of the period (R252,
log 57), dealt anew when the members or the period change. A member that has had its exchange of this period waits for the
next one; the others take theirs at their part of this period, or now where that has passed. -/
def State.spreadExchanges (s : State) : State :=
  let ms := (s.swarm.members.filter fun e => e.2.present).map fun e => e.1
  let p := s.ttPeriodNs
  let start := s.ns / p * p
  ms.zipIdx.foldl (fun s e =>
    let part := p * e.2 / ms.length
    s.modMember e.1 fun x =>
      let had := x.ttRun.any fun t => decide (start ≤ t)
      { x with ttPart := part, ttAt := if had then start + p + part else max s.ns (start + part) }) s

/-- UP or SUSPECT to ABSENT (R242). -/
def State.memberAbsent (s : State) (m : Nat) : State :=
  let s := (s.modMember m fun x => { x with st := .absent, exchanges := [] }).spreadExchanges.takeRequests m |>.2
  let s := (s.swmInfo St.partnerAbsent 0 m).raise { id := Flt.swmAbsent, status := St.partnerAbsent }
  (s.capMemberLost m).memberGone m

/-- To BARRED (R242). -/
def State.memberBarred (s : State) (m : Nat) : State :=
  let s := (s.modMember m fun x => { x with st := .barred, exchanges := [] }).spreadExchanges.takeRequests m |>.2
  (s.capMemberLost m).memberGone m

/-- JOINING or ABSENT to UP: the absence timer starts (R242). -/
def State.memberUp (s : State) (m : Nat) : State :=
  (s.modMember m fun x => { x with st := .up, heardAt := s.ns, goodRun := 0 }).spreadExchanges

/-- A MALFORMED event charged to a member, which bars it when it turns severe. -/
def State.malformed (s : State) (port m : Nat) : State :=
  let turns := s.willTurn Flt.swmMalformed m
  let s := (s.swmDrop.swmInfo 0 port m).raise { id := Flt.swmMalformed, unit := m }
  if turns then s.memberBarred m else s

/-- A REMOTE_DENIED event charged to a member. -/
def State.denied (s : State) (port m : Nat) : State :=
  let turns := s.willTurn Flt.remoteDenied m
  let s := (s.swmInfo St.auth port m).raise { id := Flt.remoteDenied, unit := m, status := St.auth }
  if turns then s.memberBarred m else s

/-- What every accepted packet does: it keeps the member present and shows its Timebase fields (R242, R255). -/
def State.heard (s : State) (h : SwarmHdr) (x : SwarmMember) : State :=
  (s.setMember h.src { x with bucket := x.bucket - 1000000, heardAt := s.ns, heardNow := true,
                              traceable := h.traceable, peerTb := h.tbState }).incReg Reg.swmRxCnt

/-- A received packet through the five checks of R244, the first failing one dropping it; then its effect f. -/
def State.receive (s : State) (h : SwarmHdr) (lenOk : Nat → Bool) (f : State → State) : State :=
  if !(s.reg Reg.swmCtrl).bit 0 then s
  else if !s.srcOk h then s.swmDrop
  else if !s.epochOk h then
    (s.swmDrop.swmInfo 0 h.port h.src).raise { id := Flt.swmAuth, unit := h.port }
  else if h.ver ≠ 1 ∨ h.defined = false ∨ h.reserved = true ∨ lenOk h.len = false then s.malformed h.port h.src
  else match (s.member h.src).replay h.seq with
    | none => (s.swmDrop.swmInfo 0 h.port h.src).raise { id := Flt.swmReplay, unit := h.port }
    | some x =>
      let x := x.refill s.ns
      if x.bucket < 1000000 then
        ((s.setMember h.src { x with drops := x.drops.satInc }).swmDrop.swmInfo 0 h.port h.src).raise
          { id := Flt.swmRate, unit := h.src }
      else f (s.heard h x)

end Sys2Proof.Machine
end

