-- ==== Sys2Proof/Machine/TimeOps.lean ====
section
/-!
DEFINITION. Starts held for a time (spec/09 R230, R234, R235) and the step-slip notices that late ones and throttles send
(R235, R237).
-/

namespace Sys2Proof.Machine

/-- A step-slip notice of n ns to the members of a step's swarm, with the step's next SERIAL (R248). -/
def State.sendSlip (s : State) (st : Step) (n : Nat) : State :=
  let last := ((s.swarm.slipSerial.find? fun e => e.1 == st.swarmStep).map fun e => e.2).getD 0
  let rest := dropWhere (fun (e : Dword × Nat) => e.1 == st.swarmStep) s.swarm.slipSerial
  let s := { s with swarm := { s.swarm with slipSerial := (st.swarmStep, last + 1) :: rest } }
  s.sendTwice (s.others st.group) Pkt.stepSlip
    (dwordWords st.swarmStep ++ [Word.mk (min n 0xFFFFFFFF), Word.mk ((last + 1) % 65536)])

/-- TB_FLT_INFO holds a signed number of ns. -/
def State.tbInfo (s : State) (n : Int) : State := s.setReg Reg.tbFltInfo (BitVec.ofInt 32 n)

/-- A held start issued late by n ns (R235): TB_LATE_MAX, and above TB_SLIP_THR_NS the LATE_START event and, for a
launch of a timing list, a step-slip notice rounded up to the next µs. -/
def State.lateStart (s : State) (st : Step) (n : Nat) (timed : Bool) : State :=
  let s := s.maxReg Reg.tbLateMax n
  if (s.reg Reg.tbSlipThrNs).toNat < n then
    let s := (s.tbInfo n).raise { id := Flt.lateStart, inst := s.ctxInst st.context }
    if timed then s.sendSlip st ((n + 999) / 1000 * 1000) else s
  else s

/-- A slot's step started with lateness n (R230). -/
def State.slotLate (s : State) (table slot n : Nat) : State :=
  match Tbl.find s.cyc table with
  | none => s
  | some t =>
    let late := if t.lateMax.toNat < n then Word.mk (min n 0xFFFFFFFF) else t.lateMax
    let s := { s with cyc := Tbl.insert s.cyc table { t with lateMax := late } }
    if 1000 < n then
      (s.setReg Reg.cycFltInfo (Word.mk (table * 1024 + slot))).raise { id := Flt.slotLate, unit := table, inst := some t.inst }
    else s

/-- Does the step still wait for its own start: a START_TIME, or its slot's S (R230, R234)? -/
def Step.held (st : Step) : Bool :=
  !st.released && (decide (st.startTime ≠ 0) || match st.origin with
    | .cyclic _ _ => true
    | _ => false)

/-- Start of launch l where the timing list names it. -/
def Step.timedStart (st : Step) (l : Nat) : Option Nat := (st.timed.find? fun e => e.1 == l).map fun e => e.2

/-- Is launch l held at its first commands (R234)? -/
def Step.launchHeld (st : Step) (l : Nat) : Bool := (st.timedStart l).isSome && !st.begun.contains l

/-- The first command of launch l has issued on core g, one of its n cores: with the last, the lateness of its start
counts (R230, R235). -/
def State.firstIssued (s : State) (c l g n : Nat) : State :=
  match s.stepOf c with
  | none => s
  | some st =>
    let was := Tbl.get (fun _ => []) st.starts l
    let now := insertAsc g was
    let s := s.modStep c fun st => { st with starts := Tbl.insert st.starts l now }
    if now.length ≠ n ∨ was.length = n then s
    else
      let s := match st.timedStart l with
        | some t => s.lateStart st (s.ns - t) true
        | none => s
      if l ≠ 0 then s
      else match st.origin with
        | .cyclic table slot => s.slotLate table slot (s.ns - st.startTime)
        | _ => if st.startTime = 0 then s else s.lateStart st (s.ns - st.startTime) false

end Sys2Proof.Machine
end

