-- ==== Sys2Proof/Machine/FrameOps.lean ====
section
/-!
DEFINITION. Frame agents and cores (spec/03, spec/04, spec/08 R201–R211): access, queue heads with their waits and gates,
the commands of a launch on a core, launch ends, withdrawal.
-/

namespace Sys2Proof.Machine

/-! ## Access -/

def Agent.core (a : Agent) (c : Nat) : CoreState := Tbl.get (fun _ => {}) a.cores c
def State.core (s : State) (a c : Nat) : CoreState := (s.agent a).core c
def State.modCore (s : State) (a c : Nat) (f : CoreState → CoreState) : State :=
  s.modAgent a fun x => { x with cores := Tbl.put (fun _ => {}) x.cores c (f (x.core c)) }
def CoreState.queue (x : CoreState) (e : Nat) : List EngCmd := Tbl.get (fun _ => []) x.queues e
def CoreState.exec (x : CoreState) (e : Nat) : List EngCmd := Tbl.get (fun _ => []) x.running e
def CoreState.setQueue (x : CoreState) (e : Nat) (q : List EngCmd) : CoreState :=
  { x with queues := Tbl.put (fun _ => []) x.queues e q }
def CoreState.setExec (x : CoreState) (e : Nat) (q : List EngCmd) : CoreState :=
  { x with running := Tbl.put (fun _ => []) x.running e q }
def CoreState.occupied (x : CoreState) (e : Nat) : Nat := Tbl.get (fun _ => 0) x.occ e
def CoreState.setOcc (x : CoreState) (e n : Nat) : CoreState := { x with occ := Tbl.put (fun _ => 0) x.occ e n }
def CoreState.slot (x : CoreState) (k : Nat) : CoreSlot := Tbl.get (fun _ => {}) x.slots k
def CoreState.setSlot (x : CoreState) (k : Nat) (v : CoreSlot) : CoreState :=
  { x with slots := Tbl.put (fun _ => {}) x.slots k v }
def CoreState.granule (x : CoreState) (g : Nat) : Granule := Tbl.get (fun _ => {}) x.granules g
def CoreState.setGranule (x : CoreState) (g : Nat) (v : Granule) : CoreState :=
  { x with granules := Tbl.put (fun _ => {}) x.granules g v }
def CoreState.modGranules (x : CoreState) (gs : List Nat) (f : Granule → Granule) : CoreState :=
  gs.foldl (fun x g => x.setGranule g (f (x.granule g))) x

/-- Engine kinds by code (spec/00). -/
def engineOf (e : Nat) : Engine :=
  match e with
  | 0 => .mx
  | 1 => .vx
  | 2 => .sx
  | 3 => .ld
  | _ => .st

/-- Engine codes. -/
def engines : List Nat := [0, 1, 2, 3, 4]

/-- The step of a partition's slot as an agent holds it. -/
def Agent.step (a : Agent) (p slot : Nat) : Option AgentStep :=
  a.steps.find? fun x => x.partition == p && x.slot == slot
def State.modAgentStep (s : State) (a p slot : Nat) (f : AgentStep → AgentStep) : State :=
  s.modAgent a fun x => { x with steps := updateFirst (fun t => t.partition == p && t.slot == slot) f x.steps }
def AgentStep.launch (x : AgentStep) (l : Nat) : Option LaunchState := x.launches.find? fun t => t.index == l
def AgentStep.modLaunch (x : AgentStep) (l : Nat) (f : LaunchState → LaunchState) : AgentStep :=
  { x with launches := updateFirst (fun t => t.index == l) f x.launches }
def State.modLaunch (s : State) (a p slot l : Nat) (f : LaunchState → LaunchState) : State :=
  s.modAgentStep a p slot fun x => x.modLaunch l f
/-- Quarter-clusters that an agent serves for a step, and their cores within the cluster. -/
def AgentStep.ownCores (x : AgentStep) (a : Nat) : List Nat :=
  ((x.qcs.filter fun q => q / 4 == a).foldl (fun l q => insertAsc q l) []).flatMap fun q =>
    (List.range 16).map fun i => q % 4 * 16 + i
/-- The partition of a quarter-cluster. -/
def State.partOfQc (s : State) (q : Nat) : Option (Nat × Partition) := s.sched.parts.find? fun e => e.2.qcs.contains q
/-- Is a core fenced, itself or with its cluster (R372)? -/
def State.coreFenced (s : State) (g : Nat) : Bool := s.fences.cores.contains g || s.fences.clusters.contains (g / 64)
/-- Bypassed strips of global core g, from the repair map (R70, R414). -/
def State.bypass (s : State) (g : Nat) : Nat := (s.fuse (9 + g / 8)).field (4 * (g % 8) + 3) (4 * (g % 8))
def State.width (s : State) (g : Nat) : Nat := presented (s.bypass g)
/-- Present cores in logical order (R10). -/
def State.presentCores (s : State) : List Nat := ((List.range 128).filter s.qcUp).flatMap qcCores
/-- Logical number of a core. -/
def State.logical (s : State) (g : Nat) : Nat := (s.presentCores.filter fun h => decide (h < g)).length
/-- Agent n's copy of a FRM_ register. -/
def frmReg (off n : Nat) : Nat := off + 0x1000 * n
/-- FRM_PACE.HIGH, brought into 8–60 (R80). -/
def State.paceHigh (s : State) (a : Nat) : Nat := min 60 (max 8 (s.regField (frmReg Reg.frmPace a) 5 0))
/-- SCH_STALL_LIMIT in cc: two ac to a cc (DEDUCED, log 20), values below 0x10000 taken as 0x10000 (R105). -/
def State.stallLimit (s : State) : Nat := (max 0x10000 (s.reg Reg.schStallLimit).toNat + 1) / 2

/-! ## Counters, waits and gates (R90–R99, R77, R78) -/

def CoreSlot.counter (x : CoreSlot) (c : Nat) : BitVec 48 := Tbl.get (fun _ => 0) x.counters c
/-- D_c (R91). -/
def CoreSlot.rel (x : CoreSlot) (c : Nat) : Nat := (x.counter c - Tbl.get (fun _ => 0) x.base c).toNat
/-- Does a wait pass? -/
def CoreState.waitOk (x : CoreState) (slot : Nat) (w : Option Wait) : Bool :=
  match w with
  | some w => decide (w.exp ≤ (x.slot slot).rel w.ctr)
  | none => true
/-- The parts of a command: one, or two for a packed pass. -/
def EngCmd.parts (c : EngCmd) : List CmdPart := c.part :: c.packed.toList
def CoreState.cmdWaitOk (x : CoreState) (c : EngCmd) : Bool := c.parts.all fun p => x.waitOk c.slot p.wait
/-- A granule is valid (R77). -/
def Granule.valid (g : Granule) : Bool := g.written && decide (g.inflight = 0)
def CoreState.firstInvalid (x : CoreState) (c : EngCmd) : Option Nat :=
  (c.parts.flatMap fun p => p.src).find? fun g => !(x.granule g).valid
/-- Destination granules of a command, each once: one write in flight a granule, whichever operands and launches of a
packed pass write it (R77). -/
def EngCmd.dests (c : EngCmd) : List Nat := c.parts.foldl (fun l p => p.dst.foldl (fun l g => putNew g l) l) []
/-- May a command's writes start: no count would pass 7 (R77)? -/
def CoreState.roomToWrite (x : CoreState) (c : EngCmd) : Bool :=
  c.dests.all fun g => decide ((x.granule g).inflight < 7)

/-! ## Accumulator sets (R200, R210, R211) -/

def CoreState.setFree (x : CoreState) (n : Nat) : Bool := !x.sets.any fun a => a.num == n
/-- The set that a pass takes, or a saved set is filled into: the wanted one if it is free, else the other. -/
def CoreState.takeSet (x : CoreState) (want : Nat) : Option Nat :=
  if x.setFree want then some want else if x.setFree (1 - want) then some (1 - want) else none
/-- The set parked on the core. -/
def CoreState.parkedSet (x : CoreState) : Option AccSet := x.sets.find? fun a => a.parked
def CoreState.setsOf (x : CoreState) (slot : Nat) : List AccSet := x.sets.filter fun a => a.slot == slot
/-- The sets of a slot given up. -/
def CoreState.dropSets (x : CoreState) (slot : Nat) : CoreState :=
  { x with sets := dropWhere (fun a => a.slot == slot) x.sets }
/-- A free set opened for a slot: the next pass takes it too, or the other after a SHADOW pass (log 48). -/
def CoreState.openSet (x : CoreState) (slot want : Nat) (shadow : Bool) : CoreState :=
  match x.takeSet want with
  | some n => { x with sets := x.sets ++ [{ num := n, slot }], nextSet := if shadow then 1 - n else n }
  | none => x
/-- The oldest open set of a slot given up: the last command of its pass is done. -/
def CoreState.closeSet (x : CoreState) (slot : Nat) : CoreState :=
  match x.sets.find? fun a => a.slot == slot && !a.parked with
  | some a => { x with sets := x.sets.erase a }
  | none => x
/-- Has a command the set it needs: a fill or the first command of a pass a free one, and outside SHADOW the pass is the
slot's only one, so that the second set stays free for preempting work (R74)? -/
def CoreState.roomForSet (x : CoreState) (c : EngCmd) : Bool :=
  let fills := c.rsv.any fun r => match r with
    | .fillSet _ => true
    | _ => false
  let opens := c.mx.any fun m => m.first
  let alone := (c.mx.any fun m => m.shadow) || (x.setsOf c.slot).isEmpty
  !(fills || opens) || ((x.takeSet 0).isSome && (fills || alone))

/-- May a command go to its engine? -/
def CoreState.ready (x : CoreState) (c : EngCmd) : Bool :=
  x.cmdWaitOk c && (x.firstInvalid c).isNone && x.roomToWrite c && x.roomForSet c

/-- The stall times of a queue's head brought up to date: a stall that ends is forgotten, a new one takes the limit in
force. -/
def CoreState.syncHead (x : CoreState) (cc limit : Nat) (e : Nat) : CoreState :=
  let clear (x : CoreState) : CoreState :=
    { x with waitFrom := Tbl.erase x.waitFrom e, waitDue := Tbl.erase x.waitDue e }
  let clearGate (x : CoreState) : CoreState :=
    { x with gateFrom := Tbl.erase x.gateFrom e, gateDue := Tbl.erase x.gateDue e }
  match x.queue e with
  | [] => clearGate (clear x)
  | c :: _ =>
    if !x.cmdWaitOk c then
      let x := clearGate x
      if (Tbl.find x.waitFrom e).isSome then x
      else { x with waitFrom := Tbl.insert x.waitFrom e cc, waitDue := Tbl.insert x.waitDue e (cc + limit) }
    else
      let x := clear x
      if (x.firstInvalid c).isNone then clearGate x
      else if (Tbl.find x.gateFrom e).isSome then x
      else { x with gateFrom := Tbl.insert x.gateFrom e cc, gateDue := Tbl.insert x.gateDue e (cc + limit) }

/-- The head of a queue has changed: its stall times start afresh. -/
def CoreState.newHead (x : CoreState) (e : Nat) : CoreState :=
  { x with waitFrom := Tbl.erase x.waitFrom e, waitDue := Tbl.erase x.waitDue e,
           gateFrom := Tbl.erase x.gateFrom e, gateDue := Tbl.erase x.gateDue e }

def State.syncCore (s : State) (a c : Nat) : State :=
  let limit := s.stallLimit
  s.modCore a c fun x => engines.foldl (fun x e => x.syncHead s.cc limit e) x

/-! ## Launches on their cores -/

/-- The cores that a launch names, in ascending order, none for a logical number or rank beyond those that exist
(R62). No rule refuses a CORE_COUNT out of its range: 0 names no core, and the launch ends at once (DESIGN CHOICE,
log 50). -/
def State.launchCores (s : State) (d : Desc) (qcs : List Nat) : List (Option Nat) :=
  let all := if d.coreAbs then s.presentCores else (qcs.foldl (fun l q => insertAsc q l) []).flatMap qcCores
  (List.range d.coreCount).map fun i => all[d.coreFirst + i]?

/-- The check of a launch as a whole (R63): the status that refuses it, or none. -/
def State.launchFail (s : State) (d : Desc) (operands : Nat) (stallOnly : Bool) (qcs : List Nat) : Option Byte :=
  let cores := s.launchCores d qcs
  let absent := (d.coreAbs && cores.any fun g => g.isNone) || decide (4 < d.engine) || !s.engineUp d.engine ||
    (d.isMx && cores.any fun g => g.any fun g => decide (s.width g = 0))
  let outside := cores.any fun g => match g with
    | some g => !qcs.contains (g / 16) || s.coreFenced g
    | none => true
  if !d.valid operands stallOnly then some St.badDescriptor
  else if absent then some St.engineAbsent
  else if outside then some St.fenced
  else if !d.rangesOk then some St.badAddress
  else none

/-- Descriptor of launch l as the agent has fetched it. -/
def AgentStep.desc (x : AgentStep) (l : Nat) : Option Desc := (Tbl.find x.descs l).map Desc.ofWords

/-- A descriptor as its launch deals it: WEIGHTED where the launch took FRM_CTRL.WEIGHTED_EN as 1 (R66, log 59). -/
def LaunchState.deal (x : LaunchState) (d : Desc) : Desc := { d with weighted := d.weighted && x.weighted }

/-- The share of global core g in a launch whose descriptor is as the launch deals it (R66). -/
def State.shareOf (s : State) (d : Desc) (cores : List Nat) (g : Nat) : Share :=
  let j := (cores.findIdx? fun h => h == g).getD 0
  if d.weighted && d.isMx then
    weightedShare (d.count d.split) (cores.map fun h => d.passes (s.width h)) j
  else blockShare (d.count d.split) cores.length j

/-- Commands of a launch on one core. -/
def State.coreTotal (s : State) (d : Desc) (cores : List Nat) (g : Nat) : Nat :=
  d.total (s.shareOf d cores g) (s.width g)

/-- Commands of launch l on core c that an agent's queues or engines hold. -/
def CoreState.holds (x : CoreState) (slot l : Nat) : Bool :=
  let mine (c : EngCmd) : Bool := c.slot == slot && c.rsv.isNone && c.parts.any fun p => p.launch == l
  engines.any fun e => (x.queue e).any mine || (x.exec e).any mine

/-- Has launch l no command left to issue and none under way on core c of an agent? -/
def State.coreDone (s : State) (a : Nat) (t : AgentStep) (l : LaunchState) (d : Desc) (cores : List Nat) (c : Nat) :
    Bool :=
  let g := 64 * a + c
  decide (s.coreTotal d cores g ≤ Tbl.get (fun _ => 0) l.cursors c) && !l.again.any (fun e => e.1 == c) &&
    !(s.core a c).holds t.slot l.index

/-- Cores of a launch that an agent owns, as numbers within the cluster. -/
def ownOf (a : Nat) (cores : List Nat) : List Nat := (cores.filter fun g => g / 64 == a).map fun g => g % 64

/-- A launch ends on an agent once all its own cores are done with it. -/
def State.checkLaunch (s : State) (a p slot l : Nat) : State :=
  match (s.agent a).step p slot with
  | none => s
  | some t => match t.launch l, t.desc l with
    | some x, some d =>
      if x.ended || !x.expanding then s
      else
        let cores := (s.launchCores d t.qcs).filterMap id
        if t.stopping then
          if (ownOf a cores).all fun c => !(s.core a c).holds slot l then
            s.modLaunch a p slot l fun x =>
              { x with ended := true, status := if x.status = 0 then St.squashed else x.status }
          else s
        else if (ownOf a cores).all fun c => s.coreDone a t x (x.deal d) cores c then
          s.modLaunch a p slot l fun x => { x with ended := true }
        else s
    | _, _ => s

/-! ## Faults of an agent (R86, R88) -/

/-- FRM_FLT_INFO, _SEQ and _CORE, then the event. FRM_FLT_INFO has launch index 0 for a fault of no launch, and
FRM_FLT_CORE keeps its value at a fault of no core (DESIGN CHOICE, log 59). -/
def State.frmFault (s : State) (a bit : Nat) (t : AgentStep) (l : Nat) (status : Byte) (core : Option Nat) : State :=
  let g := 64 * a + core.getD 0
  let s := s.setReg (frmReg Reg.frmFltInfo a) (Word.mk (status.toNat * 2 ^ 24 + l % 65536))
  let s := s.setReg (frmReg Reg.frmFltSeq a) t.seq
  let s := match core with
    | some c => s.setReg (frmReg Reg.frmFltCore a) (Word.mk (g / 512 * 2 ^ 16 + g / 64 % 8 * 256 + c))
    | none => s
  s.raise { id := Flt.frm a bit, unit := core.getD 0, inst := s.ctxInst t.context, status,
            fence := core.map fun _ => (0, g) }

/-- An execution fault of launch l: its status, FIRST_FAULT and CORE, and the report that is due (R85, R86). A first fault of
no core has the logical number of the cluster's core 0 (DESIGN CHOICE, log 59). -/
def State.execFault (s : State) (a p slot l : Nat) (status : Byte) (core : Option Nat) : State :=
  let g := s.logical (64 * a + core.getD 0)
  let s := s.modLaunch a p slot l fun x =>
    { x with status := if x.status = 0 then status else x.status,
             firstFault := if x.firstFault = 0 then status else x.firstFault,
             faultCore := if x.firstFault = 0 then g else x.faultCore }
  s.modAgentStep a p slot fun t => { t with reportDue := !t.stopping }

/-! ## What a slot has on a core -/

/-- Has a slot commands in execution on an agent's cores? -/
def State.slotRuns (s : State) (a slot : Nat) (cs : List Nat) : Bool :=
  cs.any fun c => engines.any fun e => ((s.core a c).exec e).any fun y => y.slot == slot

end Sys2Proof.Machine
end

