-- ==== Sys2Proof/Machine/IssueOps.lean ====
section
/-!
DEFINITION. What an agent does before and as it issues an engine command (spec/03 R65–R84, spec/08 R209–R211, spec/11
R259): restores, fills, claims of a footprint with their evictions, the hold for pages of an open cap, the command.
-/

namespace Sys2Proof.Machine

/-! ## Eviction frames (R202, R209) -/

/-- Key of a granule in an eviction map. -/
def evictKey (g granule : Nat) : Nat := g * 4096 + granule

/-- A place for a granule of context o evicted on a die: in a frame of the context's that has room, else in a new one,
charged to the instance of the context. -/
def State.evictPlace (s : State) (o die : Nat) : Option (Nat × State) :=
  let x := s.ctx o
  let used := x.evicted.map fun e => e.2
  let room := used.findSome? fun v =>
    if poolDie (v / 16 / 2 ^ 32) = die then
      ((List.range 16).find? fun i => !used.contains (v / 16 * 16 + i)).map fun i => v / 16 * 16 + i
    else none
  match room with
  | some v => some (v, s)
  | none =>
    let s := if s.broodRoom x.inst 16 then s else s.reclaim x.inst 16
    if s.broodRoom x.inst 16 then
      (s.takeAny (broodPools die)).map fun (f, t) => (carveKey f * 16, t.chargeBrood x.inst 16)
    else none

/-- An entry of an eviction map cleared; a frame that holds no granule any more is given back. -/
def State.evictFree (s : State) (o key : Nat) : State :=
  let x := s.ctx o
  match Tbl.find x.evicted key with
  | none => s
  | some v =>
    let rest := Tbl.erase x.evicted key
    let s := s.setCtx o { x with evicted := rest }
    if rest.any fun e => e.2 / 16 == v / 16 then s
    else (s.giveFrame { pool := v / 16 / 2 ^ 32, serial := v / 16 % 2 ^ 32 }).refundBrood x.inst 16

/-! ## What must go first on a core -/

/-- A command of a reserved entry that is queued or runs on a core. -/
def CoreState.hasRsv (x : CoreState) (p : RsvOp → Bool) : Bool :=
  engines.any fun e => (x.queue e ++ x.exec e).any fun y => y.rsv.any p

/-- What stands before the next command: nothing, a command of a reserved entry on an engine, or an event to wait for. -/
inductive Need where
  | none
  | put (engine : Nat) (op : RsvOp)
  | wait
  deriving DecidableEq, Repr

/-- Claim of one granule for context o (R209): another context's written granule goes to an eviction frame first. -/
def CoreState.claimNeed (x : CoreState) (o gr : Nat) : Need :=
  let y := x.granule gr
  match y.owner with
  | some w =>
    if w = o ∨ y.written = false then .none
    else if y.inflight ≠ 0 ∨ x.hasRsv (fun r => r == .evict gr w) = true then .wait
    else .put 4 (.evict gr w)
  | none => .none

/-- The first need that is not `none`. -/
def firstNeed (l : List Need) : Need := (l.find? fun n => n != .none).getD .none

/-- Does a set move on the core: is one being saved or filled? -/
def CoreState.setMoves (x : CoreState) : Bool :=
  x.hasRsv fun r => match r with
    | .saveSet _ _ => true
    | .fillSet _ => true
    | _ => false

/-- The context in a slot of a core's partition. -/
def State.slotCtx (s : State) (a c slot : Nat) : Nat :=
  match s.partOfQc ((64 * a + c) / 16) with
  | some (_, part) => (part.slot slot).2
  | none => 0

/-- The set parked on a core saved for the context it belongs to (R211). -/
def State.saveParked (s : State) (a c : Nat) (x : AccSet) : Need :=
  .put 0 (.saveSet x.num (s.slotCtx a c x.slot))

/-- Restores and fills due before a context's first resumed command on global core g (R209, R211). A fill finds a free
set; where none is free, the set that another slot has parked is saved first. -/
def State.resumeNeed (s : State) (a c ctx : Nat) : Need :=
  let g := 64 * a + c
  let x := s.core a c
  let k := s.ctx ctx
  let rec_ : SaveRec := Tbl.get (fun _ => {}) k.recs g
  let fill (set : Nat) (on : Bool) : Need :=
    if !on then .none
    else if x.setMoves then .wait
    else if (x.takeSet set).isSome then .put 0 (.fillSet set)
    else match x.parkedSet with
      | some y => s.saveParked a c y
      | none => .wait
  let grs := (k.evicted.filter fun e => e.1 / 4096 == g).map fun e => e.1 % 4096
  let restore (gr : Nat) : Need :=
    if x.hasRsv (fun r => r == .restore gr) then .none
    else if x.hasRsv (fun r => r == .evict gr ctx) then .wait
    else match x.claimNeed ctx gr with
      | .none => .put 3 (.restore gr)
      | n => n
  firstNeed ([fill 0 rec_.acc0, fill 1 rec_.acc1] ++ grs.map restore)

/-- Granules of a launch's declared footprint. -/
def Desc.footprint (d : Desc) : List Nat :=
  ((List.range d.fpCount).map fun i => d.fpFirst + i).filter fun g => decide (g < 3072)


/-- What launch l of a step needs on core c before its first command: its footprint claimed, and no set of another slot
parked where it uses both (R209, R211). -/
def State.launchNeed (s : State) (a c : Nat) (t : AgentStep) (l : LaunchState) (d : Desc) : Need :=
  let x := s.core a c
  let claims := if l.claimed.contains c then [] else d.footprint.map fun gr => x.claimNeed t.context gr
  let park : Need := match x.parkedSet with
    | some k =>
      if d.isMx && decide (d.accMode = 2) && k.slot != t.slot then if x.setMoves then .wait else s.saveParked a c k
      else .none
    | none => .none
  firstNeed (claims ++ [park])

/-- The footprint of a launch belongs to its context on core c. -/
def State.claim (s : State) (a c : Nat) (t : AgentStep) (l : LaunchState) (d : Desc) : State :=
  if l.claimed.contains c then s
  else
    let s := s.modCore a c fun x => x.modGranules d.footprint fun g => { g with owner := some t.context }
    s.modLaunch a t.partition t.slot l.index fun x => { x with claimed := c :: x.claimed }

/-! ## Pages of an open cap (R259) -/

/-- Pages of context c's regions in a launch's device-memory destinations that some buddy has still to be sent, those
already in a staging frame apart. -/
def CapCtx.unsent (k : CapCtx) (d : Desc) : List Nat :=
  let ps := d.devRanges.foldl (fun l r => unionAsc l (regionPages k.regions 0 r.1 (r.2 + 1))) []
  ps.filter fun p => k.pends p && !k.staged.any fun g => g.copied && g.page == p

/-- A page taken into staging, where the pool with the most free frames on the page's die has one (R178, R259). -/
def State.stagePage (s : State) (c page : Nat) : State :=
  match s.capCtx c with
  | none => s
  | some k =>
    let inst := (s.ctx c).inst
    if k.staged.any (fun g => g.page == page) || !s.broodRoom inst 16 then s
    else match s.takeAny (broodPools (portDie (s.addrPort (pageAddr k.regions page)))) with
      | some (f, t) => (t.chargeBrood inst 16).modCap c fun k => { k with staged := k.staged ++ [{ page, frame := f }] }
      | none => s

/-- Is the first command of a launch held for the open cap? The hold begins here. -/
def State.capGuard (s : State) (c a l : Nat) (d : Desc) : State × Bool :=
  match s.capCtx c with
  | none => (s, false)
  | some k =>
    if k.launchHolds.any fun h => h.agent == a && h.launch == l then (s, true)
    else
      let pages := k.unsent d
      if pages.isEmpty then (s, false)
      else
        let s := pages.foldl (fun s p => s.stagePage c p) s
        (s.modCap c fun k => { k with launchHolds := { agent := a, launch := l, pages } :: k.launchHolds }, true)

/-! ## The command -/

/-- The wait of a synchronised iteration (R92, R95). -/
def Desc.waitAt (d : Desc) (n : Nat) : Option Wait :=
  if d.wait.bit 31 then
    some { ctr := d.wait.field 30 25, exp := (d.wait.field 19 0 + n * d.wait.field 24 20) % 2 ^ 48 }
  else none

def Desc.signalOf (d : Desc) : Option Signal :=
  if d.signal.bit 31 then some { ctr := d.signal.field 30 25, inc := d.signal.field 7 0 } else none

/-- One launch's share of command k on a core, with the extents of its operands where it is not an MX command (R65). -/
def Desc.part (d : Desc) (launch k : Nat) (c : CmdSpec) : CmdPart :=
  { launch, index := k, src := if c.empty then [] else d.sources c, dst := if c.empty then [] else d.dests c,
    wait := if c.waits then d.waitAt c.syncN else none, signal := if c.signals then d.signalOf else none,
    addrs := c.addrs, extents := if c.empty || d.isMx then [] else d.ops.map fun o => o.extent }

/-- The shape of an MX command on a core of width w (R72, R73, R76). -/
def Desc.shape (d : Desc) (w : Nat) (c : CmdSpec) : MxShape :=
  let rows := min 128 (d.tileM - 128 * c.pm)
  let depth := if d.conv then d.cin else d.tileK
  let trans (k : Nat) : Bool := d.ops[k]?.any fun o => o.transpose
  { rows, cols := min w (d.tileN - w * c.pn), depth, own := depth, transA := trans 0, transB := trans 1,
    first := c.first, last := c.last, shadow := decide (d.accMode = 2),
    pixel := (128 * c.pm / max 1 d.outW, 128 * c.pm % max 1 d.outW), kernel := (c.kh, c.kw),
    zeros := if d.conv then d.zeroRows c.pm rows c.kh c.kw else [] }

/-- The step base of a slot latched by the first command of a new step (R91). -/
def CoreState.latch (x : CoreState) (slot : Nat) (seq : Word) : CoreState :=
  let y := x.slot slot
  if y.latched = some seq then x else x.setSlot slot { y with base := y.counters, latched := some seq }

/-- A command offered to a queue. -/
def State.offer (s : State) (a c e : Nat) (y : EngCmd) : State :=
  (s.modCore a c fun x => (x.setQueue e (x.queue e ++ [y])).setOcc e (x.occupied e + 1)).syncCore a c

/-- A command of a reserved entry: it waits for nothing of another queue. Its tag names launch 65 535 and its granule or
set (DESIGN CHOICE, log 23). -/
def rsvCmd (e slot : Nat) (seq : Word) (op : RsvOp) : EngCmd :=
  let (index, src, dst) : Nat × List Nat × List Nat := match op with
    | .evict gr _ => (gr, [gr], [])
    | .restore gr => (gr, [], [gr])
    | .saveSet set _ => (set, [], [])
    | .fillSet set => (set, [], [])
  { engine := engineOf e, slot, seq, op := 0, empty := false,
    part := { launch := 65535, index, src, dst, wait := none, signal := none, addrs := [] },
    packed := none, mx := none, rsv := some op }

/-- A launch with its descriptor, as it deals it, and its cores. -/
structure Work where
  x     : LaunchState
  d     : Desc
  cores : List Nat
  deriving DecidableEq, Repr

def AgentStep.work (s : State) (t : AgentStep) (l : Nat) : Option Work :=
  match t.launch l, t.desc l with
  | some x, some d => some { x, d := x.deal d, cores := (s.launchCores d t.qcs).filterMap id }
  | _, _ => none

def Work.cursor (w : Work) (c : Nat) : Nat := Tbl.get (fun _ => 0) w.x.cursors c

/-- The launch whose commands are next in queue e of core c: the lowest one still expanding with commands left (R69). -/
def State.nextWork (s : State) (a c e : Nat) (t : AgentStep) : Option Work :=
  (t.launches.filter fun x => x.expanding && !x.ended).findSome? fun x => match t.work s x.index with
    | some w =>
      if w.d.engine = e ∧ w.cores.contains (64 * a + c) = true ∧
          (w.x.again.any (fun r => r.1 == c) || decide (w.cursor c < s.coreTotal w.d w.cores (64 * a + c))) = true
      then some w else none
    | none => none

/-- The cursor of each queue of core c: launch and index of the first command that is still to be issued there, which after a
withdrawal is the first one withdrawn (R202, R210). -/
def State.cursorsOf (s : State) (a c : Nat) (t : AgentStep) : Tbl (Nat × Nat) :=
  engines.filterMap fun e => (s.nextWork a c e t).map fun w =>
    (e, (w.x.index, ((w.x.again.find? fun r => r.1 == c).map fun r => r.2).getD (w.cursor c)))

/-- Is a slot in the middle of an MX pass on core c: has it issued a command of the pass that is not its last? -/
def State.midPass (s : State) (a c : Nat) (t : AgentStep) : Bool :=
  match s.nextWork a c 0 t with
  | some w =>
    let g := 64 * a + c
    let k := w.cursor c
    decide (0 < k) && !(w.d.command (s.shareOf w.d w.cores g) (s.width g) (k - 1)).last
  | none => false

/-- May a launch's first commands on a core go out: its start is reached (R234)? -/
def State.startOk (s : State) (t : AgentStep) (w : Work) (c : Nat) : Bool :=
  decide (0 < w.cursor c) || !((s.stepOf t.context).any fun st => st.launchHeld w.x.index)

/-- Counters of what an agent has issued: each issue of a command, a command withdrawn by preemption and issued again
twice (DESIGN CHOICE, log 59). -/
def State.countIssue (s : State) (a : Nat) (t : AgentStep) (w : Work) (c : Nat) (retry : Bool) : State :=
  let first := decide (w.cursor c = 0) && !retry
  let s := s.modLaunch a t.partition t.slot w.x.index fun x =>
    { x with started := x.started + 1,
             cursors := if retry then x.cursors else Tbl.put (fun _ => 0) x.cursors c (w.cursor c + 1) }
  let s := s.incReg (frmReg Reg.frmCmdCnt a)
  if first then s.firstIssued t.context w.x.index (64 * a + c) w.cores.length else s

/-- Command k of a launch on core c, for the queue of engine e. -/
def State.engCmd (s : State) (a c e : Nat) (t : AgentStep) (w : Work) (k : Nat) : EngCmd :=
  let g := 64 * a + c
  let y := w.d.command (s.shareOf w.d w.cores g) (s.width g) k
  { engine := engineOf e, slot := t.slot, seq := t.seq, op := w.d.opWord, empty := y.empty,
    part := w.d.part w.x.index k y, packed := none,
    mx := if w.d.isMx && !y.empty then some (w.d.shape (s.width g) y) else none, rsv := none }

/-- The launch that shares the next pass of launch w on core c: its packing partner, standing at the same pass (R83). -/
def State.partner (s : State) (a c e : Nat) (t : AgentStep) (w : Work) : Option Work :=
  let g := 64 * a + c
  let k := w.cursor c
  if w.x.again.any fun r => r.1 == c then none
  else (w.x.packWith.bind fun m => t.work s m).filter fun v =>
    !w.x.noPack && !v.x.noPack && decide (v.cursor c = k) && decide (k < s.coreTotal v.d v.cores g) &&
      !(s.engCmd a c e t w k).empty && s.startOk t v c

/-- Two commands made one packed pass (R83): the second launch takes the rows from 64 on and the upper half of the
columns, and both are streamed for the greater depth. -/
def EngCmd.pack (y z : EngCmd) (width : Nat) : EngCmd :=
  let depth := max ((y.mx.map fun m => m.depth).getD 0) ((z.mx.map fun m => m.depth).getD 0)
  { y with packed := some z.part, packedOp := some z.op, mx := y.mx.map fun m => { m with depth },
           packedMx := z.mx.map fun m => { m with depth, row0 := 64, col0 := width / 2 } }

/-- One command of a launch offered to queue e of core c: a packed pass where both launches stand at the same pass
(R83), the unpacked re-issue of a faulted share (R84), or the next command. -/
def State.issueWork (s : State) (a c e : Nat) (t : AgentStep) (w : Work) : State :=
  let g := 64 * a + c
  let s := s.claim a c t w.x w.d
  let s := s.modCore a c fun x => x.latch t.slot t.seq
  match w.x.again.find? fun r => r.1 == c with
  | some r =>
    let s := s.modLaunch a t.partition t.slot w.x.index fun x => { x with again := x.again.erase r }
    (s.countIssue a t w c true).offer a c e { s.engCmd a c e t w r.2 with retry := true }
  | none =>
    let k := w.cursor c
    let y := s.engCmd a c e t w k
    match s.partner a c e t w with
    | some v =>
      let s := s.claim a c t v.x v.d
      let z := y.pack (s.engCmd a c e t v k) (s.width g)
      let mark (s : State) (l : Nat) : State := s.modLaunch a t.partition t.slot l fun x => { x with packed := true }
      let s := (s.countIssue a t w c false).modLaunch a t.partition t.slot v.x.index fun x =>
        { x with cursors := Tbl.put (fun _ => 0) x.cursors c (k + 1), started := x.started + 1 }
      let s := if k = 0 then s.firstIssued t.context v.x.index g v.cores.length else s
      ((mark (mark s w.x.index) v.x.index).incReg (frmReg Reg.frmPackCnt a)).offer a c e z
    | none => (s.countIssue a t w c false).offer a c e y

/-- Is there an eviction frame for a granule of context o on core c of an agent? -/
def State.canEvict (s : State) (a c o : Nat) : Bool := (s.evictPlace o ((64 * a + c) / 512)).isSome

/-- A command of a reserved entry offered, its eviction frame taken first; with no frame to be had the claim waits, and
that is one event (R209, R217). The flag answers whether a command was issued. -/
def State.issueRsv (s : State) (a c e : Nat) (t : AgentStep) (op : RsvOp) : State × Bool :=
  let put (s : State) : State × Bool := (s.offer a c e (rsvCmd e t.slot t.seq op), true)
  if 64 ≤ (s.core a c).occupied e then (s, false)
  else match op with
    | .evict gr o =>
      let g := 64 * a + c
      match s.evictPlace o (g / 512) with
      | some (v, u) =>
        let u := u.modCtx o fun x => { x with evicted := Tbl.insert x.evicted (evictKey g gr) v }
        put (u.modAgentStep a t.partition t.slot fun t => { t with noFrame := dropWhere (fun e => e.1 == c) t.noFrame })
      | none =>
        if t.noFrame.any fun e => e.1 == c then (s, false)
        else
          let s := s.modAgentStep a t.partition t.slot fun t => { t with noFrame := (c, o) :: t.noFrame }
          ((s.schInfo 0 t.context t.partition t.seq).raise { id := Flt.evictNoframe, inst := s.ctxInst t.context }, false)
    | _ => put s

/-- May the agent issue for a step at all (R58, R86, R210, R234, R308)? -/
def State.mayIssue (s : State) (t : AgentStep) : Bool :=
  t.checked && !t.stopping && !t.preempted && t.failed.isNone &&
    (s.stepOf t.context).any fun st => st.seq == t.seq && !st.copying && !st.held

/-- The set that the slot itself has parked on core c is unparked (R211). -/
def State.unpark (s : State) (a c slot : Nat) : State :=
  s.modCore a c fun x => { x with sets := x.sets.map fun y => if y.slot = slot then { y with parked := false } else y }

/-- What the next command of a launch on core c needs first, of its own and of the launch that shares its pass (R209,
R211). -/
def State.workNeed (s : State) (a c e : Nat) (t : AgentStep) (w : Work) : Need :=
  firstNeed (s.launchNeed a c t w.x w.d :: ((s.partner a c e t w).toList.map fun v => s.launchNeed a c t v.x v.d))

/-- Is the next command of a launch, or of the one that shares its pass, held for pages of an open cap (R259)? -/
def State.workGuard (s : State) (a c e : Nat) (t : AgentStep) (w : Work) : State × Bool :=
  (w :: (s.partner a c e t w).toList).foldl (fun (r : State × Bool) v =>
    if v.x.started = 0 then
      let q := r.1.capGuard t.context a v.x.index v.d
      (q.1, q.2 || r.2)
    else r) (s, false)

/-- A command for queue e of core c from the issuing slot's step: what must go first, else the next launch command
while the queue stands below HIGH (R80). The flag answers whether a command was issued. -/
def State.issueFor (s : State) (a c e : Nat) (t : AgentStep) : State × Bool :=
  let works := engines.filterMap fun e => s.nextWork a c e t
  let s := if works.isEmpty then s else s.unpark a c t.slot
  match s.resumeNeed a c t.context with
  | .put e' op => if e' = e && !works.isEmpty then s.issueRsv a c e t op else (s, false)
  | .wait => (s, false)
  | .none =>
    let needs := works.map fun w => s.workNeed a c w.d.engine t w
    match needs.find? (fun n => match n with
      | .put e' _ => e' == e
      | _ => false) with
    | some (.put _ op) => s.issueRsv a c e t op
    | _ => match s.nextWork a c e t with
      | none => (s, false)
      | some w =>
        if s.paceHigh a ≤ (s.core a c).occupied e ∨ s.workNeed a c e t w ≠ .none ∨ s.startOk t w c = false then (s, false)
        else
          let (s, held) := s.workGuard a c e t w
          if held then (s, false) else (s.issueWork a c e t w, true)

/-- A save of an accumulator set that a preemption left waiting for a free entry of core c's queue (R210, R422). -/
def State.saveDue (s : State) (a c e : Nat) : Option (AgentStep × Nat) :=
  if e ≠ 0 then none
  else (s.agent a).steps.findSome? fun t => (t.saves.find? fun x => x.1 == c).map fun x => (t, x.2)

/-- The save of set n of a step's slot offered to the MX queue of core c below 64 entries, else left waiting (R422). -/
def State.offerSave (s : State) (a c : Nat) (t : AgentStep) (n : Nat) : State :=
  if (s.core a c).occupied 0 < 64 then s.offer a c 0 (rsvCmd 0 t.slot t.seq (.saveSet n t.context))
  else s.modAgentStep a t.partition t.slot fun t => { t with saves := t.saves ++ [(c, n)] }

/-- What core c of an agent is given for queue e: a save that waits, else only the issuing slot issues, but that a draining
slot first ends the MX pass that it has begun on a core (R206). The flag answers whether a command was issued. -/
def State.issueOn (s : State) (a c e : Nat) : State × Bool :=
  let g := 64 * a + c
  if 64 ≤ c ∨ s.coreUp g = false ∨ s.coreFenced g = true ∨ 4 < e ∨ s.power.softDue ≠ none then (s, false)
  else match s.saveDue a c e, s.partOfQc (g / 16) with
    | some (t, n), _ =>
      if (s.core a c).occupied 0 < 64 then
        ((s.modAgentStep a t.partition t.slot fun t => { t with saves := t.saves.erase (c, n) }).offerSave a c t n, true)
      else (s, false)
    | none, none => (s, false)
    | none, some (p, part) =>
      let stepIn (k : Option Nat) : Option AgentStep := (k.bind fun k => (s.agent a).step p k).filter s.mayIssue
      let open_ := (part.draining.filterMap fun k => stepIn (some k.1)).find? fun t => e == 0 && s.midPass a c t
      match open_, stepIn part.issuing with
      | some t, _ => match s.nextWork a c e t with
        | some w => if s.paceHigh a ≤ (s.core a c).occupied e then (s, false) else (s.issueWork a c e t w, true)
        | none => (s, false)
      | none, some t => s.issueFor a c e t
      | none, none => (s, false)

/-- Does the agent hold a command that core c could take now, in some queue (R81)? -/
def State.coreWaits (s : State) (a c : Nat) : Bool := engines.any fun e => (s.issueOn a c e).2

/-- The partition of core c of an agent's cluster. -/
def State.corePart (s : State) (a c : Nat) : Nat := ((s.partOfQc ((64 * a + c) / 16)).map fun x => x.1).getD 0

/-- Is it core c's turn? The partitions that an agent serves take turns (R206), and within one its cores do (R81): no core
waits of a partition between the one served last and c's in round-robin order, nor one of c's own partition between the core
served last and c. -/
def State.turnOf (s : State) (a c : Nat) : Bool :=
  let y := s.agent a
  let ahead (n last k : Nat) : Nat := (k + n - (last + 1) % n) % n
  let waits := (List.range 64).filter fun d => decide (d ≠ c) && s.coreWaits a d
  let p := s.corePart a c
  waits.all fun d =>
    let q := s.corePart a d
    if q = p then decide (ahead 64 y.served c < ahead 64 y.served d)
    else decide (ahead 64 y.servedPart p < ahead 64 y.servedPart q)

/-- ENGINE_COMMAND_ISSUE: a command for queue e of core c, when it is the core's turn (R81). -/
def State.issue (s : State) (a c e : Nat) : State :=
  let r := s.issueOn a c e
  if !r.2 then r.1
  else if s.turnOf a c then r.1.modAgent a fun x => { x with served := c, servedPart := s.corePart a c }
  else s

/-! ## Withdrawal (R86, R210) -/

/-- The cursor of a launch on a core moved back to a withdrawn command. -/
def State.moveBack (s : State) (a p slot c : Nat) (x : CmdPart) : State :=
  s.modLaunch a p slot x.launch fun l =>
    let k := Tbl.get (fun _ => 0) l.cursors c
    { l with cursors := Tbl.put (fun _ => 0) l.cursors c (min k x.index), ended := false }

/-- The slot's unstarted commands taken out of the queues of core c, their entries free again; with `resume`, the
cursors go back to them. -/
def State.withdrawCore (s : State) (a p slot c : Nat) (resume : Bool) : State :=
  engines.foldl (fun s e =>
    let q := (s.core a c).queue e
    let out := q.filter fun x => x.slot == slot
    if out.isEmpty then s
    else
      let s := s.modCore a c fun x =>
        let x := (x.setQueue e (dropWhere (fun y => y.slot == slot) q)).setOcc e (x.occupied e - out.length)
        if q.head?.any fun y => y.slot == slot then x.newHead e else x
      let s := out.foldl (fun s y => match y.rsv with
        | some (.evict gr o) => s.evictFree o (evictKey (64 * a + c) gr)
        | _ => s) s
      if resume then
        (out.filter fun y => y.rsv.isNone).foldl (fun s y =>
          if y.retry then s.modLaunch a p slot y.part.launch fun l => { l with again := (c, y.part.index) :: l.again }
          else y.parts.foldl (fun s x => s.moveBack a p slot c x) s) s
      else s) s

/-- The record of one core of a context changed. -/
def State.modRec (s : State) (ctx g : Nat) (f : SaveRec → SaveRec) : State :=
  if (s.ctx ctx).st = .free then s
  else s.modCtx ctx fun x => { x with recs := Tbl.put (fun _ => {}) x.recs g (f (Tbl.get (fun _ => {}) x.recs g)) }

/-- Frame 0 of the save record of context ctx for global core g, up to its reserved end (R202). A queue of which no command
was withdrawn has cursor words of 0 (DESIGN CHOICE, log 49). -/
def State.saveWords (s : State) (ctx g : Nat) : List Word :=
  let k := s.ctx ctx
  let r : SaveRec := Tbl.get (fun _ => {}) k.recs g
  let pair (v : BitVec 48) : List Word := [Word.mk v.toNat, Word.mk (v.toNat / 2 ^ 32)]
  let each (t : Tbl (BitVec 48)) : List Word := (List.range 64).flatMap fun c => pair (Tbl.get (fun _ => 0) t c)
  let cursors := (List.range 8).flatMap fun e => match Tbl.find r.cursors e with
    | some x => [Word.mk (x.1 % 65536), Word.mk x.2, 0, 0]
    | none => [0, 0, 0, 0]
  let evicted (gr : Nat) : Word := match Tbl.find k.evicted (evictKey g gr) with
    | some v =>
      let f : Frame := { pool := v / 16 / 2 ^ 32, serial := v / 16 % 2 ^ 32 }
      Word.mk (2 ^ 31 + v % 16 * 2 ^ 27 + f.number)
    | none => 0
  let body := each r.counters ++ each r.base ++ cursors ++ List.replicate 720 0 ++
    (List.range 2048).map (Config.bankWord r.banks) ++ (List.range 3072).map evicted
  let flags := bitAt 3 r.acc1 + bitAt 2 r.acc0 + bitAt 1 r.passOpen + bitAt 0 r.stepHeld
  [Word.mk (2 ^ 28 + ctx), r.stepSeq, Word.mk flags, crc32 body] ++ List.replicate 12 0 ++ body

/-- A set that a save record holds, or holds no more. -/
def SaveRec.setAcc (r : SaveRec) (set : Nat) (on : Bool) : SaveRec :=
  if set = 0 then { r with acc0 := on, passOpen := on || r.acc1 } else { r with acc1 := on, passOpen := on || r.acc0 }

/-- PROGRESS and PARTIAL of a RUN_STEP (R312). -/
def State.runProgress (s : State) (c : Nat) : State :=
  match s.stepOf c with
  | none => s
  | some st => match st.op with
    | none => s
    | some o =>
      let ls := List.range st.launches
      let ended := (ls.filter st.launchEnded).length
      let bad := (ls.find? fun l => st.launchEnded l && st.launchStatus l != St.ok && st.launchStatus l != St.squashed).getD 0
      s.opProgress o (BitVec.ofNat 64 ended) (BitVec.ofNat 64 (st.seq.toNat * 2 ^ 32 + bad))

end Sys2Proof.Machine
end

