-- ==== Sys2Proof/Machine/MemberOps.lean ====
section
/-!
DEFINITION. What a step's end does to a member (R30, R40): the changes held until then, the pending bits, a failed step;
the making of a shared prefix (R185).
-/

namespace Sys2Proof.Machine

/-! ## Prefixes (R185) -/

/-- Prefix `id`, reserved with its log frames at acceptance, made from the first len positions of stream i: its tokens
copied, the stream's pages shared. -/
def State.makePrefix (s : State) (i len id : Nat) : State :=
  match Tbl.find s.pager.prefixes id with
  | none => s
  | some _ =>
    let toks := (s.mem i).tokens.filter fun e => decide (e.1 < len)
    let s := s.modPrefix id fun x => { x with tokens := toks, source := some (i, (s.entry i).gen.toNat) }
    (s.prefixPages i len).foldl (fun s lp => s.sharePage i id lp) (s.writePrefixLog id)

/-! ## A member at its step's end -/

def State.pendOf (s : State) (i : Nat) : List Deferred := Tbl.get (fun _ => []) s.comp.pend i

def State.defer (s : State) (i : Nat) (d : Deferred) : State :=
  { s with comp := { s.comp with pend := Tbl.put (fun _ => []) s.comp.pend i (s.pendOf i ++ [d]) } }

/-- The changes held for a stream applied in their order (R30), and forgotten. -/
def State.applyPend (s : State) (i : Nat) : State :=
  let l := s.pendOf i
  let s := { s with comp := { s.comp with pend := Tbl.erase s.comp.pend i } }
  l.foldl (fun s d => match d with
    | .set sel p => s.applySet i sel p
    | .mkPrefix len id => s.makePrefix i len id
    | .logLost _ => s) s

/-- A member whose step ended other than ST_OK (R40, R42): no position moves; FAILS counts to the eighth failure. -/
def State.memberFailed (s : State) (i : Nat) : State :=
  if (s.entry i).st ≠ .active then s
  else
    let lost := (s.pendOf i).findSome? Deferred.lost
    let s := (s.loseRound i).applyPend i
    let e := s.entry i
    let s := s.modEntry i fun e => { e with fails := if e.fails = 7 then 0 else e.fails + 1 }
    match lost with
    | some addr => s.retireLost i addr
    | none =>
      if e.retirePending then s.retire i 0x10
      else if e.fails = 7 then s.park i 0x0C
      else if e.parkPending then s.park i e.parkReason
      else if s.orphan then s.park i 0x09
      else s.enterReady i

/-- A held forecast discarded, to be taken again when one may be (R107, R131, R134). Moves already started complete. -/
def State.discardForecast (s : State) (p : Nat) : State :=
  match (s.serve p).forecast with
  | none => s
  | some fc =>
    let s := s.cancelMoves fun m => match m.owner with
      | .stream i _ => fc.any fun x => x.index == i
      | _ => false
    let nominees := dropWhere (fun n => n.partition == p) s.pager.nominees
    ({ s with pager := { s.pager with nominees } }).modServe p fun x =>
      { x with forecast := none, firstEvent := none, forecastDue := true }

end Sys2Proof.Machine
end

