-- ==== Sys2Proof/Machine/RegionOps.lean ====
section
/-!
DEFINITION. Replicated regions and poisoned frames (spec/07 R188–R190): which contexts depend on a region, the end of
held steps, the repair of mirrored frames and list blocks.
-/

namespace Sys2Proof.Machine

/-! ## Regions -/

/-- Does a region serve model m? -/
def Region.serves (x : Region) (m : Nat) : Bool :=
  match x.use with
  | .models ms => ms.contains m
  | _ => false

/-- The binding behind a serving context. -/
def State.ctxBinding (s : State) (c : Nat) : Option RoleBinding :=
  (s.ctx c).role.bind fun r => (s.serve (s.ctx c).partition).role r

/-- Does a held or lost region hold up the steps of context c (R189)? -/
def State.ctxHeld (s : State) (c : Nat) : Bool :=
  match s.ctxBinding c with
  | some b => s.pager.regions.any fun e => decide (e.2.st ≠ .live) && e.2.serves b.model
  | none => false

/-- Is one of the pages of n bytes at an offset of an arena being repaired, or lost? -/
def State.arenaHeld (s : State) (u : RegionUse) (at_ n : Nat) : Bool :=
  s.pager.regions.any fun e => decide (e.2.use = u) &&
    (e.2.repairs ++ e.2.bad).any fun p => decide (at_ / 65536 ≤ p) && decide (p ≤ (at_ + n - 1) / 65536)

def State.region (s : State) (k : Nat) : Option Region := Tbl.find s.pager.regions k
def State.modRegion (s : State) (k : Nat) (f : Region → Region) : State :=
  { s with pager := { s.pager with regions := Tbl.adjust f s.pager.regions k } }

/-- Tier and frame number of a page of a region, for its report (R191, R195). -/
def regionFrame (x : Region) (page : Nat) : Tier × Nat :=
  let a := x.base.toNat / 65536 + page
  let b := Config.broodBase.toNat
  let p := Config.superBase.toNat
  if b ≤ a ∧ (a < p ∨ p ≤ b) then (.brood, (a - b) % 2 ^ 27) else (.super, (a - p) % 2 ^ 27)

/-- Instances with a role bound to a model that a region serves (R194). -/
def State.regionInsts (s : State) (x : Region) : List Nat :=
  s.comp.parts.foldl (fun l e =>
    if [e.2.main, e.2.draft, e.2.fallback].any fun b => b.any fun b => x.serves b.model then
      insertAsc (s.partD e.1).inst l
    else l) []

/-- Words of a region's page or table written at an offset, and to the replica where it has one (R140, R188). -/
def State.writeRegion (s : State) (x : Region) (at_ : Nat) (ws : List Word) : State :=
  let s := s.emit (s.vcWrite none (x.base.toNat + at_) ws)
  if x.replica = 0 then s else s.emit (s.vcWrite none (x.replica.toNat + at_) ws)

/-- A page of a region copied from its replica back into its frame by the mover of the frame's die, and the frame read
back (R189, R192). -/
def State.repairPage (s : State) (x : Region) (page : Nat) : State :=
  let src := x.replica.toNat + page * 65536
  let dst := x.base.toNat + page * 65536
  s.emits [.repair (portDie (s.addrPort dst)) (s.vc1 none src) (s.vc1 none dst), s.vcRead none dst 65536]

/-- A region becomes LOST (R189). -/
def State.regionLost (s : State) (k page : Nat) : State :=
  match s.region k with
  | none => s
  | some x =>
    let s := s.modRegion k fun x => { x with st := .lost, bad := insertAsc page x.bad }
    let addr := x.base.toNat + page * 65536
    let s := s.pagFault Flt.regionLost addr 0 none St.dataPoisoned
    (s.regionInsts x).foldl (fun s i => s.errToInst i Flt.regionLost St.dataPoisoned) s

/-! ## The end of a composed step that was never dispatched -/

/-- A composed step of a role ended before its dispatch, with its members back in READY (R121, R189). -/
def State.endUndispatched (s : State) (p : Nat) (r : Role) : State :=
  let x := s.serve p
  let st := match r with
    | .main => x.batch
    | .draft => x.drStep
    | .fallback => x.fbStep
  match st, x.role r with
  | some y, some b =>
    if (s.ctx b.context).queued.any fun q => q.seq == y.seq then
      let s := s.modCtx b.context fun c => { c with queued := dropWhere (fun q => q.seq == y.seq) c.queued }
      let s := y.members.foldl (fun s m => s.memberFailed m.index) s
      s.modServe p fun x => match r with
        | .main => { x with batch := none, forecastDue := x.forecastDue || decide (x.forecast = none) }
        | .draft => { x with drStep := none }
        | .fallback => { x with fbStep := none, forecastDue := x.forecastDue || decide (x.forecast = none) }
    else s
  | _, _ => s

/-! ## Poisoned frames (R190) -/

/-- The context whose dispatched step has a sequence number. -/
def State.ctxOfSeq (s : State) (seq : Word) : Option Nat :=
  (s.sched.ctxs.find? fun e => e.2.dispatched.any fun st => st.seq == seq).map fun e => e.1

/-- The running step of an ACTIVE stream ends with ST_DATA_POISONED (R86). -/
def State.poisonStep (s : State) (i : Nat) : State :=
  let e := s.entry i
  if e.st ≠ .active then s
  else match s.ctxOfSeq e.lastStepSeq with
    | some c => (s.modStep c fun st => { st with forced := some St.dataPoisoned }).stopStep c
    | none => s

/-- A context page of stream i returns poison: a private one is marked and its frame reported, a shared one is marked in
the shared-frame table and reported with its last reference. -/
def State.poisonPage (s : State) (i lp : Nat) (hard : Bool) : State :=
  let p := (s.mem i).page lp
  let inst := (s.mem i).inst
  match p.frame with
  | none => s
  | some f =>
    let s := if p.shared then
        { s with pager := { s.pager with
          shared := Tbl.adjust (fun x => { x with poison := true }) s.pager.shared p.shareId } }
      else if p.poison then s
      else (s.setPage i lp { p with poison := true }).report Flt.ctxPoison hard p.tier f.number
    (s.pagFault Flt.ctxPoison (s.frameAddr f) (s.handle i) (some inst) St.dataPoisoned).poisonStep i

/-- Both copies of a log frame or list block lost, of which `addr` names the last: forecast members that need it are late
(R184), and the stream retires, at its step's end while it is ACTIVE. -/
def State.loseBoth (s : State) (i addr : Nat) : State :=
  let ps := (s.pager.nominees.filter fun n => n.index == i).map fun n => n.partition
  let s := ps.foldl (fun s p => s.reportLate p i) s
  let e := s.entry i
  if e.st = .active then s.defer i (.logLost addr)
  else if e.live then s.retireLost i addr
  else s

/-- Both copies of a prefix's log frame lost: it is given up as by PREFIX_FREE (DESIGN CHOICE, log 54). -/
def State.losePrefix (s : State) (id : Nat) (x : Prefix) (addr : Nat) : State :=
  let s := s.pagFault Flt.logLost addr 0 (some x.inst) 0
  if x.freed then s else s.freePrefix id x

/-- One copy of log frame j of stream i lost: the other serves, the old frame is reported and withheld, and a fresh copy is
written to a new frame. -/
def State.repairLog (s : State) (i j : Nat) (hard : Bool) : State :=
  match Tbl.find (s.mem i).log j with
  | none => s
  | some p =>
    if p.single then s.loseBoth i (s.frameAddr p.mirror)
    else
      let s := s.modMem i fun m => { m with log := Tbl.insert m.log j { p with primary := p.mirror } }
      let s := (s.report Flt.mirrorRepair hard .super p.primary.number).withhold p.primary
      let s := s.pagFault Flt.mirrorRepair (s.frameAddr p.primary) (s.handle i) (some (s.mem i).inst) 0
      s.owe (i, 0, j)

/-- The same of log frame j of prefix id. -/
def State.repairPrefixLog (s : State) (id j : Nat) (hard : Bool) : State :=
  match Tbl.find s.pager.prefixes id with
  | none => s
  | some x => match Tbl.find x.log j with
    | none => s
    | some p =>
      if p.single then s.losePrefix id x (s.frameAddr p.mirror)
      else
        let put (x : Prefix) : Prefix := { x with log := Tbl.insert x.log j { p with primary := p.mirror } }
        let s := { s with pager := { s.pager with prefixes := Tbl.adjust put s.pager.prefixes id } }
        let s := (s.report Flt.mirrorRepair hard .super p.primary.number).withhold p.primary
        let s := s.pagFault Flt.mirrorRepair (s.frameAddr p.primary) 0 (some x.inst) 0
        s.owe (id, 2, j)

/-- The first copy of a list block lost: the other serves, the old frame is reported and leaves its pool with its last
carving in use, and a fresh copy is written to a carving of a new frame. -/
def State.repairList (s : State) (i which : Nat) (hard : Bool) : State :=
  match (s.mem i).block which with
  | none => s
  | some b =>
    if b.single then s.loseBoth i (s.frameAddr b.second)
    else
      let s := (s.closeCarved b.first).report Flt.mirrorRepair hard .brood b.first.number
      let s := s.uncarve b.first b.carve1 (if which = 1 then 2 else 1)
      let s := s.keepBlock i which { b with first := b.second, carve1 := b.carve2 }
      let s := s.pagFault Flt.mirrorRepair (s.frameAddr b.first) (s.handle i) (some (s.mem i).inst) 0
      (s.owe (i, 3, which)).owe (i, 1, which)

/-- Every frame owned by a handle freed from the frame table (R190); a token log that a TOKEN_LOG_READ still reads is kept
until the operation ends (R46). -/
def State.sweepKey (s : State) (i gen : Nat) : State :=
  let k := logKey i gen
  let m := s.mem k
  let s := m.pages.foldl (fun s e =>
    let p := e.2
    if p.shared then s.dropShared p.shareId
    else match p.frame with
      | none => s
      | some f =>
        let s := if p.tier = .super then s.refundSuper m.inst 16 else s.refundBrood m.inst 16
        if p.moving && !p.poison then s else s.releaseFrame f p.poison) s
  let s := m.leaves.foldl (fun s b => (s.freeBlock b.2 1).refundBrood m.inst 2) s
  let s := match m.root with
    | some b => (s.freeBlock b 1).refundBrood m.inst 2
    | none => s
  if s.logRead i gen then s.setMem k { m with root := none, leaves := [], pages := [] } else s.dropLog k

end Sys2Proof.Machine
end

