-- ==== Sys2Proof/Machine/SliceOps.lean ====
section
/-!
DEFINITION. Conditions of contexts, time slices, the boundary test, the choice of victims and of contexts to load
(spec/08 R204–R212).
-/

namespace Sys2Proof.Machine

/-! ## Conditions (R204) -/

/-- Cores of a partition, as agent and core of the cluster. -/
def Partition.places (p : Partition) : List (Nat × Nat) := p.cores.map fun g => (g / 64, g % 64)

/-- Is queue e of the slot stalled on a local counter on this core: its head's wait fails on a counter that a command of
another queue of the slot signals (R99)? -/
def CoreState.localStall (x : CoreState) (e slot : Nat) : Bool :=
  match (x.queue e).head? with
  | some y => decide (y.slot = slot) && y.parts.any fun p => match p.wait with
      | some w => !x.waitOk slot p.wait && engines.any fun f =>
          f != e && (x.queue f ++ x.exec f).any fun z => z.slot == slot && z.parts.any fun q =>
            q.signal.any fun g => g.ctr == w.ctr
      | none => false
  | none => false

/-- Is a core of an agent's step held because a claim or a restore there still finds no eviction frame (R209)? -/
def State.frameless (s : State) (a : Nat) (t : AgentStep) (c : Nat) : Bool :=
  t.noFrame.any fun e => e.1 == c && !s.canEvict a c e.2

/-- Is the next command for queue e of core c held by one of the conditions below RUNNABLE: behind a head stalled on a
local counter, without an eviction frame, for pages of an open cap, before its start (R204)? -/
def State.workHeld (s : State) (a c e : Nat) (t : AgentStep) (w : Work) : Bool :=
  (s.core a c).localStall e t.slot || s.frameless a t c || !s.startOk t w c ||
    (s.capCtx t.context).any fun k => k.launchHolds.any fun h => h.agent == a && h.launch == w.x.index

/-- Has an agent commands of a dispatched step left to issue, the next of them not held (R204)? One that has not taken its
record, or not expanded the next launch, has. -/
def State.agentRuns (s : State) (a : Nat) (t : Option AgentStep) : Bool :=
  match t with
  | none => true
  | some t =>
    let works := (t.ownCores a).flatMap fun c => engines.filterMap fun e => (s.nextWork a c e t).map fun w => (c, e, w)
    !t.stopping && t.failed.isNone &&
      (!t.checked || if works.isEmpty then decide (t.nextLaunch < t.count)
        else works.any fun w => !s.workHeld a w.1 w.2.1 t w.2.2)

/-- The steps of a context as its agents hold them. -/
def State.agentSteps (s : State) (c : Nat) : List (Nat × Option AgentStep) :=
  match s.stepOf c with
  | none => []
  | some st => st.awaiting.map fun a => (a, (s.agent a).steps.find? fun t => t.context == c)

/-- Are the dependences of a step met (R205, R308)? One on a context destroyed since is (DESIGN CHOICE, log 29). -/
def State.depsMet (s : State) (st : Step) : Bool :=
  st.deps.all fun d => decide ((s.ctx d.1).st = .free) || decide (((s.ctx d.1).endedNo - d.2).toNat < 2 ^ 31)

/-- The condition of resident context c, the first that holds in the order of R204. A step ready and not yet dispatched
leaves the context in none of them (log 19). -/
def State.condOf (s : State) (c : Nat) : Cond :=
  let x := s.ctx c
  match x.dispatched with
  | none =>
    if (s.capCtx c).any (fun k => k.lossHold) then .hold
    else if x.queued.head?.any s.depsMet then .drained
    else .idle
  | some st =>
    let ts := s.agentSteps c
    let waiting (p : Nat → AgentStep → Bool) : Bool := ts.any fun t => t.2.any (p t.1)
    let outside := st.copying || st.held || s.ctxHeld c
    let stall := (s.partD x.partition).places.any fun q => engines.any fun e => (s.core q.1 q.2).localStall e x.slot
    let page := s.ctxHeld c || (s.capCtx c).any (fun k => !k.launchHolds.isEmpty) ||
      waiting fun a t => t.noFrame.any fun e => s.frameless a t e.1
    let swarm := waiting fun _ t => t.launches.any fun l => l.expanding && !l.ended && st.launchHeld l.index
    if !outside && ts.any (fun t => s.agentRuns t.1 t.2) then .runnable
    else if stall then .local
    else if page then .page
    else if st.copying then .host
    else if swarm then .swarm
    else if st.held then .hold
    else .drained

/-- The resident contexts of a partition, with their slots. -/
def Partition.resident (p : Partition) : List (Nat × Nat) :=
  (p.slots.filter fun e => e.2.1 == .resident).map fun e => (e.1, e.2.2)

/-- The conditions of a partition's resident contexts brought up to date; blocked time starts with a new one. -/
def State.syncConds (s : State) (p : Nat) : State :=
  (s.partD p).resident.foldl (fun s e =>
    let now := s.condOf e.2
    s.modCtx e.2 fun x => if x.cond = now then x else { x with cond := now, condSince := s.ns }) s

/-! ## Slices (R206) -/

/-- The slot that issues next: a RUNNABLE context of the highest band, in round-robin order after the slot that issued
last. -/
def State.nextSlot (s : State) (p : Nat) : Option Nat :=
  let part := s.partD p
  let run := (part.resident.filter fun e => (s.ctx e.2).cond == .runnable).map fun e => (e.1, (s.ctx e.2).band)
  let top := run.foldl (fun b e => max b e.2) 0
  [1, 2, 3, 4].findSome? fun i =>
    let k := (part.lastSlot + i) % 4
    if run.any fun e => e.1 == k && e.2 == top then some k else none

/-- Has a slot commands in a queue of the partition, or a pass begun and not issued to its end? -/
def State.slotQueued (s : State) (p slot : Nat) : Bool :=
  (s.partD p).places.any fun q =>
    (engines.any fun e => ((s.core q.1 q.2).queue e).any fun y => y.slot == slot) ||
      ((s.agent q.1).step p slot).any fun t => s.midPass q.1 q.2 t

/-- A carried step goes on: what has passed since its S counts as lateness (R233). -/
def State.carriedOn (s : State) (c : Nat) : State :=
  match s.stepOf c with
  | none => s
  | some st => match st.resumes, st.origin with
    | some t, .cyclic k i => (s.modStep c fun st => { st with resumes := none }).slotLate k i (s.ns - t)
    | _, _ => s

/-- A slot begins a slice: PRIO and SLICE_US set since apply now (R199), and a preempted slot issues again. -/
def State.beginSlice (s : State) (p slot : Nat) : State :=
  let part := s.partD p
  let c := (part.slot slot).2
  let s := s.modCtx c fun x => match x.nextSet with
    | some (prio, us) => { x with prio, sliceUs := us, nextSet := none }
    | none => x
  let s := s.carriedOn c
  let old := part.issuing.filter fun k => k != slot && s.slotQueued p k
  let s := part.agents.foldl (fun s a => s.modAgentStep a p slot fun t => { t with preempted := false }) s
  let stop := s.ns + (s.ctx c).sliceUs * 1000
  let still := Tbl.erase (part.draining.filter fun e => s.slotQueued p e.1) slot
  let drain := match old with
    | some k => Tbl.insert still k s.cc
    | none => still
  s.modPart p fun q =>
    { q with issuing := some slot, lastSlot := slot, sliceEnd := stop, waiting := none,
             draining := drain }

/-- The slice of a partition ends and no context is RUNNABLE: no slot issues, and what is queued drains. -/
def State.endSlice (s : State) (p : Nat) : State :=
  let part := s.partD p
  let still := part.draining.filter fun e => s.slotQueued p e.1
  let draining := match part.issuing.filter fun k => s.slotQueued p k with
    | some k => Tbl.insert still k s.cc
    | none => still
  s.modPart p fun q => { q with issuing := none, waiting := none, draining }

/-- The next issuing slot chosen, none where no context is RUNNABLE. -/
def State.chooseIssue (s : State) (p : Nat) : State :=
  let s := s.syncConds p
  match s.nextSlot p with
  | some k => s.beginSlice p k
  | none => s.endSlice p

/-! ## The boundary test and preemption (R210, R212) -/

/-- SCH_CTRL.PREEMPT_GAP, 0 taken as 1. -/
def State.preemptGap (s : State) : Nat := max 1 (s.regField Reg.schCtrl 6 4)

/-- The sets that a preemption of a slot has to dispose of on a core: its live ones, but those whose last command runs
(R210). -/
def CoreState.liveSets (x : CoreState) (slot : Nat) : List AccSet :=
  let closing := ((x.exec 0).filter fun y => y.slot == slot && y.mx.any fun m => m.last).length
  ((x.setsOf slot).filter fun a => !a.parked).drop closing

/-- Those that go into the record rather than be parked: none where the one set can be parked in place (R210). -/
def CoreState.toSave (x : CoreState) (slot : Nat) (stallOnly : Bool) : List AccSet :=
  if stallOnly && x.parkedSet.isNone then [] else x.liveSets slot

/-- The footprint of the next launch of a context's step, as an agent has it. -/
def State.nextFootprint (s : State) (c : Nat) : List Nat :=
  ((s.agentSteps c).findSome? fun e => e.2.bind fun t =>
    let l := ((t.launches.find? fun x => x.expanding && !x.ended).map fun x => x.index).getD t.nextLaunch
    (t.desc l).map fun d => d.footprint).getD []

/-- t_ev of R212. -/
def State.evictTime (s : State) (p c next : Nat) : Nat :=
  let x := s.ctx c
  let stallOnly := (s.stepOf c).any fun st => st.stallOnly
  let fp := s.nextFootprint next
  let places := (s.partD p).places
  let ov := places.foldl (fun n q =>
    let k := s.core q.1 q.2
    max n (fp.filter fun g => (k.granule g).written && decide ((k.granule g).owner = some c)).length) 0
  let saves := places.foldl (fun n q => max n ((s.core q.1 q.2).toSave x.slot stallOnly).length) 0
  let rate := max 1 (s.regField Reg.schEvictBpns 7 0)
  s.regField Reg.schParkNs 19 0 + 54 * saves + (ov * 4096 + rate - 1) / rate

/-- Does the boundary test preempt context c for context `next`? A step triggered by time needs no test. -/
def State.preempts (s : State) (p c next : Nat) : Bool :=
  (s.reg Reg.schCtrl).bit 1 &&
    (decide ((s.ctx next).band = 8) || match s.stepOf c with
      | some st => decide (st.estNs = 0) || decide (s.evictTime p c next < st.estNs - (s.ns - st.dispatchedAt))
      | none => false)

/-- A preemption of a slot sent to every agent of the partition; the slot that takes over once all have stopped it. -/
def State.preempt (s : State) (p slot : Nat) (takeover : Option Nat) : State :=
  let agents := (s.partD p).agents
  let s := s.modPart p fun q =>
    { q with stopping := agents, stopSlot := slot, takeover, preempts := q.preempts + 1, waiting := none }
  agents.foldl (fun s a => s.emit (.preempt a p slot)) s

/-- The arriving slot of a boundary test: a RUNNABLE context whose band exceeds the issuing one's by the gap, the highest
band and then the lower slot first. -/
def State.arrival (s : State) (p slot : Nat) : Option (Nat × Nat) :=
  let part := s.partD p
  let band := (s.ctx (part.slot slot).2).band
  let l := part.resident.filter fun e =>
    e.1 != slot && (s.ctx e.2).cond == .runnable && decide (band + s.preemptGap ≤ (s.ctx e.2).band)
  l.foldl (fun b e => match b with
    | some y => if (s.ctx y.2).band < (s.ctx e.2).band then some e else b
    | none => some e) none

/-! ## Swaps (R207, R208) -/

/-- Is a step of a context ready, one queued or one dispatched that nothing outside holds? -/
def State.stepReady (s : State) (c : Nat) : Bool :=
  let x := s.ctx c
  match x.dispatched, x.queued.head? with
  | some st, _ => !st.copying && (!st.held || st.called) && !st.stopSent
  | none, some st => s.depsMet st
  | none, none => false

/-- Band of a waiting context: that of a cyclic slot's or timed step counts as 8 (R230). -/
def State.waitBand (s : State) (c : Nat) : Nat :=
  let x := s.ctx c
  let timed := x.dispatched.isNone && x.queued.head?.any fun st => match st.origin with
    | .cyclic _ _ => true
    | _ => false
  if timed || x.dispatched.any (fun st => st.called) then 8 else x.band

/-- Granules that a context owns in a partition's scratchpads. -/
def State.granulesOwned (s : State) (p c : Nat) : Nat :=
  (s.partD p).places.foldl (fun n q =>
    n + Tbl.count (fun _ g => decide (g.owner = some c)) (s.core q.1 q.2).granules) 0

/-- Does waiting context c go before d (R208)? -/
def State.loadsBefore (s : State) (p c d : Nat) : Bool :=
  let key (n : Nat) : Nat × Nat × Nat := (s.waitBand n, s.granulesOwned p n, s.ns - (s.ctx n).readySince)
  let a := key c
  let b := key d
  if a.1 ≠ b.1 then decide (b.1 < a.1)
  else if a.2.1 ≠ b.2.1 then decide (b.2.1 < a.2.1)
  else if a.2.2 ≠ b.2.2 then decide (b.2.2 < a.2.2)
  else decide (c < d)

/-- The context of a partition to load next: SWAPPED with a step ready. -/
def State.waiter (s : State) (p : Nat) : Option Nat :=
  let l := (s.sched.ctxs.filter fun e => e.2.st == .swapped && e.2.partition == p && !e.2.destroying &&
    s.stepReady e.1).map fun e => e.1
  l.foldl (fun b c => match b with
    | some d => if s.loadsBefore p c d then some c else b
    | none => some c) none

/-- Does resident context c make a better victim than d (both blocked, or both RUNNABLE)? -/
def State.worse (s : State) (c d : Nat) : Bool :=
  let x := s.ctx c
  let y := s.ctx d
  if x.prio ≠ y.prio then decide (x.prio < y.prio)
  else if x.condSince ≠ y.condSince then decide (x.condSince < y.condSince)
  else decide (x.slot < y.slot)

/-- The victim for a waiting context (R207). A wholly issued step counts as RUNNABLE. -/
def State.swapVictim (s : State) (p next : Nat) : Option Nat :=
  let rs := (s.partD p).resident.map fun e => e.2
  let of (f : Cond → Bool) : List Nat := rs.filter fun c => f (s.ctx c).cond
  match (of (fun k => k == .idle)).head? with
  | some c => some c
  | none =>
    let blocked := of fun k => k == .page || k == .host || k == .swarm || k == .hold
    match blocked.foldl (fun b c => match b with
      | some d => if s.worse c d then some c else b
      | none => some c) none with
    | some c => some c
    | none =>
      let run := (of fun k => k == .runnable || k == .drained).filter fun c =>
        decide ((s.ctx c).band + s.preemptGap ≤ s.waitBand next)
      run.foldl (fun b c => match b with
        | some d =>
          if (s.ctx c).band < (s.ctx d).band ∨ ((s.ctx c).band = (s.ctx d).band ∧ s.worse c d = true) then some c else b
        | none => some c) none

end Sys2Proof.Machine
end

