-- ==== Sys2Proof/Machine/CycOps.lean ====
section
/-!
DEFINITION. Cyclic tables (spec/09 R227–R233): boundaries and starts, what a step of a slot leaves at its end, the
stopping of a table.
-/

namespace Sys2Proof.Machine

/-! ## Access -/

def State.table (s : State) (k : Nat) : CycTable := Tbl.get (fun _ => {}) s.cyc k

def State.setTable (s : State) (k : Nat) (t : CycTable) : State := { s with cyc := Tbl.put (fun _ => {}) s.cyc k t }

def State.modTable (s : State) (k : Nat) (f : CycTable → CycTable) : State := s.setTable k (f (s.table k))

def CycTable.run (t : CycTable) (i : Nat) : SlotRun := Tbl.get (fun _ => {}) t.runs i

def CycTable.modRun (t : CycTable) (i : Nat) (f : SlotRun → SlotRun) : CycTable :=
  { t with runs := Tbl.put (fun _ => {}) t.runs i (f (t.run i)) }

def State.modRun (s : State) (k i : Nat) (f : SlotRun → SlotRun) : State := s.modTable k fun t => t.modRun i f

/-- ARMED, RUNNING or STOPPING. -/
def CycTable.busy (t : CycTable) : Bool :=
  match t.st with
  | .armed | .running | .stopping => true
  | .empty | .loaded => false

/-- Enabled slots of an image by number. -/
def CycImage.enabled (x : CycImage) : List (Nat × CycSlot) :=
  ((List.range x.slots.length).filterMap fun i => x.slots[i]?.map fun y => (i, y)).filter fun e => e.2.en

/-- Is a context named by an enabled slot of a busy table (R229)? -/
def State.cycBusy (s : State) (c : Nat) : Bool :=
  s.cyc.any fun e => e.2.busy && e.2.image.enabled.any fun y => y.2.context == c

/-- TB_LEAD_NS, values below 10 000 taken as 10 000 (R239). -/
def State.leadNs (s : State) : Nat := max 10000 (s.regField Reg.tbLeadNs 23 0)

/-- The first boundary of an image at or after t (R227). -/
def CycImage.boundaryFrom (x : CycImage) (t : Nat) : Nat :=
  let n := max 1 x.cycleNs
  x.phaseNs + ((t - x.phaseNs) + (n - 1)) / n * n

/-- The boundary that ends the present cycle. -/
def CycTable.next (t : CycTable) : Nat := t.image.boundaryFrom (t.cycleAt + 1)

/-- The next occurrence of a slot that has not begun: its image, its S (R230, R232), none where no cycle is to begin. -/
def CycTable.pendingS (t : CycTable) (i : Nat) : Option (CycSlot × Nat) :=
  let r := t.run i
  let of (x : CycImage) (base : Nat) : Option (CycSlot × Nat) :=
    (x.slots[i]?.filter fun y => y.en).map fun y => (y, base + y.offset)
  match t.st with
  | .armed => of t.image t.start
  | .running =>
    if r.begun || !t.image.enabled.any (fun e => e.1 == i) then of (t.shadow.getD t.image) t.next
    else of t.image (t.cycleAt + r.slip)
  | .stopping => if r.begun then none else of t.image (t.cycleAt + r.slip)
  | .empty | .loaded => none

/-! ## Events -/

/-- CYC_FLT_INFO and an event of a slot (R238, R240). -/
def State.cycFault (s : State) (id k i : Nat) (status : Byte) : State :=
  (s.setReg Reg.cycFltInfo (Word.mk (status.toNat * 2 ^ 24 + k * 1024 + i))).raise
    { id, unit := k, inst := some (s.table k).inst, status }

/-- A slot's occurrence starts nothing (R230, R232). -/
def State.cycSkip (s : State) (k i : Nat) : State :=
  (s.modTable k fun t => { t with skips := t.skips + 1 }).cycFault Flt.slotSkip k i 0

/-- PROGRESS and PARTIAL of CYC_START (R229). -/
def State.cycProgress (s : State) (k : Nat) : State :=
  let t := s.table k
  match t.op with
  | some o => s.opProgress o (BitVec.ofNat 64 t.cycles.toNat) (BitVec.ofNat 64 t.overruns.toNat)
  | none => s

/-! ## Steps of slots -/

/-- A step of a slot not yet dispatched taken out of its context's queue. -/
def State.dropQueued (s : State) (c : Nat) (seq : Word) : State :=
  s.modCtx c fun x => { x with queued := dropWhere (fun q => q.seq == seq) x.queued }

/-- A step of a slot changed, queued or dispatched. -/
def State.modSlotStep (s : State) (c : Nat) (seq : Word) (f : Step → Step) : State :=
  s.modCtx c fun x => { x with
    queued := x.queued.map fun q => if q.seq = seq then f q else q,
    dispatched := x.dispatched.map fun q => if q.seq = seq then f q else q }

/-- Steps of table k: those queued are dropped, those dispatched are stopped as under R86. -/
def State.stopSlotSteps (s : State) (k : Nat) : State :=
  let mine (q : Step) : Bool := match q.origin with
    | .cyclic t _ => t == k
    | _ => false
  (s.sched.ctxs.map fun e => e.1).foldl (fun s c =>
    let s := s.modCtx c fun x => { x with queued := dropWhere mine x.queued }
    if (s.stepOf c).any mine then s.stopStep c else s) s

/-- A table back in LOADED (R229). -/
def State.tableLoaded (s : State) (k : Nat) (status : Byte) : State :=
  let t := s.table k
  let s := s.setTable k { t with st := .loaded, shadow := none, op := none,
                                 runs := t.runs.map fun e =>
                                   (e.1, { e.2 with led := false, ledSeq := none, begun := false, slip := 0,
                                                    slipped := e.2.slipped || decide (e.2.slip ≠ 0) }) }
  let s := match t.op with
    | some o => s.opEnd o status
    | none => s
  s.finishWaiting (.cycStop k) St.ok

/-- A slot's step started and not ended, a carried one apart. -/
def SlotRun.open (r : SlotRun) : Bool := r.seq.isSome && !r.done && !r.carried

/-- Is a step with a sequence number dispatched? -/
def State.seqDispatched (s : State) (n : Word) : Bool :=
  s.sched.ctxs.any fun e => e.2.dispatched.any fun st => st.seq == n

/-- Will the steps of table k that are queued be dispatched? Not in ORPHAN (R345), nor while its instance is reset or frozen
(R324, R328). -/
def State.slotsDispatch (s : State) (k : Nat) : Bool := !s.orphan && s.active (s.table k).inst

/-- Has a slot of table k a step that is to end by itself? -/
def State.slotsOpen (s : State) (k : Nat) : Bool :=
  (s.table k).runs.any fun e => e.2.open && (s.slotsDispatch k || e.2.seq.any fun n => s.seqDispatched n)

/-- A STOPPING table whose cycle is over and whose slot steps have ended becomes LOADED; a carried step is stopped. -/
def State.tryStop (s : State) (k : Nat) : State :=
  let t := s.table k
  if t.st = .stopping ∧ t.next ≤ s.ns ∧ s.slotsOpen k = false then
    ((s.modTable k fun t => { t with cycles := t.cycles + 1 }).cycProgress k |>.stopSlotSteps k).tableLoaded k St.ok
  else s

/-- A table stopped as by CYC_STOP (R229), or by ORPHAN and by an instance reset in its way (R324, R345). -/
def State.stopTable (s : State) (k : Nat) (now : Bool) : State :=
  match (s.table k).st with
  | .armed => (s.stopSlotSteps k).tableLoaded k St.ok
  | .running => if now then (s.stopSlotSteps k).tableLoaded k St.ok else s.modTable k fun t => { t with st := .stopping }
  | .stopping => if now then (s.stopSlotSteps k).tableLoaded k St.ok else s
  | .empty | .loaded => s

/-- The end of a slot's step at time E (R231, R232): LAST_STATUS, the guard band, and the slip of later slots. -/
def State.slotEnded (s : State) (k i : Nat) (seq : Word) (status : Byte) : State :=
  let t := s.table k
  let r := t.run i
  if r.seq ≠ some seq then s
  else
    let e := s.ns
    let y := t.image.slots[i]?
    let len := (y.map fun y => y.length).getD 0
    let guarded := decide (r.startS + len < e) && decide (e ≤ r.deadline)
    let slip := r.overran && !r.carried && y.any (fun y => y.policy == .slip) && decide (t.st ≠ .loaded)
    let by_ := e - r.deadline
    let s := s.modRun k i fun r => { r with lastStatus := status, guardUsed := guarded, carried := false, done := true,
                                            lastEnd := Word.mk (min (e - r.startS) 0xFFFFFFFF) }
    let s := if guarded then s.cycFault Flt.slotGuard k i 0 else s
    let later := if slip && decide (t.cycleAt ≤ r.startS) then
        (t.image.enabled.filter fun q => decide (i < q.1) && !(t.run q.1).begun)
      else []
    let s := later.foldl (fun (s : State) (q : Nat × CycSlot) =>
      let s := match (t.run q.1).ledSeq with
        | some n => s.modSlotStep q.2.context n fun st => { st with startTime := st.startTime + by_ }
        | none => s
      s.modRun k q.1 fun r => { r with slip := r.slip + by_ }) s
    s.tryStop k

end Sys2Proof.Machine
end

