-- ==== Sys2Proof/Machine/ContextOps.lean ====
section
/-!
DEFINITION. Making and freeing contexts, changes of a partition's membership, the free pools of quarter-clusters
(spec/08 R196–R203), the division of an instance's bandwidth (R215, R321), the unbinding of a cap (spec/11 R256).
-/

namespace Sys2Proof.Machine

/-! ## Quarter-clusters -/

/-- Does a quarter-cluster hold a fenced core (R198, R372)? -/
def State.qcFenced (s : State) (q : Nat) : Bool :=
  s.fences.clusters.contains (q / 4) || s.fences.cores.any fun g => g / 16 == q

/-- Is a quarter-cluster in a partition, as a member or a spare? -/
def State.qcHeld (s : State) (q : Nat) : Bool :=
  s.sched.parts.any fun e => e.2.qcs.contains q || e.2.spares.contains q

/-- Has a FW_CORE_UPDATE taken the quarter-cluster out of its partition (R340)? -/
def State.qcDrained (s : State) (q : Nat) : Bool := s.fw.update.any fun u => u.drained.any fun e => e.1 == q

/-- Is a quarter-cluster in the free pool of instance i (R196, R198, R319)? -/
def State.qcFree (s : State) (i q : Nat) : Bool :=
  s.instQc i q && s.qcUp q && !s.qcHeld q && !s.qcFenced q && !s.qcDrained q

/-- Bypassed strips of a quarter-cluster, summed over its cores (R197). -/
def State.qcBypass (s : State) (q : Nat) : Nat := (qcCores q).foldl (fun n g => n + s.bypass g) 0

/-- The count form's order of a free pool (R197). -/
def State.qcBefore (s : State) (die : Nat) (wide : Bool) (a b : Nat) : Bool :=
  let on (q : Nat) : Bool := qcDie q == die
  if on a ≠ on b then on a
  else if s.qcBypass a ≠ s.qcBypass b then
    if wide then decide (s.qcBypass a < s.qcBypass b) else decide (s.qcBypass b < s.qcBypass a)
  else decide (a < b)

def insertBy (less : Nat → Nat → Bool) (x : Nat) : List Nat → List Nat
  | [] => [x]
  | y :: t => if less x y then x :: y :: t else y :: insertBy less x t

/-- The free pool of instance i in the count form's order. -/
def State.poolOrder (s : State) (i die : Nat) (wide : Bool) : List Nat :=
  ((List.range 128).filter (s.qcFree i)).foldl (fun l q => insertBy (s.qcBefore die wide) q l) []

/-! ## Regulators (R215, R321) -/


/-- Fence-bus class of a regulator class's ports (R375): 1 brood, 2 super, 3 link. -/
def busClass (cls : Nat) : Nat := cls + 1

/-- Payload of a REG message that carries a regulator's setting (R375). -/
def regPayload (p rate depth : Nat) : Dword := BitVec.ofNat 64 (p * 2 ^ 32 + depth * 2 ^ 16 + rate)

/-- A class of a partition set: each port is sent its share of the rate, at least 1 where the class is regulated, and
the depth. -/
def State.setBwr (s : State) (p cls rate burst : Nat) : State :=
  let x : BwrSet := { rate, burst }
  let s := s.modPart p fun q => match cls with
    | 0 => { q with brood := x }
    | 1 => { q with super := x }
    | _ => { q with link := x }
  let n := (classPorts cls).2
  let share := if rate = 0 then 0 else max 1 (rate / n)
  (List.range n).foldl (fun s i => s.busSend (busClass cls) i { kind := .reg, payload := regPayload p share burst }) s

/-- BW figures of an instance by class. -/
def Quotas.bw (q : Quotas) (cls : Nat) : Nat :=
  match cls with
  | 0 => q.bwBrood
  | 1 => q.bwSuper
  | _ => q.bwLink

/-- An instance's figures divided among its partitions. -/
def State.shareBw (s : State) (i : Nat) : State :=
  let ps := (s.sched.parts.filter fun e => e.2.inst == i).map fun e => e.1
  [0, 1, 2].foldl (fun s cls =>
    let bw := (s.inst i).q.bw cls
    if i = 0 ∨ bw = 0 then s
    else ps.foldl (fun s p => s.setBwr p cls (max 1 (bw / ps.length)) 64) s) s

/-! ## Capping -/

/-- CAP_UNBIND of context c (R256, R268): the buddies release their caps, staging frames return, a fill is given up. -/
def State.capRelease (s : State) (c : Nat) : State :=
  match s.capCtx c with
  | none => s
  | some k =>
    let inst := (s.ctx c).inst
    let s := k.staged.foldl (fun s g => (s.giveFrame g.frame).refundBrood inst 16) s
    let qs := dropWhere (fun (q : Request) => q.context == c && decide (0x20 ≤ q.type) && decide (q.type < 0x28)) s.swarm.requests
    let s := { s with swarm := { s.swarm with requests := qs } }
    let s := k.buddies.foldl (fun s b => s.sendRequest b.member Pkt.capFill c fun t =>
      dwordWords k.shard ++ [Word.mk k.closedCut, t, Word.mk (2 ^ 24), 0]) s
    let s := match k.fill.bind fun f => f.op with
      | some o => s.opEnd o St.squashed
      | none => s
    { s with cap := { s.cap with ctxs := Tbl.erase s.cap.ctxs c } }

/-! ## Contexts -/

/-- The lowest free context number. -/
def State.freshCtx (s : State) : Option Nat :=
  let k := Tbl.freshFrom s.sched.ctxs 0
  if k < 4096 then some k else none

/-- Save-record frames for every core of a partition, spares included (R202): three on each core's die. -/
def State.takeRecords (s : State) (inst : Nat) (part : Partition) : Option (Tbl (List (Nat × Nat)) × State) :=
  let cores := (part.qcs ++ part.spares).flatMap qcCores
  let s := if s.broodRoom inst (48 * cores.length) then s else s.reclaim inst (48 * cores.length)
  if s.broodRoom inst (48 * cores.length) then
    (cores.foldl (fun (r : Option (Tbl (List (Nat × Nat)) × State)) g => r.bind fun x =>
      (x.2.takeMany (broodPools (qcDie (g / 16))) 3).map fun y =>
        (Tbl.insert x.1 g (y.1.map fun f => (f.pool, f.serial)), y.2)) (some ([], s))).map fun x =>
        (x.1, x.2.chargeBrood inst (48 * cores.length))
  else none

/-- A context made for a partition, SWAPPED (R199, R203). -/
def State.makeCtx (s : State) (inst p prio sliceUs : Nat) (role : Option Role) : Option (Nat × State) :=
  match s.freshCtx, s.part p with
  | some c, some part => (s.takeRecords inst part).map fun x =>
      (c, x.2.setCtx c { st := .swapped, partition := p, inst, prio, sliceUs, role,
                         frames := x.1, readySince := s.ns })
  | _, _ => none

/-- A slot's state on one core given up: its commands, sets, counters. -/
def State.clearSlot (s : State) (a c p slot : Nat) : State :=
  (s.withdrawCore a p slot c false).modCore a c fun x => (x.setSlot slot {}).dropSets slot

/-- Granules of a context released on every core that has some (R201, R203). -/
def State.releaseGranules (s : State) (c : Nat) : State :=
  (s.agents.flatMap fun e => e.2.cores.map fun k => (e.1, k.1)).foldl (fun s q =>
    s.modCore q.1 q.2 fun x =>
      let mine := (x.granules.filter fun g => g.2.owner == some c).map fun g => g.1
      x.modGranules mine fun g => { inflight := g.inflight }) s

/-- RUN_STEPs of a context never dispatched end with a status. -/
def State.endQueuedRuns (s : State) (c : Nat) (status : Byte) : State :=
  (s.ctx c).queued.foldl (fun s q => match q.op with
    | some o => s.opEnd o status
    | none => s) s

/-- A context freed (R203): its binding to capping, queued steps, slot, granules, save records and eviction frames. -/
def State.freeCtx (s : State) (c : Nat) : State :=
  let s := (s.capRelease c).endQueuedRuns c St.discarded
  let x := s.ctx c
  let p := x.partition
  let part := s.partD p
  let inSlot := decide ((part.slot x.slot).2 = c) && decide ((part.slot x.slot).1 ≠ .empty)
  let s := if inSlot then part.places.foldl (fun s q => s.clearSlot q.1 q.2 p x.slot) s else s
  let s := s.releaseGranules c
  let s := (List.range 32).foldl (fun s a =>
    if (s.agent a).steps.any fun t => t.context == c then
      s.modAgent a fun g => { g with steps := dropWhere (fun t => t.context == c) g.steps }
    else s) s
  let evs := (s.ctx c).evicted.foldl (fun l e => insertAsc (e.2 / 16) l) []
  let s := evs.foldl (fun s v => s.giveFrame { pool := v / 2 ^ 32, serial := v % 2 ^ 32 }) s
  let recs := x.frames.flatMap fun e => e.2
  let s := recs.foldl (fun s f => s.giveFrame { pool := f.1, serial := f.2 }) s
  let s := s.refundBrood x.inst (16 * (recs.length + evs.length))
  let s := if inSlot then
      s.modPart p fun q =>
        { q.setSlot x.slot (.empty, 0) with issuing := q.issuing.filter fun k => k != x.slot,
                                            draining := Tbl.erase q.draining x.slot,
                                            waiting := q.waiting.filter fun w => w.1 != x.slot }
    else s
  ({ s with sched := { s.sched with ctxs := Tbl.erase s.sched.ctxs c } }).finishWaiting (.ctxDestroy c) St.ok

/-- Contexts of a partition. -/
def State.partCtxs (s : State) (p : Nat) : List Nat :=
  (s.sched.ctxs.filter fun e => decide (e.2.st ≠ .free) && e.2.partition == p).map fun e => e.1

/-- Has a partition a step dispatched? -/
def State.partBusy (s : State) (p : Nat) : Bool := (s.partCtxs p).any fun c => (s.stepOf c).isSome

/-! ## Membership (R198, R340) -/

/-- The tables of a partition left without a quarter-cluster (R229). -/
def State.dropTables (s : State) (p : Nat) : State :=
  (s.cyc.filter fun e => e.2.busy && e.2.partition == p).foldl (fun s e =>
    ((s.stopSlotSteps e.1).cycSkip e.1 0).tableLoaded e.1 St.fenced) s

/-- The quarter-clusters that a FW_CORE_UPDATE takes out of a partition (R340). -/
def State.toDrain (s : State) (q : Nat) : Bool := s.fw.update.any fun u => u.toDrain.contains q

/-- The membership of partition p changed where a quarter-cluster has to leave, none of its contexts has a step
dispatched and the scheduler core runs: spares take the places of those that leave, else the partition shrinks. On the
cores of a spare that joins, a resident context's slot has the counters that it held there (R90; DESIGN CHOICE, log 59). -/
def State.fixPartition (s : State) (p : Nat) : State :=
  match s.part p with
  | none => s
  | some part =>
    let out (q : Nat) : Bool := s.qcFenced q || s.toDrain q
    let leave := part.qcs.filter out
    let bad := part.spares.filter out
    if (leave.isEmpty && bad.isEmpty) || s.partBusy p || !s.procUp schedulerCore then s
    else
      let spares := dropWhere out part.spares
      let stay := dropWhere out part.qcs
      let qcs := (stay ++ spares.take leave.length).foldl (fun l q => insertAsc q l) []
      let gone := leave ++ bad
      let s := s.modPart p fun x => { x with qcs, spares := spares.drop leave.length,
                                             revision := if leave.isEmpty then x.revision else x.revision + 1 }
      let drained := (gone.filter s.toDrain).map fun q => (q, p)
      let fw := { s.fw with update := s.fw.update.map fun u =>
        { u with toDrain := dropWhere (fun q => gone.contains q) u.toDrain, drained := u.drained ++ drained } }
      let left := (gone.filter fun q => !s.toDrain q).foldl (fun t q => Tbl.insert t q p) s.sched.left
      let s := { s with fw, sched := { s.sched with left } }
      let s := if qcs.length < part.qcs.length then
          (s.schInfo St.fenced 0 p 0).raise { id := Flt.shrink, inst := some part.inst, status := St.fenced }
        else s
      if qcs.isEmpty then s.dropTables p else s

/-- Save records of a quarter-cluster that joins a partition, for every context of it that has none there (R202): one whose
frames cannot be had goes without (DESIGN CHOICE, log 49). -/
def State.joinRecords (s : State) (p q : Nat) : State :=
  (s.sched.ctxs.filter fun e => e.2.partition == p && e.2.st != .free).foldl (fun s e =>
    (qcCores q).foldl (fun s g =>
      if (Tbl.get (fun _ => []) (s.ctx e.1).frames g) ≠ [] ∨ s.broodRoom e.2.inst 48 = false then s
      else match s.takeMany (broodPools (qcDie q)) 3 with
        | some (fs, t) => (t.chargeBrood e.2.inst 48).modCtx e.1 fun x =>
            { x with frames := Tbl.insert x.frames g (fs.map fun f => (f.pool, f.serial)) }
        | none => s) s) s

/-- A quarter-cluster without a fence goes where R198 gives: back to the partition that it left, as a spare, or to its
free pool. -/
def State.qcReturn (s : State) (q p : Nat) : State :=
  match s.part p with
  | some part =>
    if part.spares.length < 8 then (s.modPart p fun x => { x with spares := x.spares ++ [q] }).joinRecords p q else s
  | none => s

end Sys2Proof.Machine
end

