-- ==== Sys2Proof/Machine/StepConclude.lean ====
section
/-!
DEFINITION. The ends of members and of composed steps (spec/05 R107, R113, R115, R123, spec/06 R164, R165).
-/

namespace Sys2Proof.Machine

/-! ## Composed steps by kind -/

/-- The composed step of a partition of KIND 0, 1 or 2 (R120). -/
def ServePart.kindStep (x : ServePart) (k : Nat) : Option ServeStep :=
  match k with
  | 0 => x.batch
  | 1 => x.drStep
  | _ => x.fbStep

def ServePart.setKindStep (x : ServePart) (k : Nat) (y : Option ServeStep) : ServePart :=
  match k with
  | 0 => { x with batch := y }
  | 1 => { x with drStep := y }
  | _ => { x with fbStep := y }

/-- The kind that a role's steps have. -/
def Role.kind : Role → Nat
  | .main => 0
  | .draft => 1
  | .fallback => 2

/-- The sample rows of a member of a step (R135). -/
def ServeStep.rowsOf (y : ServeStep) (m : Member) : Nat :=
  if y.kind = .draft then 1 else if m.verify then m.specD + 1 else if m.sample then 1 else 0

/-! ## The end of a composed step -/

/-- A role whose SERVE_UNBIND waits for its last step loses its binding and context (R107). -/
def State.tryUnbind (s : State) (p : Nat) (r : Role) : State :=
  let x := s.serve p
  match x.role r with
  | some b =>
    if b.unbinding && (x.kindStep r.kind).isNone then
      let s := if r = .draft then s.endDrafting p else s
      let x := s.serve p
      (s.setServe p { x.setRole r none with forecast := if r = .main then none else x.forecast,
                                            forecastDue := x.forecastDue && decide (r ≠ .main) }).freeCtx b.context
    else s
  | none => s

/-- Every member of a step has its end: the step is over for the composer. A batch step forms the draft group (R123); a
draft step makes verify candidates of the members whose last it was; the commit of the next step may begin (R113). -/
def State.concludeStep (s : State) (p k : Nat) : State :=
  let x := s.serve p
  match x.kindStep k with
  | none => s
  | some y =>
    let s := s.setServe p (x.setKindStep k none)
    if k = 1 then
      let last := y.members.filter fun m => decide (m.specD ≤ y.draftK)
      let s := s.modServe p fun x =>
        { x with rounds := x.rounds.map fun r => if last.any fun m => m.index == r.index then { r with done := true } else r }
      let s := if y.status = some St.ok && !last.isEmpty then s.wakeForecast p else s
      s.tryUnbind p .draft
    else
      let ok := if k = 0 ∧ y.status = some St.ok then
          (y.members.filter fun m => m.decode && !m.marked && decide ((s.entry m.index).fails = 0)).map fun m => m.index
        else []
      let s := if k = 0 then s.formGroup p ok else s
      let s := s.modServe p fun x =>
        let first := if x.batch = none ∧ x.fbStep = none ∧ x.forecast ≠ none ∧ x.firstEvent = none then some s.ns
          else x.firstEvent
        { x with firstEvent := first }
      ((s.idleForecast p).tryUnbind p .main).tryUnbind p .fallback

/-- A member's step end has been written. -/
def State.memberEnded (s : State) (p k j : Nat) : State :=
  let s := s.modServe p fun x => x.setKindStep k ((x.kindStep k).map fun y =>
    { y with members := (List.range y.members.length).filterMap fun n => y.members[n]?.map fun m =>
        if n = j then { m with ended := true } else m })
  let s := { s with sampler := { s.sampler with
    rows := dropWhere (fun r => r.partition == p && r.kind == k && r.member == j) s.sampler.rows,
    draws := dropWhere (fun d => d.partition == p && d.kind == k && d.member == j) s.sampler.draws } }
  (match (s.serve p).kindStep k with
  | some y => if y.members.all fun m => m.ended then s.concludeStep p k else s
  | none => s).pagerSync

/-! ## Members -/

/-- The blocks that a member's step wrote: FILL of their pages where the step ended ST_OK, and the dirty log (R174,
R193). -/
def State.wroteBlocks (s : State) (p : Nat) (m : Member) (fill : Bool) : State :=
  let x := s.serve p
  let bp := max 1 x.geomP
  let g := s.geomG p
  let i := m.index
  let first := m.startPos / bp
  let ks := (List.range ((m.startPos + m.nTok - 1) / bp - first + 1)).map fun n => first + n
  let at_ := (s.entry i).prefillPos.toNat
  let set (pages : Tbl Page) (k : Nat) : Tbl Page :=
    (List.range g).foldl (fun t j =>
      let q := Tbl.get (fun _ => ({} : Page)) t (k * g + j)
      if q.tier = .none then t else Tbl.put (fun _ => {}) t (k * g + j) { q with fill := min bp (at_ - k * bp) }) pages
  let s := if fill then s.modMem i fun w => { w with pages := ks.foldl set w.pages } else s
  let s := ks.foldl (fun s k => s.dlogAdd i 0 k) s
  let lps := ks.flatMap fun k => (List.range g).map fun j => k * g + j
  let accesses := lps.foldl (fun l lp => insertAsc (lp / 4 * 4) l) []
  let leaves := lps.foldl (fun l lp => insertAsc (lp / 512) l) []
  if fill then
    leaves.foldl (fun s l => s.dlogAdd i 2 l)
      (accesses.foldl (fun s a => s.writeEntry i (2 + a / 512) (a % 512)) s)
  else s

/-- Does a member's entry still hold the stream that the step took? An entry poisoned in between has retired (R53). -/
def State.isMember (s : State) (m : Member) : Bool :=
  let e := s.entry m.index
  decide (e.gen = m.gen) && decide (e.st = .active)

/-- A step end reads rows of its entry: an uncorrectable word there retires the stream (R51, log 9). -/
def State.readEnd (s : State) (i : Nat) : State := s.readRows endRows [i]

/-- A member of a step that did not end ST_OK, or whose rows could not be read (R40, R42). -/
def State.failMember (s : State) (p k j : Nat) (m : Member) : State :=
  let s := s.readEnd m.index
  let s := if !s.isMember m then s
    else (if k = 1 then s else s.wroteBlocks p m false).memberFailed m.index
  s.memberEnded p k j

/-- The next state of a member at its step's end (R164): it leaves the token loop or returns to READY. -/
inductive Leave where
  | retire (reason : Byte)
  | lost (addr : Nat)
  | park (reason : Byte)
  | ready
  deriving DecidableEq, Repr

/-- The table of R164 for an entry with a stop code, 0 for none. -/
def State.leaveOf (s : State) (i : Nat) (stop : Byte) : Leave :=
  let e := s.entry i
  match (s.pendOf i).findSome? Deferred.lost with
  | some addr => .lost addr
  | none =>
    if stop ≠ 0 then if e.p.keep && !e.retirePending then .park stop else .retire stop
    else if e.retirePending then .retire 0x10
    else if e.parkPending then .park e.parkReason
    else if s.orphan then .park 0x09
    else .ready

/-- The state of a member written at its step's end; the changes held for it apply now (R30). -/
def State.leave (s : State) (i : Nat) (l : Leave) : State :=
  match l with
  | .lost addr => (s.applyPend i).retireLost i addr
  | .retire reason => (s.applyPend i).retire i reason
  | .park reason => (s.applyPend i).park i reason
  | .ready => (s.applyPend i).enterReady i

/-- The step end of a draft-step member: it returns to READY, or goes where its pending bits say, with no field changed
but FAILS, which every step end with ST_OK sets to 0 (R40, R164). -/
def State.draftEnd (s : State) (p k j : Nat) (m : Member) : State :=
  let s := s.readEnd m.index
  (if s.isMember m then (s.modEntry m.index fun e => { e with fails := 0 }).leave m.index (s.leaveOf m.index 0)
   else s).memberEnded p k j

/-- The step end of a member that draws nothing (R115, R164). -/
def State.quietEnd (s : State) (p k j : Nat) (m : Member) : State :=
  let i := m.index
  let t := BitVec.ofNat 64 s.ns
  let s := s.readEnd i
  if !s.isMember m then s.memberEnded p k j
  else
  let s := s.modEntry i fun e => { e with prefillPos := Word.mk (m.startPos + m.nTok), steps := e.steps + 1,
                                          lastStepTime := t, fails := 0,
                                          fallbacks := if k = 2 then e.fallbacks + 1 else e.fallbacks }
  ((s.wroteBlocks p m true).leave i (s.leaveOf i 0)).memberEnded p k j

/-! ## The Sampler takes a step -/

/-- Address and size of the pieces of a token log that hold the n positions from pos on, in the first copies. -/
def State.logPieces (s : State) (i pos n : Nat) : List (Nat × Nat) :=
  let js := if n = 0 then [] else (List.range ((pos + n - 1) / 16384 - pos / 16384 + 1)).map fun k => pos / 16384 + k
  js.filterMap fun j => (Tbl.find (s.mem i).log j).map fun q =>
    let lo := max pos (16384 * j)
    (s.frameAddr q.primary + 4 * (lo % 16384), 4 * (min (pos + n) (16384 * (j + 1)) - lo))

/-- Where an arena lies, and a table in it (R140, log 55). -/
def State.arenaAddr (s : State) (u : RegionUse) (n : Nat) : Option Nat :=
  (s.pager.regions.find? fun e => e.2.use == u).map fun e => e.2.base.toNat + Config.arenaAt n

/-- The pieces of device memory that the tables of a stream take: 8 bytes a bias entry, 64 bytes of stop sequences
(R169). -/
def State.tablePieces (s : State) (e : CombEntry) : List (Nat × Nat) :=
  let piece (w : Word) : List (Nat × Nat) :=
    if w = 0xFFFFFFFF then []
    else match Tbl.find s.sampler.tables w.toNat, s.arenaAddr .tables w.toNat with
      | some t, some a => [(a, match t.body with
          | .bias l _ => 8 * l.length
          | .stop _ => 64)]
      | _, _ => []
  piece e.p.biasTable ++ piece e.p.stopSeq

/-- The q list of a round's draft k, 1 to 8 (R160). -/
def State.qAddr (s : State) (entry k : Nat) : Nat :=
  (Dword.ofWords (s.reg Reg.smpRoundBaseLo) (s.reg Reg.smpRoundBaseHi)).toNat + (8 * entry + k - 1) * 2048

/-- May round storage be touched (R160)? -/
def State.roundEn (s : State) : Bool := (s.reg Reg.smpCtrl).bit 1

/-- The reads of one row on the data channels (R27, R138, R169): its summaries, which a program with SUMMARY writes, the
positions of its penalty window, its tables, the q list that it tests. `number` is its place among the step's rows. -/
def State.rowPieces (s : State) (p : Nat) (b : SampleBinding) (y : ServeStep) (m : Member) (row number : Nat)
    (summary : Bool) : List (Nat × Nat) :=
  let pos := if y.kind = .draft then m.startPos + 1 else if m.verify then m.startPos + 1 + row else m.startPos + m.nTok
  let lo := pos - b.penWindow
  let size := (b.vocab + 4095) / 4096 * (16 + 8 * b.width)
  let q := if m.verify ∧ row < m.specD ∧ s.roundEn = true then
      match s.roundOf p m.index, (Tbl.get (fun _ => []) s.sampler.rounds m.index)[row]? with
      | some r, some (d : DraftQ) => [(s.qAddr r.entry (row + 1), 8 * d.q.length)]
      | _, _ => []
    else []
  (if summary then [(b.sumBase.toNat + number * size, size)] else []) ++ s.logPieces m.index lo (pos - lo) ++
    s.tablePieces (s.entry m.index) ++ q

/-- The reads of all rows of a step, in row order (R135). -/
def State.readSampleRows (s : State) (p : Nat) (y : ServeStep) (rows : List (Member × Nat)) (summary : Bool) : State :=
  match y.smp with
  | none => s
  | some b => ((List.range rows.length).filterMap fun n => rows[n]?.map fun r => (n, r)).foldl (fun s e =>
      (s.rowPieces p b y e.2.1 e.2.2 e.1 summary).foldl (fun s q => s.tagRead p q.1 q.2) s) s

/-- A serving step that ended ST_OK goes to the Sampler: its rows, and what it draws for each sampling member. -/
def State.samplerStart (s : State) (p k : Nat) (summary : Bool) : State :=
  match (s.serve p).kindStep k with
  | none => s
  | some y =>
    let ms := (List.range y.members.length).filterMap fun j => y.members[j]?.map fun m => (j, m)
    let aut (m : Member) : Nat :=
      if k = 1 then match ((Tbl.get (fun _ => []) s.sampler.rounds m.index).getLast? : Option DraftQ) with
        | some d => d.aut
        | none => (s.entry m.index).autState.toNat
      else (s.entry m.index).autState.toNat
    let rows := ms.flatMap fun e => (List.range (y.rowsOf e.2)).map fun r =>
      ({ partition := p, kind := k, member := e.1, row := r } : SampleRow)
    let draws := (ms.filter fun e => decide (0 < y.rowsOf e.2)).map fun e =>
      ({ partition := p, kind := k, member := e.1, autState := aut e.2 } : MemberDraw)
    let s := s.readSampleRows p y (ms.flatMap fun e => (List.range (y.rowsOf e.2)).map fun r => (e.2, r)) summary
    { s.modServe p fun x => x.setKindStep k (some { y with status := some St.ok }) with
      sampler := { s.sampler with rows := s.sampler.rows ++ rows, draws := s.sampler.draws ++ draws } }

/-- The end of a composed step with its status (R19, R87): ST_OK goes to the Sampler, any other fails the members. -/
def State.serveEnd (s : State) (p k : Nat) (status : Byte) (summary : Bool) : State :=
  match (s.serve p).kindStep k with
  | none => s
  | some y =>
    if status = St.ok then s.samplerStart p k summary
    else
      let s := s.modServe p fun x => x.setKindStep k (some { y with status := some status })
      ((List.range y.members.length).filterMap fun j => y.members[j]?.map fun m => (j, m)).foldl
        (fun (s : State) (e : Nat × Member) => s.failMember p k e.1 e.2) s

end Sys2Proof.Machine
end

