-- ==== Sys2Proof/Machine/RowOps.lean ====
section
/-!
DEFINITION. A sample row on the state (spec/06 R147–R170): what it is sampled with, the token it appends, the tests of
R163, the records of R166 and the member's step end.
-/

namespace Sys2Proof.Machine

/-- A row with its step, member and what is drawn for the member so far. -/
structure RowAt where
  p : Nat
  k : Nat
  j : Nat
  row : Nat
  y : ServeStep
  m : Member
  d : MemberDraw
  deriving DecidableEq, Repr

def MemberDraw.of (d : MemberDraw) (p k j : Nat) : Bool := d.partition == p && d.kind == k && d.member == j

def SampleRow.of (r : SampleRow) (p k j : Nat) : Bool := r.partition == p && r.kind == k && r.member == j

/-- A row that its member has come to, in a stage. -/
def State.rowAt (s : State) (p k j row : Nat) (ok : RowStage → Bool) : Option RowAt :=
  let mine := s.sampler.rows.filter fun r => r.of p k j
  match (s.serve p).kindStep k, mine.head?, s.sampler.draws.find? (fun d => d.of p k j) with
  | some y, some r, some d =>
    if r.row = row ∧ ok r.stage = true then (y.members[j]?).map fun m => { p, k, j, row, y, m, d } else none
  | _, _, _ => none

def State.setStage (s : State) (x : RowAt) (st : RowStage) : State :=
  { s with sampler := { s.sampler with
    rows := updateFirst (fun r => r.of x.p x.k x.j && r.row == x.row) (fun r => { r with stage := st }) s.sampler.rows } }

/-- SMP_FLT_INFO, _SEQ and _HANDLE, then the event (R170, R171). -/
def State.smpFault (s : State) (id : Nat) (status : Byte) (x : RowAt) : State :=
  let s := s.setReg Reg.smpFltInfo (Word.mk (status.toNat * 2 ^ 24 + x.p))
  let s := (s.setReg Reg.smpFltSeq x.y.seq).setReg Reg.smpFltHandle (Word.mk (s.handle x.m.index))
  s.raise { id, inst := some (s.entry x.m.index).inst.toNat, status }

/-! ## Inputs of a row -/

/-- Position that the row predicts (R135): the commit-time POS and the rows before. -/
def RowAt.pos (x : RowAt) : Nat :=
  if x.k = 1 then x.m.startPos + 1 else if x.m.verify then x.m.startPos + 1 + x.row else x.m.startPos + x.m.nTok

def State.tableOf (s : State) (n : Word) : Option TableBody :=
  if n = 0xFFFFFFFF then none else (Tbl.find s.sampler.tables n.toNat).map fun t => t.body

def State.autOf (s : State) (e : CombEntry) : Option Automaton :=
  if e.p.grammarEn then Tbl.find s.sampler.automata e.p.automaton.toNat else none

/-- What a row of the stream is sampled with. -/
def State.rowIn (s : State) (x : RowAt) (b : SampleBinding) : RowIn :=
  let i := x.m.index
  let e := s.entry i
  let pos := x.pos
  let lo := pos - b.penWindow
  let bias : List (Nat × Word) × Bool := match s.tableOf e.p.biasTable with
    | some (.bias l positive) => (l, positive)
    | _ => ([], false)
  { p := e.p, vocab := b.vocab, width := b.width, pos, window := (List.range (pos - lo)).map fun n => s.token i (lo + n),
    bias := bias.1, positive := bias.2, mask := (s.autOf e).map fun a => a.maskOf x.d.autState }

/-! ## Stop tests (R163) -/

/-- Do the tokens that end at a position complete a sequence that lies at or past PROMPT_LEN? -/
def State.endsWith (s : State) (i pos promptLen : Nat) (q : List Nat) : Bool :=
  decide (promptLen + q.length ≤ pos + 1) && decide (q ≠ []) &&
    decide ((List.range q.length).map (fun n => s.token i (pos + 1 - q.length + n)) = q)

/-- FLAGS of the conditions that hold for the token at pos, the nth appended in the step, and the REASON of the first. -/
def State.stopTests (s : State) (e : CombEntry) (i pos n token aut : Nat) : Nat × Byte :=
  let stop (w : Word) : Bool := w.bit 31 && w.field 19 0 == token
  let c1 := [e.p.stopToken0, e.p.stopToken1, e.p.stopToken2, e.p.stopToken3].any stop
  let c2 := match s.tableOf e.p.stopSeq with
    | some (.stop qs) => qs.any fun q => s.endsWith i pos e.promptLen.toNat q
    | _ => false
  let c3 := (s.autOf e).any fun a => a.ends aut
  let c4 := decide (e.p.maxNew ≠ 0) && decide (e.p.maxNew.toNat ≤ e.genCount.toNat + n)
  let c5 := decide (e.p.maxCtx.toNat ≤ pos + 1)
  let reason : Byte := if c1 then 0x01 else if c2 then 0x02 else if c3 then 0x05 else if c4 then 0x03
    else if c5 then 0x04 else 0
  (bitAt 14 c1 + bitAt 13 c2 + bitAt 12 c3 + bitAt 11 c4 + bitAt 10 c5, reason)

/-! ## Records (R166, R168) -/

/-- One record in its layout, the words at 0x18 apart. -/
def recordWords (handle pos : Nat) (d : Drawn) (tag seq : Word) : List Word :=
  [Word.mk handle, Word.mk pos, Word.mk (d.token % 2 ^ 20), Word.mk (d.logprob.toNat * 2 ^ 16 + d.flags), tag, seq]

/-- A record written to the stream's token ring, its last 8 bytes after the others; dropped where the ring is full or the
write returns an error, held back in ORPHAN. -/
def State.writeRecord (s : State) (x : RowAt) (ring : Nat) (ws last : List Word) (ok : Bool) : State :=
  if s.orphan then
    { s with fw := { s.fw with orphan := { s.fw.orphan with recordsHeld := s.fw.orphan.recordsHeld + 1 } } }
  else
    let full := (s.satReg Reg.smpRecDropCnt).smpFault Flt.recDrop 0 x
    match Tbl.find s.forager.tokens ring with
    | none => full
    | some t =>
      let size := 2 ^ t.sizeLog2
      if size ≤ (t.tail - t.head).toNat then full
      else
        let a := t.base.toNat + 32 * (t.tail.toNat % size)
        let s := s.emits [s.dmaWrite t.inst a ws, s.dmaWrite t.inst (a + 24) last]
        if !ok then (s.satReg Reg.smpRecDropCnt).smpFault Flt.recDrop 0 x
        else { s with forager := { s.forager with tokens := Tbl.insert s.forager.tokens ring { t with tail := t.tail + 1 } } }

/-- Token records of a member: LAST and REASON stand on the last one where the stream leaves (R166, R167). -/
def State.writeRecords (s : State) (x : RowAt) (drawn : List Drawn) (l : Leave) (ok : List Bool) : State :=
  let e := s.entry x.m.index
  let n := drawn.length
  let handle := s.handle x.m.index
  let leaves : Option (Byte × Bool) := match l with
    | .retire r => some (r, false)
    | .lost _ => some (0x14, false)
    | .park r => some (r, true)
    | .ready => none
  let first := if x.m.verify then x.m.startPos + 1 else x.pos
  let due := max e.admitTime.toNat e.lastStepTime.toNat + e.p.deadlineUs.toNat * 1000
  (List.range n).foldl (fun s q =>
    let d := drawn.getD q { token := 0, logprob := 0, flags := 0, ns := s.ns }
    let lastRec := decide (q + 1 = n)
    let (flags, reason) : Nat × Nat := match leaves with
      | some (r, kept) => if lastRec then (d.flags + 2 ^ 15 + bitAt 1 kept, r.toNat) else (d.flags, 0)
      | none => (d.flags, 0)
    let tail := [Word.mk d.ns, Word.mk (reason * 2 ^ 24 + x.m.specD * 2 ^ 20 +
      (if x.m.verify then n - 1 else 0) * 2 ^ 16 + q * 2 ^ 12 + 2)]
    let s := s.writeRecord x e.p.tokenRing.toNat
      (recordWords handle (first + q) { d with flags } e.p.tokenTag x.y.seq) tail (ok.getD q true)
    if e.p.deadlineUs ≠ 0 ∧ due < d.ns then
      let c := (((s.serve x.p).role x.y.kind.role).map fun b => b.context).getD 0
      ((s.modPart x.p fun q => { q with late := q.late + 1 }).schInfo 0 c x.p x.y.seq).raise
        { id := Flt.dlLate, inst := some e.inst.toNat }
    else s) s

/-! ## The member's step end (R164) -/

/-- A sampling member's step end: its records, then its entry in one operation, then its next state. An uncorrectable word
that the operation meets has retired the stream (R51). -/
def State.sampleEnd (s : State) (x : RowAt) (d : MemberDraw) (recordsOk : List Bool) : State :=
  let i := x.m.index
  let n := d.drawn.length
  let l := s.leaveOf i d.reason
  let s := (s.writeRecords x d.drawn l recordsOk).readEnd i
  if !s.isMember x.m then s.memberEnded x.p x.k x.j else
  let t := BitVec.ofNat 64 s.ns
  let a := n - 1
  let start := if x.m.verify then x.m.startPos + n else x.m.startPos + x.m.nTok
  let s := s.modEntry i fun e =>
    { e with prefillPos := Word.mk start, pos := Word.mk (start + 1), genCount := e.genCount + Word.mk n,
             autState := BitVec.ofNat 16 d.autState, steps := e.steps + 1, lastStepTime := t, fails := 0,
             fallbacks := if x.k = 2 then e.fallbacks + 1 else e.fallbacks,
             specProposed := if x.m.verify then e.specProposed + Word.mk x.m.specD else e.specProposed,
             specAccepted := if x.m.verify then e.specAccepted + Word.mk a else e.specAccepted }
  let s := s.wroteBlocks x.p x.m true
  let s := if x.m.verify then s.loseRound i else s
  (s.leave i l).memberEnded x.p x.k x.j

/-! ## A row is sampled -/

/-- What one row gives: its token, FLAGS of the draw, whether the member's rows end with it. -/
structure RowTok where
  token : Nat
  flags : Nat
  overrun  : Bool
  deriving DecidableEq, Repr

/-- Token and flags of an ordinary or verify row (R149, R150, R161). -/
def State.rowToken (s : State) (x : RowAt) (r : RowIn) (o : RowOut) : RowTok :=
  let f := if r.greedy then [] else r.truncate o.s
  if x.m.verify && decide (x.row < x.m.specD) then
    let q := ((Tbl.get (fun _ => []) s.sampler.rounds x.m.index).getD x.row { token := 0, q := [], aut := 0 } : DraftQ)
    if r.accepts o f q.q q.token then { token := q.token, flags := 2 ^ 8 + 2 ^ 7, overrun := false }
    else
      let v := r.replace o f q.q
      { token := v.1, flags := 2 ^ 8 + bitAt 6 v.2, overrun := true }
  else { token := r.choose o f 0x00, flags := bitAt 8 x.m.verify, overrun := true }

/-- The automaton's blocks of 256 tokens that a row reads on the narrow path (R27, R155, R169): those of its kept
candidates, and the whole mask row in full-scan or where no candidate is allowed (R156). -/
def State.readMask (s : State) (x : RowAt) (o : RowOut) : State :=
  let e := s.entry x.m.index
  match s.autOf e, s.arenaAddr .automata e.p.automaton.toNat with
  | some a, some base =>
    let all := (a.vocab + 255) / 256
    let row := (a.states[x.d.autState]?.map fun t => t.maskRow).getD 0
    let blocks := if o.full || o.s.isEmpty then List.range all else o.raws.foldl (fun l c => insertAsc (c.1 / 256) l) []
    s.npQueue (blocks.map fun b =>
      let addr := base + a.maskAt + 32 * (all * row + b)
      { die := portDie (s.addrPort addr), index := x.m.index, key := tableKey, addr, write := none })
  | _, _ => s

/-- Round storage cannot be read or written: ROUND_ERR, and the member loses its round (R123, R170). -/
def State.roundFault (s : State) (x : RowAt) (io : RowIo) : State :=
  (if s.roundEn && !io.round then s.smpFault Flt.roundErr 0 x else s).loseRound x.m.index

/-- A draft row (R159): the token goes beyond POS, q goes to round storage, and the automaton's state goes with the round.
A member whose round is lost draws no draft. -/
def State.draftRow (s : State) (x : RowAt) (r : RowIn) (o : RowOut) (io : RowIo) : State :=
  let i := x.m.index
  match s.roundOf x.p i with
  | none => s.draftEnd x.p x.k x.j x.m
  | some round =>
  if !s.roundEn || !io.round then (s.roundFault x io).draftEnd x.p x.k x.j x.m else
  let f := match r.greedy, o.s.head? with
    | true, some top => [(top.1, 2 ^ 32)]
    | true, none => []
    | false, _ => (r.truncate o.s).take 256
  let token := r.choose o f 0x10
  let aut := match s.autOf (s.entry i) with
    | some a => a.next x.d.autState token
    | none => x.d.autState
  let q : DraftQ := { token, q := qList f, aut }
  let s := (s.writeTokens i x.pos [token]).tagWrite x.p (s.qAddr round.entry x.y.draftK)
    (q.q.flatMap fun c => [Word.mk c.2, Word.mk c.1])
  let s := { s with sampler := { s.sampler with
    rounds := Tbl.insert s.sampler.rounds i (Tbl.get (fun _ => []) s.sampler.rounds i ++ [q]) } }
  let s := s.modServe x.p fun v => { v with
    rounds := v.rounds.map fun w => if w.index = i then { w with drafts := w.drafts ++ [token] } else w }
  s.draftEnd x.p x.k x.j x.m

/-- Counters and events of a sampled row (R170, R171). -/
def State.countRow (s : State) (x : RowAt) (o : RowOut) (nonfinite : Bool) : State :=
  let s := s.incReg Reg.smpRowsCnt
  let s := if o.inexact then (s.satReg Reg.smpInexactCnt).smpFault Flt.inexact 0 x else s
  if nonfinite then (s.satReg Reg.smpNonfiniteCnt).smpFault Flt.nonfinite 0 x else s

/-- A row sampled over what it is sampled over: its token appended and tested; with its last row the member ends. A verify
row whose q list cannot be read draws plainly and ends the round (DESIGN CHOICE, log 55). -/
def State.sampleRow (s : State) (x : RowAt) (r : RowIn) (o : RowOut) (io : RowIo) : State :=
  let i := x.m.index
  let s := s.readMask x o
  let lost := x.m.verify && decide (x.row < x.m.specD) && (!s.roundEn || !io.round)
  if !s.isMember x.m then s.memberEnded x.p x.k x.j
  else if x.k = 1 then (s.countRow x o (o.nonfinite || o.s.isEmpty)).draftRow x r o io
  else
    let s := if lost then s.roundFault x io else s
    let v := if lost then { token := r.choose o (if r.greedy then [] else r.truncate o.s) 0x00, flags := 2 ^ 8, overrun := true }
      else s.rowToken x r o
    let e := s.entry i
    let (lp, nan) := o.logprob v.token
    let bad := o.nonfinite || nan || o.s.isEmpty
    let tested := x.m.verify && decide (x.row < x.m.specD) && !lost
    let s := s.countRow x o bad
    let s := if tested then s.incReg Reg.smpSpecPropCnt else s
    let s := if tested && !v.overrun then s.incReg Reg.smpSpecAccCnt else s
    let s := s.writeTokens i x.pos [v.token]
    let aut := match s.autOf e with
      | some a => a.next x.d.autState v.token
      | none => x.d.autState
    let n := x.d.drawn.length + 1
    let (stops, reason) := s.stopTests e i x.pos n v.token aut
    let flags := v.flags + stops + bitAt 9 (decide (x.k = 2)) + bitAt 5 o.full + bitAt 4 o.inexact + bitAt 3 bad +
      bitAt 2 r.greedy
    let d := { x.d with drawn := x.d.drawn ++ [{ token := v.token, logprob := lp, flags, ns := s.ns }], autState := aut, reason }
    if v.overrun || decide (reason ≠ 0) then s.sampleEnd x d io.records
    else
      { s with sampler := { s.sampler with
        rows := dropWhere (fun r => r.of x.p x.k x.j && r.row == x.row) s.sampler.rows,
        draws := updateFirst (fun d => d.of x.p x.k x.j) (fun _ => d) s.sampler.draws } }

/-- A member whose rows cannot be read ends as one of a step that ended ST_DATA_POISONED (R170). -/
def State.rowLost (s : State) (x : RowAt) (id : Nat) (status : Byte) : State :=
  (s.smpFault id status x).failMember x.p x.k x.j x.m

/-- Address of a row's full logits (R138). -/
def SampleBinding.logitAddr (b : SampleBinding) (row : Nat) : Nat :=
  let n := b.vocab * if b.lfmt = 0 then 2 else 4
  b.logitBase.toNat + row * ((n + 255) / 256 * 256)

/-- Number of the row among all rows of its step (R135). -/
def RowAt.number (x : RowAt) : Nat := (x.y.members.take x.j).foldl (fun n m => n + x.y.rowsOf m) 0 + x.row

/-- A row goes to full-scan: its logits are read. -/
def State.scanRow (s : State) (x : RowAt) (b : SampleBinding) : State :=
  ((s.setStage x .scan).incReg Reg.smpFullscanCnt).tagRead x.p (b.logitAddr x.number)
    (b.vocab * if b.lfmt = 0 then 2 else 4)

/-- May rows of a binding be scanned (R155)? -/
def State.mayScan (s : State) (b : SampleBinding) : Bool :=
  decide (b.logitBase ≠ 0) && (s.reg Reg.smpCtrl).bit 0

/-- Bytes of a table in its arena (R141, R142). -/
def SampleTable.bytes (t : SampleTable) : Nat :=
  match t.body with
  | .bias l _ => 8 * l.length
  | .stop l => 68 * l.length

/-- The tables that a row of a stream reads: their arena, number and bytes. -/
def State.tablesOf (s : State) (e : CombEntry) : List (RegionUse × Nat × Nat) :=
  let table (w : Word) : List (RegionUse × Nat × Nat) :=
    ((Tbl.find s.sampler.tables w.toNat).map fun t => (RegionUse.tables, w.toNat, t.bytes)).toList
  table e.p.biasTable ++ table e.p.stopSeq ++
    ((s.autOf e).map fun a => (RegionUse.automata, e.p.automaton.toNat, a.bytes)).toList

/-- Does a row wait for a page of one of its own tables (R170, R189)? -/
def State.rowHeld (s : State) (x : RowAt) : Bool :=
  (s.tablesOf (s.entry x.m.index)).any fun t => s.arenaHeld t.1 (Config.arenaAt t.2.1) t.2.2

/-- The row held, told once. -/
def State.holdRow (s : State) (x : RowAt) (stage : RowStage) : State :=
  let was := (s.sampler.rows.find? fun r => r.of x.p x.k x.j).any fun r => r.stage == stage
  if was then s else (s.setStage x stage).smpFault Flt.tablePoison 0 x

/-- The summaries of a row are read (R139, R154–R156, R170). -/
def State.rowDone (s : State) (x : RowAt) (read : Reply) (io : RowIo) : State :=
  if s.rowHeld x then s.holdRow x .held
  else match read with
    | .data ws => match x.y.smp with
      | none => s.rowLost x Flt.sumBad St.summaryBad
      | some b =>
        match b.summaries x.y.seq ws with
        | none =>
          if s.mayScan b then (s.smpFault Flt.sumBad St.summaryBad x).scanRow x b
          else s.rowLost x Flt.sumBad St.summaryBad
        | some l =>
          let r := s.rowIn x b
          let v := r.overSummaries l
          if v.1 then s.sampleRow x r v.2 io
          else if s.mayScan b then s.scanRow x b
          else s.sampleRow x r { v.2 with inexact := true } io
    | _ => s.rowLost x Flt.smpPoison St.dataPoisoned

/-- The full logits of a row are read (R155). -/
def State.scanDone (s : State) (x : RowAt) (read : Reply) (io : RowIo) : State :=
  if s.rowHeld x then s.holdRow x .scanHeld
  else match read, x.y.smp with
    | .data ws, some b =>
      let r := s.rowIn x b
      s.sampleRow x r (r.overLogits (b.scan ws)) io
    | _, _ => s.rowLost x Flt.smpPoison St.dataPoisoned

end Sys2Proof.Machine
end

