-- ==== Sys2Proof/Machine/StepEnd.lean ====
section
/-!
DEFINITION. The end of a step at the hub (spec/01 R19, spec/03 R87, spec/08 R198, R203, R212, R213) and of one that is
never dispatched.
-/

namespace Sys2Proof.Machine

/-- The deadline ratio after a batch step (R213). -/
def nextRatio (ratio actual est : Nat) : Nat :=
  let sample := min 1024 (actual * 256 / est)
  let r := (ratio : Int) + Int.tdiv ((sample : Int) - ratio) 8
  (min 1024 (max 128 r)).toNat

/-- The loss word at LOSS_ADDR: a program wrote it, and the block's own memory does not hold it, so that it is free. -/
def State.lossWord (s : State) : Dword := BitVec.ofNat 64 (s.free 20)

/-- The word sealed for the cut that a context was restored to: this chip's own, else the one that the fill's source held; a
fill that asked for no page was of a cut of its own. -/
def State.sealedWord (s : State) (k : CapCtx) : Dword :=
  let own := (k.cuts.filter fun r => r.number == k.groupCut).map fun r => r.loss
  (own ++ k.sealWord.toList).headD (BitVec.ofNat 64 (s.free 21))

/-- Does the step that ends replay a RESTORED context, with a loss word other than the one sealed (R268, R272)? -/
def State.replayDiffers (s : State) (c : Nat) (status : Byte) : Bool :=
  decide (status = St.ok) && (s.capCtx c).any fun k => decide (k.st = .restored) && decide (s.lossWord ≠ s.sealedWord k)

/-- The status with which a step ends for software: ST_REPLAY_MISMATCH for a replay that differs (R268). -/
def State.endStatus (s : State) (c : Nat) (status : Byte) : Byte :=
  if s.replayDiffers c status then St.replayMismatch else status

/-- The replay step of a RESTORED context ends (R268, R272): its loss word is compared with the one sealed for G. -/
def State.capReplay (s : State) (c : Nat) (status : Byte) : State :=
  match s.capCtx c with
  | none => s
  | some k =>
    if k.st ≠ .restored then s
    else if status = St.replayMismatch then
      (s.modCap c fun k => { k with st := .held }).capFault Flt.capMismatch c 0 St.replayMismatch
    else if status = St.ok then
      s.modCap c fun k =>
        if k.buddies.length = k.want then { k with st := .guarded, urgent := false } else { k with st := .exposed }
    else s

/-- What the capping engine does at a step's end. -/
def State.capEnd (s : State) (c : Nat) (st : Step) (status : Byte) : State :=
  match s.capCtx c with
  | none => s
  | some _ =>
    let loss := s.lossWord
    let s := s.drew
    let s := s.modCap c fun k => { k with launchHolds := [] }
    (s.capReplay c status).capStepEnd c st status loss

/-- The accumulator sets, cursors and open passes of an ended step given up (R212). -/
def State.dropSets (s : State) (c : Nat) : State :=
  let x := s.ctx c
  let resident := decide (((s.partD x.partition).slot x.slot).2 = c) && decide (x.st = .resident)
  let s := if resident then
      (s.partD x.partition).places.foldl (fun s q => s.modCore q.1 q.2 fun k => k.dropSets x.slot) s
    else s
  let drop (r : SaveRec) : SaveRec :=
    { r with stepSeq := 0, stepHeld := false, passOpen := false, acc0 := false, acc1 := false, cursors := [] }
  s.modCtx c fun x => { x with recs := (x.recs.map fun e => (e.1, drop e.2)).filter fun e => e.2 != {} }

/-- The end of context c's dispatched step. -/
def State.stepEnd (s : State) (c : Nat) : State :=
  match (s.ctx c).dispatched with
  | none => s
  | some st =>
    let status := s.endStatus c st.status
    let x := s.ctx c
    let p := x.partition
    let issuing := decide ((s.partD p).issuing = some x.slot) && decide (x.st = .resident)
    let s := (s.runProgress c).dropSets c
    let s := s.modCtx c fun x => { x with dispatched := none, readySince := s.ns,
                                          endedNo := if st.origin = .run then st.number else x.endedNo }
    let s := match st.op with
      | some o => s.opEnd o status
      | none => s
    let s := { s with swarm := { s.swarm with
      overrun := if st.t0 = 0 then s.swarm.overrun else st.swarmStep :: dropWhere (fun d => d == st.swarmStep) s.swarm.overrun,
      arrivals := dropWhere (fun a => a.context == c) s.swarm.arrivals,
      slips := dropWhere (fun r => r.swarmStep == st.swarmStep) s.swarm.slips } }
    let s := if s.orphan then
        { s with fw := { s.fw with orphan := { s.fw.orphan with stepsEnded := s.fw.orphan.stepsEnded + 1 } } }
      else s
    let s := if issuing then s.modPart p fun q => { q with waiting := none } else s
    let s := s.capEnd c st status
    let s := match st.origin with
      | .run => s
      | .cyclic k i => s.slotEnded k i st.seq status
      | .serving q r =>
        let s := if r = Role.main ∧ st.estNs ≠ 0 then
            s.modPart q fun x => { x with ratio := nextRatio x.ratio (s.ns - st.dispatchedAt) st.estNs }
          else s
        s.serveEnd q r.kind status st.summary
    let s := if (s.ctx c).destroying then s.freeCtx c else s
    s.fixPartition p

/-- The first queued step of a context ends before its dispatch with a status. -/
def State.endUnsent (s : State) (c : Nat) (status : Byte) : State :=
  match (s.ctx c).queued with
  | [] => s
  | st :: rest =>
    let s := s.modCtx c fun x => { x with queued := rest, endedNo := if st.origin = .run then st.number else x.endedNo }
    let s := match st.op with
      | some o => s.opEnd o status
      | none => s
    match st.origin with
    | .run => s
    | .cyclic k i => s.slotEnded k i st.seq status
    | .serving q r => s.serveEnd q r.kind status st.summary

/-- The record of an agent for a step given up or taken: with the last one awaited the step ends (R19). -/
def State.agentDone (s : State) (a c : Nat) : State :=
  match s.stepOf c with
  | none => s
  | some st =>
    if st.awaiting.contains a then
      let s := s.modStep c fun st => { st with awaiting := st.awaiting.erase a }
      if st.awaiting.erase a = [] then s.stepEnd c else s
    else s

end Sys2Proof.Machine
end

