-- ==== Sys2Proof/Machine/FenceOps.lean ====
section
/-!
DEFINITION. Propolis fences (spec/17 R372–R376): what a fence of each class does, how one is lifted, the fence that the
bus makes on NO_ACK.
-/

namespace Sys2Proof.Machine

/-- Is the unit of a class and index there, and is it fenced already (R372)? Classes: 0 core, 1 cluster, 2 brood stack,
3 super package, 4 link port. -/
def State.unitThere (s : State) (cls index : Nat) : Bool :=
  match cls with
  | 0 => decide (index < 2048) && s.coreUp index
  | 1 => s.clusterUp index
  | 2 => decide (index < 12)
  | 3 => decide (index < 32)
  | _ => decide (index < Config.linkPorts)

def Fences.has (f : Fences) (cls index : Nat) : Bool :=
  (match cls with
   | 0 => f.cores
   | 1 => f.clusters
   | 2 => f.stackSet
   | 3 => f.packages
   | _ => f.links).contains index

def Fences.mark (f : Fences) (cls index : Nat) : Fences :=
  match cls with
  | 0 => { f with cores := insertAsc index f.cores }
  | 1 => { f with clusters := insertAsc index f.clusters }
  | 2 => { f with stackSet := insertAsc index f.stackSet }
  | 3 => { f with packages := insertAsc index f.packages }
  | _ => { f with links := insertAsc index f.links }

def Fences.unmark (f : Fences) (cls index : Nat) : Fences :=
  match cls with
  | 0 => { f with cores := f.cores.erase index }
  | 1 => { f with clusters := f.clusters.erase index }
  | 2 => { f with stackSet := f.stackSet.erase index }
  | 3 => { f with packages := f.packages.erase index }
  | _ => { f with links := f.links.erase index }

/-- The bus target of a unit, and the payload of its FENCE and UNFENCE (R375): bit 6 WHOLE. -/
def fenceTarget (cls index : Nat) : Nat × Nat × Nat :=
  match cls with
  | 0 => (0, index / 64, index % 64)
  | 1 => (0, index, 64)
  | 2 => (1, index, 64)
  | 3 => (2, index, 64)
  | _ => (3, index, 64)

def State.fenceSend (s : State) (kind : BusKind) (cls index : Nat) : State :=
  let t := fenceTarget cls index
  s.busSend t.1 t.2.1 { kind, payload := BitVec.ofNat 64 t.2.2 }

/-! ## Steps on a fenced core or cluster (R198, R373) -/

/-- Cores of a unit of class 0 or 1. -/
def fenceCores (cls index : Nat) : List Nat := if cls = 0 then [index] else (List.range 64).map fun c => 64 * index + c

/-- Launches of an agent's step that had commands on one of the cores and have neither ended nor faulted. -/
def State.fencedLaunches (s : State) (a : Nat) (t : AgentStep) (gs : List Nat) : List Nat :=
  let st := (s.stepOf t.context).getD {}
  (t.launches.filter fun x => x.expanding && !x.ended && decide (x.status = 0) &&
      decide (st.launchStatus x.index = St.ok) &&
      gs.any fun g => decide (g / 64 = a) &&
        (decide (0 < Tbl.get (fun _ => 0) x.cursors (g % 64)) || (s.core a (g % 64)).holds t.slot x.index)).map
    fun x => x.index

/-- The steps dispatched on the partition of a fenced core are stopped; launches with commands on it end ST_FENCED. -/
def State.fenceSteps (s : State) (cls index : Nat) : State :=
  let gs := fenceCores cls index
  let a := if cls = 0 then index / 64 else index
  let hit := (s.sched.parts.filter fun e => e.2.qcs.any fun q => gs.any fun g => g / 16 == q).map fun e => e.1
  (hit.flatMap fun p => (s.partCtxs p).filter fun c => (s.stepOf c).isSome).foldl (fun s c =>
    let ls := ((s.agent a).steps.filter fun t => t.context == c).flatMap fun t => s.fencedLaunches a t gs
    let s := s.modStep c fun st => { st with ends := st.ends ++ ls.map fun l => (l, St.fenced) }
    s.stopStep c) s

/-- A core emptied, commands in execution included. -/
def State.emptyCore (s : State) (g : Nat) : State :=
  s.modCore (g / 64) (g % 64) fun x =>
    { x with queues := [], running := [], occ := [], waitFrom := [], gateFrom := [], waitDue := [], gateDue := [],
             sets := [] }

/-- Launches of an agent that may have ended because a core was emptied. -/
def State.recheck (s : State) (a : Nat) : State :=
  (s.agent a).steps.foldl (fun s t => t.launches.foldl (fun s x => s.checkLaunch a t.partition t.slot x.index) s) s

/-- A fenced cluster's agent gives nothing more: its records are discarded, and no step waits for it (R19). -/
def State.dropAgent (s : State) (a : Nat) : State :=
  let cs := (s.agent a).steps.map fun t => t.context
  let waits := (s.sched.ctxs.filter fun e => e.2.dispatched.any fun st => st.awaiting.contains a).map fun e => e.1
  let s := s.setAgent a { lastSeq := (s.agent a).lastSeq }
  let s := s.sched.parts.foldl (fun s e =>
    if e.2.stopping.contains a then s.modPart e.1 fun q => { q with stopping := q.stopping.erase a } else s) s
  (unionAsc cs waits).foldl (fun s c =>
    (s.modStep c fun st => { st with agents := st.agents.erase a }).agentDone a c) s

/-- The control core of a fenced cluster is held in reset; one that is HALTED stays so. -/
def State.holdCore (s : State) (a : Nat) : State :=
  let x := s.proc a
  if x.st = .halted then s
  else { s with fw := { s.fw with procs := Tbl.insert s.fw.procs a { x with st := .off } } }

/-- What the fence of a marked unit does (R373). -/
def State.fenceEffect (s : State) (cls index : Nat) : State :=
  let t := fenceTarget cls index
  let s := s.urgent.setReg Reg.prpFltInfo (Word.mk (t.1 * 2 ^ 28 + t.2.1 * 2 ^ 16))
  let s := (s.raise { id := Flt.fenceApplied }).fenceSend .fence cls index
  match cls with
  | 0 => ((s.fenceSteps 0 index).emptyCore index).recheck (index / 64)
  | 1 => ((s.fenceSteps 1 index).dropAgent index).holdCore index
  | 2 => s.pagerSync
  | 3 => (s.heldPoolLost (16 + index)).pagerSync
  | _ => s

/-- The units of a list that a fence can take: there, and not fenced already (R374). -/
def State.fenceable (s : State) (us : List (Nat × Nat)) : List (Nat × Nat) :=
  us.eraseDups.filter fun u => !s.fences.has u.1 u.2 && s.unitThere u.1 u.2

/-- The fences of one cc (R374): all are marked, each has its effect, and then a partition changes its membership once. -/
def State.fenceAll (s : State) (us : List (Nat × Nat)) : State :=
  let us := s.fenceable us
  let marked := us.foldl (fun (f : Fences) (u : Nat × Nat) => f.mark u.1 u.2) s.fences
  let s := us.foldl (fun (s : State) (u : Nat × Nat) => s.fenceEffect u.1 u.2) { s with fences := marked }
  s.sched.parts.foldl (fun s e => s.fixPartition e.1) s

/-- A fence asked for: it takes effect in this cc, with any other. -/
def State.fenceAsk (s : State) (cls index : Nat) : State :=
  { s with fences := { s.fences with demand := s.fences.demand ++ [(cls, index)] } }

/-! ## Unfence -/

/-- Does the fence's own stop still drain: has a partition with a quarter-cluster of the unit a step dispatched? -/
def State.fenceDrains (s : State) (cls index : Nat) : Bool :=
  let gs := fenceCores cls index
  decide (cls < 2) && s.sched.parts.any fun e =>
    (e.2.qcs.any fun q => gs.any fun g => g / 16 == q) && s.partBusy e.1

/-- A quarter-cluster whose last fence clears goes where R198 gives. -/
def State.qcUnfenced (s : State) (q : Nat) : State :=
  if s.qcFenced q then s
  else match Tbl.find s.sched.left q with
    | some p => ({ s with sched := { s.sched with left := Tbl.erase s.sched.left q } }).qcReturn q p
    | none => s

/-- A unit unfenced: a core is reset; a cluster's agent is reset and its control core reloads as a planned restart. -/
def State.unfenceApply (s : State) (cls index : Nat) : State :=
  if !s.fences.has cls index then s
  else
    let s := ({ s with fences := s.fences.unmark cls index }).fenceSend .unfence cls index
    match cls with
    | 0 =>
      let s := s.modCore (index / 64) (index % 64) fun _ => {}
      s.qcUnfenced (index / 16)
    | 1 =>
      let s := s.setAgent index {}
      let restart (x : Proc) : Proc :=
        { x with st := .restarting, planned := true, cause := 4, restarts := x.restarts + 1,
                 lastTime := Word.mk (s.ns % 2 ^ 32), due := s.ns + 10000000 }
      let s := { s with fw := { s.fw with procs := Tbl.insert s.fw.procs index (restart (s.proc index)) } }
      let s := s.modAgent index fun x => { x with held := some s.cc }
      [0, 1, 2, 3].foldl (fun s i => s.qcUnfenced (4 * index + i)) s
    | _ => s

/-- An unfence asked for by PRP_FENCE_CMD goes on once the stop has drained (R374). -/
def State.unfenceSettle (s : State) : State :=
  match s.fences.busy with
  | none => s
  | some w =>
    let cls := w.field 30 28
    let index := w.field 10 0
    if s.fenceDrains cls index then s
    else ({ s with fences := { s.fences with busy := none, result := St.ok } }).unfenceApply cls index

/-- The units that severe sources and commands name are fenced, in the order named (R370). -/
def State.fenceSettle (s : State) : Nat → State
  | 0 => s
  | n + 1 => match s.fences.demand with
    | [] => s
    | u :: rest => (({ s with fences := { s.fences with demand := [] } }).fenceAll (u :: rest)).fenceSettle n

/-! ## NO_ACK (R376) -/

/-- A bus target that did not answer its third retry: NO_ACK, and the fence by class that the protocol makes. -/
def State.noAck (s : State) (cls index : Nat) : State :=
  let s := s.setTarget cls index { s.target cls index with dead := true, queue := [], sent := none }
  let s := s.setReg Reg.prpFltInfo (Word.mk (cls * 2 ^ 28 + index * 2 ^ 16))
  let s := (s.raise { id := Flt.noAck }).humStop Flt.noAck
  s.fenceAsk (cls + 1) index

/-- A message NAKed or unanswered: sent again with its SEQ, up to 3 times. -/
def State.busRetry (s : State) (cls index : Nat) : State :=
  let t := s.target cls index
  match t.sent with
  | none => s
  | some m =>
    let s := s.setReg Reg.prpFltInfo (Word.mk (cls * 2 ^ 28 + index * 2 ^ 16))
    let s := s.raise { id := Flt.busErr }
    if 3 ≤ m.tries then s.noAck cls index
    else (s.setTarget cls index { t with sent := some { m with tries := m.tries + 1, sentCc := s.cc } }).busEmit cls
      index m.msg m.seq

end Sys2Proof.Machine
end

