-- ==== Sys2Proof/Machine/ObjectOps.lean ====
section
/-!
DEFINITION. Objects given up: a model, a partition (spec/07 R189, spec/08 R198).
-/

namespace Sys2Proof.Machine

/-- A model gone: the steps held on its lost regions end, and regions that serve no other model are forgotten. -/
def State.dropModel (s : State) (m : Nat) : State :=
  let lost := s.pager.regions.any fun e => e.2.serves m && decide (e.2.st = .lost)
  let bound (b : Option RoleBinding) : Bool := b.any fun b => b.model == m
  let s := if lost then
      s.comp.parts.foldl (fun s e =>
        let s := if bound e.2.main then s.endUndispatched e.1 .main else s
        let s := if bound e.2.draft then s.endUndispatched e.1 .draft else s
        if bound e.2.fallback then s.endUndispatched e.1 .fallback else s) s
    else s
  let less (x : Region) : Region := match x.use with
    | .models ms => { x with use := .models (ms.erase m) }
    | _ => x
  let regions := dropWhere (fun e => e.2.use == .models []) (s.pager.regions.map fun e => (e.1, less e.2))
  { s with pager := { s.pager with regions, models := Tbl.erase s.pager.models m } }

/-- Is MODEL_LOAD of a model under way? -/
def State.modelLoading (s : State) (m : Nat) : Bool :=
  s.interp.ops.any fun e => !e.2.ended && match e.2.body with
    | .model k _ => k == m
    | _ => false

/-- A partition without contexts gone: its quarter-clusters, geometry, bindings and regulators with it. -/
def State.dropPartition (s : State) (p : Nat) : State :=
  let fw := { s.fw with update := s.fw.update.map fun u =>
    { u with drained := u.drained.map fun e => if e.2 = p then (e.1, 128) else e } }
  let sched := { s.sched with parts := Tbl.erase s.sched.parts p,
                              left := s.sched.left.filter fun e => e.2 != p,
                              buckets := s.sched.buckets.filter fun e => e.1 / 256 != p,
                              portSet := s.sched.portSet.filter fun e => e.1 / 256 != p }
  { s with fw, sched, comp := { s.comp with parts := Tbl.erase s.comp.parts p },
           sampler := { s.sampler with bindings := s.sampler.bindings.filter fun e => e.1 / 4 != p } }

end Sys2Proof.Machine
end

