-- ==== Sys2Proof/Machine/RingOps.lean ====
section
/-!
DEFINITION. The Forager's shared operations (spec/12): fetch, acceptance of entries, pushes, enabling and draining a ring.
-/

namespace Sys2Proof.Machine

/-- FOR_FLT_INFO and FOR_FLT_INDEX (R297), then the event, counted per instance (R296). -/
def State.forFault (s : State) (id inst ring : Nat) (index : Word) : State :=
  ((s.setReg Reg.forFltInfo (Word.mk (inst * 2 ^ 16 + ring))).setReg Reg.forFltIndex index).raise
    { id, unit := inst, inst := some inst }

/-- May the Forager fetch from ring r now (R287, R297, R328, R345)? -/
def State.fetches (s : State) (r : Nat) : Bool :=
  decide ((s.ring r).st = .enabled) && (s.reg Reg.forCtrl).bit 0 && !s.orphan && s.active (s.ring r).inst &&
    decide (s.power.softDue = none)

/-- Units between two indices (R278). -/
def unitsTo (a b : Word) : Nat := (b - a).toNat

/-- Units of a ring's buffered entries, and of all rings'. -/
def Ring.buffered (x : Ring) : Nat :=
  x.queue.foldl (fun n e => n + entryUnits (wordAt e.words 0))
    ((x.asm.map fun p => entryUnits (wordAt p.entry.words 0)).getD 0)

def State.bufUsed (s : State) : Nat := s.forager.rings.foldl (fun n e => n + e.2.buffered) 0

/-- Room for an entry of n units in the buffer: 4 096 units in all, 72 of a ring (R295). -/
def State.bufRoom (s : State) (r n : Nat) : Bool :=
  decide ((s.ring r).buffered + n ≤ 72) && decide (s.bufUsed + n ≤ 4096)

/-- Index of the unit that the next read of a ring begins with. -/
def Ring.next (x : Ring) : Word := x.fetched + Word.mk ((x.asm.map fun p => p.units).getD 0)

/-- Units that the next read asks for: those of the entry in hand, those below the published tail, or under SPEC = 1 up
to 8 beyond it; at most 8 and not past the end of ring memory (R282, R295). An entry known not to lie below the tail waits
for the tail. -/
def Ring.wanted (x : Ring) : Nat :=
  let below := unitsTo x.fetched x.tail
  let n := match x.asm with
    | some p => entryUnits (wordAt p.entry.words 0) - p.units
    | none =>
      if below = 0 then (if x.spec && x.probe then 8 else 0) else if x.spec || decide (x.need ≤ below) then below else 0
  min (min n 8) (x.size - x.next.toNat % x.size)

/-- Does ring r call for a read: it has none outstanding, waits for no timer of R283, and what it asks for has room? -/
def State.fetchWants (s : State) (r : Nat) : Bool :=
  let x := s.ring r
  s.fetches r && x.rereadAt.isNone && (Tbl.find s.forager.reads r).isNone && decide (0 < x.wanted) &&
    (x.asm.isSome || s.bufRoom r (max 1 x.need))

/-- The next read of a ring issued (R282, R295). -/
def State.fetchIssue (s : State) (r : Nat) : State :=
  let x := s.ring r
  let q : FetchRead := { at_ := x.next, units := x.wanted }
  let s := { s with forager := { s.forager with reads := Tbl.insert s.forager.reads r q } }
  (s.setRing r { x with probe := false }).emit (s.dmaRead x.inst (x.unitAddr x.next) (64 * x.wanted))

/-- The ring whose turn comes next: of those that call for a read, the first after the one whose turn began last, in a
round (R290). -/
def State.fetchNext (s : State) : Option Nat :=
  let rs := (s.forager.rings.map fun e => e.1).filter s.fetchWants
  (rs.find? fun r => decide (s.forager.turnAt < r)).or rs.head?

/-- Turns begun while fewer than 64 reads are outstanding (R290, R295). -/
def State.fetchTurns (s : State) : Nat → State
  | 0 => s
  | n + 1 =>
    if 64 ≤ s.forager.reads.length then s
    else match s.fetchNext with
      | none => s
      | some r =>
        let s := { s with forager := { s.forager with turnAt := r } }
        ((s.modRing r fun x => { x with turn := 0 }).fetchIssue r).fetchTurns n

/-- Does another ring wait for its turn, this one's read having just completed? -/
def State.othersWait (s : State) (r : Nat) : Bool :=
  decide (63 ≤ s.forager.reads.length) && s.forager.rings.any fun e => e.1 != r && s.fetchWants e.1

/-- An entry taken: it waits in the buffer, and its end carries the published tail forward (R281, R282). A ring with SPEC = 1
that reaches the tail so reads past it. -/
def State.takeEntry (s : State) (r : Nat) (e : Entry) : State :=
  let n := entryUnits (wordAt e.words 0)
  s.modRing r fun x =>
    let stop := e.index + Word.mk n
    let tail := if unitsTo x.head x.tail < unitsTo x.head stop then stop else x.tail
    { x with queue := x.queue ++ [e], asm := none, fetched := stop, lastTaken := some s.ns, rereads := 0, rereadAt := none,
             pollAt := none, need := 0, tail, probe := x.spec && decide (stop = tail) }

/-- FOR_PUSH_DROP_CNT. -/
def State.pushDrop (s : State) : State := s.satReg Reg.forPushDropCnt

/-- Index after the entries that a ring has started or completed: where fetching resumes (R287, R289). -/
def Ring.resumeAt (x : Ring) : Word :=
  match x.started, x.heldCompl.getLast? with
  | some e, _ => e.index + Word.mk (entryUnits (wordAt e.words 0))
  | none, some ws => wordAt ws 1 + Word.mk (entryUnits (wordAt ws 0))
  | none, none => x.head

/-- Fetched entries of a ring that have not started are discarded, and its push with them; they stay posted (R288). What a
read outstanding brings is discarded as it comes. -/
def State.dropFetched (s : State) (r : Nat) : State :=
  let s := if (Tbl.find s.forager.pushes r).isSome then s.pushDrop else s
  let s := { s with forager := { s.forager with
    pushes := Tbl.erase s.forager.pushes r,
    reads := Tbl.adjust (fun q => { q with stale := true }) s.forager.reads r } }
  s.modRing r fun x => { x with queue := [], asm := none, fetched := x.resumeAt, rereads := 0, rereadAt := none,
                                pollAt := none, probe := false, need := 0 }

/-- The context destruction that a squashed command still waits for is forgone (R288). -/
def State.forgo (s : State) (src : Src) : State :=
  s.interp.waiting.foldl (fun s w => match w with
    | (x, .ctxDestroy k) => if x = src then s.modCtx k fun c => { c with destroying := false } else s
    | (_, .cycStop _) => s) s

/-- The started entry of ring r squashed, where its command has not committed: it completes ST_SQUASHED and has no effect
(R288). The squash is an URGENT trap: while the XLATE handler runs it is held until TRET (R360). -/
def State.squashRing (s : State) (r : Nat) : State :=
  match s.squashable r with
  | some c =>
    if s.store.trap.isSome then { s with store := { s.store with heldSquash := true } }
    else (s.forgo c.src).finishCmd c St.squashed [] noField
  | none => s

/-- A ring stops: fetch ends, entries not started are discarded, and a started entry completes or is squashed (R287,
R288). -/
def State.drainRing (s : State) (r : Nat) (squash failing : Bool) : State :=
  let s := (s.dropFetched r).modRing r fun x => { x with st := .draining, failing }
  if squash then s.urgent.squashRing r else s

/-- A ring enters ERROR by way of DRAINING (R287). -/
def State.failRing (s : State) (r id : Nat) (index : Word) : State :=
  (s.drainRing r false true).forFault id (s.ring r).inst r index

/-- Is the last entry taken less than FOR_POLL_IDLE_US old (R283)? -/
def State.pollGoes (s : State) (x : Ring) : Bool :=
  x.lastTaken.any fun t => decide (s.ns - t < s.regField Reg.forPollIdleUs 19 0 * 1000)

/-- The tail of the units that R283 reads again: below the published tail after 1 µs, 4 times and then the ring enters
ERROR; past it by FOR_POLL_NS while the ring is busy. -/
def State.notAcceptable (s : State) (r : Nat) : State :=
  let x := s.ring r
  if x.fetched ≠ x.tail then
    if 4 ≤ x.rereads then s.failRing r Flt.notPosted x.fetched
    else s.setRing r { x with rereads := x.rereads + 1, rereadAt := some (s.ns + 1000) }
  else
    let poll := max 200 (s.regField Reg.forPollNs 19 0)
    s.setRing r { x with probe := false, pollAt := if x.spec && s.pollGoes x then some (s.ns + poll) else none }

/-- The units of one read, first unit first (R281–R283). An entry taken counts toward the ring's turn, and once the turn's
WEIGHT entries are taken the rest is left for the next one where another ring waits (R290). -/
def State.takeUnits (s : State) (r : Nat) : List (List Word) → State
  | [] => s
  | u :: t =>
    let x := s.ring r
    let take (s : State) (e : Entry) : State := (s.takeEntry r e).modRing r fun x => { x with turn := x.turn + 1 }
    match x.asm with
    | some p =>
      let e : Entry := { index := p.entry.index, words := p.entry.words ++ u }
      if p.units + 1 = entryUnits (wordAt e.words 0) then (take s e).takeUnits r t
      else (s.setRing r { x with asm := some { entry := e, units := p.units + 1 } }).takeUnits r t
    | none =>
      let w := wordAt u 0
      let n := entryUnits w
      let below := decide (x.fetched ≠ x.tail)
      let e : Entry := { index := x.fetched, words := u }
      let posted := decide (entryMark w = 1) && (below || x.spec)
      let invalid := decide (entryMark w = 3) && below
      if x.weight ≤ x.turn ∧ s.othersWait r = true then s
      else if wordAt u 1 ≠ x.fetched ∨ (posted || invalid) = false then s.notAcceptable r
      else if (!x.spec && decide (unitsTo x.fetched x.tail < n)) || !s.bufRoom r n then
        s.setRing r { x with need := n, probe := x.spec }
      else if invalid then (take s e).flushDiscarded r (x.queue.length + 1)
      else if n = 1 then (take s e).takeUnits r t
      else s.setRing r { x with asm := some { entry := e, units := 1 } }

/-- A read's words in units of 16. -/
def splitUnits : Nat → List Word → List (List Word)
  | 0, _ => []
  | n + 1, ws => if ws.isEmpty then [] else ws.take 16 :: splitUnits n (ws.drop 16)

/-- A boot ring's binding taken from its FOR_BOOT registers, which stand in for RING_CREATE (R294). -/
def State.loadBoot (s : State) (r : Nat) : State :=
  if r < 64 then
    let f (k : Nat) : Word := s.reg (pageKey r k)
    let sz := (f Reg.forBootCfg).field 4 0
    s.modRing r fun x => { x with base := Dword.ofWords (f Reg.forBootBaseLo) (f Reg.forBootBaseHi),
                                  sizeLog2 := if 6 ≤ sz ∧ sz ≤ 16 then sz else 6, spec := (f Reg.forBootCfg).bit 5,
                                  headAddr := Dword.ofWords (f Reg.forBootHeadLo) (f Reg.forBootHeadHi), weight := 1 }
  else s

/-- A DISABLED or ERROR ring enabled: fetch resumes at the head, the published tail is the head (R287). -/
def State.enableRing (s : State) (r : Nat) : State :=
  let s := s.loadBoot r
  s.modRing r fun x => { x with st := .enabled, tail := x.head, fetched := x.head, queue := [], asm := none,
                                rereads := 0, rereadAt := none, pollAt := none, failing := false, stuck := false,
                                probe := x.spec, need := 0, turn := 0 }

def Ring.canEnable (x : Ring) : Bool := decide (x.st = .disabled) || decide (x.st = .error)

/-- The published tail moved forward to an index, if it lies ahead within the ring (R290, R291). -/
def State.publish (s : State) (r : Nat) (t : Word) : State :=
  s.modRing r fun x =>
    if unitsTo x.head t ≤ x.size ∧ unitsTo x.head x.tail < unitsTo x.head t then { x with tail := t } else x

/-- The push that waits in a ring's window, taken or discarded (R291). It waits while the buffer has no room. -/
def State.takePush (s : State) (r : Nat) : State :=
  match Tbl.find s.forager.pushes r with
  | none => s
  | some ws =>
    let x := s.ring r
    let n := entryUnits (wordAt ws 0)
    let free (s : State) : State := { s with forager := { s.forager with pushes := Tbl.erase s.forager.pushes r } }
    if !s.fetches r then s
    else if wordAt ws 1 ≠ x.fetched then (free s).pushDrop.publish r (wordAt ws 1 + Word.mk n)
    else if !s.bufRoom r n then s
    else (((free s).modRing r fun x => { x with asm := none }).takeEntry r { index := x.fetched, words := ws, pushed := true }).incReg
      Reg.forPushCnt

/-- What the Forager does as soon as it can: waiting pushes taken or discarded, then reads issued ring by ring (R282, R290,
R291). -/
def State.fetchSettle (s : State) : State :=
  if s.clocked then
    ((s.forager.pushes.map fun e => e.1).foldl (fun s r => s.takePush r) s).fetchTurns 64
  else s

/-- A read of ring r completed with these units: those before the index that the ring expects are passed over, a push having
been taken in between. The ring reads on while its turn lasts (R281, R290). -/
def State.fetchDone (s : State) (r : Nat) (q : FetchRead) (us : List (List Word)) : State :=
  let s := s.takeUnits r (us.drop (unitsTo q.at_ (s.ring r).next))
  if (s.ring r).turn < (s.ring r).weight ∧ s.fetchWants r = true then s.fetchIssue r else s

/-- State codes of R287. -/
def RingState.code : RingState → Nat
  | .free => 0
  | .disabled => 1
  | .enabled => 2
  | .draining => 3
  | .error => 4

/-- The head shadow written (R285). -/
def State.writeShadow (s : State) (r : Nat) : State :=
  let x := s.ring r
  if x.headAddr = 0 ∨ s.orphan = true then s
  else (s.setRing r { x with shadowDue := false }).emit (s.dmaWrite x.inst x.headAddr.toNat [x.head, Word.mk x.st.code])

/-- A DRAINING ring with no started entry stops, and its head is published (R287). -/
def State.drainEnd (s : State) (r : Nat) : State :=
  let x := s.ring r
  if x.st = .draining ∧ x.started = none then
    (s.setRing r { x with st := if x.failing then .error else .disabled, failing := false }).writeShadow r
  else s

/-- A ring given up with its instance (R287): stopped as by RING_DISABLE, its head published, its binding erased. A boot
ring is DISABLED again with its head at 0. -/
def State.eraseRing (s : State) (r : Nat) : State :=
  let s := s.drainEnd r
  let s := if (s.ring r).shadowDue then s.writeShadow r else s
  let ops := s.interp.ops.map fun e => if e.2.ring = some r then (e.1, { e.2 with ring := none }) else e
  (({ s with interp := { s.interp with ops } }.dropFetched r).setRing r (ringDefault r)).loadBoot r

/-- The front entry of a ring started (R284): checks 1 to 4 of R300 first; a refused one completes at once. -/
def State.startEntry (s : State) (r : Nat) : State :=
  let x := s.ring r
  match x.queue, x.started with
  | e :: t, none =>
    if s.canStart && !s.orphan && decide (x.st = .enabled) && s.active x.inst &&
        (!(wordAt e.words 0).bit 16 || s.barrierMet r) then
      let c : Cmd := { src := .ring r, inst := x.inst, remote := none, index := e.index, ws := e.words }
      let s := s.setRing r { x with queue := t, started := some e }
      match s.formFail c with
      | some (status, d) => s.finishCmd c status [] d
      | none => { s with interp := { s.interp with current := some (.ring r) } }
    else s
  | _, _ => s

end Sys2Proof.Machine
end

