-- ==== Sys2Proof/Machine/InstSeq.lean ====
section
/-!
DEFINITION. Instances given up: what a reset of one ends at its acceptance and frees once nothing of it is dispatched
(spec/14 R324, R325), the clearing of a mailbox (R326), the quiescence of a frozen one (R328).
-/

namespace Sys2Proof.Machine

/-! ## What an instance owns -/

def State.instCtxs (s : State) (i : Nat) : List Nat :=
  (s.sched.ctxs.filter fun e => decide (e.2.st ≠ .free) && e.2.inst == i).map fun e => e.1

def State.instParts (s : State) (i : Nat) : List Nat :=
  (s.sched.parts.filter fun e => e.2.inst == i).map fun e => e.1

def State.instRings (s : State) (i : Nat) : List Nat :=
  ((s.forager.rings.filter fun e => decide (e.2.st ≠ .free) && e.2.inst == i).map fun e => e.1)

def State.instTables (s : State) (i : Nat) : List Nat :=
  (s.cyc.filter fun e => decide (e.2.st ≠ .empty) && e.2.inst == i).map fun e => e.1

def State.instStreams (s : State) (i : Nat) : List Nat :=
  (s.comb.entries.filter fun e => e.2.used && e.2.inst.toNat == i).map fun e => e.1

def State.instModels (s : State) (i : Nat) : List Nat := (s.pager.models.filter fun e => e.2 == i).map fun e => e.1

/-! ## Mailboxes (R326, R327) -/

/-- IN_BUSY of a mailbox, and with it the level of interrupt source 101 + i (R381). -/
def State.setInBusy (s : State) (i : Nat) (b : Bool) : State :=
  (s.setInst i { s.inst i with inBusy := b }).irqLevel (101 + i) b

/-- A mailbox without messages and without a matched version. -/
def State.clearMbx (s : State) (i : Nat) : State :=
  (s.setInst i { s.inst i with outValid := false, matched := none, outQueue := [] }).setInBusy i false

/-- A message in the outbound buffer, with its vector. -/
def State.mbxShow (s : State) (i : Nat) (ws : List Word) : State :=
  let put (s : State) (n : Nat) : State := s.setReg (pageKey i (Reg.mbxOut + 4 * n)) (wordAt ws n)
  let s := (List.range (min ws.length 128)).foldl put s
  let s := s.setInst i { s.inst i with outValid := true }
  if (s.reg (pageKey i Reg.mbxCtrl)).bit 0 then s.msix i 0 else s

/-- A message of the firmware's: it waits while the buffer holds one. -/
def State.mbxPost (s : State) (i : Nat) (ws : List Word) : State :=
  let x := s.inst i
  if x.outValid then s.setInst i { x with outQueue := x.outQueue ++ [ws] } else s.mbxShow i ws

/-- Header of a message that the device sends: code, SEQ, TAG, the version of the code that serves, REPLY, STATUS. -/
def State.mbxHead (s : State) (msg seq : Nat) (tag : Word) (reply : Bool) (status : Byte) : List Word :=
  [Word.mk (msg * 2 ^ 16 + seq), Word.mk (s.fw.serving.1 * 2 ^ 16 + s.fw.serving.2), tag,
   Word.mk (bitAt 31 reply + status.toNat)]

/-- The reply to a request. -/
def State.mbxReply (s : State) (q : MbxReq) (status : Byte) : State :=
  s.mbxPost q.inst (s.mbxHead q.msg q.seq q.tag true status)

/-! ## The acceptance of a reset (R324 stages 1–3) -/

/-- Is a long operation of the instance, or a save or restore of it? -/
def LongOp.concerns (o : LongOp) (i : Nat) : Bool :=
  o.inst == i || match o.body with
    | .save j _ _ => j == i
    | .restore j _ => j == i
    | _ => false

/-- RUN_STEPs of a context never dispatched end ST_DISCARDED. -/
def State.dropRuns (s : State) (c : Nat) : State :=
  let isRun (q : Step) : Bool := q.origin == .run
  let mine := (s.ctx c).queued.filter isRun
  let s := s.modCtx c fun x => { x with queued := dropWhere isRun x.queued,
                                        endedNo := (mine.getLast?.map fun q => q.number).getD x.endedNo }
  mine.foldl (fun s q => match q.op with
    | some o => s.opEnd o St.discarded
    | none => s) s

/-- A long operation other than a RUN_STEP squashed, with what it had begun. -/
def State.squashOp (s : State) (k : Nat) (o : LongOp) : State :=
  let s := s.opEnd k St.squashed
  match o.body with
  | .model m _ => s.dropModel m
  | .tokenRead i gen _ _ _ => if (s.mem i).gen = gen then s else s.dropLog (logKey i gen)
  | _ => s

/-- Stage 1: the rings stop, fetched entries are discarded, started ones complete or are squashed (R287, R324). -/
def State.haltRings (s : State) (i : Nat) (squash : Bool) : State :=
  (s.instRings i).foldl (fun s r =>
    let s := if (s.ring r).st = .enabled then s.drainRing r false false else s
    if squash then s.squashRing r else s) s.urgent

/-- Stage 2: RUN_STEPs never dispatched end, the other long operations but the reset's own are squashed, what is composed is
discarded, and the cyclic tables stop. -/
def State.haltWork (s : State) (i : Nat) (q : ResetSeq) : State :=
  let s := (s.instCtxs i).foldl (fun s c => s.dropRuns c) s.urgent
  let others := s.interp.ops.filter fun e => !e.2.ended && e.2.concerns i && decide (some e.1 ≠ q.op) &&
    match e.2.body with
    | .runStep _ _ => false
    | .reset _ _ => false
    | _ => true
  let s := others.foldl (fun s e => s.squashOp e.1 e.2) s
  let s := (s.instParts i).foldl (fun s p =>
    (((s.discardForecast p).endUndispatched p .main).endUndispatched p .draft).endUndispatched p .fallback) s
  (s.instTables i).foldl (fun s k => s.stopTable k q.squash) s

/-- Has every started entry of the instance's rings completed, but for one that waits for what the later stages end? -/
def State.ringsHalted (s : State) (i : Nat) : Bool :=
  (s.instRings i).all fun r => (s.ring r).started.isNone || s.interp.waiting.any fun w => w.1 == .ring r

/-- The sequence of instance i taken on to its third stage (R324). An FLR that joins it forces SQUASH = 1 from the next stage
on (R325). -/
def State.advanceReset (s : State) (i : Nat) : State :=
  let s := match (s.inst i).seq with
    | some q =>
      if q.stage = 1 ∧ s.ringsHalted i = true then
        (s.haltWork i q).setInst i { (s.haltWork i q).inst i with seq := some { q with stage := 2 } }
      else s
    | none => s
  match (s.inst i).seq with
  | some q =>
    if q.stage = 2 ∧ (s.instTables i).all (fun k => !(s.table k).busy) = true then
      let s := if q.squash then (s.instCtxs i).foldl (fun s c => s.stopStep c) s.urgent else s
      s.setInst i { s.inst i with seq := some { q with stage := 3 } }
    else s
  | none => s

/-- A reset accepted: `st` is the state that the instance shows meanwhile. -/
def State.beginReset (s : State) (i : Nat) (st : InstState) (squash : Bool) (op : Option Nat) (final : Byte) : State :=
  let s := s.haltRings i squash
  (s.setInst i { s.inst i with st, seq := some { squash, op, final } }).advanceReset i

/-! ## The end of a reset (R324 stages 4–7) -/

/-- Is nothing of the instance dispatched, drawn, started or changing slots? -/
def State.instQuiet (s : State) (i : Nat) : Bool :=
  ((s.instCtxs i).all fun c => (s.ctx c).dispatched.isNone && decide ((s.ctx c).st ≠ .loading) &&
      decide ((s.ctx c).st ≠ .saving)) &&
  ((s.instParts i).all fun p => (s.serve p).batch.isNone && (s.serve p).drStep.isNone && (s.serve p).fbStep.isNone) &&
  ((s.instRings i).all fun r => (s.ring r).started.isNone)

/-- Stage 4: every stream retired with REASON 0x11 and released. -/
def State.retireAll (s : State) (i : Nat) : State :=
  (s.instStreams i).foldl (fun s k =>
    let s := if (s.entry k).st = .retired then s else s.retire k 0x11
    if (s.entry k).st = .retired then s.release k else s) s

/-- Stage 5: the objects of the instance freed. -/
def State.freeObjects (s : State) (i : Nat) : State :=
  let s := (s.instCtxs i).foldl (fun s c => s.freeCtx c) s
  let s := (s.instParts i).foldl (fun s p => s.dropPartition p) s
  let s := (s.pager.prefixes.filter fun e => e.2.inst == i && !e.2.freed).foldl (fun s e => s.freePrefix e.1 e.2) s
  let s := { s with sampler := { s.sampler with
    tables := dropWhere (fun e => e.2.inst == i) s.sampler.tables,
    automata := dropWhere (fun e => e.2.inst == i) s.sampler.automata } }
  let s := (s.instModels i).foldl (fun s m => s.dropModel m) s
  let s := { s with cyc := dropWhere (fun e => e.2.inst == i) s.cyc }
  let s := { s with forager := { s.forager with tokens := dropWhere (fun e => e.2.inst == i) s.forager.tokens } }
  let s := (s.instRings i).foldl (fun s r => s.eraseRing r) s
  let s := (s.eraseRing i).andNotReg (pageKey i Reg.forBootCtrl) 1
  let s := s.setDlog i { s.dlog i with en := false }
  let s := s.setInst i { s.inst i with fullNext := true, scratch := [] }
  s.pagerSync

/-- The memory key of a KEYID generated anew and put into every memory controller port (R394, R408, R426): an XTS key pair of
the DRBG. A guard core whose DRBG is zeroised makes none. -/
def State.newKeyId (s : State) (k : Nat) : State :=
  if !s.guard.drbg then s else
  let n := s.guard.keyGens + 1
  let data := (List.range 16).map fun j => Config.drbgWord n j
  let s := { s with guard := { s.guard with keyGens := n, memKeys := Tbl.insert s.guard.memKeys k n } }
  s.emits ((List.range 12).map (fun i => Output.key 1 i k data) ++
    (List.range 32).map fun i => Output.key 2 i k data)

/-- The memory key of an instance (R408). -/
def State.newMemKey (s : State) (i : Nat) : State := s.newKeyId (i + 1)

/-- The FLR of a function completed to the PCIe controller, where it has not been (R325). -/
def State.flrComplete (s : State) (i : Nat) : State :=
  let x := s.inst i
  if x.flrDue.isSome then (s.setInst i { x with flrDue := none }).emit (.flrDone i) else s

/-- Stages 4 to 7 of the sequence of an instance, once nothing of it is in flight. PROGRESS and PARTIAL of INSTANCE_RESET
are the streams that it retires and the rings that it frees; a restore that failed keeps its own (R312). -/
def State.finishReset (s : State) (i : Nat) : State :=
  match (s.inst i).seq with
  | none => s
  | some q =>
    if q.stage < 3 ∨ s.instQuiet i = false then s
    else
      let streams := ((s.instStreams i).filter fun k => decide ((s.entry k).st ≠ .retired)).length
      let rings := ((s.instRings i).filter fun r => decide (64 ≤ r)).length
      let s := (((s.urgent.retireAll i).freeObjects i).newMemKey i).clearMbx i
      let s := s.setInst i { s.inst i with st := .active, seq := none }
      let s := match q.op with
        | some o =>
          let s := if q.final = St.ok then s.opProgress o (BitVec.ofNat 64 streams) (BitVec.ofNat 64 rings) else s
          s.opEnd o q.final
        | none => s
      s.flrComplete i

/-- Every sequence that can end ends; ORPHAN_RESET is answered after the last (R347, R349). -/
def State.resetsSettle (s : State) : State :=
  let s := ((s.insts.filter fun e => e.2.seq.isSome).map fun e => e.1).foldl (fun s i => (s.advanceReset i).finishReset i) s
  match s.fw.orphanReq with
  | some q =>
    if s.insts.any fun e => e.2.seq.isSome then s
    else ({ s with fw := { s.fw with orphanReq := none } }).mbxReply q St.ok
  | none => s

/-! ## Freezing (R328) -/

/-- Are all prompt fetches of the instance over, and its long operations other than RUN_STEP and a save of it ended? -/
def State.instStill (s : State) (i : Nat) : Bool :=
  s.instQuiet i &&
  ((s.instStreams i).all fun k => (s.entry k).st != .admitted || !(s.mem k).fetching) &&
  !s.interp.ops.any fun e => !e.2.ended && e.2.inst == i && match e.2.body with
    | .runStep _ _ => false
    | .save j _ _ => decide (j ≠ i)
    | _ => true

end Sys2Proof.Machine
end

