-- ==== Sys2Proof/Machine/GuardOps.lean ====
section
/-!
DEFINITION. The guard core (spec/18): whether it serves, zeroisation and the seal (R342, R399, R400), fuse burns (R398,
R402, R414), link keys (R407).
-/

namespace Sys2Proof.Machine

/-! ## Whether security operations are served (R342, R399) -/

/-- Is the guard core sealed? -/
def State.guardSealed (s : State) : Bool := decide ((s.proc guardCore).st = .isSealed)

/-- Does the guard core serve: its ROM before the firmware runs, once its self-tests have passed (R336), its runtime
afterwards? -/
def State.guardUp (s : State) : Bool :=
  s.guard.postPass && (s.procUp guardCore || (decide (s.fw.phase ≠ .run) && decide ((s.proc guardCore).st = .off)))

/-- The status that a security operation completes with while the guard core does not serve: sealed, or restarting or
self-testing. `random`: the operation needs random values, and a conditional test has failed. -/
def State.guardFail (s : State) (random : Bool) : Option Byte :=
  if s.guardSealed then some St.auth
  else if !s.guardUp || s.guard.testing.isSome || (random && s.guard.retestAt.isSome) then
    some St.busy
  else none

/-- GRD_FLT_INFO: status, message or request code, instance. -/
def State.grdInfo (s : State) (status : Byte) (code inst : Nat) : State :=
  s.setReg Reg.grdFltInfo (Word.mk (status.toNat * 2 ^ 24 + code % 2 ^ 16 * 2 ^ 8 + inst))

/-- DBG_FW_FLT_INFO: status and processor (R353). -/
def State.fwInfo (s : State) (status : Byte) (p : Nat) : State :=
  s.setReg Reg.dbgFwFltInfo (Word.mk (status.toNat * 2 ^ 24 + p))

/-! ## Zeroisation (R400) -/

/-- Does a trigger's scope take in the IDE and memory keys? -/
def ZeroCause.full : ZeroCause → Bool
  | .zeroize => true
  | .lifecycle => true
  | .seal => false
  | .freeze => false

/-- The stores of a trigger overwritten; the read-back ends later (ZEROIZE_DONE). KS_ZERO reaches every target (R426), so
only the full scope raises it; the seal overwrites the link keys one by one. -/
def State.zeroStart (s : State) (cause : ZeroCause) (req : Option MbxReq) : State :=
  let g := s.guard
  let g := { g with openHash := none, current := none, previous := none, waiting := none, activateAt := 0, sessions := [],
                    linkKeys := [], linkDue := false, deviceKey := false, aliasKey := false, drbg := false,
                    udsBlocked := true, ide := if cause.full then [] else g.ide,
                    memKeys := if cause.full then [] else g.memKeys,
                    zero := some (cause, match g.zero with
                      | some (_, some q) => some q
                      | _ => req) }
  let ports := s.guard.linkKeys.map fun e => e.1
  let s := { s with guard := g }
  if cause.full then s.emit .keyZero
  else if cause = ZeroCause.seal then ports.foldl (fun s p => s.emit (.key 3 p 0 (List.replicate 8 0))) s
  else s

/-- An FW_STAGE answered without touching the slot; its status is the last that DBG_FW_STAGE shows (R353). -/
def State.stageAnswer (s : State) (q : MbxReq) (status : Byte) : State :=
  { s with fw := { s.fw with stageStatus := status } }.mbxReply q status

/-- A staged image refused: the slot is unusable (R338, R352). -/
def State.stageReject (s : State) (q : MbxReq) (status : Byte) : State :=
  let s := { s with fw := { s.fw with stage := .rejected, stageStatus := status, stageReq := none } }
  ((s.fwInfo status guardCore).raise { id := Flt.imgReject, unit := guardCore, status }).mbxReply q status

/-- What the guard core was doing for others as it is sealed: a verification ends REJECTED with ST_AUTH (R408), other
requests are answered ST_AUTH (R342). -/
def State.guardAbort (s : State) : State :=
  let s := match s.fw.stageReq with
    | some q => s.stageReject q St.auth
    | none => s
  let s := match s.guard.testing with
    | some q => ({ s with guard := { s.guard with testing := none } }).mbxReply q St.auth
    | none => s
  match s.store.openReq with
  | some l => ({ s with store := { s.store with openReq := none } }).mbxReply l.req St.auth
  | none => s

/-- The guard core sealed: its services stop, its sessions end. -/
def State.markSealed (s : State) : State :=
  let procs := Tbl.insert s.fw.procs guardCore { s.proc guardCore with st := .isSealed }
  let s := { s with fw := { s.fw with procs }, guard := { s.guard with retestAt := none, sessions := [] } }
  s.guardAbort

/-- The seal of R342: the SEALED event and the seal's zeroisation. -/
def State.sealGuard (s : State) : State :=
  if s.guardSealed then s
  else ((s.markSealed.fwInfo St.auth guardCore).raise { id := Flt.fwSealed, unit := guardCore, status := St.auth }).zeroStart
    .seal none

/-- ZEROIZE, or the entry into RETURNED or SCRAPPED: the full scope, and then the guard core seals. -/
def State.zeroFull (s : State) (cause : ZeroCause) (req : Option MbxReq) : State :=
  let s := s.zeroStart cause req
  if s.guardSealed then s
  else (s.markSealed.fwInfo St.auth guardCore).raise { id := Flt.fwSealed, unit := guardCore, status := St.auth }

/-! ## Fuse burns (R398, R402, R414) -/

/-- Word and bits that a burn asks for: the missing ones of the lifecycle pattern, or bit v − 1 of the SVN thermometer. -/
def State.burnWord (s : State) (k : BurnKind) : Nat × Word :=
  match k with
  | .lifecycle target => (508, (Word.mk (2 ^ target - 1)) &&& ~~~(s.fuse 508))
  | .min svn => (509 + (svn - 1) / 32, Word.mk (2 ^ ((svn - 1) % 32)))

/-- A burn begun, or repeated. -/
def State.burnGo (s : State) (b : Burn) : State :=
  let w := s.burnWord b.kind
  ({ s with guard := { s.guard with burn := some b } }).emit (.fuseProgram w.1 w.2)

/-- A burn asked for: one at a time, in order. -/
def State.burnStart (s : State) (b : Burn) : State :=
  if s.guard.burn.isSome then { s with guard := { s.guard with burns := s.guard.burns ++ [b] } } else s.burnGo b

/-- The burn at hand ends, and the next begins. -/
def State.burnNext (s : State) : State :=
  let rest := s.guard.burns
  let s := { s with guard := { s.guard with burn := none, burns := rest.tail } }
  match rest.head? with
  | some b => s.burnGo b
  | none => s

/-! ## Signature blocks (R401, R402) -/

/-- The little-endian word at a byte offset. -/
def wordFrom (ws : List Word) (at_ : Nat) : Word := Word.mk (beNat (bytesFrom ws at_ 4).reverse)

/-- The signature block that lies at a byte offset; SVN is one of 0–63. -/
def sigBlock (ws : List Word) (at_ : Nat) : SigBlock :=
  let w := wordFrom ws (at_ + 4)
  { formed := wordFrom ws at_ == 0x48585347#32 && w.field 7 0 == 1 && decide (w.field 23 16 < 64), svn := w.field 23 16,
    keyIndex := w.field 15 8, keyHash := digestWords (bytesFrom ws (at_ + 8) 2048) }

/-- D of an image whose signature block lies at a byte offset. -/
def imageDigest (ws : List Word) (sig : Nat) : List Word := digestWords (bytesFrom ws 0 (sig + 8))

/-- Is a block's signer one whose key hash is fused and not revoked (R402)? -/
def State.keyGood (s : State) (b : SigBlock) : Bool :=
  decide (b.keyIndex < 4) && s.guard.fused.getLsbD b.keyIndex && !s.guard.revoked.getLsbD b.keyIndex &&
    b.keyHash == (List.range 12).map fun j => s.fuse (277 + 12 * b.keyIndex + j)

/-! ## Link keys (R407) -/

/-- Is the partner of a link port a member? -/
def State.portMember (s : State) (port : Nat) : Bool :=
  let m := Config.portPartner port
  decide (m < 8192) && decide ((s.member m).st ≠ .empty)

/-- The link key of this chip and another from a swarm key (R407): HKDF-SHA-384 over "HXLK" and the two CHIP_IDs. -/
def linkKey (key : List Word) (a b : Dword) : List Word :=
  let id (n : Nat) : List Byte := (beBytes 8 n).reverse
  wordsOf (hkdf384 (bytesOf key) (List.replicate 48 0)
    ([0x48, 0x58, 0x4C, 0x4B] ++ id (min a.toNat b.toNat) ++ id (max a.toNat b.toNat)) 32)

/-- The key of every link port whose partner is a member derived from the current swarm key. -/
def State.deriveLinks (s : State) : State :=
  match s.guard.current with
  | none => s
  | some k =>
    let s := { s with guard := { s.guard with linkDue := false } }
    ((List.range Config.linkPorts).filter s.portMember).foldl (fun s p =>
      let self := (s.swarm.self.map fun x => x.2.1).getD 0
      let key := linkKey k.key self (s.member (Config.portPartner p)).chipId
      ({ s with guard := { s.guard with linkKeys := Tbl.insert s.guard.linkKeys p { epoch := k.epoch, key } } }).emit
        (.key 3 p (k.epoch.toNat % 256) key)) s

end Sys2Proof.Machine
end

