-- ==== Sys2Proof/Machine/ThmOps.lean ====
section
/-!
DEFINITION. The thermal logic (spec/20 R440, R441, spec/09 R237): the outputs of a stack and of its die, the deferral of a
throttle, the step-slip notices of a throttle that takes effect.
-/

namespace Sys2Proof.Machine

def State.stack (s : State) (k : Nat) : StackThm := Tbl.get (fun _ => {}) s.power.stackSet k

def State.setStack (s : State) (k : Nat) (x : StackThm) : State :=
  { s with power := { s.power with stackSet := Tbl.put (fun _ => {}) s.power.stackSet k x } }

def State.modStack (s : State) (k : Nat) (f : StackThm → StackThm) : State := s.setStack k (f (s.stack k))

/-- THR_STACK. -/
def StackThm.out (x : StackThm) : Bool := x.stkCrit || (x.hot && !x.deferred)

/-- Contexts whose dispatched step holds a timed launch on a partition with cores on a die (R237). -/
def State.timedOn (s : State) (d : Nat) : List Nat :=
  (s.sched.ctxs.filter fun e => e.2.dispatched.any (fun st => decide (st.timingCount ≠ 0)) &&
    (s.partD e.2.partition).qcs.any fun q => decide (q / 32 = d)).map fun e => e.1

/-- The slip that a throttle to F sixteenths causes to a step: ⌈rem × (16 / F − 1)⌉ ns, or WINDOW_NS (R237). -/
def throttleSlip (estNs elapsed windowNs frac : Nat) : Nat :=
  if estNs = 0 then windowNs else ((estNs - elapsed) * (16 - frac) + (frac - 1)) / frac

/-- PWR_FLT_INFO: die and stack. -/
def State.pwrInfo (s : State) (k : Nat) : State := s.setReg Reg.pwrFltInfo (Word.mk (k / 3 * 2 ^ 16 + k))

/-- THR_DIE of die d brought up to date: a rise is a THERMAL event and sends the notices of the timed steps on it. -/
def State.dieSync (s : State) (d : Nat) : State :=
  let now := [3 * d, 3 * d + 1, 3 * d + 2].any fun k => (s.stack k).thr
  let was := s.power.thrDie.getLsbD d
  let bit : BitVec 4 := 1#4 <<< d
  if now = was then s
  else if now then
    let s := { s with power := { s.power with thrDie := s.power.thrDie ||| bit } }
    (s.timedOn d).foldl (fun s c => match s.stepOf c with
      | some st => s.sendSlip st (throttleSlip st.estNs (s.ns - st.dispatchedAt) st.windowNs Config.thmFrac)
      | none => s) (s.healthEvent 4)
  else { s with power := { s.power with thrDie := s.power.thrDie &&& ~~~bit } }

/-- The outputs of stack k brought up to date: a rise of THR_STACK is a throttle applied. -/
def State.thmSync (s : State) (k : Nat) : State :=
  let x := s.stack k
  let now := x.out
  if now = x.thr then s
  else
    let s := s.setStack k { x with thr := now }
    let s := if now then (((s.incReg Reg.pwrThmCnt).pwrInfo k).raise { id := Flt.throttle, unit := k }).healthEvent 4
      else s
    s.dieSync (k / 3)

/-- The deferral of stack k ends; it does not begin again before STK_HOT falls. -/
def State.endDefer (s : State) (k : Nat) : State :=
  if (s.stack k).deferred then (s.modStack k fun x => { x with deferred := false, blocked := true }).thmSync k else s

/-- Every deferral ends: the power core has left RUNNING (R342). -/
def State.endDefers (s : State) : State := (List.range 12).foldl (fun s k => s.endDefer k) s

/-- Both inputs of stack k low: the hold before HOT falls begins. -/
def State.holdFrom (s : State) (k : Nat) : State :=
  s.modStack k fun x => { x with lowSince := if x.hot && !x.stkHot && !x.stkCrit then some s.ns else none }

def hotRiseEffect (k : Nat) (s : State) : State :=
  let x := s.stack k
  if x.stkHot then s
  else
    let us := s.regField Reg.pwrThmDefer 15 0
    let defers := (s.reg Reg.pwrCtrl).bit 1 && decide (us ≠ 0) && s.procUp powerCore && !x.stkCrit && !x.blocked &&
      !(s.timedOn (k / 3)).isEmpty
    (s.setStack k { x with stkHot := true, hot := true, lowSince := none, deferred := defers,
                           deferEnd := if defers then s.ns + us * 1000 else x.deferEnd }).thmSync k

/-- STK_HOT falls: a deferral ends without a throttle, HOT falling with it (log 31). -/
def hotFallEffect (k : Nat) (s : State) : State :=
  let x := s.stack k
  if !x.stkHot then s
  else
    let s := s.setStack k { x with stkHot := false, blocked := false, deferred := false,
                                   hot := x.hot && !x.deferred }
    (s.holdFrom k).thmSync k

def critRiseEffect (k : Nat) (s : State) : State :=
  let x := s.stack k
  if x.stkCrit then s
  else
    let s := s.setStack k { x with stkCrit := true, hot := true, lowSince := none }
    let s := (s.pwrInfo k).raise { id := Flt.crit, unit := k }
    let s := if x.deferred then
        ((s.pwrInfo k).raise { id := Flt.deferCut, unit := k }).modStack k fun y =>
          { y with deferred := false, blocked := true }
      else s
    s.thmSync k

def critFallEffect (k : Nat) (s : State) : State :=
  let x := s.stack k
  if !x.stkCrit then s else ((s.setStack k { x with stkCrit := false }).holdFrom k).thmSync k

/-- PWR_THM_HOLD µs of low inputs have passed. -/
def holdReleaseEffect (k : Nat) (s : State) : State :=
  match (s.stack k).lowSince with
  | some t =>
    if t + s.regField Reg.pwrThmHold 15 0 * 1000 ≤ s.ns then
      (s.modStack k fun x => { x with hot := false, lowSince := none }).thmSync k
    else s
  | none => s

/-- The deferral's time has passed, or no step that justifies it is left. -/
def deferExpireEffect (k : Nat) (s : State) : State :=
  let x := s.stack k
  if x.deferred && (decide (x.deferEnd ≤ s.ns) || (s.timedOn (k / 3)).isEmpty) then s.endDefer k else s

end Sys2Proof.Machine
end

