-- ==== Sys2Proof/Machine/FwOps.lean ====
section
/-!
DEFINITION. The firmware processors (spec/15): crashes and restarts (R341–R343), the steps of an activation (R336, R339)
and of a core update (R340), entry into ORPHAN and the ways out of it (R344–R347).
-/

namespace Sys2Proof.Machine

def State.setProc (s : State) (p : Nat) (x : Proc) : State := { s with fw := { s.fw with procs := Tbl.insert s.fw.procs p x } }

def State.modProc (s : State) (p : Nat) (f : Proc → Proc) : State := s.setProc p (f (s.proc p))

/-- Restart limit in ns and crash limit of a processor (R342). -/
def restartLimit (p : Nat) : Nat :=
  if p = schedulerCore then 50000000 else if p = powerCore then 5000000 else if p = guardCore then 250000000 else 10000000

def crashLimit (p : Nat) : Nat := if p = guardCore then 3 else 4

/-- Counted crashes of the last 60 min. -/
def State.crashCount (s : State) (p : Nat) : Nat :=
  ((s.proc p).crashes.filter fun t => decide (s.ns - t ≤ 3600000000000)).length

/-! ## Restarts (R341–R343) -/

/-- What a processor's absence means while it restarts, or is HALTED. -/
def State.procDown (s : State) (p : Nat) : State :=
  if p < 32 then s.modAgent p fun x => { x with held := some (x.held.getD s.cc) }
  else if p = schedulerCore then { s with sched := { s.sched with rebuilding := true } }
  else if p = powerCore then s.endDefers
  else { s with guard := { s.guard with sessions := [], postDone := false, postPass := false, postBits := 0 } }

/-- RESTARTING: reset, its section reloaded. -/
def State.procRestart (s : State) (p cause : Nat) (planned : Bool) : State :=
  let x := s.proc p
  (s.setProc p { x with st := .restarting, planned, cause, restarts := x.restarts + 1,
                        lastTime := Word.mk (s.ns % 2 ^ 32), due := s.ns + restartLimit p }).procDown p

/-- The reactions of R342 and R352 to a processor that has reached its crash limit. -/
def State.procHalt (s : State) (p : Nat) : State :=
  if p = guardCore then s.sealGuard
  else
    let s := (s.modProc p fun x => { x with st := .halted }).fwInfo 0 p
    if p < 32 then s.raise { id := Flt.fwHalted, unit := p, fence := some (1, p) }
    else s.raise { id := Flt.hubHalted, unit := p }

/-- A counted crash. One at the limit, or while the fence of brood stack 0 leaves no image to reload from (R372), halts or
seals. -/
def State.crash (s : State) (p cause : Nat) (pc : Word) : State :=
  let x := s.proc p
  let recent := x.crashes.filter fun t => decide (s.ns - t ≤ 3600000000000)
  let s := (s.setProc p { x with crashes := s.ns :: recent, cause, pc }).fwInfo 0 p
  let s := s.raise { id := Flt.fwWdt, unit := p }
  if crashLimit p ≤ recent.length + 1 ∨ s.fences.has 2 0 = true then (s.procDown p).procHalt p else s.procRestart p cause false

/-- A planned restart of a RUNNING processor, not counted. -/
def State.plannedRestart (s : State) (p cause : Nat) : State :=
  if s.procUp p then s.procRestart p cause true else s

/-- The hold of a cluster ends (R343): stall and gate limits move on by the part of the hold that their stalls have seen. -/
def State.holdEnd (s : State) (a : Nat) : State :=
  match (s.agent a).held with
  | none => s
  | some t =>
    let shift (from_ l : Tbl Nat) : Tbl Nat :=
      l.map fun e => (e.1, e.2 + (s.cc - max t (Tbl.get (fun _ => 0) from_ e.1)))
    let moved (k : CoreState) : CoreState :=
      { k with waitDue := shift k.waitFrom k.waitDue, gateDue := shift k.gateFrom k.gateDue,
               waitFrom := shift k.waitFrom k.waitFrom, gateFrom := shift k.gateFrom k.gateFrom }
    s.modAgent a fun x => { x with held := none, cores := x.cores.map fun k => (k.1, moved k.2) }

/-- Every matched version is cleared, and each function is sent an unsolicited HELLO (R348). -/
def State.helloAll (s : State) : State :=
  ((List.range 64).filter s.hasInst).foldl (fun s i =>
    (s.setInst i { s.inst i with matched := none }).mbxPost i (s.mbxHead 1 0 0 false 0)) s

/-- The RUNNING image's code serves the mailboxes from now on: every HELLO of R348 goes out where its version differs from
that of the code before it. -/
def State.serveNew (s : State) : State :=
  let v := (s.fw.running.major, s.fw.running.minor)
  let old := s.fw.serving
  let s := { s with fw := { s.fw with serving := v } }
  if v ≠ old then s.helloAll else s

/-- A restarting processor is RUNNING again: its services resume. -/
def State.procResume (s : State) (p : Nat) : State :=
  let s := s.modProc p fun x => { x with st := .running }
  if p < 32 then s.holdEnd p
  else if p = schedulerCore then
    let s := State.serveNew { s with sched := { s.sched with rebuilding := false } }
    s.sched.parts.foldl (fun s e => s.fixPartition e.1) s
  else if p = guardCore then
    if s.guard.linkDue then s.deriveLinks else s
  else s

/-! ## Boot and activation (R336, R339) -/

/-- Control cores of present clusters, ascending. -/
def State.controlCores (s : State) : List Nat := (List.range 32).filter s.clusterUp

/-- The open region of control store removed (R362). -/
def State.clearOpen (s : State) : State := { s with store := { s.store with open_ := none, cleared := true, keep := 0 } }

/-- The staged image becomes the running one; the slots exchange their roles (R337, R339), and ALIAS is derived from DEVICE
anew (R400). What the other slot now holds has not been staged. -/
def State.exchange (s : State) : State :=
  let old := s.fw.running
  let new := s.fw.staged
  { s with fw := { s.fw with running := new, staged := old, stage := .empty }, guard := { s.guard with aliasKey := s.guard.deviceKey } }

/-- The microcode written (R362): the open region goes where its OPEN_ABI changes. -/
def State.loadMicrocode (s : State) : State :=
  let s := { s with store := { s.store with loaded := true } }
  if s.store.open_.any fun o => decide (o.abi ≠ s.fw.running.openAbi) then
    s.clearOpen.raise { id := Flt.openCleared }
  else s

/-- The activation ends: its reply, and the burn that raises MIN with every processor RUNNING (R402). -/
def State.activationEnd (s : State) : State :=
  let all := (s.controlCores ++ [schedulerCore, powerCore, guardCore]).all s.procUp
  let svn := s.fw.running.sig.svn
  let req := s.fw.activate
  let s := { s with fw := { s.fw with activate := none, group := [] } }
  let s := match req with
    | some q => s.mbxReply q St.ok
    | none => s
  if all && decide (s.guard.min < svn) then s.burnStart { kind := .min svn } else s

/-- The next processors of an activation restarted, once those before them are done. -/
def State.activateNext (s : State) : Nat → State
  | 0 => s
  | n + 1 =>
    if s.fw.activate.isNone || decide (s.fw.phase ≠ .run) || s.fw.group.any fun p => decide ((s.proc p).st = .restarting)
    then s
    else
      let s := if s.fw.group = [schedulerCore] then s.loadMicrocode else s
      match s.fw.loads with
      | [] => s.activationEnd
      | p :: rest =>
        let four := if p < 32 then ((p :: rest).takeWhile fun q => decide (q < 32)).take 4 else [p]
        let s := { s with fw := { s.fw with loads := (p :: rest).drop four.length, group := four } }
        (four.foldl (fun s q => s.plannedRestart q 4) s).activateNext n

/-! ## FW_CORE_UPDATE (R340) -/

/-- The update over: drained quarter-clusters rejoin their partitions as spares, and the reply goes out. -/
def State.updateEnd (s : State) (u : CoreUpdate) (status : Byte) : State :=
  let s := { s with fw := { s.fw with update := none } }
  (u.drained.foldl (fun s e => s.qcReturn e.1 e.2) s).mbxReply u.req status

/-- The update goes on: the core reloads once no quarter-cluster has to leave, and the update ends with it. -/
def State.updateSettle (s : State) : State :=
  match s.fw.update with
  | none => s
  | some u =>
    let x := (s.proc u.cluster).st
    if u.reloading then
      if x = .running then s.updateEnd u St.ok
      else if x = .halted ∨ x = .off then s.updateEnd u St.fenced
      else s
    else if (u.toDrain.filter s.qcHeld).isEmpty then
      let s := { s with fw := { s.fw with update := some { u with toDrain := [], reloading := true } } }
      s.plannedRestart u.cluster 4
    else s

/-! ## The lease and ORPHAN (R344–R347) -/

/-- Streams on entry to ORPHAN (R345): READY ones park, ACTIVE and ADMITTED ones have their park pending. -/
def State.orphanStream (s : State) (i : Nat) : State :=
  match (s.entry i).st with
  | .ready => s.park i 0x09
  | .active | .admitted => s.modEntry i fun e => { e with parkPending := true, orphanPark := true }
  | .free | .parked | .dormant | .retired | .unusable => s

/-- A remote command that has not started is answered ST_ORPHANED. -/
def State.orphanRemote (s : State) (k : Nat) (x : RemoteSlot) : State :=
  State.answerRemote { s with swarm := { s.swarm with slots := Tbl.erase s.swarm.slots k } } x.member x.ticket
    St.orphaned []

/-- The lease ends with a CAUSE: ORPHAN, or within it one more of the record's LINK_EVENTS. -/
def State.enterOrphan (s : State) (cause : Nat) : State :=
  let o := s.fw.orphan
  if s.orphan then
    if cause = 1 then s
    else { s with fw := { s.fw with orphan := { o with linkEvents := min 0xFFFF (o.linkEvents + 1) } } }
  else
    let rs := s.forager.rings.map fun e => e.1
    let enabled := Tbl.count (fun _ x => x.st == .enabled) s.forager.rings
    let started := s.forager.rings.any fun e => e.2.started.isSome
    let o' : OrphanRecord := { cause, orphans := o.orphans + 1, periodMs := s.fw.periodMs, complHeld := started,
                               entryTime := BitVec.ofNat 64 s.ns, ringsStopped := Word.mk enabled }
    let s := { s with fw := { s.fw with lease := .orphan, orphan := o' } }
    let s := rs.foldl (fun s r => s.dropFetched r) s.urgent
    let s := (s.comp.parts.map fun e => e.1).foldl (fun s p => (s.discardForecast p).endDrafting p) s
    let s := (s.comb.entries.map fun e => e.1).foldl (fun s i => s.orphanStream i) s
    let s := (s.cyc.map fun e => e.1).foldl (fun s k => s.stopTable k false) s
    let s := (s.swarm.slots.filter fun e => e.2.entry.isSome && !e.2.running).foldl (fun s e => s.orphanRemote e.1 e.2) s
    (s.fwInfo 0 schedulerCore).raise { id := Flt.fwOrphan }

/-- Completions held for a ring written, oldest first. -/
def State.writeHeld (s : State) (r : Nat) : State :=
  let held := (s.ring r).heldCompl
  held.foldl (fun s ws => s.writeCompl r ws) (s.modRing r fun x => { x with heldCompl := [] })

/-- A ring in service again: from its head, with the published tail at the head (R347); an entry that has started is not
fetched again. -/
def State.refetch (s : State) (r : Nat) : State :=
  s.modRing r fun x => { x with tail := if x.st = .enabled then x.resumeAt else x.tail, fetched := x.resumeAt,
                                probe := x.spec }

/-- Positions that one piece of a TOKEN_LOG_READ copies, from pos to host address dest: up to last, the end of the log
frame, or the end of the 4 KiB page that one translation of dest covers, so that a write that fails leaves PROGRESS at the
positions before it (R46). -/
def tokenSpan (pos last dest : Nat) : Nat :=
  min (min last ((pos / 16384 + 1) * 16384) - pos) ((4096 - dest % 4096) / 4)

/-- Key under which the log of stream i, generation gen, is held. -/
def State.logAt (s : State) (i gen : Nat) : Nat := if (s.mem i).gen = gen then i else logKey i gen

/-- The read of a TOKEN_LOG_READ at its next position; it pauses in ORPHAN (R46, R313). -/
def State.tokenReadAgain (s : State) (k : Nat) : State :=
  match Tbl.find s.interp.ops k with
  | none => s
  | some o => match o.body with
    | .tokenRead i gen first n dest =>
      let pos := first + o.progress.toNat
      if o.ended || s.orphan || decide (o.copying ≠ 0) || decide (first + n ≤ pos) then s
      else match Tbl.find (s.mem (s.logAt i gen)).log (pos / 16384) with
        | some p =>
          let f := if o.mirror then p.mirror else p.primary
          s.emit (s.vcRead none (s.frameAddr f + 4 * (pos % 16384)) (4 * tokenSpan pos (first + n) (dest.toNat + 4 * o.progress.toNat)))
        | none => s.opEnd k St.dataPoisoned
    | _ => s

/-- PHASE of the orphan record becomes QUIET once no step is dispatched; the record is kept after ORPHAN (R346, R354). -/
def State.orphanSettle (s : State) : State :=
  if s.orphan && !s.fw.orphan.quiet && !s.sched.ctxs.any fun e => e.2.dispatched.isSome then
    { s with fw := { s.fw with orphan := { s.fw.orphan with quiet := true } } }
  else s

/-- ORPHAN left to HELD (R347): held completions, then one update of every block in host memory that changed, then a
message on each vector whose summary is not zero (R389). -/
def State.resumeOrphan (s : State) : State :=
  let s := { s with fw := { s.fw with lease := .held, expiry := s.ns + s.fw.periodMs * 1000000 } }
  let rs := s.forager.rings.map fun e => e.1
  let held := s.fw.heldWrites.map fun w => s.dmaWrite w.1 w.2.1 w.2.2
  let s := State.emits { s with fw := { s.fw with heldWrites := [] } } held
  let s := rs.foldl (fun s r => (s.writeHeld r).refetch r) s
  let due := (s.interp.ops.filter fun e => e.2.due && !e.2.addr.getLsbD 0).map fun e => e.1
  let s := due.foldl (fun s k => s.blockUpdate k) s
  let s := (s.interp.ops.map fun e => e.1).foldl (fun s k => s.tokenReadAgain k) s
  let s := (List.range 64).foldl (fun s i =>
    if s.sumEmpty (pageKey i Reg.mbxErrSum0) (pageKey i Reg.mbxErrSum1) then s else s.msix i 1) s
  let s := if s.sumEmpty Reg.prpErrSum0 Reg.prpErrSum1 then s else s.msix 0 2
  (s.comp.parts.map fun e => e.1).foldl (fun s p => s.wakeForecast p) s

/-- ORPHAN left to INACTIVE: every instance's work is reset (R347). What was held is dropped with its rings. -/
def State.resetOrphan (s : State) (q : MbxReq) : State :=
  let s := { s with fw := { s.fw with lease := .inactive, orphanReq := some q, heldWrites := [] } }
  let rs := s.forager.rings.map fun e => e.1
  let s := rs.foldl (fun s r => (s.modRing r fun x => { x with heldCompl := [] }).refetch r) s
  ((List.range 64).filter s.hasInst).foldl (fun s i =>
    let x := s.inst i
    let old : ResetSeq := x.seq.getD { squash := true, op := none, final := St.ok }
    s.beginReset i (if x.st = .active then .active else .resetting) true old.op old.final) s

end Sys2Proof.Machine
end

