-- ==== Sys2Proof/Machine/Settle.lean ====
section
/-!
DEFINITION. How a command acts on the block: not while CCLK is stopped, and with what it let go on carried out before the
next command: fences (R370, R374), instance resets (R324), a core update (R340), an activation (R339); BAR accesses in
the states of R454.
-/

namespace Sys2Proof.Machine

/-- What a command's effect lets go on, carried out at once (log 33). -/
def State.carryOn (s : State) : State :=
  ((((((s.fenceSettle 16).unfenceSettle).resetsSettle).updateSettle).activateNext 8).fetchSettle).orphanSettle

/-- What a command's effect lets go on, and the packets that it queued sent (R249). -/
def State.settle (s : State) : State := s.carryOn.sendDrain

/-- A command's effect f on a clocked block. -/
def act (s : State) (f : State → State) : Host.Outcome State Fault Refusal :=
  .next (if s.clocked then (f s).settle else s)

/-- The effect f of an event of the TB_REF island, which goes on while CCLK is stopped (R411, R437, R441). -/
def actRef (s : State) (f : State → State) : Host.Outcome State Fault Refusal :=
  .next (if s.inReset then s else (f s).settle)

/-- Do firmware processors run: with CCLK, and while a wake waits for them (R437)? -/
def State.fwClocked (s : State) : Bool :=
  s.clocked || (decide (s.power.st = .waking) && s.power.restored && decide (s.power.freeze = none))

/-- WAKING ends once no processor restarts any more. -/
def State.wakeSettle (s : State) : State :=
  if s.power.st = .waking ∧ s.power.restored = true ∧ s.fw.procs.all (fun e => e.2.st != .restarting) = true then
    { s with power := { s.power with st := .run, restored := false } }
  else s

/-- The effect f of an event of a firmware processor. -/
def actFw (s : State) (f : State → State) : Host.Outcome State Fault Refusal :=
  .next (if s.fwClocked then ((f s).settle).wakeSettle else s)

/-- Has the function an instance that its BAR accesses reach: one that exists and is not being reset by an FLR (R317,
R325)? -/
def State.served (s : State) (fn : Nat) : Bool := s.hasInst fn && !(s.inst fn).seq.any fun q => q.flr

/-- An access to a function with no instance (R317). -/
def State.instDrop (s : State) (fn : Nat) : State :=
  ((s.satReg Reg.hpuInstDropCnt).setReg Reg.hpuInstFltInfo (Word.mk fn)).raise { id := Flt.noInst }

/-- A wake event (R437): SLEEPING becomes WAKING; in SLEEP_ENTRY it waits for the end of the entry. -/
def State.wakeEvent (s : State) : State :=
  match s.power.st with
  | .sleeping =>
    ({ s with power := { s.power with st := .waking, wakeSeen := false } }).andNotReg Reg.pwrCtrl 1
  | .sleepEntry => { s with power := { s.power with wakeSeen := true } }
  | _ => s

/-- A BAR write outside the PWR_ window with effect f (R454): dropped, counted and a wake event while the block sleeps;
dropped in a soft reset; counted where the function has no instance; held off by a freeze. -/
def barWrite (s : State) (fn : Nat) (f : State → State) : Host.Outcome State Fault Refusal :=
  .next (
    if s.power.freeze ≠ none then s
    else if s.power.st ≠ .run then (s.satReg Reg.pwrSleepDropCnt).wakeEvent
    else if !s.barOpen then s
    else if !s.served fn then (s.instDrop fn).settle
    else (f s).settle)

/-- A BAR read outside a freeze, f its completion and what it does (R454): 0 while the block sleeps, in a soft reset, and,
counted, for a function with no instance. -/
def State.barReadNow (s : State) (fn : Nat) (f : State → State) : State :=
  if s.power.st ≠ .run ∨ s.barOpen = false then s.emit (.readData fn 0)
  else if !s.served fn then ((s.instDrop fn).emit (.readData fn 0)).settle
  else (f s).settle

/-- A BAR read of a freeze: it completes at the thaw (R418, R454). -/
def State.holdRead (s : State) (fn : Nat) (q : BarRead) : State :=
  { s with power := { s.power with heldReads := s.power.heldReads ++ [(fn, q)] } }

/-- The 4-byte read of the register at BAR0 offset `off` with value v and effect f. -/
def barRead (s : State) (fn off : Nat) (v : State → Word) (f : State → State) : Host.Outcome State Fault Refusal :=
  .next (
    if s.power.freeze ≠ none then s.holdRead fn { bar2 := false, offset := off, width := 4 }
    else s.barReadNow fn fun s => f (s.emit (.readData fn (v s))))

end Sys2Proof.Machine
end

