-- ==== Sys2Proof/Machine/Capping.lean ====
section
/-!
DEFINITION. The capping commands, packets and events, and the health monitor's (spec/11).
-/

namespace Sys2Proof.Machine

/-! ## CAP_BIND, CAP_UNBIND (R256) -/

/-- Regions of a CAP_BIND packet: base and pages. -/
def Cmd.regions (c : Cmd) : List (Dword × Nat) :=
  (List.range (c.field 0x0C 22 16)).map fun r => (c.dword (0x20 + 16 * r), c.field (0x28 + 16 * r) 22 0)

/-- Bytes of a region: [base, end). -/
def regionSpan (r : Dword × Nat) : Nat × Nat := (r.1.toNat, r.1.toNat + 65536 * r.2)

def overlap (a b : Nat × Nat) : Bool := decide (a.1 < b.2) && decide (b.1 < a.2)

/-- Does a region meet one of a bound context other than c? -/
def State.capOverlap (s : State) (c : Nat) (r : Dword × Nat) : Bool :=
  s.cap.ctxs.any fun e => e.1 != c && e.2.regions.any fun q => overlap (regionSpan r) (regionSpan q)

/-- The offset of the first region of context c that fails a range: `before` are those already checked, with their
pages. -/
def State.regionFail (s : State) (c inst : Nat) (before : List (Dword × Nat)) (pages at_ : Nat) :
    List (Dword × Nat) → Option Nat
  | [] => none
  | r :: t =>
    if r.1.toNat % 65536 ≠ 0 ∨ (r.2 ≠ 0 ∧ Config.inWindows inst r.1.toNat (65536 * r.2) = false) ∨
        before.any (fun q => overlap (regionSpan r) (regionSpan q)) = true ∨ s.capOverlap c r = true then some at_
    else if r.2 = 0 ∨ 4194304 < pages + r.2 then some (at_ + 8)
    else s.regionFail c inst (r :: before) (pages + r.2) (at_ + 16) t

def State.capBindFail (s : State) (c : Cmd) : Option Nat :=
  let l := c.field 0x0C 12 0
  let n := c.field 0x0C 22 16
  let loss := (c.dword 0x18).toNat
  if l = 0 ∨ 4096 < l then some 0x0C
  else if n = 0 ∨ 64 < n then some 0x0E
  else if c.dword 0x10 = 0 then some 0x10
  else if loss % 8 ≠ 0 ∨ Config.inWindows c.inst loss 8 = false then some 0x18
  else s.regionFail (c.field 0x08 11 0) c.inst [] 0 0x20 c.regions

def capBindBody (c : Cmd) (s : State) : Answer :=
  let k := c.field 0x08 11 0
  match s.capBindFail c with
  | some d => .refuse St.badLength d
  | none =>
    if (s.ctx k).st = .free ∨ (s.ctx k).inst ≠ c.inst then .refuse St.noResource 0x08
    else if (s.ctx k).role.isSome ∨ (s.capCtx k).isSome then .refuse St.badState 0x08
    else if (s.shardCtx (c.dword 0x10)).isSome then .refuse St.badState 0x10
    else if (s.reg Reg.capCtrl).bit 0 = false ∨ s.swarm.self = none then .refuse St.noResource noField
    else
      let x : CapCtx :=
        { st := .seeking, shard := c.dword 0x10, group := c.field 0x08 23 16, l := c.field 0x0C 12 0,
          want := c.field 0x08 24 24 + 1, override := c.bit 0x08 28, lossAddr := c.dword 0x18, regions := c.regions }
      .done (State.capSeek { s with cap := { s.cap with ctxs := Tbl.insert s.cap.ctxs k x } } k []) []

def execCapBind (src : Src) (s : State) : Host.Outcome State Fault Refusal := act s (·.perform src 0xC4 capBindBody)

def capUnbindBody (c : Cmd) (s : State) : Answer :=
  let k := c.field 0x08 11 0
  if (s.ctx k).st = .free ∨ (s.ctx k).inst ≠ c.inst then .refuse St.noResource 0x08
  else if (s.capCtx k).isNone then .refuse St.badState 0x08
  else .done (s.capRelease k) []

def execCapUnbind (src : Src) (s : State) : Host.Outcome State Fault Refusal :=
  act s (·.perform src 0xC5 capUnbindBody)

/-! ## CAP_FILL (R268, R270) -/


/-- A fill begins: the open cut is voided here, and the first source is asked. -/
def State.fillStart (s : State) (c o : Nat) (g : Nat) (auto : Bool) (source : Nat) : State :=
  match s.capCtx c with
  | none => s
  | some k =>
    let left := k.fillPages g
    let n := (k.cut.map fun u => u.number).getD 0
    let first := if auto then (s.capOrder k).headD 8192 else source
    let f : Fill := { cut := g, source := first, auto, op := some o, left }
    let s := s.modCap c fun k => { k with st := .restoring, cut := none, plan := none, dirty := k.marked, fill := some f,
                                          buddies := k.buddies.map fun b => b.leaveCut k.pages n,
                                          staged := k.staged.map fun g => { g with waiting := [] } }
    let s := s.pendingChanged c
    let s := s.opProgress o 0 (s.cutStep k g)
    if first = 8192 then s.fillGoOn c f St.capNone
    else if left.isEmpty then s.fillDone c f
    else s.fillRequest c first g (left.headD 0)

def capFillBody (c : Cmd) (s : State) : Answer :=
  let k := c.field 0x08 11 0
  let g := c.word 0x10
  if (s.ctx k).st = .free ∨ (s.ctx k).inst ≠ c.inst then .refuse St.noResource 0x08
  else match s.capCtx k with
    | none => .refuse St.badState 0x08
    | some x => match x.st with
      | .unbound | .restoring | .restored => .refuse St.badState 0x08
      | .seeking | .guarded | .exposed | .held =>
        let newest := s.newestCut x
        if c.statusFail.isSome then .refuse St.badLength 0x18
        else if g = 0 ∨ (newest ≠ 0 ∧ newest < g.toNat) then .refuse St.badLength 0x10
        else .long s 0x18 (.capFill k) g [] fun o s =>
          s.fillStart k o g.toNat (c.bit 0x08 16) (c.field 0x0C 12 0)

def execCapFill (src : Src) (s : State) : Host.Outcome State Fault Refusal := act s (·.perform src 0xC6 capFillBody)

/-- A page of a fill written into its region: admitted at once, and taken from the partition's buckets of the memory port
and of the source's link (R216, R260). -/
def State.fillWrite (s : State) (c : Nat) (k : CapCtx) (source page : Nat) : State :=
  let p := (s.ctx c).partition
  let at_ := pageAddr k.regions page
  ((s.urgentTraffic p (s.addrPort at_) 65536).urgentTraffic p (linkPort source) 65536).emit
    (.capStore source page (s.vc1 (some p) at_))

/-- A page of a fill arrives, with the SWARM_STEP and the loss word that the source holds sealed for the cut, and is written into the context's
regions. -/
def fillPageEffect (c : Nat) (page : FillPage) (s : State) : State :=
  match s.capCtx c with
  | none => s
  | some k => match k.fill with
    | none => s
    | some f =>
      if f.left.contains page.number = false then s
      else
        let f' := { f with left := f.left.erase page.number, written := f.written + 1, step := some page.step,
                           loss := some page.loss }
        let s := (s.modCap c fun k => { k with fill := some f' }).fillWrite c k f.source page.number
        let s := match f.op with
          | some o => s.opProgress o (BitVec.ofNat 64 f'.written) (s.cutStep { k with fill := some f' } f.cut)
          | none => s
        if f'.left.isEmpty then s.fillDone c f' else s

def execFillPageReceived (context : Nat) (page : FillPage) (s : State) : Host.Outcome State Fault Refusal :=
  act s (fillPageEffect context page)

/-! ## Buddies' answers (R265, R266) -/

/-- A request of this chip taken off the list by its answer. -/
def State.takeRequest (s : State) (m : Nat) (ticket : Word) (ok : Nat → Bool) : Option (Request × State) :=
  (s.swarm.requests.find? fun q => q.member == m && q.ticket == ticket && ok q.type).map fun q =>
    (q, { s with swarm := { s.swarm with requests := dropWhere (fun r => r.ticket == ticket) s.swarm.requests } })

/-- CAP_ACCEPT: the candidate is a buddy, or the next one is offered the cap. -/
def State.acceptTaken (s : State) (m : Nat) (ticket : Word) (status : Byte) : State :=
  match s.takeRequest m ticket fun t => t == Pkt.capOffer with
  | none => s
  | some (q, s) => match (s.capCtx q.context).bind fun k => k.search with
    | some x =>
      if x.waiting ≠ some (m, ticket) then s
      else (if status = St.ok then s.capTake q.context m else s).capSeek q.context x.tried
    | none => s

def execCapAccept (h : SwarmHdr) (ticket : Word) (status : Byte) (_ : Dword) (s : State) :
    Host.Outcome State Fault Refusal :=
  act s fun s => s.receive h (fun n => n == 2) fun s => s.acceptTaken h.src ticket status


/-- A buddy's acknowledgement for the open cut: its first pages sent, or all with CLOSED (R260, R263). -/
def State.ackTaken (s : State) (c m pages : Nat) (closed : Bool) : State :=
  match s.capCtx c with
  | none => s
  | some k => match k.buddies.find? fun b => b.member == m with
    | none => s
    | some b =>
      let acked := if closed then b.sent else b.sent.take pages
      let put (b : Buddy) : Buddy := { b with closed := b.closed || closed, acked := max b.acked acked.length }
      let s := s.modCap c fun k =>
        { k with buddies := k.buddies.map fun b => if b.member = m then put b else b,
                 staged := k.staged.map fun g =>
                   if acked.contains g.page then { g with waiting := g.waiting.erase m } else g }
      (s.freeStaged c).capTryClose c

/-- CAP_ACK: the answer to a SEAL or a FILL, or an acknowledgement of pages. -/
def State.capAcked (s : State) (m : Nat) (shard : Dword) (n pages : Nat) (closed : Bool) (status : Byte)
    (ticket : Word) : State :=
  match s.takeRequest m ticket fun t => t == Pkt.capFill with
  | some (q, s) => match (s.capCtx q.context).bind fun k => k.fill with
    | some f =>
      if f.source = m ∧ f.cut = n ∧ (wordAt q.payload 4).field 25 24 = 0 ∧ status ≠ St.ok then
        s.fillGoOn q.context f St.capNone
      else s
    | none => s
  | none =>
    let s := match s.takeRequest m ticket fun t => t == Pkt.capSeal with
      | some (_, s) => s
      | none => s
    match s.shardCtx shard with
    | none => s
    | some c =>
      if (s.capCtx c).any (fun k => k.cut.any fun u => u.number == n) = false then s
      else if status ≠ St.ok then
        if (s.capCtx c).any fun k => k.buddies.any fun b => b.member == m && b.inCut then s.buddyLost c m else s
      else s.ackTaken c m pages closed

def execCapAck (h : SwarmHdr) (shard : Dword) (n pages : Nat) (closed : Bool) (status : Byte) (ticket : Word)
    (s : State) : Host.Outcome State Fault Refusal :=
  act s fun s => s.receive h (fun n => n == 3) fun s => s.capAcked h.src shard n pages closed status ticket

/-! ## The owner's transfer (R259, R260) -/

/-- A page of context c sent to a buddy, from its staging frame where it lies in one, with the context's partition tag: at
once for a fresh cap, else as the buckets of its memory port and link admit it (R216, R260). -/
def State.capSend (s : State) (c : Nat) (k : CapCtx) (b : Buddy) (page cut : Nat) : State :=
  let p := (s.ctx c).partition
  let from_ := match k.staged.find? fun g => g.page == page && g.copied with
    | some g => s.frameAddr g.frame
    | none => pageAddr k.regions page
  let ports := [(s.addrPort from_, 65536), (linkPort b.member, 65536)]
  let out : Output := .capPage b.member k.shard cut page (s.vc1 (some p) from_)
  if b.joinCut = cut then (ports.foldl (fun s q => s.urgentTraffic p q.1 q.2) s).emit out
  else s.request p ports out

/-- The next pending page goes to its buddy, in ascending order, the first buddy of the open cut that has one first. -/
def pageTransferEffect (c : Nat) (s : State) : State :=
  match s.capCtx c with
  | none => s
  | some k => match k.cut, k.buddies.find? fun b => b.inCut && !b.pending.isEmpty with
    | some u, some b =>
      let page := b.pending.headD 0
      let move (x : Buddy) : Buddy :=
        if x.member = b.member then { x with pending := x.pending.drop 1, sent := x.sent ++ [page] } else x
      (((s.modCap c fun k => { k with buddies := k.buddies.map move }).capSend c k b page u.number).pendingChanged c)
    | _, _ => s

def execCapPageTransfer (context : Nat) (s : State) : Host.Outcome State Fault Refusal :=
  act s (pageTransferEffect context)

/-- A page is copied into its staging frame: it leaves from there, and the frame is kept until every buddy of the cut has
acknowledged the page. -/
def stagingEffect (c page : Nat) (s : State) : State :=
  match s.capCtx c with
  | none => s
  | some k =>
    if k.staged.any (fun g => g.page == page && !g.copied) = false then s
    else
      let lack := (k.buddies.filter fun b =>
        b.inCut && (b.pending.contains page || (b.sent.drop b.acked).contains page)).map fun b => b.member
      let s := s.modCap c fun k =>
        { k with staged := k.staged.map fun g => if g.page = page then { g with copied := true, waiting := lack } else g }
      s.pendingChanged c

def execStagingCopyDone (context page : Nat) (s : State) : Host.Outcome State Fault Refusal :=
  act s (stagingEffect context page)

def reseekEffect (c : Nat) (s : State) : State :=
  match s.capCtx c with
  | some k =>
    if k.search.isNone && k.reseekAt.any (fun t => decide (t ≤ s.ns)) then
      (s.modCap c fun k => { k with reseekAt := none }).capSeek c []
    else s
  | none => s

def execBuddyReseek (context : Nat) (s : State) : Host.Outcome State Fault Refusal := act s (reseekEffect context)

/-! ## Reports and plans (R261–R263) -/

/-- A CAP_REPORT: recorded, and acted on where this chip leads the group. -/
def State.reportTaken (s : State) (g m : Nat) (r : CapReport) : State :=
  if s.leads g then s.leaderReport g m r
  else
    let x := s.leader g
    s.setLeader g { x with reports := Tbl.insert x.reports m r, risk := max x.risk r.risk, urgent := x.urgent || r.urgent }

def execCapReport (h : SwarmHdr) (step : Dword) (closed risk : Nat) (urgent missed : Bool) (group : Nat) (s : State) :
    Host.Outcome State Fault Refusal :=
  act s fun s => s.receive h (fun n => n == 3) fun s =>
    s.reportTaken group h.src { step, closed, risk, urgent, missed }

/-- What a member records of a PLAN, to go on from as leader (R261). -/
def State.planRecord (s : State) (g : Nat) (groupStep : Dword) (groupCut : Nat) (next void : Bool) (p : Dword)
    (n : Nat) : State :=
  let x := s.leader g
  let x := if x.groupCut < groupCut then { x with groupCut, groupStep } else x
  let named := (if next then [(n, p)] else []) ++ (if groupCut = 0 then [] else [(groupCut, groupStep)])
  let x := { x with made := (named.filter fun e => !x.made.contains e) ++ x.made }
  let fresh := next && decide (x.next ≤ n)
  let x := if fresh then { x with plan := some (n, p), voided := false, next := n + 1, risk := 0, urgent := false } else x
  s.setLeader g (if void && x.plan.any (fun q => q.1 == n) then { x with voided := true } else x)

def execCapPlan (h : SwarmHdr) (groupStep : Dword) (groupCut group : Nat) (nextValid void : Bool) (p : Dword) (n : Nat)
    (s : State) : Host.Outcome State Fault Refusal :=
  act s fun s => s.receive h (fun n => n == 4) fun s =>
    (s.planRecord group groupStep groupCut nextValid void p n).applyPlan group groupStep groupCut nextValid void p n

/-! ## Caps held for other chips (R260, R265) -/


/-- Super frames that hold caps. -/
def State.heldFrames (s : State) : Nat := s.cap.held.foldl (fun n x => n + x.frames.length) 0

/-- Every page of a cut and its SEAL are here. -/
def HeldCut.complete (u : HeldCut) : Bool := decide (u.expect ≤ u.got.length) && u.loss.isSome

/-- A TICKET recorded with its result: the status, and for a CAP_ACK its word of pages held and CLOSED (R248). -/
def State.ticketDone (s : State) (m : Nat) (ticket : Word) (status : Byte) (held : Nat) : State :=
  s.modMember m fun x => { x with tickets := ({ ticket, result := some (status, [Word.mk held]) } :: x.tickets).take 64 }

/-- The status and the pages with which a TICKET of a member was answered before. -/
def State.ticketAnswer (s : State) (m : Nat) (ticket : Word) : Option (Byte × Nat) :=
  ((s.member m).tickets.find? fun t => t.ticket == ticket).bind fun t =>
    t.result.map fun r => (r.1, (r.2.headD 0).toNat)

/-- A cap taken for a member: its two frame slots for each page, where they are to be had. -/
def State.holdCap (s : State) (m : Nat) (shard : Dword) (pages : Nat) : Option State :=
  let limit := s.regField Reg.capHeldLimit 25 0
  if (s.reg Reg.capCtrl).bit 1 = false ∨ limit < s.heldFrames + 2 * pages then none
  else (s.takeMany ([0, 1, 2, 3].flatMap superPools) (2 * pages)).map fun r =>
    let x : HeldCap := { owner := m, shard, pages, frames := r.1 }
    { r.2 with cap := { r.2.cap with held := r.2.cap.held ++ [x] } }

/-- CAP_OFFER: held frames are reserved, or the offer is refused. A cap held already for the same state gives way. -/
def State.offerTaken (s : State) (m : Nat) (shard : Dword) (pages : Nat) (ticket : Word) : State :=
  let say (s : State) (status : Byte) : State :=
    s.sendPkt m Pkt.capAccept ([ticket, Word.mk status.toNat] ++ dwordWords shard)
  match s.ticketAnswer m ticket with
  | some (status, _) => say s status
  | none =>
    let s := s.dropHeld m shard
    match s.holdCap m shard pages with
    | some s => say (s.ticketDone m ticket St.ok 0) St.ok
    | none => say (s.ticketDone m ticket St.noResource 0) St.noResource

def execCapOffer (h : SwarmHdr) (shard : Dword) (pages : Nat) (ticket domain : Word) (s : State) :
    Host.Outcome State Fault Refusal :=
  let _ := domain
  act s fun s => s.receive h (fun n => n == 3) fun s => s.offerTaken h.src shard pages ticket

/-- A CAP_ACK to an owner (R273). -/
def State.sendAck (s : State) (m : Nat) (shard : Dword) (n pages : Nat) (closed : Bool) (status : Byte)
    (ticket : Word) : State :=
  s.sendPkt m Pkt.capAck (dwordWords shard ++
    [Word.mk n, Word.mk (pages + bitAt 23 closed + status.toNat * 2 ^ 24), ticket, 0])

/-- The acknowledgement of the incoming cut as it stands. -/
def State.ackHeld (s : State) (m : Nat) (shard : Dword) : State :=
  match (s.held m shard).bind fun x => x.incoming with
  | some u => s.sendAck m shard u.number u.got.length u.complete St.ok u.ticket
  | none => s

/-- The COMPLETE cap that a CUT names as group-closed becomes the committed one. -/
def HeldCap.commit (x : HeldCap) (n : Nat) : HeldCap :=
  match x.incoming with
  | some u =>
    if u.number = n ∧ u.complete = true then
      let old := (x.committed.map fun y => y.got).getD []
      let stays := x.second.filter fun p => !u.got.contains p
      { x with committed := some { u with got := unionAsc old u.got }, incoming := none,
               second := unionAsc stays (u.got.filter fun p => !x.second.contains p) }
    else x
  | none => x

/-- CAP_CUT, applied once for each cut number. -/
def HeldCap.cut (x : HeldCap) (n commitCut : Nat) (step : Dword) (pages : Nat) (void : Bool) : HeldCap :=
  let x := x.commit commitCut
  if void then { x with incoming := x.incoming.filter fun u => u.number != n }
  else if (x.incoming.any fun u => decide (n ≤ u.number)) || (x.committed.any fun u => decide (n ≤ u.number)) then x
  else { x with incoming := some { number := n, step, expect := pages } }

def execCapCut (h : SwarmHdr) (shard : Dword) (n commitCut : Nat) (step : Dword) (pages : Nat) (void : Bool)
    (s : State) : Host.Outcome State Fault Refusal :=
  act s fun s => s.receive h (fun n => n == 4) fun s => s.modHeld h.src shard fun x => x.cut n commitCut step pages void

/-- The loss word of cut n taken into a held cap. -/
def HeldCap.sealed (x : HeldCap) (n : Nat) (ticket : Word) (loss : Dword) : HeldCap :=
  { x with incoming := x.incoming.map fun u => if u.number = n then { u with loss := some loss, ticket } else u }

/-- What a held cap answers of cut n: its pages and whether it is CLOSED; none where the chip holds no such cut. -/
def HeldCap.answer (x : HeldCap) (n : Nat) : Option (Nat × Bool) :=
  match x.incoming, x.committed with
  | some u, y => if u.number = n then some (u.got.length, u.complete)
                 else (y.filter fun y => y.number == n).map fun y => (y.got.length, true)
  | none, y => (y.filter fun y => y.number == n).map fun y => (y.got.length, true)

/-- CAP_SEAL, a request (R248, R273): the loss word is taken, and the packet is answered at once with what is held; the
acknowledgements that follow say CLOSED once that is all. A cut that the chip does not hold is answered ST_CAP_NONE (log
56). -/
def State.sealTaken (s : State) (m : Nat) (shard : Dword) (n : Nat) (ticket : Word) (loss : Dword) : State :=
  let (status, held, closed, s) : Byte × Nat × Bool × State := match s.ticketAnswer m ticket with
    | some (status, w) => (status, w % 2 ^ 23, w.testBit 23, s)
    | none =>
      let s := s.modHeld m shard fun x => x.sealed n ticket loss
      match (s.held m shard).bind fun x => x.answer n with
      | some (held, closed) => (St.ok, held, closed, s.ticketDone m ticket St.ok (held % 2 ^ 23 + bitAt 23 closed))
      | none => (St.capNone, 0, false, s.ticketDone m ticket St.capNone 0)
  s.sendAck m shard n held closed status ticket

def execCapSeal (h : SwarmHdr) (shard : Dword) (n : Nat) (ticket : Word) (loss : Dword) (s : State) :
    Host.Outcome State Fault Refusal :=
  act s fun s => s.receive h (fun n => n == 3) fun s => s.sealTaken h.src shard n ticket loss

/-- The frame that holds a page of version g of a cap: the slot of the committed version, or the other one (R260). -/
def HeldCap.frameOf (x : HeldCap) (g page : Nat) : Option Frame :=
  let incoming := x.incoming.any fun u => u.number == g && u.got.contains page
  x.frames[2 * page + bitAt 0 (x.second.contains page != incoming)]?

/-- A page of an owner's cut arrives, is written to its frame slot and is acknowledged. -/
def capPageInEffect (m : Nat) (shard : Dword) (n page : Nat) (s : State) : State :=
  match (s.held m shard).bind fun x => x.incoming with
  | some u =>
    if u.number ≠ n then s
    else
      let take (u : HeldCut) : HeldCut := { u with got := insertAsc page u.got }
      let s := s.modHeld m shard fun x => { x with incoming := x.incoming.map take }
      let s := match (s.held m shard).bind fun x => x.frameOf n page with
        | some f => s.emit (.capStore m page (s.vc1 none (s.frameAddr f)))
        | none => s
      s.ackHeld m shard
  | none => s

def execCapPageReceived (owner : Nat) (shard : Dword) (n page : Nat) (s : State) : Host.Outcome State Fault Refusal :=
  act s (capPageInEffect owner shard n page)

/-- The pages of cut g of a held cap, committed or COMPLETE. -/
def HeldCap.version (x : HeldCap) (g : Nat) : Option (List Nat) :=
  let old := (x.committed.map fun y => y.got).getD []
  match x.committed, x.incoming with
  | some y, some u => if y.number = g then some y.got
                      else if u.number = g ∧ u.complete = true then some (unionAsc old u.got) else none
  | some y, none => if y.number = g then some y.got else none
  | none, some u => if u.number = g ∧ u.complete = true then some u.got else none
  | none, none => none

/-- The cap of a state that holds cut g, with the cut's pages, whoever owns it: a fill may come from a spare. -/
def State.heldVersion (s : State) (shard : Dword) (g : Nat) : Option (HeldCap × List Nat) :=
  (s.cap.held.filter fun x => x.shard == shard).findSome? fun x => (x.version g).map fun ps => (x, ps)

/-- A CAP_FILL packet of op 0 is served, 1 releases, 2 reports a lost cap (R266, R270). -/
def State.fillTaken (s : State) (m : Nat) (shard : Dword) (g : Nat) (ticket : Word) (first op : Nat) : State :=
  let say (s : State) (pages : Nat) (status : Byte) : State := s.sendAck m shard g pages false status ticket
  match s.ticketAnswer m ticket with
  | some (status, held) => say s held status
  | none =>
    if op = 0 then match s.heldVersion shard g with
      | some (x, ps) =>
        let s := say (s.ticketDone m ticket St.ok ps.length) ps.length St.ok
        let at_ (p : Nat) : Nat := ((x.frameOf g p).map s.frameAddr).getD 0
        (ps.filter fun p => decide (first ≤ p)).foldl (fun s p =>
          s.emit (.capPage m shard g p (s.vc1 none (at_ p)))) s
      | none => say (s.ticketDone m ticket St.capNone 0) 0 St.capNone
    else
      let s := if op = 1 then s.dropHeld m shard
        else match s.shardCtx shard with
          | some c => s.buddyLost c m
          | none => s
      say (s.ticketDone m ticket St.ok 0) 0 St.ok

/-- OP 3 of a CAP_FILL packet is not defined: the packet is malformed. -/
def execCapFillPacket (h : SwarmHdr) (shard : Dword) (cut : Nat) (ticket : Word) (first op : Nat) (s : State) :
    Host.Outcome State Fault Refusal :=
  act s fun s => s.receive h (fun n => n == 3 && decide (op < 3)) fun s => s.fillTaken h.src shard cut ticket first op

/-! ## The health monitor (R267) -/

def capRiskHintBody (c : Cmd) (s : State) : Answer :=
  .done { s with health := { s.health with hint := BitVec.ofNat 8 (c.field 0x08 7 0) } } []

def execCapRiskHint (src : Src) (s : State) : Host.Outcome State Fault Refusal :=
  act s (·.perform src 0xC7 capRiskHintBody)

/-- HLM_WINDOW_S in ns, 0 taken as 1. -/
def State.healthWindow (s : State) : Nat := max 1 (s.regField Reg.hlmWindowS 11 0) * 1000000000

/-- Events of an input in the window. -/
def State.healthCount (s : State) (input : Nat) : Nat :=
  ((Tbl.get (fun _ => []) s.health.events input).filter fun t => decide (s.ns < t + s.healthWindow)).length

/-- The chip's risk: weighted events in their units, levels and the hint. -/
def State.riskSum (s : State) : Nat :=
  let w0 (h l : Nat) : Nat := s.regField Reg.hlmWeight0 h l
  let w1 (h l : Nat) : Nat := s.regField Reg.hlmWeight1 h l
  let time := match s.tb.lock with
    | .holdover => w1 15 8
    | .expired => 2 * w1 15 8
    | .freeRun | .acquiring | .locked => 0
  let buddy := s.cap.ctxs.any fun e => e.2.buddies.any fun b => decide ((s.member b.member).st = .suspect)
  w0 7 0 * (s.healthCount 0 / 64) + w0 15 8 * (s.healthCount 1 / 16) + w0 23 16 * s.healthCount 2 +
    w0 31 24 * s.healthCount 3 + w1 7 0 * s.healthCount 4 + time + (if buddy then w1 23 16 else 0) + s.health.hint.toNat

/-- The ms: the risk recomputed, events past the window forgotten. -/
def riskEffect (s : State) : State :=
  if s.ns / 1000000 ≤ s.health.lastMs then s
  else
    let keep := s.health.events.map fun e => (e.1, e.2.filter fun t => decide (s.ns < t + s.healthWindow))
    { s with health := { s.health with risk := min 255 s.riskSum, lastMs := s.ns / 1000000,
                                       events := keep.filter fun e => !e.2.isEmpty } }

def execRiskRecompute (s : State) : Host.Outcome State Fault Refusal := act s riskEffect

/-- A corrected error of a memory controller port. -/
def execMcCePulse (_ _ : Nat) (s : State) : Host.Outcome State Fault Refusal := act s (·.healthEvent 0)

end Sys2Proof.Machine
end

