-- ==== Sys2Proof/Machine/Comb.lean ====
section
/-!
DEFINITION. The Comb's own events (spec/02 R48–R56): initialisation, the scrubber and inspection.
-/

namespace Sys2Proof.Machine

/-- Rows of a bank (R49). -/
def combRows : Nat := 131072

/-- COMB_SCRUB_INTERVAL.ROWS, below 64 taken as 64 (R52). -/
def State.scrubInterval (s : State) : Nat := max 64 (s.regField Reg.combScrubInterval 15 0)

/-- The next row is checked one interval from now. -/
def State.scrubRestart (s : State) : State := { s with comb := { s.comb with scrubDue := s.cc + s.scrubInterval } }

/-- Initialisation ends 131 072 cc after the reset that began it (R50). -/
def combInitEffect (s : State) : State :=
  if s.comb.initDone || decide (s.cc < combRows) then s
  else ({ s with comb := { s.comb with initDone := true } }).scrubRestart

def execCombInitDone (s : State) : Host.Outcome State Fault Refusal := act s combInitEffect

/-! ## The scrubber (R51–R53) -/

/-- A word struck in a row that is not read now: the next operation that reads the row meets it (R51, log 9). -/
def State.plant (s : State) (x : Strike) : State :=
  let hit := (Tbl.find s.comb.upsets (x.index * 64 + x.word)).isSome
  s.setUpset x.index x.word (some (if x.kind = 3 then .stuck else if x.kind = 2 ∨ hit = true then .double else .single))

/-- The next row of each bank read and checked. The strikes of its own words are met now, and so are the words of the
row that were struck before and that no operation has read since; the strikes of other rows wait for a read of theirs. -/
def scrubEffect (l : List Strike) (s : State) : State :=
  let r := s.comb.scrubRow
  if s.comb.initDone && (s.reg Reg.combCtrl).bit 0 && decide (s.comb.scrubDue ≤ s.cc) then
    let row (i w : Nat) : Bool := decide (i / 16 = r / 8) && decide (w / 8 = r % 8)
    let s := (l.filter fun x => !row x.index x.word).foldl State.plant s
    let s := s.readWords row
    let s := (l.filter fun x => row x.index x.word).foldl State.strike s
    let next := (r + 1) % combRows
    let s := ({ s with comb := { s.comb with scrubRow := next } }).scrubRestart
    (if next = 0 then s.incReg Reg.combScrubPasses else s).pagerSync
  else s

def execScrubRow (strikes : List Strike) (s : State) : Host.Outcome State Fault Refusal := act s (scrubEffect strikes)

/-! ## Inspection (R56) -/

/-- GO: ignored while a snapshot runs; DONE is cleared, and with it RESULT (DESIGN CHOICE, log 45). -/
def State.inspectGo (s : State) : State :=
  if s.comb.inspecting then s
  else
    let raw := s.reg Reg.combInspCtrl &&& 2
    ({ s with comb := { s.comb with inspecting := true } }).setReg Reg.combInspCtrl (raw ||| 1)

def execInspectionSnapshot (s : State) : Host.Outcome State Fault Refusal := barWrite s 0 State.inspectGo

/-- The snapshot ends: the words of the entry that COMB_INSP_SEL and RAW select now (DESIGN CHOICE, log 45), an uncorrectable
word reading 0. -/
def inspectEffect (s : State) : State :=
  if s.comb.inspecting && s.comb.initDone then
    let sel := s.reg Reg.combInspSel
    let i := handleIndex sel
    let e := s.entry i
    let raw := (s.reg Reg.combInspCtrl).bit 1
    let ok := raw || (decide (sel.toNat / 2 ^ 18 = e.gen.toNat) && e.used)
    let bad := s.entryBad i
    let copy (s : State) : State :=
      (List.range 64).foldl (fun t w =>
        t.setReg (Reg.combInspData + 4 * w) (if bad.contains w then 0 else wordAt (s.entryWords i) w)) s
    let result := if !ok then St.staleHandle else if bad.isEmpty then St.ok else St.dataPoisoned
    let s := if ok then copy s else s
    ({ s with comb := { s.comb with inspecting := false } }).setReg Reg.combInspCtrl
      (Word.mk (result.toNat * 2 ^ 16 + bitAt 8 true + bitAt 1 raw))
  else s

def execInspectionSnapshotDone (s : State) : Host.Outcome State Fault Refusal := act s inspectEffect

end Sys2Proof.Machine
end

