-- ==== Sys2Proof/Machine/Composer.lean ====
section
/-!
DEFINITION. The composer's events (spec/05): forecast, reports, commit, draft steps, the idle sweep and the victims of
pressure.
-/

namespace Sys2Proof.Machine

/-- May the composer work for a partition (R131, R134, R328)? -/
def State.composes (s : State) (p : Nat) : Bool :=
  (s.reg Reg.stepCtrl).bit 0 && !s.orphan && (s.part p).isSome && s.active (s.partD p).inst &&
    match (s.serve p).main with
    | some b => !b.unbinding
    | none => false

/-- A forecast with members held and handed to the pager (R112). -/
def State.holdForecast (s : State) (p : Nat) (ms : List Member) : State :=
  let x := s.serve p
  let running := decide (x.batch ≠ none) || decide (x.fbStep ≠ none)
  let first := if running then none else some s.ns
  let s := s.setServe p { x with forecast := some ms, forecastDue := false, fresh := false, firstEvent := first }
  (ms.foldl (fun s m => s.nominate p m) s).pagerSync

/-- Is a partition among the first four whose forecast is due, so that a walker serves it (R132)? -/
def State.forecastTurn (s : State) (p : Nat) : Bool :=
  ((s.comp.fcOrder.filter fun q => s.composes q && decide ((s.serve q).forecast = none)).take 4).contains p

/-- The forecast of the next step (R111): rows 0, 1, 3 and 5 of every candidate are read (R132, R133, log 9). -/
def forecastEffect (p : Nat) (s : State) : State :=
  match (s.serve p).main with
  | some b =>
    if s.composes p && (s.serve p).forecastDue && decide ((s.serve p).forecast = none) && s.forecastTurn p then
      let s := s.readRows forecastRows ((s.candidates p true ++ s.candidates p false).map fun c => c.index)
      let ms := s.composeBatch p b
      if ms.isEmpty then s.modServe p fun x => { x with forecastDue := false, fresh := false } else s.holdForecast p ms
    else s
  | none => s

def execForecast (partition : Nat) (s : State) : Host.Outcome State Fault Refusal := act s (forecastEffect partition)

/-- The pager's report on a member: ready, late, or resident after a deferral (R183, R184). -/
def reportEffect (p i : Nat) (s : State) : State :=
  match s.nominee p i with
  | none =>
    s.modServe p fun x => if x.deferred.contains i ∧ x.forecast = none then
      { x with deferred := x.deferred.erase i, forecastDue := true } else x
  | some n =>
    if s.reportOwed p i then
      if n.done then s.setReport p i .ready
      else if n.late then s.reportLate p i
      else s
    else if n.done && !((s.serve p).forecast.getD []).any fun m => m.index == i then
      let s := { s with pager := { s.pager with
        nominees := dropWhere (fun m => m.partition == p && m.index == i) s.pager.nominees } }
      s.modServe p fun x => { x with deferred := x.deferred.erase i,
                                     forecastDue := x.forecastDue || decide (x.forecast = none) }
    else s

def execPagerMemberReport (partition index : Nat) (s : State) : Host.Outcome State Fault Refusal :=
  act s (reportEffect partition index)

/-- Does the pager owe no report on a forecast member? It owes none on one that has been parked or has retired, whose work
it has given up (R184). -/
def State.allReported (s : State) (p : Nat) : Bool :=
  ((s.serve p).forecast.getD []).all fun m => m.report != .none || (s.nominee p m.index).isNone

/-- The Timebase time at which a partition's commit became due (R113): at the later of its two events, and no later than
COMMIT_WAIT_US after the first. -/
def State.commitDueAt (s : State) (p : Nat) : Option Nat :=
  let x := s.serve p
  match x.firstEvent with
  | none => none
  | some t =>
    let limit := t + x.mp.commitWaitUs * 1000
    if !s.composes p then none
    else if s.allReported p then some (min limit (max t x.reportAt))
    else if limit ≤ s.ns then some limit
    else none

/-- Is it the turn of partition p in the one commit pipeline: did no other commit become due before it (R132)? -/
def State.commitTurn (s : State) (p : Nat) : Bool :=
  match s.commitDueAt p with
  | none => false
  | some t => s.comp.parts.all fun e => match s.commitDueAt e.1 with
    | some u => decide (t ≤ u)
    | none => true

/-- Commit is due once the steps before have ended and the pager owes no report on a member (R113). -/
def commitEffect (p : Nat) (s : State) : State :=
  if s.commitTurn p && s.allReported p then (s.commitStep p).pagerSync else s

def execCommit (partition : Nat) (s : State) : Host.Outcome State Fault Refusal := act s (commitEffect partition)

/-- Commit begins COMMIT_WAIT_US after the first event whatever is unreported (R113). -/
def commitWaitEffect (p : Nat) (s : State) : State :=
  let x := s.serve p
  if s.commitTurn p && s.due (x.firstEvent.map fun t => t + x.mp.commitWaitUs * 1000) then (s.commitStep p).pagerSync
  else s

def execCommitWaitTimeout (partition : Nat) (s : State) : Host.Outcome State Fault Refusal :=
  act s (commitWaitEffect partition)

/-- A composed step that is not dispatched, taken out of the queue of the context it was committed to. -/
def State.unqueue (s : State) (seq : Word) : State :=
  match s.sched.ctxs.find? fun e => e.2.queued.any fun q => q.seq == seq with
  | some e => s.modCtx e.1 fun x => { x with queued := dropWhere (fun q => q.seq == seq) x.queued }
  | none => s

/-- A member-table write returns an error (R121): the commit dispatches nothing and its members return to READY. A commit's
steps are dispatched once both tables are written, so that with one of them dispatched no write is left to fail
(DEDUCED, log 55). -/
def tableErrorEffect (p kind : Nat) (s : State) : State :=
  let x := s.serve p
  let inst := (s.partD p).inst
  let fault (s : State) (seq : Word) : State :=
    ((s.setReg Reg.stepFltInfo (Word.mk (St.dataPoisoned.toNat * 2 ^ 24 + p))).setReg Reg.stepFltSeq seq).raise
      { id := Flt.tableErr, inst := some inst, status := St.dataPoisoned }
  let stop (s : State) (st : Option ServeStep) : State := match st with
    | some y => y.members.foldl (fun s m => s.memberFailed m.index) (s.unqueue y.seq)
    | none => s
  if kind = 1 then
    if x.drStep.any fun y => s.stepWaits y.seq then
      let s := (stop s x.drStep).modServe p fun x => { x with drStep := none }
      (fault s ((x.drStep.map fun y => y.seq).getD 0)).tryUnbind p .draft
    else s
  else
    let waits (st : Option ServeStep) : Bool := st.all fun y => s.stepWaits y.seq
    if (if kind = 0 then x.batch else x.fbStep).isSome && waits x.batch && waits x.fbStep then
      let seq := ((if kind = 0 then x.batch else x.fbStep).map fun y => y.seq).getD 0
      let s := stop (stop s x.batch) x.fbStep
      let s := s.modServe p fun x => { x with batch := none, fbStep := none,
                                              forecastDue := x.forecastDue || decide (x.forecast = none),
                                              firstEvent := if x.forecast = none then none else some s.ns }
      ((fault s seq).tryUnbind p .main).tryUnbind p .fallback
    else s

def execMemberTableWriteError (partition kind : Nat) (s : State) : Host.Outcome State Fault Refusal :=
  act s (tableErrorEffect partition kind)

/-- The next draft step of a group (R123). -/
def draftEffect (p : Nat) (s : State) : State := if s.composes p then s.composeDraft p else s

def execDraftStepCompose (partition : Nat) (s : State) : Host.Outcome State Fault Refusal :=
  act s (draftEffect partition)

/-- Idle age of a stream in ns (R128). -/
def State.idleAge (s : State) (e : CombEntry) : Nat := s.ns - max e.admitTime.toNat e.lastStepTime.toNat

/-- The heads of one parked list made DORMANT while their idle age exceeds the limit. -/
def State.sweepList (s : State) (limit : Nat) : List Nat → State
  | [] => s
  | i :: t => if limit < s.idleAge (s.entry i) then (s.dormant i 0x0A).sweepList limit t else s

/-- The sweep at a whole millisecond (R128). -/
def idleSweepEffect (s : State) : State :=
  let ms := s.ns / 1000000
  if (s.reg Reg.stepCtrl).bit 1 && !s.orphan && decide (s.comp.lastSweep < ms) then
    let s := { s with comp := { s.comp with lastSweep := ms } }
    (s.comp.parts.foldl (fun t e =>
      if e.2.mp.idleMs = 0 then t
      else e.2.parkedQ.foldl (fun t q => t.sweepList (e.2.mp.idleMs * 1000000) q.2) t) s).pagerSync
  else s

def execIdleSweep (s : State) : Host.Outcome State Fault Refusal := act s idleSweepEffect

/-- The heads of the parked lists for die d. -/
def State.parkedHeads (s : State) (d : Nat) : List Nat :=
  s.comp.parts.filterMap fun e => (listGet e.2.parkedQ d).head?

/-- The victim among heads (R129): lowest PRIO, then greatest idle age, then lowest index. -/
def State.victim (s : State) (l : List Nat) : Option Nat :=
  l.foldl (fun b i => match b with
    | none => some i
    | some j =>
      let x := s.entry i
      let y := s.entry j
      let less := decide (x.p.prio < y.p.prio) || (decide (x.p.prio = y.p.prio) &&
        (decide (s.idleAge y < s.idleAge x) || (decide (s.idleAge x = s.idleAge y) && decide (i < j))))
      if less then some i else b) none

/-- One victim of pressure on die d (R129), every 64 cc; the choice pauses, with HOLD set, while no list holds one. -/
def victimEffect (d : Nat) (s : State) : State :=
  match s.pressure d, Tbl.find s.comp.victimDue d with
  | true, some t =>
    if s.cc < t then s
    else match s.victim (s.parkedHeads d) with
      | some i =>
        let s := s.dormant i 0x0B
        ({ s with comp := { s.comp with victimDue := Tbl.insert s.comp.victimDue d (s.cc + 64) } }).pagerSync
      | none =>
        let hold := Tbl.put (fun _ => false) s.comp.hold d true
        { s with comp := { s.comp with hold, victimDue := Tbl.erase s.comp.victimDue d } }
  | _, _ => s

def execPressureVictim (die : Nat) (s : State) : Host.Outcome State Fault Refusal := act s (victimEffect die)

end Sys2Proof.Machine
end

