-- ==== Sys2Proof/Machine/Cyclic.lean ====
section
/-!
DEFINITION. The commands and events of the cyclic tables, and timed starts (spec/09 R227–R235).
-/

namespace Sys2Proof.Machine

/-! ## CYC_LOAD (R227–R229) -/

/-- A slot of the array, none where a reserved bit is set or POLICY = 3. -/
def cycSlotOf (ws : List Word) : Option CycSlot :=
  let w (k : Nat) : Word := wordAt ws k
  if (w 0).field 28 12 ≠ 0 ∨ (w 2).field 15 4 ≠ 0 ∨ (w 5).field 31 16 ≠ 0 ∨ w 6 ≠ 0 ∨ w 7 ≠ 0 then none
  else
    let mk (policy : SlotPolicy) : CycSlot :=
      { en := (w 0).bit 31, policy, context := (w 0).field 11 0,
        offset := (w 2).field 1 0 * 2 ^ 32 + (w 1).toNat, guardUs := (w 2).field 31 16,
        length := (w 2).field 3 2 * 2 ^ 32 + (w 3).toNat,
        program := BitVec.ofNat 64 ((w 5).field 15 0 * 2 ^ 32 + (w 4).toNat) }
    match (w 0).field 30 29 with
    | 0 => some (mk .preempt)
    | 1 => some (mk .slip)
    | 2 => some (mk .abort)
    | _ => none

/-- The n slots of an array. -/
def cycSlots (n : Nat) (ws : List Word) : Option (List CycSlot) :=
  (List.range n).mapM fun i => cycSlotOf ((ws.drop (8 * i)).take 8)

/-- D of a slot, from the start of its cycle (R228). -/
def CycSlot.d (y : CycSlot) : Nat := y.offset + y.length + y.guardUs * 1000

/-- Enabled slots in order: ascending offsets, none past the next one's start, the last within the cycle. -/
def slotsFit (cycle : Nat) : List CycSlot → Bool
  | [] => true
  | [y] => decide (y.d ≤ cycle)
  | y :: z :: t => decide (y.offset < z.offset) && decide (y.d ≤ z.offset) && slotsFit cycle (z :: t)

/-- The image is laid out as R228 asks. -/
def CycImage.fits (x : CycImage) : Bool :=
  let en := x.slots.filter fun y => y.en
  en.all (fun y => decide (10000 ≤ y.length)) && slotsFit x.cycleNs en

/-- The enabled slots' contexts are the instance's own, serve no role, and belong to one partition. -/
def State.slotsOwned (s : State) (inst : Nat) (x : CycImage) : Bool :=
  let cs := (x.slots.filter fun y => y.en).map fun y => y.context
  cs.all (fun c => decide ((s.ctx c).st ≠ .free) && (s.ctx c).inst == inst && (s.ctx c).role.isNone) &&
    cs.all fun c => (s.ctx c).partition == (s.ctx (cs.headD 0)).partition

/-- The first field of CYC_LOAD outside its range. -/
def cycLoadFail (c : Cmd) : Option Nat :=
  let slots := c.field 0x0C 10 0
  let cycle := (c.dword 0x10).toNat
  let phase := c.field 0x18 29 0
  let array := (c.dword 0x20).toNat
  if slots = 0 ∨ 1024 < slots then some 0x0C
  else if cycle < 250000 ∨ 10000000000 < cycle ∨ (1000000000 % cycle ≠ 0 ∧ cycle % 1000000000 ≠ 0) then some 0x10
  else if min cycle 1000000000 ≤ phase then some 0x18
  else if array % 32 ≠ 0 ∨ Config.inWindows c.inst array (32 * slots) = false then some 0x20
  else none

/-- Occurrences of the next cycle already led under the image that a new one replaces are withdrawn. -/
def State.unlead (s : State) (k : Nat) : State :=
  let t := s.table k
  (t.runs.filter fun e => e.2.begun && e.2.led).foldl (fun s e =>
    let c := ((t.image.slots[e.1]?).map fun y => y.context).getD 0
    let s := match e.2.ledSeq with
      | some n =>
        let s := s.dropQueued c n
        if (s.stepOf c).any (fun (st : Step) => st.seq == n) then s.stopStep c else s
      | none => s
    s.modRun k e.1 fun r => { r with led := false, ledSeq := none }) s

/-- The partition of the contexts that an image's enabled slots name. -/
def State.imagePart (s : State) (x : CycImage) : Nat :=
  (s.ctx (((x.slots.filter fun y => y.en).map fun y => y.context).headD 0)).partition

/-- A table's image taken (R229). That of a RUNNING table replaces the first, and the table's partition, at the next boundary
(R228). -/
def State.cycStore (s : State) (k inst : Nat) (x : CycImage) : State :=
  let t := s.table k
  let x : CycImage := { x with part := s.imagePart x }
  match t.st with
  | .running => (s.unlead k).modTable k fun t => { t with shadow := some x }
  | _ => s.setTable k { t with st := .loaded, inst, partition := x.part, image := x, runs := [] }

def cycLoadBody (slots : Reply) (c : Cmd) (s : State) : Answer :=
  let k := c.field 0x08 2 0
  let t := s.table k
  match cycLoadFail c with
  | some d => .refuse St.badLength d
  | none =>
    if t.st ≠ .empty ∧ t.inst ≠ c.inst then .refuse St.noResource 0x08
    else if t.st = .armed ∨ t.st = .stopping then .refuse St.badState 0x08
    else match slots with
      | .error => .refuse St.badAddress 0x20
      | .poison => .refuse St.dataPoisoned 0x20
      | .data ws => match cycSlots (c.field 0x0C 10 0) ws with
        | none => .refuse St.badDescriptor 0x20
        | some l =>
          let x : CycImage := { cycleNs := (c.dword 0x10).toNat, phaseNs := c.field 0x18 29 0, slots := l }
          if x.fits = false then .refuse St.badDescriptor 0x20
          else if s.slotsOwned c.inst x = false then .refuse St.noResource 0x20
          else
            let s := s.emit (s.vcRead none (c.dword 0x20).toNat (32 * l.length))
            .done (s.cycStore k c.inst x) []

def execCycLoad (src : Src) (slots : Reply) (s : State) : Host.Outcome State Fault Refusal :=
  act s (·.perform src 0xA0 (cycLoadBody slots))

/-! ## CYC_START, CYC_STOP, CYC_FREE (R229): an EMPTY table belongs to no instance (R300 check 6, R302, log 36) -/

def cycStartBody (c : Cmd) (s : State) : Answer :=
  let k := c.field 0x08 2 0
  let t := s.table k
  let start := (c.dword 0x10).toNat
  if t.st ≠ .empty ∧ t.inst = c.inst ∧ start ≠ 0 ∧ t.image.boundaryFrom start ≠ start then .refuse St.badLength 0x10
  else if t.st = .empty ∨ t.inst ≠ c.inst then .refuse St.noResource 0x08
  else if t.st ≠ .loaded then .refuse St.badState 0x08
  else if s.tb.lock = .freeRun ∨ s.tb.lock = .acquiring then .refuse St.badState noField
  else if s.cyc.any fun e => e.1 != k && e.2.busy && e.2.partition == t.partition then .refuse St.noResource 0x08
  else if start ≠ 0 ∧ start < s.ns + s.leadNs then .refuse St.timePast 0x10
  else
    let at_ := if start = 0 then t.image.boundaryFrom (s.ns + 2 * s.leadNs) else start
    .long s 0x18 (.cycStart k) (Word.mk k) [0, 0, Word.mk at_, Word.mk (at_ / 2 ^ 32)] fun o s =>
      s.setTable k { t with st := .armed, start := at_, cycles := 0, overruns := 0, skips := 0, runs := [], op := some o }

def execCycStart (src : Src) (s : State) : Host.Outcome State Fault Refusal := act s (·.perform src 0xA1 cycStartBody)

def cycStopBody (c : Cmd) (s : State) : Answer :=
  let k := c.field 0x08 2 0
  let now := c.bit 0x08 8
  let t := s.table k
  if t.st = .empty ∨ t.inst ≠ c.inst then .refuse St.noResource 0x08
  else match t.st, now with
    | .armed, _ => .done (s.stopTable k now) []
    | .running, false => .later (s.stopTable k false) (.cycStop k)
    | .running, true | .stopping, true => .done (s.stopTable k true) []
    | .stopping, false | .loaded, _ | .empty, _ => .refuse St.badState 0x08

def execCycStop (src : Src) (s : State) : Host.Outcome State Fault Refusal := act s (·.perform src 0xA2 cycStopBody)

def cycFreeBody (c : Cmd) (s : State) : Answer :=
  let k := c.field 0x08 2 0
  let t := s.table k
  if t.st = .empty ∨ t.inst ≠ c.inst then .refuse St.noResource 0x08
  else if t.st ≠ .loaded then .refuse St.badState 0x08
  else .done { s with cyc := Tbl.erase s.cyc k } []

def execCycFree (src : Src) (s : State) : Host.Outcome State Fault Refusal := act s (·.perform src 0xA3 cycFreeBody)

/-! ## Starts -/

/-- Context c has become band 8: it preempts the issuing slot at once (R206, R212, R230). -/
def State.bandEight (s : State) (c : Nat) : State :=
  let p := (s.ctx c).partition
  if (s.partD p).stopping ≠ [] ∨ (s.ctx c).st ≠ .resident then s
  else
    let s := s.syncConds p
    let part := s.partD p
    match part.issuing with
    | none => s.chooseIssue p
    | some k =>
      let i := (part.slot k).2
      if i = c ∨ (s.ctx c).cond ≠ .runnable then s
      else if (s.ctx i).cond ≠ .runnable then s.chooseIssue p
      else if (s.ctx i).band < 8 ∧ s.preempts p i c = true then s.preempt p k (some (s.ctx c).slot)
      else s

/-- The first start of a context that is reached: its step's START_TIME (launch 65 536) or a timed launch (R234). -/
def timedStartEffect (c l : Nat) (s : State) : State :=
  match s.stepOf c with
  | none => s
  | some st =>
    if l = 65536 then
      if st.origin ≠ .run ∨ st.held = false ∨ s.ns < st.startTime then s
      else (s.modStep c fun st => { st with released := true }).bandEight c
    else match st.timedStart l with
      | some t =>
        if s.ns < t ∨ st.begun.contains l then s
        else (s.modStep c fun st =>
          { st with begun := insertAsc l st.begun, released := st.released || decide (st.startTime = 0) }).bandEight c
      | none => s

def execTimedStart (context launch : Nat) (s : State) : Host.Outcome State Fault Refusal :=
  act s (timedStartEffect context launch)

/-! ## Cycles (R229, R230) -/

/-- The step of an occurrence that starts nothing, given up: a queued one leaves the queue, one dispatched and held until its
S is stopped, its launches squashed (R230, R232; DEDUCED, log 58). -/
def State.dropLed (s : State) (c : Nat) (n : Word) : State :=
  if (s.stepOf c).any fun st => st.seq == n then
    (s.modStep c fun st => { st with forced := some (st.forced.getD St.squashed) }).stopStep c
  else s.dropQueued c n

/-- The enabled slots whose occurrence of the present cycle has not begun are skipped. -/
def State.skipUnbegun (s : State) (k : Nat) : State :=
  let t := s.table k
  (t.image.enabled.filter fun e => !(t.run e.1).begun).foldl (fun (s : State) (e : Nat × CycSlot) =>
    let s := match (t.run e.1).ledSeq with
      | some n => s.dropLed e.2.context n
      | none => s
    (s.modRun k e.1 fun r => { r with led := false, ledSeq := none, begun := true }).cycSkip k e.1) s

/-- A new cycle from boundary b. -/
def CycTable.begin_ (t : CycTable) (b : Nat) : CycTable :=
  { t with st := .running, cycleAt := b, image := t.shadow.getD t.image, shadow := none,
           partition := (t.shadow.map fun x => x.part).getD t.partition,
           runs := t.runs.map fun e =>
             (e.1, { e.2 with begun := false, slipped := decide (e.2.slip ≠ 0), slip := 0 }) }

def cycleBoundaryEffect (k : Nat) (s : State) : State :=
  let t := s.table k
  match t.st with
  | .armed => if t.start ≤ s.ns then s.modTable k fun t => t.begin_ t.start else s
  | .running =>
    if s.ns < t.next then s
    else
      let b := t.next
      let s := (s.skipUnbegun k).modTable k fun t => { t with cycles := t.cycles + 1 }
      (s.cycProgress k).modTable k fun t => t.begin_ b
  | .stopping => if s.ns < t.next then s else (s.skipUnbegun k).tryStop k
  | .empty | .loaded => s

def execCycleBoundary (table : Nat) (s : State) : Host.Outcome State Fault Refusal :=
  act s (cycleBoundaryEffect table)

/-! ## Slots (R230–R232) -/

/-- S − TB_LEAD_NS of slot i: its step is queued for its context, held until S; a carried step is called, so that its context
is loaded. -/
def slotLeadEffect (k i : Nat) (s : State) : State :=
  let t := s.table k
  let r := t.run i
  match t.pendingS i with
  | none => s
  | some (y, at_) =>
    if s.ns + s.leadNs < at_ ∨ r.led = true then s
    else if r.carried = true ∨ (s.ctx y.context).st = .free then
      let s := s.modRun k i fun r => { r with led := true, ledSeq := none }
      match r.carried, r.seq with
      | true, some n => s.modSlotStep y.context n fun st => { st with called := true }
      | _, _ => s
    else
      let (seq, s) := s.takeSeq
      let s := s.modRun k i fun r => { r with led := true, ledSeq := some seq }
      s.queueStep y.context
        { seq, context := y.context, origin := .cyclic k i, program := y.program, startTime := at_ }

def execSlotLead (table slot : Nat) (s : State) : Host.Outcome State Fault Refusal := act s (slotLeadEffect table slot)

/-- The occurrence of slot i whose S is reached. -/
def State.slotBegin (s : State) (k i : Nat) (y : CycSlot) (at_ : Nat) : State :=
  let t := s.table k
  let r := t.run i
  let deadline := min (at_ + y.length + y.guardUs * 1000) t.next
  let other := (s.stepOf y.context).any fun st => some st.seq != r.ledSeq
  let start (s : State) (seq : Option Word) : State :=
    s.modRun k i fun r => { r with startS := at_, deadline, begun := true, led := false, ledSeq := none, carried := false,
                                   overran := false, done := seq.isNone, seq }
  let unled (s : State) : State := match r.ledSeq with
    | some n => s.dropLed y.context n
    | none => s
  let skip (s : State) : State :=
    if r.open then ((unled s).modRun k i fun r => { r with begun := true, led := false, ledSeq := none }).cycSkip k i
    else (start (unled s) none).cycSkip k i
  if r.carried then
    let s := start (unled s) r.seq
    let p := s.partD (s.ctx y.context).partition
    let on := decide ((s.ctx y.context).st = .resident) && decide (p.stopping = []) &&
      decide (p.issuing = some (s.ctx y.context).slot)
    let s := match r.seq with
      | some n => s.modSlotStep y.context n fun st =>
          { st with released := true, called := false, startTime := at_, resumes := if on then none else some at_ }
      | none => s
    s.bandEight y.context
  else match r.ledSeq with
    | some n =>
      if other || (!s.slotsDispatch k && !s.seqDispatched n) then skip s
      else
        let s := (start s (some n)).modRun k i fun r => { r with runs := r.runs + 1 }
        (s.modSlotStep y.context n fun st => { st with released := true }).bandEight y.context
    | none => skip s

/-- Does a step that has overrun its deadline under SLIP still run in this cycle before slot i (R232)? -/
def State.slipOpen (s : State) (k i : Nat) : Bool :=
  let t := s.table k
  t.image.enabled.any fun e =>
    let r := t.run e.1
    decide (e.1 < i) && decide (e.2.policy = .slip) && r.open && decide (t.cycleAt ≤ r.startS) && decide (r.deadline ≤ s.ns)

/-- S of slot i in the present cycle, which a step that runs on under SLIP moves; an S moved to the next boundary or beyond is
left to it (R232). -/
def slotStartEffect (k i : Nat) (s : State) : State :=
  let t := s.table k
  let r := t.run i
  match t.pendingS i with
  | some (y, at_) =>
    if t.st = .armed ∨ r.begun = true ∨ r.led = false ∨ s.ns < at_ ∨ t.next ≤ at_ ∨ s.slipOpen k i = true then s
    else s.slotBegin k i y at_
  | none => s

def execSlotStart (table slot : Nat) (s : State) : Host.Outcome State Fault Refusal := act s (slotStartEffect table slot)

/-- The lowest-indexed launch of a step that has not ended. -/
def Step.firstOpen (st : Step) : Nat := ((List.range st.launches).find? fun l => !st.launchEnded l).getD 0

/-- The policy of slot i applied to its step, which has sequence number seq (R232). -/
def State.overrun (s : State) (k i : Nat) (y : CycSlot) (seq : Word) : State :=
  let c := y.context
  let sent := (s.stepOf c).filter fun st => st.seq == seq
  match y.policy with
  | .slip => s
  | .preempt =>
    let s := s.modRun k i fun r => { r with carried := true }
    let s := s.modSlotStep c seq fun st => { st with released := false, resumes := none }
    let p := (s.ctx c).partition
    let part := s.partD p
    let slot := (s.ctx c).slot
    if (s.ctx c).st = .resident ∧ part.stopping = [] ∧ sent.isSome = true ∧
        (part.issuing = some slot ∨ (Tbl.find part.draining slot).isSome = true) then
      s.preempt p slot none
    else s
  | .abort => match sent with
    | some st => s.stopWith c st.firstOpen St.slotOverrun
    | none => (s.dropQueued c seq).slotEnded k i seq St.slotOverrun

/-- D of slot i with its step still running. -/
def slotDeadlineEffect (k i : Nat) (s : State) : State :=
  let t := s.table k
  let r := t.run i
  match r.seq, t.image.slots[i]? with
  | some seq, some y =>
    if s.ns < r.deadline ∨ r.done = true ∨ r.overran = true ∨ r.carried = true then s
    else
      let s := s.modTable k fun t =>
        (t.modRun i fun r => { r with lastStatus := St.slotOverrun, overran := true, overruns := r.overruns + 1 })
      let s := s.modTable k fun t => { t with overruns := t.overruns + 1 }
      ((s.cycProgress k).cycFault Flt.slotOverrun k i St.slotOverrun).overrun k i y seq
  | _, _ => s

def execSlotDeadline (table slot : Nat) (s : State) : Host.Outcome State Fault Refusal :=
  act s (slotDeadlineEffect table slot)

end Sys2Proof.Machine
end

