-- ==== Sys2Proof/Machine/Fencing.lean ====
section
/-!
DEFINITION. PRP_FENCE_CMD, the fence bus at both its ends (spec/17 R372–R377), and the settings that regulators take from
it (R215).
-/

namespace Sys2Proof.Machine

/-! ## PRP_FENCE_CMD (R372, R374, R391) -/

/-- The result of a command word whose unit is named badly or is not there. -/
def State.fenceCmdFail (s : State) (w : Word) : Option Byte :=
  let cls := w.field 30 28
  let index := w.field 10 0
  let count := match cls with
    | 0 => 2048
    | 1 => 32
    | 2 => 12
    | 3 => 32
    | 4 => Config.linkPorts
    | _ => 0
  if count ≤ index then some St.badLength
  else if !s.unitThere cls index then some St.engineAbsent
  else if w.bit 31 ∧ (cls = 2 ∨ cls = 3) then some St.badState
  else none

def State.fenceResult (s : State) (r : Byte) : State := { s with fences := { s.fences with result := r } }

/-- A fence written: ignored while BUSY. -/
def fenceCmdEffect (fn : Nat) (w : Word) (s : State) : State :=
  if fn ≠ 0 ∨ w.bit 31 = true ∨ s.fences.busy.isSome then s
  else match s.fenceCmdFail w with
    | some r => s.fenceResult r
    | none => (s.fenceResult St.ok).fenceAsk (w.field 30 28) (w.field 10 0)

def execFenceCmd (fn : Nat) (value : Word) (s : State) : Host.Outcome State Fault Refusal :=
  barWrite s fn (fenceCmdEffect fn value)

/-- An unfence written: it goes on once the fence's own stop has drained. -/
def unfenceCmdEffect (fn : Nat) (w : Word) (s : State) : State :=
  if fn ≠ 0 ∨ w.bit 31 = false ∨ s.fences.busy.isSome then s
  else match s.fenceCmdFail w with
    | some r => s.fenceResult r
    | none => { s with fences := { s.fences with busy := some w } }

def execUnfenceCmd (fn : Nat) (value : Word) (s : State) : Host.Outcome State Fault Refusal :=
  barWrite s fn (unfenceCmdEffect fn value)

/-! ## The targets (R375–R377) -/

/-- A target's answer: ACK (5) or NAK (6) with the SEQ that it answers. -/
def State.busAnswer (s : State) (cls index kind : Nat) (seq : Byte) : State :=
  s.emit (.bus cls index kind seq (busCheck kind cls index seq 0) 0)

/-- A target takes the message on its way to it, where its KIND is one of these: CHECK fails, NAK; else it acts, once for
a SEQ, and ACKs. -/
def State.busTake (s : State) (cls index : Nat) (mine : BusKind → Bool) (checkOk : Bool) (f : BusMsg → State → State) :
    State :=
  let t := s.target cls index
  match t.sent with
  | none => s
  | some m =>
    if !mine m.msg.kind then s
    else if !checkOk then s.busAnswer cls index 6 m.seq
    else
      let s := if t.acted = some m.seq then s
        else f m.msg (s.setTarget cls index { t with acted := some m.seq })
      s.busAnswer cls index 5 m.seq

/-- FENCE: what it does to the unit took effect as the hub marked it (R373). -/
def execFenceBusFence (cls index : Nat) (checkOk : Bool) (s : State) : Host.Outcome State Fault Refusal :=
  act s fun s => s.busTake cls index (· == .fence) checkOk fun _ s => s

def execFenceBusUnfence (cls index : Nat) (checkOk : Bool) (s : State) : Host.Outcome State Fault Refusal :=
  act s fun s => s.busTake cls index (· == .unfence) checkOk fun _ s => s

/-- REG: a port holds a partition's rate and depth; a new bucket starts full, one whose rate goes is dropped (R215,
R216). The regulators of a fenced link port take no setting (R372). -/
def applyReg (cls index : Nat) (m : BusMsg) (s : State) : State :=
  if cls = 3 ∧ s.fences.has 4 index = true then s else
  let w := m.payload.toNat
  let rate := w % 65536
  let depth := w / 65536 % 4096
  let key := w / 2 ^ 32 % 128 * 256 + (classPorts (cls - 1)).1 + index
  let full : Int := ((depth * 4096 : Nat) : Int)
  let old : Option Int := if (Tbl.find s.sched.portSet key).isSome then some (Tbl.get (fun _ => 0) s.sched.buckets key)
    else none
  let new : Int := match old with
    | some b => min b full
    | none => full
  if rate = 0 then
    { s with sched := { s.sched with portSet := Tbl.erase s.sched.portSet key, buckets := Tbl.erase s.sched.buckets key } }
  else
    { s with sched := { s.sched with portSet := Tbl.insert s.sched.portSet key (rate, depth),
                                     buckets := Tbl.put (fun _ => 0) s.sched.buckets key new } }

def execFenceBusReg (cls index : Nat) (checkOk : Bool) (s : State) : Host.Outcome State Fault Refusal :=
  act s fun s => s.busTake cls index (· == .reg) checkOk (applyReg cls index)

/-- IRQ: an agent takes its control core's line levels and answers nothing, so the next message goes; it answers one whose
CHECK fails with NAK. -/
def busIrqEffect (a : Nat) (checkOk : Bool) (s : State) : State :=
  let t := s.target 0 a
  match t.sent with
  | none => s
  | some m =>
    if m.msg.kind ≠ .irq then s
    else if !checkOk then s.busAnswer 0 a 6 m.seq
    else (s.setTarget 0 a { t with sent := none, acted := some m.seq, lines := m.msg.payload.toNat % 4 }).busPump 0 a

def execFenceBusIrq (agent : Nat) (checkOk : Bool) (s : State) : Host.Outcome State Fault Refusal :=
  act s (busIrqEffect agent checkOk)

/-! ## The hub (R376) -/

/-- ACK of the message that a target has not yet answered: the next one goes. -/
def busAckEffect (cls index : Nat) (seq : Byte) (s : State) : State :=
  let t := s.target cls index
  if t.sent.any fun m => m.seq == seq && m.msg.kind != .irq then (s.setTarget cls index { t with sent := none }).busPump cls index else s

def execFenceBusAck (cls index : Nat) (seq : Byte) (s : State) : Host.Outcome State Fault Refusal :=
  act s (busAckEffect cls index seq)

def busNakEffect (cls index : Nat) (seq : Byte) (s : State) : State :=
  if (s.target cls index).sent.any fun m => m.seq == seq then s.busRetry cls index else s

def execFenceBusNak (cls index : Nat) (seq : Byte) (s : State) : Host.Outcome State Fault Refusal :=
  act s (busNakEffect cls index seq)

/-- PRP_ACK_LIMIT, at least 128 cc. -/
def State.ackLimit (s : State) : Nat := max 128 (s.regField Reg.prpAckLimit 11 0)

/-- No answer within PRP_ACK_LIMIT; an IRQ message has none to come. -/
def ackTimeoutEffect (cls index : Nat) (s : State) : State :=
  if (s.target cls index).sent.any fun m => m.msg.kind != .irq && decide (m.sentCc + s.ackLimit ≤ s.cc) then s.busRetry cls index else s

def execFenceAckTimeout (cls index : Nat) (s : State) : Host.Outcome State Fault Refusal := act s (ackTimeoutEffect cls index)

end Sys2Proof.Machine
end

