-- ==== Sys2Proof/Machine/Firmware.lean ====
section
/-!
DEFINITION. The mailbox messages of spec/15, the boot, the firmware processors' crashes and restarts, the host lease and
ORPHAN (R335–R349).
-/

namespace Sys2Proof.Machine

/-! ## Messages (R326, R327, R348, R349) -/

/-- Does the firmware take the message that waits in a mailbox: the guard core's ROM, which serves the physical function
alone, before PHASE = RUN, the scheduler core afterwards (R336, R342)? -/
def State.mbxServed (s : State) (i : Nat) : Bool :=
  s.hasInst i && (s.inst i).inBusy && (if s.fw.phase = .run then s.procUp schedulerCore else decide (i = 0) && s.guardUp)

/-- MSG of the message in a mailbox. -/
def State.mbxCode (s : State) (i : Nat) : Nat := s.regField (pageKey i Reg.mbxIn) 31 16

/-- The request in a mailbox, to be answered. -/
def State.mbxRequest (s : State) (i : Nat) : MbxReq :=
  { inst := i, msg := s.mbxCode i, seq := s.regField (pageKey i Reg.mbxIn) 7 0, tag := s.reg (pageKey i (Reg.mbxIn + 8)) }

/-- A word of the payload, by its byte offset. -/
def State.mbxWord (s : State) (i off : Nat) : Word := s.reg (pageKey i (Reg.mbxIn + 16 + off))

def State.mbxDword (s : State) (i off : Nat) : Dword := Dword.ofWords (s.mbxWord i off) (s.mbxWord i (off + 4))

/-- Message codes other than HELLO: those of interface version 1.0, and those from 1.1 on (R349, R362, R396). -/
def codes10 : List Nat := [0x10, 0x11, 0x12, 0x20, 0x21]
def codes11 : List Nat := [0x30, 0x31, 0x40, 0x41, 0x42, 0x43]

/-- Is a code defined for the version matched? The ROM takes FW_STAGE and FW_ACTIVATE (R336). -/
def State.mbxDefined (s : State) (i code : Nat) : Bool :=
  if s.fw.phase ≠ .run then code == 0x10 || code == 0x11
  else codes10.contains code || (codes11.contains code && (s.inst i).matched.any fun v => decide (v.1 > 1 ∨ 1 ≤ v.2))

/-- The message of function i taken, where its code is one of the row's: with no matched version nothing is defined
(R348); a virtual function has no message but HELLO; an undefined code is refused (R349). -/
def mbxMessage (i : Nat) (mine : Nat → Bool) (f : MbxReq → State → State) (s : State) :
    Host.Outcome State Fault Refusal :=
  if !s.clocked || !s.mbxServed i || !mine (s.mbxCode i) then .next s
  else if (s.inst i).matched.isNone then .fault .unmatchedVersion
  else
    let q := s.mbxRequest i
    let t := s.setInBusy i false
    .next (if i ≠ 0 then t.mbxReply q St.auth
           else if !s.mbxDefined i q.msg then t.mbxReply q St.badOpcode
           else f q t).settle

/-- HELLO answered with the firmware's version (R348). -/
def State.helloAnswer (s : State) (i : Nat) : State :=
  let q := s.mbxRequest i
  let w := s.reg (pageKey i (Reg.mbxIn + 4))
  let v := s.fw.serving
  let ok := decide (w.field 31 16 = v.1)
  let matched := if ok then some (v.1, min v.2 (w.field 15 0)) else none
  let s := (s.setInst i { s.inst i with matched }).setInBusy i false
  s.mbxReply q (if ok then St.ok else St.version)

/-- HELLO; and any message whose code no other row of the table has, which is refused as undefined (R349). -/
def execHello (i : Nat) (s : State) : Host.Outcome State Fault Refusal :=
  if s.mbxCode i = 1 then .next (if s.clocked && s.mbxServed i then (s.helloAnswer i).settle else s)
  else mbxMessage i (fun c => !codes10.contains c && !codes11.contains c) (fun q t => t.mbxReply q St.badOpcode) s

/-! ## Staging (R337, R338) -/

/-- A signature refused (R402, R409). -/
def State.sigReject (s : State) (q : MbxReq) : State :=
  (s.grdInfo St.auth q.msg q.inst).raise { id := Flt.sigReject, inst := some q.inst, status := St.auth }

/-- TARGETs of an image's sections. -/
def imageTargets (ws : List Word) : List Nat :=
  (List.range ((wordAt ws 5).field 3 0)).map fun k => (wordAt ws (8 + 4 * k)).field 7 0

/-- The first check of R337 and R338 that an image's header fails, for a message that gives its length. -/
def headerFail (ws : List Word) (length : Nat) : Option Byte :=
  let n := (wordAt ws 5).field 3 0
  let ts := imageTargets ws
  if (wordAt ws 4).toNat ≠ length then some St.badLength
  else if wordAt ws 0 ≠ 0x48584657#32 ∨ (wordAt ws 2).field 15 0 ≠ 1 ∨ n < 5 ∨ 8 < n ∨ ts.any (fun t => decide (4 < t)) ∨
      !([0, 1, 2, 3, 4].all fun t => ts.contains t) then some St.badDescriptor
  else none

/-- What the words of an image say of it. -/
def headerFacts (ws : List Word) : FwImage :=
  let sig := (wordAt ws 6).toNat
  let section_ := (List.range 8).find? fun k => decide ((wordAt ws (8 + 4 * k)).field 7 0 = 4)
  let micro := section_.map fun k => bytesFrom ws (wordAt ws (9 + 4 * k)).toNat (wordAt ws (10 + 4 * k)).toNat
  { major := (wordAt ws 1).field 31 16, minor := (wordAt ws 1).field 15 0, ci := (wordAt ws 2).field 31 16,
    version := wordAt ws 3, sig := sigBlock ws sig, digest := imageDigest ws sig, micro := digestWords (micro.getD []) }

/-- FW_STAGE: `read` is what the copy of the image from host memory brought. -/
def State.fwStage (s : State) (read : Reply) (q : MbxReq) : State :=
  let src := s.mbxDword q.inst 0
  let length := (s.mbxWord q.inst 8).toNat
  match s.guardFail false with
  | some status => s.stageAnswer q status
  | none =>
    if s.fw.stageReq.isSome then s.stageAnswer q St.busy
    else if 0x2000000 < length then s.stageReject q St.badLength
    else
      let s := s.emit (s.dmaRead 0 src.toNat length)
      match read with
      | .error => s.stageReject q St.badAddress
      | .poison => s.stageReject q St.badAddress
      | .data ws => match headerFail ws length with
        | some status => s.stageReject q status
        | none =>
          if (wordAt ws 6).toNat + 5464 ≠ length then (s.sigReject q).stageReject q St.auth
          else { s with fw := { s.fw with staged := headerFacts ws, stage := .verifying, stageReq := some q } }

def execFwStage (inst : Nat) (read : Reply) (s : State) : Host.Outcome State Fault Refusal :=
  mbxMessage inst (· == 0x10) (fun q t => t.fwStage read q) s

/-- Key indices that a lifecycle state accepts (R397). -/
def keyAccepted (lifecycle key : Nat) : Bool :=
  match lifecycle with
  | 0 => key == 3
  | 1 => decide (key < 4)
  | 2 => decide (key < 3)
  | 3 => decide (key < 4)
  | _ => false

/-- R402 for the staged image: its SIG_OFFSET was checked as it was staged. -/
def State.accepts (s : State) (x : ImageFacts) : Bool :=
  let b := s.fw.staged.sig
  x.verified && b.formed && keyAccepted s.guard.lifecycle b.keyIndex && s.keyGood b && decide (s.guard.min ≤ b.svn)

/-! ## Activation (R336, R339) -/

/-- FW_ACTIVATE: from the ROM it loads the processors in boot order; later it restarts them as SCOPE says. -/
def State.fwActivate (s : State) (q : MbxReq) : State :=
  let all := (s.mbxWord q.inst 0).bit 0
  match s.guardFail false with
  | some status => s.mbxReply q status
  | none =>
    if s.fw.stage ≠ .verified then s.mbxReply q St.badState
    else if s.fw.phase = .rom then
      let s := s.exchange
      let loads := [powerCore] ++ s.controlCores ++ [schedulerCore, guardCore]
      { s with fw := { s.fw with phase := .loading, loads, loadDue := s.ns + 1000000000, activate := some q } }
    else if s.fw.phase = .loading then s.mbxReply q St.badState
    else if s.fw.activate.isSome then s.mbxReply q St.busy
    else if !all && decide (s.fw.staged.ci ≠ s.fw.running.ci) then s.mbxReply q St.version
    else
      let s := s.exchange
      let loads := (if all then s.controlCores else []) ++ [powerCore, schedulerCore, guardCore]
      { s with fw := { s.fw with loads, activate := some q } }

def execFwActivate (inst : Nat) (s : State) : Host.Outcome State Fault Refusal :=
  mbxMessage inst (· == 0x11) (fun q t => t.fwActivate q) s

/-- A processor of the boot order runs: PHASE = RUN after the last, with the mailboxes the scheduler core's and HUM_OUT
toggling from now on (R336, R378). -/
def processorLoadedEffect (p wdtMs : Nat) (s : State) : State :=
  if s.fw.phase ≠ .loading ∨ s.fw.bootEnded = true ∨ s.fw.loads.head? ≠ some p ∨ s.fw.loadDue < s.ns then s
  else
    let s := s.modProc p fun x => { x with st := if s.fences.has 1 p then .off else .running, wdtMs := max 1 (min wdtMs 1000) }
    let s := { s with fw := { s.fw with loads := s.fw.loads.tail, loadDue := s.ns + 1000000000 } }
    if p = schedulerCore then s.loadMicrocode
    else if p = guardCore then
      let hum := if s.hum.stopped then s.hum else { s.hum with toggling := true, nextAt := s.ticks + s.humHalf }
      State.serveNew { s with hum, fw := { s.fw with phase := .run } }
    else s

def execProcessorLoaded (proc watchdogMs : Nat) (s : State) : Host.Outcome State Fault Refusal :=
  act s (processorLoadedEffect proc watchdogMs)

/-- A processor is not RUNNING within 1 s of its load: the boot ends (R336). -/
def bootTimeoutEffect (s : State) : State :=
  match s.fw.phase, s.fw.loads with
  | .loading, p :: _ =>
    if s.fw.bootEnded ∨ s.ns < s.fw.loadDue then s
    else
      let s := { s with fw := { s.fw with bootEnded := true } }
      (s.fwInfo 0 p).raise { id := Flt.fwHalted, unit := p }
  | _, _ => s

def execBootLoadTimeout (s : State) : Host.Outcome State Fault Refusal := act s bootTimeoutEffect

/-! ## FW_CORE_UPDATE (R340) -/

def State.fwCoreUpdate (s : State) (q : MbxReq) : State :=
  let w := s.mbxWord q.inst 0
  let n := w.field 4 0
  let move := w.bit 8
  if !s.clusterUp n then s.mbxReply q St.engineAbsent
  else if s.fw.update.isSome then s.mbxReply q St.busy
  else if !s.procUp n then s.mbxReply q St.badState
  else
    let qcs := if move then [4 * n, 4 * n + 1, 4 * n + 2, 4 * n + 3].filter s.qcHeld else []
    let s := { s with fw := { s.fw with update := some { cluster := n, move, req := q, toDrain := qcs } } }
    s.sched.parts.foldl (fun s e => s.fixPartition e.1) s

def execFwCoreUpdate (inst : Nat) (s : State) : Host.Outcome State Fault Refusal :=
  mbxMessage inst (· == 0x12) (fun q t => t.fwCoreUpdate q) s

/-! ## Crashes and restarts (R341–R343) -/

/-- A watchdog expires; the program counter at which it does is open. -/
def watchdogEffect (p : Nat) (s : State) : State :=
  if s.procUp p then s.drew.crash p 1 (Word.mk (s.free 40)) else s

def execWatchdogExpiry (proc : Nat) (s : State) : Host.Outcome State Fault Refusal := actFw s (watchdogEffect proc)

/-- A double trap (2) or a parity error (3). -/
def trapFaultEffect (p cause : Nat) (pc : Word) (s : State) : State :=
  if s.procUp p && (cause == 2 || cause == 3) then s.crash p cause pc else s

def execProcessorTrapFault (proc cause : Nat) (pc : Word) (s : State) : Host.Outcome State Fault Refusal :=
  actFw s (trapFaultEffect proc cause pc)

def restartLimitEffect (p : Nat) (s : State) : State :=
  let x := s.proc p
  if x.st = .restarting ∧ x.due ≤ s.ns then s.crash p x.cause x.pc else s

def execRestartLimitExpiry (proc : Nat) (s : State) : Host.Outcome State Fault Refusal := actFw s (restartLimitEffect proc)

/-- A rebuild complete within the limit; the guard core's includes its self-tests (R342, R399). -/
def rebuildEffect (p : Nat) (s : State) : State :=
  let x := s.proc p
  if x.st = .restarting ∧ s.ns ≤ x.due ∧ (p = guardCore → s.guard.postPass = true) then s.procResume p else s

def execRebuildComplete (proc : Nat) (s : State) : Host.Outcome State Fault Refusal := actFw s (rebuildEffect proc)

/-- DBG_FW_FORCE.RESTART of the processor that DBG_FW_SEL selects (R353). -/
def fwForceEffect (fn : Nat) (s : State) : State :=
  if fn = 0 then s.plannedRestart (s.regField Reg.dbgFwSel 5 0) 5 else s

def execFwRestartForce (fn : Nat) (s : State) : Host.Outcome State Fault Refusal := barWrite s fn (fwForceEffect fn)

/-! ## The lease and ORPHAN (R344–R347) -/

/-- LEASE_RENEW: the lease armed or renewed; in ORPHAN it moves nothing. -/
def leaseRenewBody (c : Cmd) (s : State) : Answer :=
  let n := c.field 0x08 15 0
  if n ≠ 0 ∧ (n < 10 ∨ 60000 < n) then .refuse St.badLength 0x08
  else
    let period := if n ≠ 0 then n else s.fw.periodMs
    match s.fw.lease with
    | .orphan => .done s []
    | .inactive | .held =>
      .done { s with fw := { s.fw with lease := .held, periodMs := period, expiry := s.ns + period * 1000000 } } []

def execLeaseRenew (src : Src) (s : State) : Host.Outcome State Fault Refusal := act s (·.perform src 0x08 leaseRenewBody)

def leaseExpiryEffect (s : State) : State :=
  if s.fw.lease = .held ∧ s.fw.expiry ≤ s.ns then s.enterOrphan 1 else s

def execLeaseExpiry (s : State) : Host.Outcome State Fault Refusal := act s leaseExpiryEffect

def execLinkDown (s : State) : Host.Outcome State Fault Refusal := act s (·.enterOrphan 2)

def execPfFlr (s : State) : Host.Outcome State Fault Refusal := act s (·.enterOrphan 3)

def execOrphanResume (inst : Nat) (s : State) : Host.Outcome State Fault Refusal :=
  mbxMessage inst (· == 0x20) (fun q t => if t.orphan then t.resumeOrphan.mbxReply q St.ok else t.mbxReply q St.badState) s

def execOrphanReset (inst : Nat) (s : State) : Host.Outcome State Fault Refusal :=
  mbxMessage inst (· == 0x21) (fun q t => if t.orphan then t.resetOrphan q else t.mbxReply q St.badState) s

end Sys2Proof.Machine
end

