-- ==== Sys2Proof/Machine/Frames.lean ====
section
/-!
DEFINITION. The events of frame agents and cores (spec/03, spec/04, spec/08 R209–R211), the end of the step apart.
-/

namespace Sys2Proof.Machine

/-! ## Dispatch and the program (R19, R58, R234) -/

def dispatchRecordEffect (a slot p : Nat) (s : State) : State :=
  let ctx := ((s.partD p).slot slot).2
  match s.stepOf ctx with
  | none => s
  | some st =>
    if ((s.partD p).slot slot).1 ≠ .resident ∨ st.awaiting.contains a = false ∨ s.clusterUp a = false ∨
        ((s.agent a).step p slot).isSome then s
    else
      let t : AgentStep := { partition := p, slot, context := ctx, seq := st.seq, program := st.program,
                             qcs := (s.partD p).qcs }
      let s := (s.modAgent a fun x => { x with steps := x.steps ++ [t], lastSeq := st.seq }).emit
        (s.vcRead none st.program.toNat 64)
      if st.timingCount = 0 then s else s.emit (s.vcRead none st.timing.toNat (8 * st.timingCount))

/-- The read of check 4, the descriptors for the CRC, once the header has passed checks 1 to 3 (R58). -/
def State.readForCrc (s : State) (t : AgentStep) (program : ProgramReads) : State :=
  match program.header with
  | .data ws =>
    let n := (wordAt ws 0).field 15 0
    if (wordAt ws 0).field 31 16 ≠ 1 ∨ n = 0 then s else s.emit (s.vcRead none (t.program.toNat + 64) (256 * n))
  | _ => s

def execDispatchRecord (agent : Nat) (slot partition : Nat) (s : State) : Host.Outcome State Fault Refusal :=
  act s (dispatchRecordEffect agent slot partition)

/-- What the header of a program that passes the checks says (R57). -/
structure ProgramHeader where
  launches  : Nat
  stallOnly : Bool
  summary   : Bool
  id        : Word
  deriving DecidableEq, Repr

/-- What the checks of R58 answer: the status that ends the step, or the header. -/
def programCheck (program : ProgramReads) : Byte ⊕ ProgramHeader :=
  match program.header with
  | .error => .inl St.dataPoisoned
  | .poison => .inl St.dataPoisoned
  | .data ws =>
    let n := (wordAt ws 0).field 15 0
    if (wordAt ws 0).field 31 16 ≠ 1 then .inl St.badDescriptor
    else if n = 0 then .inl St.badLength
    else match program.body with
    | .error => .inl St.dataPoisoned
    | .poison => .inl St.dataPoisoned
    | .data body =>
    if crc32 ((List.range (64 * n)).map fun i => wordAt body i) ≠ wordAt ws 3 then .inl St.badDescriptor
    else .inr { launches := n, stallOnly := (wordAt ws 1).bit 1, summary := (wordAt ws 1).bit 0, id := wordAt ws 2 }

/-- The entries of a timing list, none where one is malformed (R234): ascending launches below `launches`. -/
def timingList (launches : Nat) : Nat → Option Nat → List Word → Option (List (Nat × Nat))
  | 0, _, _ => some []
  | n + 1, last, ws =>
    let hi := wordAt ws 1
    let l := hi.field 31 16
    if hi.field 15 8 ≠ 0 ∨ launches ≤ l ∨ last.any (fun m => l ≤ m) = true then none
    else (timingList launches n (some l) (ws.drop 2)).map fun t =>
      (l, hi.field 7 0 * 2 ^ 32 + (wordAt ws 0).toNat) :: t

/-- The timing list of a step, whose read counts as one of the program's (R58, log 24). -/
def timingCheck (st : Step) (launches : Nat) (timing : Reply) : Byte ⊕ List (Nat × Nat) :=
  if st.timingCount = 0 then .inr []
  else match timing with
    | .data ws => match timingList launches st.timingCount none ws with
      | some l => .inr (l.map fun e => (e.1, st.t0 + e.2))
      | none => .inl St.badDescriptor
    | _ => .inl St.dataPoisoned

/-- The step ended by a program that fails its checks. -/
def State.programFail (s : State) (a p slot : Nat) (t : AgentStep) (status : Byte) : State :=
  let poison := decide (status = St.dataPoisoned)
  let s := s.modAgentStep a p slot fun t => { t with failed := some status, reportDue := poison }
  let s := s.modStep t.context fun st => { st with forced := some (st.forced.getD status) }
  s.frmFault a (if poison then 2 else 0) t 0 status none

/-- Address of descriptor l (R57). -/
def AgentStep.descAddr (t : AgentStep) (l : Nat) : Nat := t.program.toNat + 64 + 256 * l

/-- Reads of descriptors lo to hi − 1. -/
def State.fetchDescs (s : State) (t : AgentStep) (lo hi : Nat) : State :=
  s.emits ((List.range (min hi t.count - lo)).map fun i => s.vcRead none (t.descAddr (lo + i)) 256)

def programCheckEffect (a slot p : Nat) (program : ProgramReads) (timing : Reply) (s : State) : State :=
  match (s.agent a).step p slot with
  | none => s
  | some t => match s.stepOf t.context with
    | none => s
    | some st =>
      if t.checked ∨ t.failed.isSome ∨ t.stopping then s
      else
        let s := s.readForCrc t program
        match programCheck program with
        | .inl status => s.programFail a p slot t status
        | .inr h => match timingCheck st h.launches timing with
          | .inl status => s.programFail a p slot t status
          | .inr timed =>
            let t' : AgentStep := { t with checked := true, count := h.launches, stallOnly := h.stallOnly,
                                           summary := h.summary, programId := h.id,
                                           launches := (List.range h.launches).map fun i => { index := i } }
            let s := (s.modAgentStep a p slot fun _ => t').modStep t.context fun st =>
              { st with launches := h.launches, stallOnly := h.stallOnly, summary := h.summary, timed }
            s.fetchDescs t' 0 8

def execProgramCheckDone (agent slot partition : Nat) (program : ProgramReads) (timing : Reply) (s : State) :
    Host.Outcome State Fault Refusal :=
  act s (programCheckEffect agent slot partition program timing)

/-! ## Expansion (R63, R82) -/

/-- A launch refused as a whole (R63, R88). FRM_REFUSE_CNT counts the refusals of check 1 with the others, as its
description in R89 has it (DESIGN CHOICE, log 51). -/
def State.refuseLaunch (s : State) (a p slot : Nat) (t : AgentStep) (l : Nat) (status : Byte) : State :=
  let s := s.modLaunch a p slot l fun x => { x with refused := true, ended := true, status }
  let s := s.satReg (frmReg Reg.frmRefuseCnt a)
  s.frmFault a (if status = St.badDescriptor then 0 else 1) t l status none

/-- A launch begun on an agent: it takes FRM_CTRL.WEIGHTED_EN as it stands, and keeps that value (DESIGN CHOICE,
log 59). It ends at once where none of its cores is the agent's. -/
def State.beginLaunch (s : State) (a p slot l : Nat) (packWith : Option Nat) : State :=
  (s.modLaunch a p slot l fun x =>
    { x with expanding := true, packWith, weighted := (s.reg (frmReg Reg.frmCtrl a)).bit 1 }).checkLaunch a p slot l

def AgentStep.operandsOf (t : AgentStep) (l : Nat) : Nat := operandCount ((Tbl.find t.descs l).getD [])

def expandEffect (a slot p : Nat) (s : State) : State :=
  match (s.agent a).step p slot with
  | none => s
  | some t =>
    let l := t.nextLaunch
    let ready := t.checked && !t.stopping && t.failed.isNone && decide (l < t.count) && decide ((s.agent a).held = none) &&
      (s.stepOf t.context).any fun st => !st.copying
    match ready, t.desc l with
    | true, some d =>
      let mayPack := d.isMx && d.packable && decide (l + 1 < t.count)
      if mayPack && (t.desc (l + 1)).isNone then s
      else
        let done (n : Nat) (s : State) : State :=
          let s := s.modAgent a fun x => { x with launch := l + n - 1 }
          let s := s.modAgentStep a p slot fun t => { t with nextLaunch := l + n }
          s.fetchDescs t (l + 8) (l + 8 + n)
        match s.launchFail d (t.operandsOf l) t.stallOnly t.qcs with
        | some status => done 1 (s.refuseLaunch a p slot t l status)
        | none =>
          let cores (d : Desc) : List Nat := (s.launchCores d t.qcs).filterMap id
          let pair := mayPack && (s.reg (frmReg Reg.frmCtrl a)).bit 0 && (t.desc (l + 1)).any fun e =>
            packs d e (cores d) (cores e) ((cores d).map s.width) &&
              (s.launchFail e (t.operandsOf (l + 1)) t.stallOnly t.qcs).isNone
          if pair then
            done 2 ((s.beginLaunch a p slot l (some (l + 1))).beginLaunch a p slot (l + 1) (some l))
          else done 1 (s.beginLaunch a p slot l none)
    | _, _ => s

def execLaunchExpand (agent slot partition : Nat) (s : State) : Host.Outcome State Fault Refusal :=
  act s (expandEffect agent slot partition)

/-! ## Queues (R80, R99, R422) -/

def execEngineCommandIssue (agent core : Nat) (engine : Nat) (s : State) : Host.Outcome State Fault Refusal :=
  act s (·.issue agent core engine)

/-- A credit frees an entry that has left the queue (R422). -/
def creditEffect (a c e : Nat) (s : State) : State :=
  let x := s.core a c
  if (x.queue e).length < x.occupied e then s.modCore a c fun x => x.setOcc e (x.occupied e - 1) else s

def execQueueCredit (agent core : Nat) (engine : Nat) (s : State) : Host.Outcome State Fault Refusal :=
  act s (creditEffect agent core engine)

/-- The command that may leave a queue for its engine: the head, or past a stalled head the first command of a reserved
entry (R80, R99). -/
def CoreState.pick (x : CoreState) (e : Nat) : Option EngCmd :=
  match x.queue e with
  | [] => none
  | y :: t => if x.ready y then some y else t.find? fun z => z.rsv.isSome && x.ready z

/-- A command starts: its destination granules have a write in flight and belong to its context (R77, R201); the first of
an MX pass, and a fill, takes an accumulator set. -/
def CoreState.start (x : CoreState) (e ctx : Nat) (y : EngCmd) : CoreState :=
  let head := decide ((x.queue e).head? = some y)
  let x := (x.setQueue e ((x.queue e).erase y)).setExec e (x.exec e ++ [y])
  let x := x.modGranules y.dests fun g => { written := false, inflight := g.inflight + 1, owner := some ctx }
  let x := match y.mx, y.rsv with
    | some m, _ => if m.first then x.openSet y.slot x.nextSet m.shadow else x
    | none, some (.fillSet n) => x.openSet y.slot n false
    | none, _ => x
  if head then x.newHead e else x

def headIssueEffect (a c e : Nat) (s : State) : State :=
  match (s.core a c).pick e, s.partOfQc ((64 * a + c) / 16) with
  | some y, some (_, part) => (s.modCore a c fun x => x.start e (part.slot y.slot).2 y).syncCore a c
  | _, _ => s

def execHeadIssue (agent core : Nat) (engine : Nat) (s : State) : Host.Outcome State Fault Refusal :=
  act s (headIssueEffect agent core engine)

/-! ## Completion (R77, R84, R97, R100) -/

/-- A signal applied (R97); the flag answers whether it carried the count to 2^47 (R100). -/
def CoreState.signal (x : CoreState) (slot : Nat) (g : Signal) : CoreState × Bool :=
  let y := x.slot slot
  let y := { y with counters := Tbl.put (fun _ => 0) y.counters g.ctr (y.counter g.ctr + BitVec.ofNat 48 g.inc) }
  (x.setSlot slot y, decide (2 ^ 47 ≤ y.rel g.ctr))

/-- The bytes of a granule or of an accumulator set saved or read back, taken from the bucket of the core's partition
(R216). -/
def State.evictTraffic (s : State) (p o key : Nat) : State :=
  match Tbl.find (s.ctx o).evicted key with
  | some v => s.urgentTraffic p (framePort { pool := v / 16 / 2 ^ 32, serial := 0 }) 4096
  | none => s

def State.setTraffic (s : State) (p o g set : Nat) : State :=
  match (Tbl.get (fun _ => []) (s.ctx o).frames g)[set + 1]? with
  | some f => s.urgentTraffic p (framePort { pool := f.1, serial := f.2 }) 65536
  | none => s

/-- A command of a reserved entry completes (R209–R211). -/
def State.rsvDone (s : State) (a c ctx : Nat) (y : EngCmd) (op : RsvOp) : State :=
  let g := 64 * a + c
  let p := (s.ctx ctx).partition
  match op with
  | .evict gr o =>
    (s.evictTraffic p o (evictKey g gr)).modCore a c fun x =>
      x.modGranules [gr] fun v => { v with written := false, owner := some ctx }
  | .restore gr => (s.evictTraffic p ctx (evictKey g gr)).evictFree ctx (evictKey g gr)
  | .saveSet set o =>
    ((s.setTraffic p o g set).modRec o g fun r => r.setAcc set true).modCore a c fun x =>
      { x with sets := dropWhere (fun y => y.num == set) x.sets }
  | .fillSet set => (s.setTraffic p ctx g set).modRec ctx g fun r => r.setAcc set false

/-- A command that has run leaves its engine: no write of it is in flight any more, and its granules are written but for
those of shares that faulted, whose written bit stays clear (DESIGN CHOICE, log 51). The last command of an MX pass gives
its set up, and a VX, SX, LD or ST command leaves new contents in its slot's banks (R200). -/
def CoreState.leave (x : CoreState) (e bank : Nat) (y : EngCmd) (good : List Nat) : CoreState :=
  let x := x.setExec e ((x.exec e).erase y)
  let x := x.modGranules y.dests fun g => { g with inflight := g.inflight - 1 }
  let x := x.modGranules (y.dests.filter fun g => good.contains g) fun g => { g with written := true }
  match y.mx with
  | some m => if m.last then x.closeSet y.slot else x
  | none =>
    if e = 0 || y.empty || y.rsv.isSome then x
    else x.setSlot y.slot { x.slot y.slot with banks := bank + 1 }

/-- One launch's share of a command completes: its signal, unless it faulted. -/
def State.partDone (s : State) (a c p slot : Nat) (x : CmdPart) (fault : Bool) : State :=
  match x.signal with
  | some g =>
    if fault then s
    else
      let r := (s.core a c).signal slot g
      let s := s.modCore a c fun _ => r.1
      if r.2 then
        let s := s.execFault a p slot x.launch St.counterOverflow (some c)
        s.raise { id := Flt.overflow, inst := s.ctxInst ((s.partD p).slot slot).2, status := St.counterOverflow }
      else s
  | none => s

/-- The fault of one launch's share (R84, R86, R88): a share of a packed pass is issued once more. -/
def State.partFault (s : State) (a c p slot : Nat) (t : AgentStep) (y : EngCmd) (x : CmdPart) (status : Byte) : State :=
  if y.packed.isSome && !t.stopping then
    let s := s.modLaunch a p slot x.launch fun l =>
      { l with again := l.again ++ [(c, x.index)], noPack := true, retried := true,
               firstFault := if l.firstFault = 0 then status else l.firstFault,
               faultCore := if l.firstFault = 0 then s.logical (64 * a + c) else l.faultCore }
    (s.satReg (frmReg Reg.frmRetryCnt a)).frmFault a 5 t x.launch status (some c)
  else (s.execFault a p slot x.launch status (some c)).frmFault a 3 t x.launch status (some c)

/-- The pages that a launch may have written marked, once it is done on a core (R258, log 25). -/
def State.markLaunch (s : State) (a c : Nat) (t : AgentStep) (l : Nat) : State :=
  match t.work s l with
  | some w =>
    if t.stopping || s.coreDone a t w.x w.d w.cores c then
      w.d.devRanges.foldl (fun s r => s.capMark t.context r.1 (r.2 + 1)) s
    else s
  | none => s

/-- The fault of a command in a reserved entry: an engine fault that stops the step (R88). It belongs to no launch, so
the step itself takes its status (DESIGN CHOICE, log 59). -/
def State.rsvFault (s : State) (a c p slot : Nat) (t : AgentStep) (status : Byte) : State :=
  let s := s.modStep t.context fun st => { st with forced := some (st.forced.getD status) }
  let s := s.modAgentStep a p slot fun t => { t with reportDue := !t.stopping }
  s.frmFault a 3 t 0 status (some c)

def completeEffect (a c e slot launch index : Nat) (status : Byte) (quad : Nat) (s : State) : State :=
  let g := 64 * a + c
  let found := ((s.core a c).exec e).find? fun y =>
    y.slot == slot && y.part.launch == launch && y.part.index == index
  match found, s.partOfQc (g / 16) with
  | some y, some (p, part) =>
    let ctx := (part.slot slot).2
    let bad (q : Nat) : Bool :=
      decide (status ≠ St.ok) && (y.packed.isNone || quad % 4 == 0 || quad.testBit q)
    let shares := (y.part, bad 0) :: (y.packed.toList.map fun x => (x, bad 1))
    let good := (shares.filter fun v => !v.2).flatMap fun v => v.1.dst
    let s := (s.modCore a c fun x => x.leave e (s.free 23) y good).drew
    let s := shares.foldl (fun s v => s.partDone a c p slot v.1 v.2) s
    let s := match y.rsv with
      | some op => s.rsvDone a c ctx y op
      | none => s
    let s := match (s.agent a).step p slot, y.rsv with
      | some t, none => shares.foldl (fun (s : State) (v : CmdPart × Bool) =>
          if v.2 then s.partFault a c p slot t y v.1 status else s) s
      | some t, some _ => if status = St.ok then s else s.rsvFault a c p slot t status
      | none, _ => s
    let s := s.syncCore a c
    if y.rsv.isSome then s
    else shares.foldl (fun s v => match (s.agent a).step p slot with
      | some t => (s.markLaunch a c t v.1.launch).checkLaunch a p slot v.1.launch
      | none => s) s
  | _, _ => s

def execCommandComplete (agent core engine slot launch index : Nat) (status : Byte) (quad : Nat) (s : State) :
    Host.Outcome State Fault Refusal :=
  act s (completeEffect agent core engine slot launch index status quad)

/-! ## Timeouts (R79, R101, R102) -/

/-- SCH_WAIT_DIAG0–7 (R105): the stalled queue, its slot, the wait. -/
def State.waitDiag (s : State) (a c e : Nat) (ctx : Nat) (y : EngCmd) (x : CmdPart) (w : Wait) : State :=
  if (s.reg Reg.schWaitDiag0).bit 31 then s
  else
    let k := (s.core a c).slot y.slot
    let d := k.rel w.ctr
    let base := (Tbl.get (fun _ => 0) k.base w.ctr : BitVec 48).toNat
    let set (s : State) (i v : Nat) : State := s.setReg (Reg.schWaitDiag0 + 4 * i) (Word.mk v)
    let s := set s 0 (2 ^ 31 + e * 2 ^ 28 + y.slot * 2 ^ 26 + w.ctr * 2 ^ 20 + s.logical (64 * a + c))
    let s := set (set s 1 (x.launch % 65536 * 2 ^ 16 + ctx)) 2 y.seq.toNat
    let s := set (set s 3 d) 4 (w.exp / 2 ^ 32 % 65536 * 2 ^ 16 + d / 2 ^ 32)
    set (set (set s 5 w.exp) 6 base) 7 (base / 2 ^ 32)

/-- Is a stall of a head timed out? Not while the cluster is HELD (R343). -/
def State.timedOut (s : State) (a : Nat) (due : Option Nat) : Bool :=
  due.any (fun t => decide (t ≤ s.cc)) && decide ((s.agent a).held = none)

/-- Of a packed pass whose two waits have both failed at the limit, the launch that comes first is the one that ends
ST_WAIT_TIMEOUT and is recorded (DESIGN CHOICE, log 59). -/
def waitTimeoutEffect (a c e : Nat) (s : State) : State :=
  let x := s.core a c
  match (x.queue e).head?, s.partOfQc ((64 * a + c) / 16) with
  | some y, some (p, part) =>
    let ctx := (part.slot y.slot).2
    match s.timedOut a (Tbl.find x.waitDue e), y.parts.find? (fun q => !x.waitOk y.slot q.wait) with
    | true, some q =>
      let s := s.modCore a c fun x => { x with waitDue := Tbl.erase x.waitDue e }
      let s := match q.wait with
        | some w => s.waitDiag a c e ctx y q w
        | none => s
      let s := (s.satReg Reg.schWaitToCnt).execFault a p y.slot q.launch St.waitTimeout (some c)
      s.raise { id := Flt.waitTimeout, inst := s.ctxInst ctx, status := St.waitTimeout }
    | _, _ => s
  | _, _ => s

def execWaitTimeout (agent core : Nat) (engine : Nat) (s : State) : Host.Outcome State Fault Refusal :=
  act s (waitTimeoutEffect agent core engine)

def gateTimeoutEffect (a c e : Nat) (s : State) : State :=
  let x := s.core a c
  match (x.queue e).head?, s.partOfQc ((64 * a + c) / 16) with
  | some y, some (p, _) =>
    match s.timedOut a (Tbl.find x.gateDue e), x.firstInvalid y, (s.agent a).step p y.slot with
    | true, some gr, some t =>
      let l := ((y.parts.find? fun q => q.src.contains gr).getD y.part).launch
      let s := s.modCore a c fun x => { x with gateDue := Tbl.erase x.gateDue e }
      let s := s.setReg (frmReg Reg.frmGateInfo a) (Word.mk (gr * 2 ^ 16 + c))
      let s := s.execFault a p y.slot l St.operandTimeout (some c)
      s.frmFault a 4 t l St.operandTimeout (some c)
    | _, _, _ => s
  | _, _ => s

def execGateTimeout (agent core : Nat) (engine : Nat) (s : State) : Host.Outcome State Fault Refusal :=
  act s (gateTimeoutEffect agent core engine)

/-! ## Records, faults and stops (R85, R86) -/

/-- The completion record of a launch (R85). -/
def LaunchState.record (x : LaunchState) (agent : Nat) (seq : Word) : CompletionRec :=
  { agent, launch := x.index, status := x.status, refused := x.refused, packed := x.packed, retried := x.retried,
    stepSeq := seq, commands := x.started, firstFault := x.firstFault, core := x.faultCore }

def completionRecordEffect (a slot p l : Nat) (s : State) : State :=
  match (s.agent a).step p slot with
  | none => s
  | some t => match t.launch l with
    | none => s
    | some x =>
      if !x.ended || x.recorded then s
      else
        let r := x.record a t.seq
        let s := (s.modLaunch a p slot l fun x => { x with recorded := true }).emit (.control a r.words)
        let s := s.modStep t.context fun st =>
          if st.awaiting.contains a then { st with records := st.records ++ [r] } else st
        s.runProgress t.context

def execCompletionRecord (agent slot partition launch : Nat) (s : State) : Host.Outcome State Fault Refusal :=
  act s (completionRecordEffect agent slot partition launch)

def faultReportEffect (a slot p : Nat) (s : State) : State :=
  match (s.agent a).step p slot with
  | none => s
  | some t =>
    if t.reportDue then (s.modAgentStep a p slot fun t => { t with reportDue := false }).stopStep t.context else s

def execExecutionFaultReport (agent slot partition : Nat) (s : State) : Host.Outcome State Fault Refusal :=
  act s (faultReportEffect agent slot partition)

/-- A step stopped on an agent (R86): unstarted commands go, a parked or open set is released, launches not begun end
ST_SQUASHED, the others once their started commands complete. -/
def State.stopAgentStep (s : State) (a p slot : Nat) (t : AgentStep) : State :=
  let cs := t.ownCores a
  let s := s.modAgentStep a p slot fun t => { t with stopping := true, reportDue := false, noFrame := [] }
  let s := cs.foldl (fun s c =>
    (s.withdrawCore a p slot c false).modCore a c fun x => x.dropSets slot) s
  let s := cs.foldl (fun s c => s.syncCore a c) s
  let begun := t.launches.filter fun x => x.expanding && !x.ended
  let s := begun.foldl (fun s x => match t.work s x.index with
    | some w =>
      if x.started = 0 then s else w.d.devRanges.foldl (fun s r => s.capMark t.context r.1 (r.2 + 1)) s
    | none => s) s
  let squash (x : LaunchState) : LaunchState :=
    if x.expanding || x.ended then x else { x with ended := true, status := if x.status = 0 then St.squashed else x.status }
  let s := s.modAgentStep a p slot fun t => { t with launches := t.launches.map squash }
  begun.foldl (fun s x => s.checkLaunch a p slot x.index) s

def stepStopEffect (a slot p : Nat) (s : State) : State :=
  match (s.agent a).step p slot with
  | none => s
  | some t =>
    if !t.stopping && (s.stepOf t.context).any (fun st => st.stopSent && st.seq == t.seq) then s.stopAgentStep a p slot t
    else s

def execStepStop (agent slot partition : Nat) (s : State) : Host.Outcome State Fault Refusal :=
  act s (stepStopEffect agent slot partition)

end Sys2Proof.Machine
end

