-- ==== Sys2Proof/Machine/Guard.lean ====
section
/-!
DEFINITION. The guard core's rows (spec/18): its mailbox messages, self-tests, zeroisation, fuse burns, SPDM and IDE_KM
requests, swarm keys.
-/

namespace Sys2Proof.Machine

/-! ## Mailbox messages (R396) -/

/-- A message that is a security operation: answered at once while the guard core does not serve (R342, R399). -/
def State.guardMessage (s : State) (q : MbxReq) (random : Bool) (f : State → State) : State :=
  match s.guardFail random with
  | some status => (s.grdInfo status q.msg q.inst).mbxReply q status
  | none => f s

/-- ZEROIZE: the full scope, then the seal; answered once the zeroisation completes (R400). -/
def execZeroize (inst : Nat) (s : State) : Host.Outcome State Fault Refusal :=
  mbxMessage inst (· == 0x40) (fun q t => t.guardMessage q false fun t => t.zeroFull .zeroize (some q)) s

/-- LIFECYCLE_ADVANCE (R398): `token` is the read of the signature block, `verified` the verdict of the two signature
checks over GRD_UID and TARGET; the block itself is checked as in R402, with KEY_INDEX 0–2 and SVN ignored. -/
def State.lifecycleAdvance (s : State) (token : Reply) (verified : Bool) (q : MbxReq) : State :=
  let target := (s.mbxWord q.inst 0).field 2 0
  if 4 < target then s.mbxReply q St.badLength
  else if target ≤ s.guard.lifecycle then s.mbxReply q St.badState
  else
    let s := s.emit (s.dmaRead 0 (s.mbxDword q.inst 8).toNat 5464)
    match token with
    | .data ws =>
      let b := sigBlock ws 0
      if verified && b.formed && decide (b.keyIndex < 3) && s.keyGood b then
        let s := s.burnStart { kind := .lifecycle target, req := some q }
        if 3 ≤ target then s.zeroFull .lifecycle none else s
      else (s.sigReject q).mbxReply q St.auth
    | .error | .poison => s.mbxReply q St.badAddress

def execLifecycleAdvance (inst : Nat) (token : Reply) (verified : Bool) (s : State) :
    Host.Outcome State Fault Refusal :=
  mbxMessage inst (· == 0x41) (fun q t => t.guardMessage q false fun t => t.lifecycleAdvance token verified q) s

/-- OPEN_KEY_SET: once since reset. -/
def State.openKeySet (s : State) (q : MbxReq) : State :=
  if s.guard.openHash.isSome then s.mbxReply q St.badState
  else
    let h := (List.range 12).map fun k => s.mbxWord q.inst (4 * k)
    ({ s with guard := { s.guard with openHash := some h } }).mbxReply q St.ok

def execOpenKeySet (inst : Nat) (s : State) : Host.Outcome State Fault Refusal :=
  mbxMessage inst (· == 0x42) (fun q t => t.guardMessage q false fun t => t.openKeySet q) s

/-- SELF_TEST: the start-up tests run; their end answers it. -/
def execSelfTest (inst : Nat) (s : State) : Host.Outcome State Fault Refusal :=
  mbxMessage inst (· == 0x43) (fun q t => t.guardMessage q false fun t =>
    { t with guard := { t.guard with testing := some q } }) s

/-! ## Self-tests (R399) -/

/-- Do the start-up tests run: at the ROM's start, on demand, in a restart? -/
def State.postRuns (s : State) : Bool :=
  !s.guardSealed && (s.guard.testing.isSome ||
    (!s.guard.postDone && decide (s.power.phase = .up) &&
      (decide ((s.proc guardCore).st = .off) || decide ((s.proc guardCore).st = .restarting))))

/-- The tests pass, which ends the wait for a retest. The ROM serves from now on, with DEVICE derived where the UDS is not
read-blocked, and memory key 0 made (R400, R408). -/
def State.postPassed (s : State) : State :=
  let s := { s with guard := { s.guard with retestAt := none } }
  match s.guard.testing with
  | some q => State.mbxReply { s with guard := { s.guard with testing := none } } q St.ok
  | none =>
    let boot := decide ((s.proc guardCore).st = ProcState.off)
    let s := { s with guard := { s.guard with deviceKey := s.guard.deviceKey || !s.guard.udsBlocked, drbg := true } }
    if boot then s.newKeyId 0 else s

/-- A start-up test fails: the guard core seals, and at power-on the boot ends (R336). -/
def State.postFailed (s : State) : State :=
  let boot := decide ((s.proc guardCore).st = ProcState.off) && decide (s.fw.phase ≠ Phase.run)
  let s := { s with guard := { s.guard with postPass := false } }
  let s := ((s.grdInfo St.auth 0 0).raise { id := Flt.postFail, status := St.auth }).sealGuard
  if boot then State.raise { s with fw := { s.fw with bootEnded := true } } { id := Flt.fwHalted, unit := guardCore } else s

/-- The start-up tests end; bit t of `bits`: test t passed. -/
def postDoneEffect (bits : BitVec 10) (s : State) : State :=
  if !s.postRuns then s
  else
    let pass := decide (bits = 0x3FF)
    let s := { s with guard := { s.guard with postDone := true, postPass := pass, postBits := bits } }
    if pass then s.postPassed else s.postFailed

def execGuardPostDone (bits : BitVec 10) (s : State) : Host.Outcome State Fault Refusal := actFw s (postDoneEffect bits)

/-- The start-up tests repeated 1 s after a conditional failure. -/
def retestEffect (passed : Bool) (s : State) : State :=
  if !s.due s.guard.retestAt then s
  else
    let s := { s with guard := { s.guard with retestAt := none } }
    if passed then s else s.postFailed

def execEntropyRetest (passed : Bool) (s : State) : Host.Outcome State Fault Refusal := act s (retestEffect passed)

/-! ## Zeroisation and burns (R398, R400, R402, R414) -/

/-- The shadows of a freeze captured, the Timebase counter with them (R442, R443). -/
def State.captureFreeze (s : State) : State :=
  { s with power := { s.power with freeze := s.power.freeze.map fun f => { f with captured := true, counter := s.tb.ctr } } }

/-- Overwrite and read-back end. In a freeze the clocks stop after it (R408, R442). -/
def zeroizeDoneEffect (ok : Bool) (s : State) : State :=
  match s.guard.zero with
  | none => s
  | some (cause, req) =>
    let s := { s with guard := { s.guard with zero := none, zeroized := s.guard.zeroized || ok } }
    let s := s.grdInfo 0 0 0
    let s := if ok then
        let s := s.raise { id := Flt.zeroized }
        match req with
        | some q => s.mbxReply q St.ok
        | none => s
      else s.raise { id := Flt.zeroFail }
    let zeroed (f : Freeze) : Freeze := { f with zeroed := f.zeroed || decide (cause = .freeze) }
    ({ s with power := { s.power with freeze := s.power.freeze.map zeroed } }).captureFreeze

/-- The zeroisation that a freeze waits for ends before the clocks stop, so it is not held by the freeze. -/
def execZeroizeDone (ok : Bool) (s : State) : Host.Outcome State Fault Refusal :=
  .next (if s.clocked then (zeroizeDoneEffect ok s).settle
         else if s.power.freeze.any (fun f => !f.captured) && decide (s.power.st = .run) then zeroizeDoneEffect ok s
         else s)

/-- The fuse macro acknowledges a program request: a failed one is repeated once. -/
def fuseAckEffect (error : Bool) (s : State) : State :=
  match s.guard.burn with
  | none => s
  | some b =>
    if error && !b.retry then s.burnGo { b with retry := true }
    else
      let s := match b.kind, error with
        | .min svn, false => { s with guard := { s.guard with min := svn } }
        | .min _, true => s
        | .lifecycle _, _ => s
      let s := s.burnNext
      match b.req with
      | some q => s.mbxReply q (if error then St.badState else St.ok)
      | none => s

def execFuseProgramAck (error : Bool) (s : State) : Host.Outcome State Fault Refusal := act s (fuseAckEffect error)

/-! ## SPDM (R403, R404) -/

/-- SPDM ERROR codes of R403 and R405. -/
def doeInvalid : Nat := 0x01
def doeBusy : Nat := 0x03
def doeUnexpected : Nat := 0x04
def doeUnspecified : Nat := 0x05
def doeUnsupported : Nat := 0x07

def State.doeError (s : State) (q : DoeReq) (error code : Nat) : State := s.emit (.doe q.fn error code [])

/-- An answer, with the content that the spec gives it. -/
def State.doeTell (s : State) (q : DoeReq) (code : Nat) (content : List Word) : State := s.emit (.doe q.fn 0 code content)

def State.doeAnswer (s : State) (q : DoeReq) (code : Nat) : State := s.doeTell q code []

/-- A request that does not decrypt or is malformed (R403, R409). -/
def State.doeMalformed (s : State) (q : DoeReq) (code : Nat) : State :=
  ((s.grdInfo 0 code q.fn).raise { id := Flt.spdmErr, unit := q.fn, inst := some q.fn }).doeError q doeInvalid code

/-- The session that a request comes in, where it is open for its function. -/
def State.doeSession (s : State) (q : DoeReq) : Option Session :=
  q.session.bind fun id => s.guard.sessions.find? fun x => x.fn == q.fn && x.id == id

/-- A conditional test of the guard core fails (R399, R409): its event, and the start-up tests again 1 s later. -/
def State.condFail (s : State) (id : Nat) (q : DoeReq) (code : Nat) : State :=
  let s := (s.grdInfo St.busy code q.fn).raise { id, status := St.busy }
  { s with guard := { s.guard with retestAt := some (s.ns + 1000000000) } }

/-- A request that draws random values: a sample of the entropy source that fails its test leaves it answered Busy. -/
def State.doeDraw (s : State) (q : DoeReq) (code : Nat) (f : State → State) : State :=
  if q.test = .entropy then (s.condFail Flt.entropy q code).doeError q doeBusy code else f s

/-- A request that the responder takes up: the limits of R403 met, well formed, of SPDM 1.2 or 1.3 unless it asks which are
supported, in a session that is open if in any. `random`: its answer needs random values. -/
def State.doe (s : State) (q : DoeReq) (code : Nat) (random : Bool) (f : State → State) : State :=
  if !s.hasInst q.fn then s.doeError q doeUnexpected code
  else if s.guardSealed then s.doeError q doeUnspecified code
  else if (s.guardFail random).isSome then s.doeError q doeBusy code
  else if 4096 < q.bytes then s.doeError q doeInvalid code
  else if !q.ok || (q.session.isSome && (s.doeSession q).isNone) then s.doeMalformed q code
  else if code ≠ 0x84 ∧ q.version ≠ 0x12 ∧ q.version ≠ 0x13 then s.doeError q doeInvalid code
  else if random then s.doeDraw q code f
  else f s

def execGetVersion (q : DoeReq) (s : State) : Host.Outcome State Fault Refusal :=
  act s fun s => s.doe q 0x84 false fun s => s.doeTell q 0x84 [0x12, 0x13]

def execGetCapabilities (q : DoeReq) (s : State) : Host.Outcome State Fault Refusal :=
  act s fun s => s.doe q 0xE1 false fun s => s.doeAnswer q 0xE1

/-- The algorithms selected, as the answer gives them: one of each use that the request offers, none of the others. -/
def algorithmsWord (x : Algorithms) : Word :=
  Word.mk (bitAt 4 x.meas + bitAt 3 x.aead + bitAt 2 x.dhe + bitAt 1 x.hash + bitAt 0 x.signing)

/-- The supported algorithms that a request offers are the ones selected: R403 supports one for each use. -/
def execNegotiateAlgorithms (q : DoeReq) (algorithms : Algorithms) (s : State) : Host.Outcome State Fault Refusal :=
  act s fun s => s.doe q 0xE3 false fun s =>
    ({ s with guard := { s.guard with negotiated := Tbl.insert s.guard.negotiated q.fn algorithms } }).doeTell q 0xE3
      [algorithmsWord algorithms]

def execGetDigests (q : DoeReq) (s : State) : Host.Outcome State Fault Refusal :=
  act s fun s => s.doe q 0x81 false fun s => s.doeTell q 0x81 [0x3]

/-- Certificate slots 0 and 1 (R403). -/
def State.doeSlot (s : State) (q : DoeReq) (code slot : Nat) : State :=
  if slot < 2 then s.doeAnswer q code else s.doeError q doeInvalid code

def execGetCertificate (q : DoeReq) (slot : Nat) (s : State) : Host.Outcome State Fault Refusal :=
  act s fun s => s.doe q 0x82 false fun s => s.doeSlot q 0x82 slot

def execChallenge (q : DoeReq) (slot : Nat) (s : State) : Host.Outcome State Fault Refusal :=
  act s fun s => s.doe q 0x83 true fun s => s.doeSlot q 0x83 slot

/-- D and the microcode's digest are the running image's; before one runs they are open. -/
def State.imageWords (s : State) (ws : List Word) : List Word :=
  if ws.isEmpty then (List.range 12).map Config.noImage else ws

/-- Measurement k of a function (R404). The INSTANCE_CREATE parameters and WAIRON are hashed as their packet gives them. -/
def State.measurement (s : State) (fn k : Nat) : List Word :=
  let zero := List.replicate 12 0
  let x := s.inst fn
  match k with
  | 1 => digestWords Config.rom
  | 2 => s.imageWords s.fw.running.digest
  | 3 => s.imageWords s.fw.running.micro
  | 4 => (s.store.open_.map fun o => o.digest).getD zero
  | 5 => [Word.mk (s.fw.running.sig.svn * 2 ^ 16 + s.guard.min * 2 ^ 8 + s.guard.lifecycle), 0]
  | 6 => digestWords (bytesOf s.power.fuses.words)
  | 7 => if fn = 0 then zero else digestWords (bytesOf (x.q.packet fn x.wairon))
  | _ => []

/-- A measurement 1–7, or with 0 their count and with 0xFF all of them. -/
def State.doeMeasure (s : State) (q : DoeReq) (index : Nat) : State :=
  if index = 0 then s.doeTell q 0xE0 [7]
  else if index ≤ 7 then s.doeTell q 0xE0 (s.measurement q.fn index)
  else if index = 0xFF then s.doeTell q 0xE0 ((List.range 7).flatMap fun k => s.measurement q.fn (k + 1))
  else s.doeError q doeInvalid 0xE0

def execGetMeasurements (q : DoeReq) (index : Nat) (s : State) : Host.Outcome State Fault Refusal :=
  act s fun s => s.doe q 0xE0 true fun s => s.doeMeasure q index

/-- A session opened, 16 device-wide. A key pair that fails its pairwise-consistency test is discarded, and none is opened
(R399, R409). -/
def State.doeOpen (s : State) (q : DoeReq) (id : Word) : State :=
  if 16 ≤ s.guard.sessions.length then s.doeError q doeBusy 0xE4
  else if q.test = .pct then (s.condFail Flt.pct q 0xE4).doeError q doeBusy 0xE4
  else
    let x : Session := { fn := q.fn, id }
    ({ s with guard := { s.guard with sessions := s.guard.sessions ++ [x] } }).doeAnswer q 0xE4

def execKeyExchange (q : DoeReq) (id : Word) (s : State) : Host.Outcome State Fault Refusal :=
  act s fun s => s.doe q 0xE4 true fun s => s.doeOpen q id

/-- FINISH in the session that KEY_EXCHANGE opened. -/
def State.doeFinish (s : State) (q : DoeReq) (verified : Bool) : State :=
  match s.doeSession q with
  | none => s.doeError q doeInvalid 0xE5
  | some x =>
    if x.finished then s.doeError q doeInvalid 0xE5
    else if !verified then s.doeMalformed q 0xE5
    else
      let done (y : Session) : Session := { y with finished := true }
      ({ s with guard := { s.guard with sessions := updateFirst (fun y => y == x) done s.guard.sessions } }).doeAnswer q 0xE5

def execFinish (q : DoeReq) (verified : Bool) (s : State) : Host.Outcome State Fault Refusal :=
  act s fun s => s.doe q 0xE5 false fun s => s.doeFinish q verified

/-- A request that belongs in a completed session. -/
def State.doeSecured (s : State) (q : DoeReq) (code : Nat) (f : State → State) : State :=
  if (s.doeSession q).any fun x => x.finished then f s else s.doeError q doeInvalid code

def execKeyUpdate (q : DoeReq) (s : State) : Host.Outcome State Fault Refusal :=
  act s fun s => s.doe q 0xE9 false fun s => s.doeSecured q 0xE9 fun s => s.doeAnswer q 0xE9

def execSpdmHeartbeat (q : DoeReq) (s : State) : Host.Outcome State Fault Refusal :=
  act s fun s => s.doe q 0xE8 false fun s => s.doeSecured q 0xE8 fun s => s.doeAnswer q 0xE8

/-- The session's keys go with it (R400). -/
def State.doeEnd (s : State) (q : DoeReq) : State :=
  let mine (x : Session) : Bool := x.fn == q.fn && q.session == some x.id
  ({ s with guard := { s.guard with sessions := dropWhere mine s.guard.sessions } }).doeAnswer q 0xEC

def execEndSession (q : DoeReq) (s : State) : Host.Outcome State Fault Refusal :=
  act s fun s => s.doe q 0xEC false fun s => s.doeSecured q 0xEC fun s => s.doeEnd q

/-! ## Swarm keys (R406, R407) -/

/-- The conditions of R406 on a new swarm key. -/
def State.keyFits (s : State) (epoch : Half) (activateAt : Dword) : Bool :=
  s.guard.waiting.isNone && s.guard.current.all (fun k => k.epoch + 1 == epoch) &&
    decide (s.ns + 10000000 ≤ activateAt.toNat)

def State.swarmKeyLoad (s : State) (q : DoeReq) (epoch : Half) (activateAt : Dword) (key : List Word) : State :=
  if q.fn = 0 ∧ key.length = 8 ∧ s.keyFits epoch activateAt = true then
    ({ s with guard := { s.guard with waiting := some { epoch, key }, activateAt } }).doeAnswer q 0xFE
  else s.doeError q doeInvalid 0xFE

def execSwarmKeyLoad (q : DoeReq) (epoch : Half) (activateAt : Dword) (key : List Word) (s : State) :
    Host.Outcome State Fault Refusal :=
  act s fun s => s.doe q 0xFE false fun s => s.doeSecured q 0xFE fun s => s.swarmKeyLoad q epoch activateAt key

/-- ACTIVATE_AT: the keys move one place; link keys follow, or wait for a guard core that restarts (R408). -/
def keyActivateEffect (s : State) : State :=
  if s.guard.waiting.isNone ∨ s.ns < s.guard.activateAt.toNat then s
  else
    let g := { s.guard with current := s.guard.waiting, previous := s.guard.current, waiting := none, activateAt := 0 }
    let s := { s with guard := { g with linkDue := true } }
    if s.guardUp then s.deriveLinks else s

def execKeyActivate (s : State) : Host.Outcome State Fault Refusal := act s keyActivateEffect

/-! ## IDE_KM (R405) -/

/-- An IDE_KM request: on the physical function's DOE, inside a secured session, for one of 8 streams and two key sets. -/
def State.ideKm (s : State) (q : DoeReq) (stream set : Nat) (f : State → State) : State :=
  s.doe q 0xFE false fun s =>
    if q.fn ≠ 0 then s.doeError q doeUnsupported 0xFE
    else s.doeSecured q 0xFE fun s => if stream < 8 ∧ set < 2 then f s else s.doeError q doeInvalid 0xFE

def execIdeKmQuery (q : DoeReq) (s : State) : Host.Outcome State Fault Refusal :=
  act s fun s => s.ideKm q 0 0 fun s => s.doeAnswer q 0xFE

/-- A key into the PCIe controller, over the key sideband. -/
def State.ideProg (s : State) (q : DoeReq) (stream sub set : Nat) : State :=
  let rest := dropWhere (fun x => x.stream == stream && x.sub == sub && x.set == set) s.guard.ide
  let x : IdeKey := { stream, sub, set }
  let s := { s with guard := { s.guard with ide := rest ++ [x] } }
  (s.emit (.key 0 stream (2 * sub + set) q.key)).doeAnswer q 0xFE

def execIdeKmKeyProg (q : DoeReq) (stream sub set : Nat) (s : State) : Host.Outcome State Fault Refusal :=
  act s fun s => s.ideKm q stream set fun s => s.ideProg q stream sub set

/-- A key set's use started or stopped, where its key is in place. -/
def State.ideUse (s : State) (q : DoeReq) (stream sub set : Nat) (going : Bool) : State :=
  let mine (x : IdeKey) : Bool := x.stream == stream && x.sub == sub && x.set == set
  if s.guard.ide.any mine then
    let turn (x : IdeKey) : IdeKey := { x with going }
    ({ s with guard := { s.guard with ide := updateFirst mine turn s.guard.ide } }).doeAnswer q 0xFE
  else s.doeError q doeInvalid 0xFE

def execIdeKmKSetGo (q : DoeReq) (stream sub set : Nat) (s : State) : Host.Outcome State Fault Refusal :=
  act s fun s => s.ideKm q stream set fun s => s.ideUse q stream sub set true

def execIdeKmKSetStop (q : DoeReq) (stream sub set : Nat) (s : State) : Host.Outcome State Fault Refusal :=
  act s fun s => s.ideKm q stream set fun s => s.ideUse q stream sub set false

end Sys2Proof.Machine
end

