-- ==== Sys2Proof/Machine/Sampler.lean ====
section
/-!
DEFINITION. The Sampler's commands and events (spec/06): SAMPLE_BIND, tables, automata, sample rows.
-/

namespace Sys2Proof.Machine

/-! ## SAMPLE_BIND (R136, R137) -/

/-- Role of a ROLE field. -/
def roleOf (n : Nat) : Role :=
  match n with
  | 0 => .main
  | 1 => .draft
  | _ => .fallback

/-- S of a bound role (R107). -/
def ServePart.roleS (x : ServePart) (r : Role) : Nat :=
  match r with
  | .main => x.limS
  | _ => ((x.role r).map RoleBinding.lastSeqs).getD 0

/-- Rows that a role's binding must hold. -/
def rowsNeed (r : Role) (limit : Nat) : Nat := if r = .main then 9 * limit else limit

def sampleBindBody (c : Cmd) (s : State) : Answer :=
  let p := c.field 0x08 6 0
  let r := roleOf (c.field 0x08 9 8)
  let vocab := c.field 0x0C 20 0
  let width := c.field 0x10 8 0
  let lfmt := c.field 0x10 19 16
  let rows := c.field 0x14 15 0
  let pen := c.field 0x14 26 16
  let sum := c.dword 0x18
  let logit := c.dword 0x20
  let b : SampleBinding := { vocab, width, sumBase := sum, rowsMax := rows, logitBase := logit, lfmt, penWindow := pen }
  let sumBytes := rows * b.shards * (16 + 8 * width)
  if c.field 0x08 9 8 = 3 then .refuse St.badLength 0x09
  else if vocab = 0 ∨ 1048576 < vocab then .refuse St.badLength 0x0C
  else if width < 16 ∨ 256 < width ∨ width % 16 ≠ 0 then .refuse St.badLength 0x10
  else if lfmt ≠ 0 ∧ lfmt ≠ 6 then .refuse St.badLength 0x12
  else if rows = 0 ∨ 36864 < rows then .refuse St.badLength 0x14
  else if 1024 < pen then .refuse St.badLength 0x16
  else if sum.toNat % 256 ≠ 0 ∨ Config.inWindows c.inst sum.toNat sumBytes = false then .refuse St.badLength 0x18
  else if logit ≠ 0 ∧ (logit.toNat % 256 ≠ 0 ∨
      Config.inWindows c.inst logit.toNat (b.logitAddr rows - logit.toNat) = false) then .refuse St.badLength 0x20
  else match s.part p with
    | none => .refuse St.noResource 0x08
    | some part =>
      let x := s.serve p
      let main := Tbl.find s.sampler.bindings (p * 4)
      if part.inst ≠ c.inst then .refuse St.noResource 0x08
      else if (x.role r).isSome ∧ rows < rowsNeed r (x.roleS r) then .refuse St.badLength 0x14
      else if r ≠ .main ∧ (main.any fun m => m.vocab != vocab) = true then .refuse St.badLength 0x0C
      else if r = .draft ∧ (s.reg Reg.smpCtrl).bit 1 = false then .refuse St.noResource noField
      else .done { s with sampler := { s.sampler with bindings := Tbl.insert s.sampler.bindings (p * 4 + r.code) b } } []

def execSampleBind (src : Src) (s : State) : Host.Outcome State Fault Refusal :=
  act s (·.perform src 0x44 sampleBindBody)

/-! ## Tables (R140–R142) -/

/-- Has the region table, of 8 192 regions, room for an arena (R188)? -/
def State.arenaRoom (s : State) (u : RegionUse) : Bool :=
  (s.pager.regions.any fun e => e.2.use == u) || decide (s.pager.regions.length < 8192)

/-- The arena that tables or automata are loaded into, with its replica (R140): a region of the pager's (log 26). -/
def State.needArena (s : State) (u : RegionUse) (pages n : Nat) : State :=
  if s.pager.regions.any fun e => e.2.use == u then s
  else
    let k := Tbl.freshFrom s.pager.regions 0
    let x : Region := { use := u, base := BitVec.ofNat 64 (Config.raw n % 2 ^ 32 * 65536), pages,
                        replica := BitVec.ofNat 64 ((1 + Config.raw (n + 1) % (2 ^ 32 - 1)) * 65536) }
    { s with pager := { s.pager with regions := Tbl.insert s.pager.regions k x } }

/-- A table written to its place in its arena, and to the arena's replica. -/
def State.writeArena (s : State) (u : RegionUse) (n : Nat) (ws : List Word) : State :=
  match s.pager.regions.find? fun e => e.2.use == u with
  | some e => s.writeRegion e.2 (Config.arenaAt n) ws
  | none => s

/-- Bias entries from their words. -/
def biasEntries (n : Nat) (ws : List Word) : List (Nat × Word) :=
  (List.range n).map fun i => ((wordAt ws (2 * i)).field 19 0, wordAt ws (2 * i + 1))

/-- Do numbers ascend strictly? -/
def ascends : List Nat → Bool
  | [] => true
  | [_] => true
  | a :: b :: t => decide (a < b) && ascends (b :: t)

/-- Stop sequences from their words, none where a length is out of range (R142). -/
def stopSeqs (n : Nat) (ws : List Word) : Option (List (List Nat)) :=
  let l := (List.range n).map fun i =>
    let len := (wordAt ws (17 * i)).toNat
    if len = 0 ∨ 16 < len then none
    else some ((List.range len).map fun j => (wordAt ws (17 * i + 1 + j)).field 19 0)
  if l.all Option.isSome then some (l.filterMap id) else none

def finite32 (w : Word) : Bool := decide (w.field 30 23 ≠ 255)

def tableLoadBody (body : Reply) (c : Cmd) (s : State) : Answer :=
  let k := c.field 0x08 15 0
  let kind := c.bit 0x08 16
  let n := c.field 0x0C 12 0
  let store (b : TableBody) (ws : List Word) : Answer :=
    let t := (s.needArena .tables 65536 32).writeArena .tables k ws
    if !s.arenaRoom .tables then .refuse St.noResource noField
    else .done { t with sampler := { t.sampler with tables := Tbl.insert t.sampler.tables k { inst := c.inst, body := b } } } []
  if n = 0 ∨ (if kind then 16 else 4096) < n then .refuse St.badLength 0x0C
  else match Tbl.find s.sampler.tables k with
    | some x => .refuse (if x.inst = c.inst then St.badState else St.noResource) 0x08
    | none => match body with
      | .error => .refuse St.badAddress 0x10
      | .poison => .refuse St.dataPoisoned 0x10
      | .data ws =>
        if kind then match stopSeqs n ws with
          | some l => store (.stop l) (ws.take (17 * n))
          | none => .refuse St.badLength 0x10
        else
          let l := biasEntries n ws
          if ascends (l.map fun e => e.1) && l.all fun e => finite32 e.2 then
            store (.bias l (l.any fun e => FP.lt FP.zero (FP.ofWord e.2))) (ws.take (2 * n))
          else .refuse St.badDescriptor 0x10

def execSampleTableLoad (src : Src) (body : Reply) (s : State) : Host.Outcome State Fault Refusal :=
  act s (·.perform src 0x45 (tableLoadBody body))

/-- Does a stream in ADMITTED to DORMANT satisfy p? -/
def State.anyLive (s : State) (p : CombEntry → Bool) : Bool := s.comb.entries.any fun e => e.2.live && p e.2

def tableFreeBody (c : Cmd) (s : State) : Answer :=
  let t := c.field 0x08 15 0
  if (Tbl.find s.sampler.tables t).all fun x => x.inst != c.inst then .refuse St.noResource 0x08
  else if s.anyLive fun e => decide (e.p.biasTable.toNat = t) || decide (e.p.stopSeq.toNat = t) then
    .refuse St.badState 0x08
  else .done { s with sampler := { s.sampler with tables := Tbl.erase s.sampler.tables t } } []

def execSampleTableFree (src : Src) (s : State) : Host.Outcome State Fault Refusal :=
  act s (·.perform src 0x46 tableFreeBody)

/-! ## Automata (R143) -/

/-- A word at a byte offset of the automaton's bytes. -/
def autWord (ws : List Word) (byte : Nat) : Word :=
  Word.mk ((wordAt ws (byte / 4)).toNat / 2 ^ (8 * (byte % 4)) +
    (wordAt ws (byte / 4 + 1)).toNat * 2 ^ (32 - 8 * (byte % 4)))

/-- The automaton laid out in its words, none where R143 refuses it. -/
def readAutomaton (inst bytes : Nat) (ws : List Word) : Option Automaton :=
  let h (k : Nat) : Nat := (wordAt ws k).toNat
  let vocab := h 0
  let states := (wordAt ws 1).field 31 16 + 1
  let start := (wordAt ws 1).field 15 0
  let rows := h 2
  let excs := h 3
  let rowBytes := (vocab + 255) / 256 * 32
  if vocab = 0 ∨ 1048576 < vocab ∨ states ≤ start ∨ bytes < 32 ∨ bytes < h 4 + 16 * states ∨
      bytes < h 5 + rowBytes * rows ∨ bytes < h 6 + 8 * excs then none
  else
    let st (i : Nat) : AutState :=
      let w (b : Nat) : Word := autWord ws (h 4 + 16 * i + b)
      { maskRow := (w 0).field 31 16, dflt := (w 0).field 15 0, excFirst := (w 4).toNat, excCount := (w 8).field 31 16,
        isEnd := (w 8).bit 0 }
    let mask (r : Nat) : Nat :=
      (List.range (rowBytes / 4)).foldl (fun n k => n + (autWord ws (h 5 + rowBytes * r + 4 * k)).toNat * 2 ^ (32 * k)) 0
        % 2 ^ vocab
    let exc (i : Nat) : Nat × Nat :=
      ((autWord ws (h 6 + 8 * i)).field 19 0, (autWord ws (h 6 + 8 * i + 4)).field 15 0)
    let sts := (List.range states).map st
    let masks := (List.range rows).map mask
    let es := (List.range excs).map exc
    let ok (x : AutState) : Bool :=
      decide (x.maskRow < rows) && decide (x.dflt < states) && decide (x.excFirst + x.excCount ≤ excs) &&
        ascends (((es.drop x.excFirst).take x.excCount).map fun e => e.1) &&
        (x.isEnd || decide (masks.getD x.maskRow 0 ≠ 0))
    if sts.all ok && es.all (fun e => decide (e.1 < vocab) && decide (e.2 < states)) then
      some { inst, vocab, start, maskAt := h 5, bytes, states := sts, masks, excs := es }
    else none

def automatonLoadBody (body : Reply) (c : Cmd) (s : State) : Answer :=
  let a := c.field 0x08 11 0
  let bytes := (c.word 0x0C).toNat
  match Tbl.find s.sampler.automata a with
  | some x => .refuse (if x.inst = c.inst then St.badState else St.noResource) 0x08
  | none => if !s.arenaRoom .automata then .refuse St.noResource noField else
    let go (o : Nat) (u : State) : State :=
      match body with
      | .data ws =>
        let u := u.opProgress o (BitVec.ofNat 64 bytes) 0
        match readAutomaton c.inst bytes ws with
        | some x =>
          let u := u.writeArena .automata a (ws.take ((bytes + 3) / 4))
          ({ u with sampler := { u.sampler with automata := Tbl.insert u.sampler.automata a x } }).opEnd o St.ok
        | none => u.opEnd o St.badDescriptor
      | _ => u.opEnd o St.badAddress
    .long (s.needArena .automata (2 ^ 20) 34) 0x18 (.automaton a bytes) (Word.mk a) [] go

def execAutomatonLoad (src : Src) (body : Reply) (s : State) : Host.Outcome State Fault Refusal :=
  act s (·.perform src 0x47 (automatonLoadBody body))

def automatonFreeBody (c : Cmd) (s : State) : Answer :=
  let a := c.field 0x08 11 0
  if (Tbl.find s.sampler.automata a).all fun x => x.inst != c.inst then .refuse St.noResource 0x08
  else if s.anyLive fun e => e.p.grammarEn && decide (e.p.automaton.toNat = a) then .refuse St.badState 0x08
  else .done { s with sampler := { s.sampler with automata := Tbl.erase s.sampler.automata a } } []

def execAutomatonFree (src : Src) (s : State) : Host.Outcome State Fault Refusal :=
  act s (·.perform src 0x48 automatonFreeBody)

/-! ## Rows and member ends -/

def execSampleRowDone (partition kind member row : Nat) (read : RowRead) (s : State) :
    Host.Outcome State Fault Refusal :=
  act s fun s => match s.rowAt partition kind member row (fun st => st == .pipeline || st == .held) with
    | some x => s.rowDone x read.data read.io
    | none => s

def execFullScanDone (partition kind member row : Nat) (logits : RowRead) (s : State) :
    Host.Outcome State Fault Refusal :=
  act s fun s => match s.rowAt partition kind member row (fun st => st == .scan || st == .scanHeld) with
    | some x => s.scanDone x logits.data logits.io
    | none => s

/-- The step end of a member without rows: a step that ended ST_OK reaches it in member-table order (R165). -/
def memberStepEndEffect (p k j : Nat) (s : State) : State :=
  match (s.serve p).kindStep k with
  | none => s
  | some y => match y.members[j]? with
    | none => s
    | some m =>
      let before := (y.members.take j).all fun n => n.ended || decide (0 < y.rowsOf n)
      if y.status = some St.ok ∧ m.ended = false ∧ y.rowsOf m = 0 ∧ before = true then s.quietEnd p k j m else s

def execMemberStepEnd (partition kind member : Nat) (s : State) : Host.Outcome State Fault Refusal :=
  act s (memberStepEndEffect partition kind member)

end Sys2Proof.Machine
end

