-- ==== Sys2Proof/Machine/CollOps.lean ====
section
/-!
DEFINITION. Announcements of a swarm step (spec/10 R250, R251): what is sent at its dispatch, the comparison with what
the partners announced, abandonments.
-/

namespace Sys2Proof.Machine

/-- The announcement of a step to its group. -/
def State.sendAnnounce (s : State) (st : Step) : State :=
  s.sendAll (s.others st.group) Pkt.collAnnounce
    (dwordWords st.swarmStep ++ dwordWords (BitVec.ofNat 64 st.t0) ++ [Word.mk st.windowNs, Word.mk st.timingCount])

/-- A partner's announcement differs from the dispatched step of context c (R250): the event is raised whether or not the
step has been stopped already (R254). -/
def State.stepMismatch (s : State) (c m : Nat) : State :=
  match s.stepOf c with
  | none => s
  | some st =>
    let l := st.firstTimed
    let s := if st.stopSent then s
      else (s.stopWith c l St.stepMismatch).sendAbandon st l St.stepMismatch m
    ((s.swmStepInfo st.swarmStep).swmInfo St.stepMismatch 0 m).raise
      { id := Flt.swmMismatch, inst := s.ctxInst c, status := St.stepMismatch }

/-- An abandonment of the dispatched step of context c, never sent on (R251). -/
def State.stepAbandoned (s : State) (c : Nat) : State :=
  match s.stepOf c with
  | none => s
  | some st => if st.stopSent then s else s.stopWith c st.firstTimed St.partnerAbsent

/-- An announcement or an abandonment applied to the dispatched step of context c. -/
def State.keptApply (s : State) (c : Nat) (k : Kept) : State :=
  match s.stepOf c, k.body with
  | some st, .announce t0 w _ => if t0 = st.t0 ∧ w = st.windowNs then s else s.stepMismatch c k.member
  | some _, .abandon => s.stepAbandoned c
  | none, _ => s

/-- What the table keeps for a step, applied at its dispatch, oldest first. -/
def State.keptTake (s : State) (c : Nat) : State :=
  match s.stepOf c with
  | none => s
  | some st =>
    if st.t0 = 0 then s
    else
      let mine := s.swarm.kept.filter fun k => k.swarmStep == st.swarmStep
      let s := { s with swarm := { s.swarm with
        overrun := dropWhere (fun d => d == st.swarmStep) s.swarm.overrun,
        kept := dropWhere (fun k => k.swarmStep == st.swarmStep) s.swarm.kept } }
      mine.foldl (fun s k => s.keptApply c k) s

end Sys2Proof.Machine
end

