-- ==== Sys2Proof/Machine/Slices.lean ====
section
/-!
DEFINITION. The scheduler's events (spec/08): dispatch and the end of a step, slices, the boundary test and preemption,
swaps, the regulators' refill.
-/

namespace Sys2Proof.Machine

/-! ## The end-of-step record (R19, R85) -/

/-- Has an agent done all of its part of a step: each launch recorded, or a program that failed its checks, and no
command of the slot under way? -/
def State.agentOver (s : State) (a : Nat) (t : AgentStep) : Bool :=
  let busy := (t.ownCores a).any fun c => engines.any fun e =>
    ((s.core a c).queue e ++ (s.core a c).exec e).any fun y => y.slot == t.slot && y.rsv.isNone
  !busy && (t.failed.isSome || ((t.checked || t.stopping) && t.launches.all fun x => x.recorded))

def endRecordEffect (a slot p : Nat) (s : State) : State :=
  match (s.agent a).step p slot with
  | none => s
  | some t =>
    if s.agentOver a t then
      (s.modAgent a fun x => { x with steps := dropWhere (fun t => t.partition == p && t.slot == slot) x.steps }).agentDone
        a t.context
    else s

def execEndOfStepRecord (agent slot partition : Nat) (s : State) : Host.Outcome State Fault Refusal :=
  act s (endRecordEffect agent slot partition)

/-! ## Dispatch (R205) -/

/-- Completed steps at risk when a step is about to be dispatched exceed L (R264). -/
def State.lossHeld (s : State) (c : Nat) (st : Step) : Bool :=
  match s.capCtx c with
  | none => false
  | some k => match k.xg with
    | none => false
    | some x => decide ((k.l : Int) < (st.swarmStep - 1 - x).toInt)

/-- A step held by the loss bound: LOSS_HOLD and its event, once a hold. -/
def State.lossHold (s : State) (c : Nat) : State :=
  match s.capCtx c with
  | none => s
  | some k =>
    if k.lossHold then s
    else (s.modCap c fun k => { k with lossHold := true, holds := k.holds + 1 }).capFault Flt.lossHold c 0 0

/-- Agents of a partition whose clusters are not fenced. -/
def State.liveAgents (s : State) (part : Partition) : List Nat :=
  part.agents.filter fun a => !s.fences.clusters.contains a

/-- May a partition be given a step: nothing of it waits for a drain (R340), and no cluster of it is HELD (R343)? -/
def State.partOpen (s : State) (part : Partition) : Bool :=
  !(part.qcs ++ part.spares).any s.toDrain && (s.liveAgents part).all fun a => (s.agent a).held.isNone

/-- Ordered reduction of a bound context's collectives (R263, R272, R424): on for the step after a cut and for the replay of
a restored cap, off for the others; the link engines are told of each change. -/
def State.setOrdered (s : State) (c : Nat) (step : Dword) : State :=
  match s.capCtx c with
  | none => s
  | some k =>
    let on := decide (k.st = .restored) || k.cut.any fun u => u.loss.isNone && u.step + 1 == step
    if on = k.ordered then s
    else (s.modCap c fun k => { k with ordered := on }).emit (.linkCmd 0x7F 0 (BitVec.ofNat 64 (c * 2 ^ 52 + bitAt 0 on)))

/-- The dispatch of the first queued step of context c. -/
def State.dispatch (s : State) (c : Nat) (st : Step) (rest : List Step) : State :=
  let x := s.ctx c
  let part := s.partD x.partition
  let (seq, s) : Word × State := if st.seq = 0 then s.takeSeq else (st.seq, s)
  let agents := s.liveAgents part
  let st : Step := { st with seq, dispatchedAt := s.ns, agents, awaiting := agents, copying := decide (st.hostLen ≠ 0) }
  let s := s.setCtx c { x with queued := rest, dispatched := some st }
  let atRisk (k : CapCtx) : Nat := match k.xg with
    | some x => (st.swarmStep - 1 - x).toInt.toNat
    | none => 0
  let s := s.modCap c fun k => { k with stepWrote := false, replayable := false, lossHold := false, atRisk := atRisk k }
  let s := (s.runProgress c).setOrdered c st.swarmStep
  let s := agents.foldl (fun s a => s.emit (.dispatch a x.partition x.slot seq st.program)) s
  let s := if st.copying then s.emit (s.dmaRead x.inst st.hostSrc.toNat st.hostLen.toNat) else s
  if st.t0 = 0 then s else (s.sendAnnounce st).keptTake c

/-- The status with which a queued RUN_STEP of a bound context ends undispatched, since it no longer follows the context's
last step that ended ST_OK, or the context runs none now (R257, R268; DEDUCED, log 56). -/
def State.capStale (s : State) (c : Nat) (st : Step) : Option Byte :=
  match s.capCtx c, st.op with
  | some k, some _ =>
    if k.st = .restoring ∨ k.st = .held then some St.badState
    else match k.lastStep with
      | some l => if st.swarmStep = l + 1 then none else some St.stepMismatch
      | none => none
  | _, _ => none

def stepDispatchEffect (c : Nat) (s : State) : State :=
  let x := s.ctx c
  let part := s.partD x.partition
  match x.dispatched, x.queued with
  | none, st :: rest =>
    if x.st = .faulted then s.endUnsent c St.dataPoisoned
    else if x.st ≠ .free ∧ s.liveAgents part = [] then s.endUnsent c St.fenced
    else if x.st ≠ .resident ∨ x.destroying = true ∨ (s.reg Reg.schCtrl).bit 0 = false ∨ s.active x.inst = false ∨
        s.orphan = true ∨ s.power.softDue ≠ none ∨ s.depsMet st = false ∨ s.ctxHeld c = true ∨ s.partOpen part = false then s
    else match s.capStale c st with
      | some status => s.endUnsent c status
      | none => if s.lossHeld c st then s.lossHold c else s.dispatch c st rest
  | _, _ => s

def execStepDispatch (context : Nat) (s : State) : Host.Outcome State Fault Refusal :=
  act s (stepDispatchEffect context)

/-! ## Slices (R206) -/

/-- Has the slice of slot k ended: its time is over, or its context is not RUNNABLE? -/
def State.sliceOver (s : State) (p k : Nat) : Bool :=
  let part := s.partD p
  let x := s.ctx (part.slot k).2
  decide (part.sliceEnd ≤ s.ns) || decide ((part.slot k).1 ≠ .resident) || decide (x.cond ≠ .runnable)

def sliceEndEffect (p : Nat) (s : State) : State :=
  if (s.partD p).stopping ≠ [] then s
  else
    let s := s.syncConds p
    match (s.partD p).issuing with
    | some k => if s.sliceOver p k then s.chooseIssue p else s
    | none => s.chooseIssue p

def execSliceEnd (partition : Nat) (s : State) : Host.Outcome State Fault Refusal := act s (sliceEndEffect partition)

/-- SCH_SLICE_DRAIN, values below 256 taken as 256. -/
def State.drainLimit (s : State) : Nat := max 256 (s.regField Reg.schSliceDrain 19 0)

/-- Has a head of slot k stalled on its wait for the limit, since the drain that began at cc `since`? -/
def State.drainStalled (s : State) (p k since : Nat) : Bool :=
  (s.partD p).places.any fun q =>
    let x := s.core q.1 q.2
    engines.any fun e => (x.queue e).head?.any (fun y => y.slot == k) &&
      (Tbl.find x.waitFrom e).any fun t => decide (max t since + s.drainLimit ≤ s.cc)

def drainTimeoutEffect (p : Nat) (s : State) : State :=
  let part := s.partD p
  if part.stopping ≠ [] then s
  else match part.draining.find? fun e => s.drainStalled p e.1 e.2 with
    | none => s
    | some e =>
      let c := (part.slot e.1).2
      let seq := ((s.stepOf c).map fun st => st.seq).getD 0
      let s := (s.schInfo 0 c p seq).raise { id := Flt.drainConvert, inst := some part.inst }
      s.preempt p e.1 part.issuing

def execSliceDrainTimeout (partition : Nat) (s : State) : Host.Outcome State Fault Refusal :=
  act s (drainTimeoutEffect partition)

/-! ## The boundary test (R212) -/

/-- The test of the arriving slot k: preempt at once, or wait 10 µs for the next test. -/
def State.boundary (s : State) (p issuing : Nat) (k : Nat) (first : Bool) : State :=
  let part := s.partD p
  if s.preempts p (part.slot issuing).2 (part.slot k).2 then s.preempt p issuing (some k)
  else
    let at_ := s.ns + 10000
    s.modPart p fun q => { q with waiting := some (k, at_), bwaits := if first then q.bwaits + 1 else q.bwaits }

def boundaryTestEffect (p : Nat) (s : State) : State :=
  let s := s.syncConds p
  let part := s.partD p
  match part.stopping, part.issuing with
  | [], some k => match s.arrival p k with
    | some (n, _) => if part.waiting.any fun w => w.1 == n then s else s.boundary p k n true
    | none => s
  | _, _ => s

def execBoundaryTest (partition : Nat) (s : State) : Host.Outcome State Fault Refusal :=
  act s (boundaryTestEffect partition)

def boundaryRetestEffect (p : Nat) (s : State) : State :=
  let part := s.partD p
  match part.stopping, part.issuing, part.waiting with
  | [], some k, some (n, t) =>
    if s.ns < t then s
    else
      let s := s.syncConds p
      let x := s.ctx (part.slot n).2
      let i := s.ctx (part.slot k).2
      if (part.slot n).1 = .resident ∧ x.cond = .runnable ∧ i.band + s.preemptGap ≤ x.band then s.boundary p k n false
      else s.modPart p fun q => { q with waiting := none }
  | _, _, _ => s

def execBoundaryRetest (partition : Nat) (s : State) : Host.Outcome State Fault Refusal :=
  act s (boundaryRetestEffect partition)

/-! ## Preemption (R210) -/

/-- What a preemption does with the sets that slot k has live on a core (R210): each is saved by a command of a reserved
entry, or parked in place. -/
def State.disposePass (s : State) (a c p k : Nat) (t : AgentStep) : State :=
  let x := s.core a c
  let live := x.liveSets k
  if t.stallOnly && x.parkedSet.isNone then
    s.modCore a c fun x => { x with sets := x.sets.map fun y => if live.contains y then { y with parked := true } else y }
  else
    live.foldl (fun s y => s.offerSave a c t y.num) s

/-- The cursors of context ctx's record of a core, as slot k stands there. -/
def State.noteCursors (s : State) (a c p k ctx : Nat) : State :=
  s.modRec ctx (64 * a + c) fun r => { r with cursors := (((s.agent a).step p k).map (s.cursorsOf a c)).getD [] }

/-- The unstarted commands of slot k withdrawn on one core, with the cursors that name them. -/
def State.withdrawFor (s : State) (a c p k ctx : Nat) : State := (s.withdrawCore a p k c true).noteCursors a c p k ctx

/-- Cores of a partition in an agent's cluster. -/
def Partition.coresOf (part : Partition) (a : Nat) : List Nat := (part.places.filter fun q => q.1 == a).map fun q => q.2

def preemptionEffect (a k p : Nat) (s : State) : State :=
  let part := s.partD p
  if part.stopping.contains a = false ∨ part.stopSlot ≠ k then s
  else match (s.agent a).step p k with
    | none => s
    | some t =>
      if t.preempted then s
      else
        let cs := part.coresOf a
        let s := cs.foldl (fun s c => (s.withdrawFor a c p k t.context).disposePass a c p k t) s
        let s := s.modAgentStep a p k fun t => { t with preempted := true }
        cs.foldl (fun s c => s.syncCore a c) s

def execPreemption (agent slot partition : Nat) (s : State) : Host.Outcome State Fault Refusal :=
  act s (preemptionEffect agent slot partition)

/-- Has a slot a command queued or in execution on an agent's cores of a partition? -/
def State.slotOn (s : State) (a p k : Nat) : Bool :=
  ((s.partD p).coresOf a).any fun c => engines.any fun e =>
    ((s.core a c).queue e ++ (s.core a c).exec e).any fun y => y.slot == k

/-- Every agent has stopped the preempted slot: the slot that takes over issues, or the next one in order. -/
def State.takeOver (s : State) (p : Nat) : State :=
  let part := s.partD p
  let s := (s.modPart p fun q => { q with draining := Tbl.erase q.draining q.stopSlot, takeover := none }).syncConds p
  match part.takeover with
  | some k =>
    if (part.slot k).1 = .resident ∧ (s.ctx (part.slot k).2).cond = .runnable then s.beginSlice p k else s.chooseIssue p
  | none => s.chooseIssue p

def slotStoppedEffect (a k p : Nat) (s : State) : State :=
  let part := s.partD p
  let ready := match (s.agent a).step p k with
    | none => true
    | some t => (t.preempted || t.stopping) && t.saves.isEmpty && !s.slotOn a p k
  if part.stopping.contains a && part.stopSlot == k && ready then
    let left := part.stopping.erase a
    let s := s.modPart p fun q => { q with stopping := left }
    if left = [] then s.takeOver p else s
  else s

def execSlotStopped (agent slot partition : Nat) (s : State) : Host.Outcome State Fault Refusal :=
  act s (slotStoppedEffect agent slot partition)

/-! ## Swaps (R203, R207, R208) -/

/-- May the scheduler core swap (R207, R218)? -/
def State.swapOk (s : State) : Bool := s.procUp schedulerCore && !s.sched.rebuilding && (s.reg Reg.schCtrl).bit 2

/-- A slot of a partition in a state, the lowest. -/
def Partition.slotIn (part : Partition) (st : SlotState) : Option Nat :=
  [0, 1, 2, 3].find? fun k => (part.slot k).1 == st

/-- Agents' steps of context c moved to a place: its slot, or 256 + its number while it has none. -/
def State.placeSteps (s : State) (c place : Nat) : State :=
  (List.range 32).foldl (fun s a =>
    if (s.agent a).steps.any fun t => t.context == c then
      s.modAgent a fun x => { x with steps := x.steps.map fun t =>
        if t.context = c then { t with slot := place, preempted := true } else t }
    else s) s

/-- The issuing slot is given up: another is chosen. -/
def State.leaveSlot (s : State) (p k : Nat) : State :=
  let was := decide ((s.partD p).issuing = some k)
  let s := s.modPart p fun q =>
    { q with issuing := q.issuing.filter fun i => i != k, draining := Tbl.erase q.draining k,
             waiting := if was then none else q.waiting.filter fun w => w.1 != k }
  if was then s.chooseIssue p else s

def swapOutEffect (c : Nat) (s : State) : State :=
  let p := (s.ctx c).partition
  let s := s.syncConds p
  let part := s.partD p
  let x := s.ctx c
  match s.waiter p with
  | none => s
  | some w =>
    if x.st ≠ .resident ∨ s.swapOk = false ∨ (part.slotIn .empty).isSome = true ∨ (part.slotIn .saving).isSome = true ∨
        part.stopping ≠ [] ∨ s.swapVictim p w ≠ some c then s
    else
      let s := s.setCtx c { x with st := .saving }
      let s := s.modPart p fun q => q.setSlot x.slot (.saving, c)
      let s := part.places.foldl (fun s q => s.withdrawFor q.1 q.2 p x.slot c) s
      let s := part.agents.foldl (fun s a =>
        (s.modAgentStep a p x.slot fun t => { t with preempted := true }).emit (.agentSave a x.slot c)) s
      let s := part.places.foldl (fun s q => s.syncCore q.1 q.2) s
      s.leaveSlot p x.slot

def execContextSwapOut (context : Nat) (s : State) : Host.Outcome State Fault Refusal := act s (swapOutEffect context)

/-- A context's save record of one core as a save writes it: live sets, counters, bases, engine banks, and the step
dispatched, with STEP_HELD where the core has begun it. Frame 0 goes out; frames 1 and 2 are the MX's own drain. -/
def State.saveCore (s : State) (a c ctx k : Nat) : State :=
  let g := 64 * a + c
  let x := s.core a c
  let y := x.slot k
  let seq := ((s.stepOf ctx).map fun st => st.seq).getD 0
  let held := decide (seq ≠ 0) && decide (y.latched = some seq)
  let live (r : SaveRec) : SaveRec := (x.setsOf k).foldl (fun r a => r.setAcc a.num true) r
  let s := (s.noteCursors a c (s.ctx ctx).partition k ctx).modRec ctx g fun r =>
    { live r with counters := y.counters, base := y.base, stepSeq := seq, stepHeld := held, banks := y.banks }
  let frame (f : Nat × Nat) : Frame := { pool := f.1, serial := f.2 }
  let p := (s.ctx ctx).partition
  let fs := Tbl.get (fun _ => []) (s.ctx ctx).frames g
  let s := (x.setsOf k).foldl (fun s b => match fs[b.num + 1]? with
    | some f => s.urgentTraffic p (framePort (frame f)) 65536
    | none => s) s
  match fs with
  | [] => s
  | f :: _ => (s.urgentTraffic p (framePort (frame f)) 0x6000).emit
      (s.vcWrite (some p) (s.frameAddr (frame f)) (s.saveWords ctx g))

/-- A context whose record is lost (R203): its step ends ST_DATA_POISONED at once, its slot is EMPTY. -/
def State.ctxFaulted (s : State) (c : Nat) : State :=
  let x := s.ctx c
  let p := x.partition
  let seq := ((s.stepOf c).map fun st => st.seq).getD 0
  let s := (s.partD p).places.foldl (fun s q => s.clearSlot q.1 q.2 p x.slot) s
  let s := s.modPart p fun q => q.setSlot x.slot (.empty, 0)
  let s := s.setCtx c { x with st := .faulted, recs := [] }
  let s := (List.range 32).foldl (fun s a =>
    if (s.agent a).steps.any fun t => t.context == c then
      s.modAgent a fun g => { g with steps := dropWhere (fun t => t.context == c) g.steps }
    else s) s
  let s := (s.schInfo St.dataPoisoned c p seq).raise
    { id := Flt.savePoison, inst := some x.inst, status := St.dataPoisoned }
  let s := s.modStep c fun st => { st with forced := some (st.forced.getD St.dataPoisoned), awaiting := [] }
  s.stepEnd c

/-- A transition of a context that is to be destroyed has ended. -/
def State.destroyDue (s : State) (c : Nat) : State :=
  if !(s.ctx c).destroying then s
  else if (s.stepOf c).isSome then s.stopStep c
  else s.freeCtx c

def saveDoneEffect (c : Nat) (ok : Bool) (s : State) : State :=
  let x := s.ctx c
  let p := x.partition
  let part := s.partD p
  let runs := part.places.any fun q => engines.any fun e => ((s.core q.1 q.2).exec e).any fun y => y.slot == x.slot
  if x.st ≠ .saving ∨ runs = true then s
  else if !ok then (s.ctxFaulted c).destroyDue c
  else
    let s := part.places.foldl (fun s q => (s.saveCore q.1 q.2 c x.slot).clearSlot q.1 q.2 p x.slot) s
    let s := s.placeSteps c (256 + c)
    let s := s.modCtx c fun x => { x with st := .swapped, cond := .idle }
    let s := s.modPart p fun q => { q.setSlot x.slot (.empty, 0) with swaps := q.swaps + 1 }
    s.destroyDue c

def execContextSaveDone (context : Nat) (ok : Bool) (s : State) : Host.Outcome State Fault Refusal :=
  act s (saveDoneEffect context ok)

/-- Frame 0 of a context's save record of one core read (R203). -/
def State.readRecord (s : State) (c p g : Nat) : State :=
  match Tbl.get (fun _ => []) (s.ctx c).frames g with
  | [] => s
  | f :: _ =>
    let f : Frame := { pool := f.1, serial := f.2 }
    (s.urgentTraffic p (framePort f) 0x6000).emit (s.vcRead (some p) (s.frameAddr f) 0x6000)

def contextLoadEffect (c : Nat) (s : State) : State :=
  let p := (s.ctx c).partition
  let part := s.partD p
  match part.slotIn .empty with
  | none => s
  | some k =>
    if s.waiter p ≠ some c ∨ s.swapOk = false ∨ (s.part p).isNone = true then s
    else
      let s := s.modCtx c fun x => { x with st := .loading, slot := k }
      let s := s.modPart p fun q => q.setSlot k (.loading, c)
      let s := part.agents.foldl (fun s a => s.emit (.agentLoad a k c)) s
      part.cores.foldl (fun s g => s.readRecord c p g) s

def execContextLoad (context : Nat) (s : State) : Host.Outcome State Fault Refusal := act s (contextLoadEffect context)

/-- A slot of one core given what a context's record holds: zero counters on the first load (R203). -/
def State.loadCore (s : State) (a c ctx k : Nat) (first : Bool) : State :=
  let r : SaveRec := Tbl.get (fun _ => {}) (s.ctx ctx).recs (64 * a + c)
  let y : CoreSlot := if first then {} else
    { counters := r.counters, base := r.base, latched := if r.stepHeld then some r.stepSeq else none, banks := r.banks }
  s.modCore a c fun x => x.setSlot k y

def loadDoneEffect (c : Nat) (ok : Bool) (s : State) : State :=
  let x := s.ctx c
  let p := x.partition
  let part := s.partD p
  if x.st ≠ .loading then s
  else if !ok then (s.ctxFaulted c).destroyDue c
  else
    let s := if x.loadedOnce then s else s.releaseGranules c
    let s := part.places.foldl (fun s q => s.loadCore q.1 q.2 c x.slot (!x.loadedOnce)) s
    let s := s.placeSteps c x.slot
    let s := s.modCtx c fun x => { x with st := .resident, loadedOnce := true, cond := .idle, condSince := s.ns }
    let s := s.modPart p fun q => q.setSlot x.slot (.resident, c)
    (s.destroyDue c).syncConds p

def execContextLoadDone (context : Nat) (ok : Bool) (s : State) : Host.Outcome State Fault Refusal :=
  act s (loadDoneEffect context ok)

/-! ## Regulators (R216) -/

/-- Number of a port within its class among a partition's ports, by class: 0 brood, 1 super, 2 link. -/
def bucketPort (cls port : Nat) : Nat := (classPorts cls).1 + port

/-- A port refills the bucket of every partition, once each 1 200 cc. -/
def refillEffect (cls port : Nat) (s : State) : State :=
  let key := cls * 256 + port
  let done := Tbl.get (fun _ => 0) s.sched.refills key
  if s.cc / 1200 ≤ done ∨ (classPorts cls).2 ≤ port then s
  else
    let mine := s.sched.portSet.filter fun e => e.1 % 256 == bucketPort cls port
    let add (t : Tbl Int) (e : Nat × Nat × Nat) : Tbl Int :=
      let had : Int := Tbl.get (fun _ => 0) t e.1
      Tbl.put (fun _ => 0) t e.1 (min ((e.2.2 * 4096 : Nat) : Int) (had + ((e.2.1 * 64 : Nat) : Int)))
    State.admitHeld { s with sched := { s.sched with buckets := mine.foldl add s.sched.buckets,
                                                     refills := Tbl.put (fun _ => 0) s.sched.refills key (done + 1) } }

def execRegulatorRefill (cls port : Nat) (s : State) : Host.Outcome State Fault Refusal :=
  act s (refillEffect cls port)

end Sys2Proof.Machine
end

