-- ==== Sys2Proof/Machine/Streams.lean ====
section
/-!
DEFINITION. The stream commands (spec/02 R38–R47, R456, spec/13 R307), prefixes and paging geometry (R172, R185–R187).
-/

namespace Sys2Proof.Machine

/-! ## Checks (R456) -/

/-- Ranges of R144 that a set of sampling fields breaks: the entry offset of the first. -/
def samplingFail (p : StreamParams) : Option Nat :=
  let one : Word := 0x3F800000
  let cent : Word := 0x3C23D70A
  let hundred : Word := 0x42C80000
  if !(fIn 0 0 p.temperature || fIn cent hundred p.temperature) then some 0x30
  else if !(fIn 0 one p.topP && decide (fkey p.topP ≠ 0)) then some 0x34
  else if !(fIn 0 one p.minP && decide (fkey p.minP ≠ fkey one)) then some 0x38
  else if 1048576 < p.topK.toNat then some 0x3C
  else if !fIn cent hundred p.repPenalty then some 0x40
  else if !fIn (hundred ||| 0x80000000#32) hundred p.presPenalty then some 0x44
  else if !fIn (hundred ||| 0x80000000#32) hundred p.freqPenalty then some 0x48
  else none

def noneWord : Word := 0xFFFFFFFF

/-- A table number has [31:16] zero, or is none (R140): the entry offset of the first of the selected fields that does
not. -/
def tableRangeFail (sel : Word) (p : StreamParams) : Option Nat :=
  let bad (w : Word) : Bool := decide (w ≠ noneWord) && decide (w.field 31 16 ≠ 0)
  if sel.bit 9 && bad p.biasTable then some 0x4C
  else if sel.bit 12 && bad p.stopSeq then some 0x68
  else none

/-- Check 6: the named objects, by packet offset at distance d from the entry offset. DETAIL is the byte that holds the
field's lowest bit (DESIGN CHOICE, log 46). -/
def State.objectFail (s : State) (inst : Nat) (sel : Word) (p : StreamParams) (d : Nat) : Option (Byte × Nat) :=
  let table (w : Word) : Bool := (Tbl.find s.sampler.tables w.toNat).any fun t => t.inst == inst
  let fail (off : Nat) : Option (Byte × Nat) := some (St.noResource, off + d)
  if sel.bit 1 && !(s.part p.partition.toNat).any fun q => q.inst == inst then fail 0x06
  else if (sel.bit 4 || sel.bit 2) && p.grammarEn &&
      !(Tbl.find s.sampler.automata p.automaton.toNat).any fun a => a.inst == inst then fail 0x0E
  else if sel.bit 9 && decide (p.biasTable ≠ noneWord) && !table p.biasTable then fail 0x4C
  else if sel.bit 12 && decide (p.stopSeq ≠ noneWord) && !table p.stopSeq then fail 0x68
  else if sel.bit 14 && !(Tbl.find s.forager.tokens p.tokenRing.toNat).any fun t => t.inst == inst then fail 0x80
  else if sel.bit 15 && decide (p.prefixId ≠ noneWord) &&
      !(Tbl.find s.pager.prefixes p.prefixId.toNat).any fun x => x.inst == inst && !x.freed then fail 0x84
  else none

/-- The sample binding of a partition's role (R136). -/
def State.binding (s : State) (p : Nat) (r : Role) : Option SampleBinding := Tbl.find s.sampler.bindings (p * 4 + r.code)

/-- The limit of R173 for a geometry. -/
def ctxLimit (p g : Nat) : Nat := min 8388608 (262144 / max 1 g * p)

/-- Step 4 of R456: the partition serves, its model, geometry and sample binding, its cores, the limit of MAX_CTX (DETAIL as
log 46). -/
def State.servesFail (s : State) (sel : Word) (p : StreamParams) (d : Nat) : Option (Byte × Nat) :=
  let n := p.partition.toNat
  let x := s.serve n
  let model := match x.main with
    | some b => if b.unbinding then none else some b.model
    | none => none
  if (sel.bit 1 || sel.bit 3) && model.isNone then some (St.noResource, 0x06 + d)
  else if (sel.bit 1 || sel.bit 3) && decide (model ≠ some p.model.toNat) then some (St.noResource, 0x08 + d)
  else if sel.bit 1 && decide (x.geomP = 0) then some (St.noResource, 0x06 + d)
  else if sel.bit 1 && (s.binding n .main).isNone then some (St.noResource, 0x06 + d)
  else if sel.bit 1 && (s.partD n).qcs.isEmpty then some (St.fenced, 0x06 + d)
  else if (sel.bit 1 || sel.bit 6) && decide (ctxLimit x.geomP x.geomG < p.maxCtx.toNat) then
    some (St.badLength, 0x24 + d)
  else none

/-- Step 5 of R456: kinds and sizes of the named objects, in packet order (DESIGN CHOICE, log 47; DETAIL as log 46). -/
def State.kindFail (s : State) (sel : Word) (p : StreamParams) (d : Nat) : Option (Byte × Nat) :=
  let n := p.partition.toNat
  let x := s.serve n
  let vocab := ((s.binding n .main).map fun b => b.vocab).getD 0
  let isBias := (Tbl.find s.sampler.tables p.biasTable.toNat).any fun t => match t.body with
    | .bias _ _ => true
    | .stop _ => false
  let isStop := (Tbl.find s.sampler.tables p.stopSeq.toNat).any fun t => match t.body with
    | .bias _ _ => false
    | .stop _ => true
  let autVocab := ((Tbl.find s.sampler.automata p.automaton.toNat).map fun a => a.vocab).getD 0
  let prefixOk := (Tbl.find s.pager.prefixes p.prefixId.toNat).any fun y =>
    let z := s.serve y.partition
    decide ((z.main.map fun b => b.model) = x.main.map fun b => b.model) && z.geomP == x.geomP && z.geomG == x.geomG
  if (sel.bit 4 || sel.bit 2 || sel.bit 1) && p.grammarEn && decide (autVocab ≠ vocab) then
    some (St.badLength, 0x0E + d)
  else if sel.bit 9 && decide (p.biasTable ≠ noneWord) && !isBias then some (St.noResource, 0x4C + d)
  else if sel.bit 12 && decide (p.stopSeq ≠ noneWord) && !isStop then some (St.noResource, 0x68 + d)
  else if sel.bit 15 && decide (p.prefixId ≠ noneWord) && !prefixOk then some (St.noResource, 0x84 + d)
  else none

/-- Every group. -/
def allGroups : Word := 0xFFFF

/-! ## ADMIT -/

/-- The root list and the log list of a stream, on its home die. -/
def State.takeLists (s : State) (inst home : Nat) : Option (Block × Block × State) :=
  if !s.broodRoom inst 6 then none
  else (s.takeBlock home 1).bind fun (root, s) =>
    (s.takeBlock home 2).map fun (log, s) => (root, log, s.chargeBrood inst 6)

/-- They after the demotion of the instance's own parked streams, where they need it (R179, R180). -/
def State.admitLists (s : State) (inst home : Nat) : Option (Block × Block × State) :=
  (s.reclaimTo inst fun s => (s.takeLists inst home).isSome).takeLists inst home

/-- The list blocks and log frames of an admission, on the home die (R180). -/
def State.admitMem (s : State) (inst gen home len : Nat) : Option (StreamMem × State) :=
  (s.admitLists inst home).bind fun (root, log, s) =>
    (s.takePairs inst home ((len + 16383) / 16384)).map fun (l, s) =>
      ({ gen, inst, root := some root, logList := some log, log := l, fetching := true }, s)

def admitBody (c : Cmd) (s : State) : Answer :=
  let p := packetParams c 0x08
  let len := c.word 0x14
  let fail : Option (Byte × Nat) :=
    if len = 0 then some (St.badLength, 0x14)
    else if p.maxCtx ≤ len then some (St.badLength, 0x28)
    else match (samplingFail p).or (tableRangeFail allGroups p) with
      | some o => some (St.badLength, o + 4)
      | none =>
        if (c.dword 0x90).toNat % 4 ≠ 0 then some (St.badLength, 0x90)
        else match s.objectFail c.inst allGroups p 4 with
          | some f => some f
          | none =>
            if !(s.reg Reg.pagCtrl).bit 0 then some (St.noResource, noField)
            else match s.servesFail allGroups p 4 with
              | some f => some f
              | none => match s.kindFail allGroups p 4 with
                | some f => some f
                | none => if s.combQuota c.inst ≤ s.combUsed c.inst then some (St.noResource, noField) else none
  match fail with
  | some (st, d) => .refuse st d
  | none => match s.combHead, s.chooseHome p.partition.toNat p.prefixId with
    | some i, some home =>
      let gen := (s.entry i).gen
      match s.admitMem c.inst gen.toNat home len.toNat with
      | none =>
        if (s.admitLists c.inst home).isNone then .refuse St.noResource noField
        else .ends (s.pagFault Flt.superLow 0 0 (some c.inst) St.noResource) St.noResource []
      | some (m, s) =>
        let addr (o : Option Block) : Dword := match o with
          | some b => s.blockAddr b
          | none => 0
        let aut := if p.grammarEn then BitVec.ofNat 16 (s.autStart p.automaton.toNat) else 0
        let e : CombEntry :=
          { st := .admitted, gen, inst := BitVec.ofNat 6 c.inst, homeDie := BitVec.ofNat 2 home, promptLen := len,
            pos := len, autState := aut, pageList := addr m.root, tokenLog := addr m.logList,
            admitTime := BitVec.ofNat 64 s.ns, p, parkPending := s.orphan, orphanPark := s.orphan }
        let s := (((s.combPop.setEntry i e).setMem i m).madeBlock i 0).madeBlock i 1
        let s := { s with pager := { s.pager with waiting := s.pager.waiting ++ [i] } }.syncPressure
        .done (s.emit (s.dmaRead c.inst (c.dword 0x90).toNat (4 * len.toNat))) [Word.mk (handleOf i e)]
    | _, _ => .refuse St.noResource noField

def execAdmitStream (src : Src) (s : State) : Host.Outcome State Fault Refusal := act s (·.perform src 0x60 admitBody)

/-! ## A command reads the entry of its stream (R51, R54) -/

/-- What a command on stream i answers, from what f answers once the selected words are read: on an entry that is
poisoned, or where the read meets an uncorrectable word, ST_DATA_POISONED. The entry is then poisoned and the stream
retired (R40). A refusal that comes after the read leaves single-bit errors to the next one (log 9). -/
def State.onEntry (s : State) (i : Nat) (sel : Nat → Nat → Bool) (f : State → Answer) : Answer :=
  if (s.entry i).poison then .refuse St.dataPoisoned noField
  else if s.meetsUncorrectable sel then .ends (s.readWords sel) St.dataPoisoned []
  else f (s.readWords sel)

/-! ## STREAM_SET, STREAM_QUERY -/

/-- The most tokens that the running step of a stream can append (R38). -/
def State.mostAppend (s : State) (i : Nat) : Nat :=
  let x := s.serve (s.entry i).p.partition.toNat
  let ms := ([x.batch, x.fbStep, x.drStep].filterMap id).flatMap fun (y : ServeStep) => y.members
  match ms.find? fun m => m.index == i && m.verify with
  | some m => m.specD + 1
  | none => 1

/-- MAX_CTX against PROMPT_LEN, which it exceeds (R37, R307), and against POS (R38). -/
def State.maxCtxBad (s : State) (i : Nat) (max : Nat) : Bool :=
  let e := s.entry i
  let pos := e.pos.toNat
  decide (max ≤ e.promptLen.toNat) || match e.st with
  | .active => decide (max ≤ pos + s.mostAppend i)
  | .admitted | .ready => decide (max ≤ pos)
  | _ => decide (max < pos)

/-- The checks of a STREAM_SET after check 6, and its effect. -/
def streamSetGo (c : Cmd) (s : State) : Answer :=
  let i := handleIndex (c.word 0x08)
  let e := s.entry i
  let sel := c.word 0x0C
  let new := packetParams c 0x10
  let p := e.p.select new sel
  match s.objectFail c.inst sel p 0x0C with
  | some (st, d) => .refuse st d
  | none =>
    if e.live = false then .refuse St.badState 0x08
    else match (s.servesFail sel p 0x0C).or (s.kindFail sel p 0x0C) with
      | some (st, d) => .refuse st d
      | none =>
        if sel = 0 then .done s []
        else if e.st = .active then .done (s.defer i (.set sel new)) []
        else .done (s.applySet i sel new) []

/-- Check 5 first on the packet's own fields, then MAX_CTX against the entry, whose words are read only now (R456, R307). -/
def streamSetBody (c : Cmd) (s : State) : Answer :=
  let h := c.word 0x08
  let i := handleIndex h
  let sel := c.word 0x0C
  let new := packetParams c 0x10
  match (if sel.bit 8 then samplingFail new else none).or (tableRangeFail sel new) with
  | some o => .refuse St.badLength (o + 0x0C)
  | none =>
    if !s.handleOk c.inst h then .refuse St.staleHandle 0x08
    else s.onEntry i (entryRows i setRows) fun s =>
      if sel.bit 6 && s.maxCtxBad i ((s.entry i).p.select new sel).maxCtx.toNat then .refuse St.badLength 0x30
      else streamSetGo c s

def execStreamSet (src : Src) (s : State) : Host.Outcome State Fault Refusal := act s (·.perform src 0x61 streamSetBody)

/-- STREAM_QUERY reads the whole entry: a single-bit error that it meets is corrected, an uncorrectable word poisons the
entry (R40, R51, R54, log 9). In ORPHAN the write waits with the completion (R345, log 60). -/
def streamQueryBody (mapped : Bool) (c : Cmd) (s : State) : Answer :=
  let h := c.word 0x08
  let i := handleIndex h
  let dest := c.dword 0x10
  if dest.toNat % 64 ≠ 0 then .refuse St.badLength 0x10
  else if !s.handleOk c.inst h then .refuse St.staleHandle 0x08
  else s.onEntry i (wholeEntry i) fun t =>
    if !mapped then .refuse St.badAddress 0x10
    else if t.orphan then
      let held := t.fw.heldWrites ++ [(c.inst, dest.toNat, t.entryWords i)]
      .done { t with fw := { t.fw with heldWrites := held } } []
    else .done (t.emit (t.dmaWrite c.inst dest.toNat (t.entryWords i))) []

def execStreamQuery (src : Src) (mapped : Bool) (s : State) : Host.Outcome State Fault Refusal :=
  act s (·.perform src 0x62 (streamQueryBody mapped))

/-! ## Park, resume, append, retire, release (R40) -/

def streamParkBody (c : Cmd) (s : State) : Answer :=
  let h := c.word 0x08
  let i := handleIndex h
  if !s.handleOk c.inst h then .refuse St.staleHandle 0x08
  else s.onEntry i (entryRows i [0]) fun s => match (s.entry i).st with
    | .admitted | .active => .done (s.modEntry i fun e => { e with parkPending := true }) []
    | .ready => .done (s.park i 0x08) []
    | .parked => .done s []
    | .free | .dormant | .retired | .unusable => .refuse St.badState 0x08

def execStreamPark (src : Src) (s : State) : Host.Outcome State Fault Refusal :=
  act s (·.perform src 0x63 streamParkBody)

/-- A PARKED or DORMANT stream becomes READY; from DORMANT it prefills anew on a home die chosen again (R40, R126). -/
def State.resume (s : State) (i : Nat) : State :=
  let e := s.entry i
  if e.st = .dormant then
    let home := match s.chooseHome e.p.partition.toNat e.p.prefixId with
      | some d => BitVec.ofNat 2 d
      | none => e.homeDie
    (s.modEntry i fun e => { e with prefillPos := 0, resumes := e.resumes + 1, homeDie := home }).enterReady i
  else s.enterReady i

def streamResumeBody (c : Cmd) (s : State) : Answer :=
  let h := c.word 0x08
  let i := handleIndex h
  if !s.handleOk c.inst h then .refuse St.staleHandle 0x08
  else s.onEntry i (entryRows i resumeRows) fun s =>
    let e := s.entry i
    if e.st ≠ .parked ∧ e.st ≠ .dormant then .refuse St.badState 0x08
    else if e.pos = e.p.maxCtx then .refuse St.badLength noField
    else .done (s.resume i) []

def execStreamResume (src : Src) (s : State) : Host.Outcome State Fault Refusal :=
  act s (·.perform src 0x64 streamResumeBody)

def streamAppendBody (tokens : Reply) (c : Cmd) (s : State) : Answer :=
  let h := c.word 0x08
  let i := handleIndex h
  let n := (c.word 0x0C).toNat
  if n = 0 ∨ 1048576 < n then .refuse St.badLength 0x0C
  else if (c.dword 0x10).toNat % 4 ≠ 0 then .refuse St.badLength 0x10
  else if !s.handleOk c.inst h then .refuse St.staleHandle 0x08
  else s.onEntry i (entryRows i resumeRows) fun s =>
    let e := s.entry i
    if e.st ≠ .parked ∧ e.st ≠ .dormant then .refuse St.badState 0x08
    else if e.p.maxCtx.toNat ≤ e.pos.toNat + n then .refuse St.badLength 0x0C
    else match tokens with
      | .error => .refuse St.badAddress 0x10
      | .poison => .refuse St.badAddress 0x10
      | .data ws => match s.extendLog i (e.pos.toNat + n) with
        | none => .ends (s.pagFault Flt.superLow 0 h.toNat (some c.inst) St.noResource) St.noResource []
        | some s =>
          let toks := (List.range n).map fun k => (wordAt ws k).toNat
          let s := (s.writeTokens i e.pos.toNat toks).modEntry i fun e => { e with pos := e.pos + Word.mk n }
          .done (s.resume i) []

def execStreamAppend (src : Src) (tokens : Reply) (s : State) : Host.Outcome State Fault Refusal :=
  act s (·.perform src 0x65 (streamAppendBody tokens))

def streamRetireBody (c : Cmd) (s : State) : Answer :=
  let h := c.word 0x08
  let i := handleIndex h
  if !s.handleOk c.inst h then .refuse St.staleHandle 0x08
  else s.onEntry i (entryRows i listRows) fun s => match (s.entry i).st with
    | .admitted | .ready | .parked | .dormant => .done ((s.retire i 0x10).pagerSync) []
    | .active => .done (s.modEntry i fun e => { e with retirePending := true }) []
    | .free | .retired | .unusable => .refuse St.badState 0x08

def execStreamRetire (src : Src) (s : State) : Host.Outcome State Fault Refusal :=
  act s (·.perform src 0x66 streamRetireBody)

/-- STREAM_RELEASE reads row 0 of the entry; where it meets an uncorrectable word there, the entry is poisoned and stays
RETIRED, and the next release tests it (R51, R53, R54, log 9). -/
def streamReleaseBody (c : Cmd) (s : State) : Answer :=
  let h := c.word 0x08
  let i := handleIndex h
  if !s.handleOk c.inst h then .refuse St.staleHandle 0x08
  else if (s.entry i).st ≠ .retired then .refuse St.badState 0x08
  else if s.meetsUncorrectable (entryRows i [0]) then .ends (s.readWords (entryRows i [0])) St.dataPoisoned []
  else .done ((s.readWords (entryRows i [0])).release i) []

def execStreamRelease (src : Src) (s : State) : Host.Outcome State Fault Refusal :=
  act s (·.perform src 0x67 streamReleaseBody)

/-! ## TOKEN_LOG_READ (R46) -/

def tokenLogReadBody (c : Cmd) (s : State) : Answer :=
  let h := c.word 0x08
  let i := handleIndex h
  let first := (c.word 0x0C).toNat
  let n := (c.word 0x10).toNat
  let dest := c.dword 0x18
  if n = 0 ∨ 1048576 < n then .refuse St.badLength 0x10
  else if dest.toNat % 4 ≠ 0 then .refuse St.badLength 0x18
  else if c.statusFail.isSome then .refuse St.badLength 0x20
  else if !s.handleOk c.inst h then .refuse St.staleHandle 0x08
  else s.onEntry i (entryRows i listRows) fun s =>
    let e := s.entry i
    if e.st ≠ .ready ∧ e.st ≠ .active ∧ e.st ≠ .parked ∧ e.st ≠ .dormant then .refuse St.badState 0x08
    else if e.pos.toNat < first + n then .refuse St.badLength 0x0C
    else .long s 0x20 (.tokenRead i e.gen.toNat first n dest) h []
      fun k s => s.tokenReadAgain k

def execTokenLogRead (src : Src) (s : State) : Host.Outcome State Fault Refusal :=
  act s (·.perform src 0x68 tokenLogReadBody)

/-! ## Prefixes and geometry (R172, R185, R187) -/

def prefixCreateBody (c : Cmd) (s : State) : Answer :=
  let h := c.word 0x08
  let i := handleIndex h
  let e := s.entry i
  let l := (c.word 0x0C).toNat
  if l = 0 then .refuse St.badLength 0x0C
  else if !s.handleOk c.inst h then .refuse St.staleHandle 0x08
  else s.onEntry i (entryRows i listRows) fun s =>
    let e := s.entry i
    if e.st ≠ .ready ∧ e.st ≠ .parked ∧ e.st ≠ .active then .refuse St.badState 0x08
    else if e.prefillPos.toNat < l then .refuse St.badLength 0x0C
    else
      let id := Tbl.freshFrom s.pager.prefixes 0
      let fresh := (s.prefixPages i l).filter fun lp => !((s.mem i).page lp).shared
      if 16384 ≤ id ∨ s.prefixQuota c.inst ≤ s.prefixUsed c.inst ∨ 1048576 < s.pager.shared.length + fresh.length then
        .refuse St.noResource noField
      else match s.takePairs c.inst e.homeDie.toNat ((l + 16383) / 16384) with
        | none => .ends (s.pagFault Flt.superLow 0 h.toNat (some c.inst) St.noResource) St.noResource []
        | some (log, s) =>
          let y : Prefix := { inst := c.inst, partition := e.p.partition.toNat, len := l, log }
          let s := { s with pager := { s.pager with prefixes := Tbl.insert s.pager.prefixes id y } }
          let s := if e.st = .active then s.defer i (.mkPrefix l id) else s.makePrefix i l id
          .done s.pagerSync [Word.mk id]

def execPrefixCreate (src : Src) (s : State) : Host.Outcome State Fault Refusal :=
  act s (·.perform src 0x69 prefixCreateBody)

def prefixFreeBody (c : Cmd) (s : State) : Answer :=
  let id := c.field 0x08 13 0
  match Tbl.find s.pager.prefixes id with
  | none => .refuse St.noResource 0x08
  | some x =>
    if x.inst ≠ c.inst ∨ x.freed = true then .refuse St.noResource 0x08
    else
      .done (s.freePrefix id x).pagerSync []

def execPrefixFree (src : Src) (s : State) : Host.Outcome State Fault Refusal :=
  act s (·.perform src 0x6A prefixFreeBody)

/-- Does a partition hold a stream in ADMITTED–DORMANT? -/
def State.holdsStreams (s : State) (p : Nat) : Bool :=
  s.comb.entries.any fun e => e.2.live && e.2.p.partition.toNat == p

def pageGeomBody (c : Cmd) (s : State) : Answer :=
  let p := c.field 0x08 6 0
  let n := c.field 0x0C 12 0
  let g := c.field 0x0C 24 16
  if !([16, 32, 64, 128, 256, 512, 1024, 2048, 4096] : List Nat).contains n then .refuse St.badLength 0x0C
  else if g = 0 ∨ 256 < g then .refuse St.badLength 0x0E
  else if !(s.part p).any fun q => q.inst == c.inst then .refuse St.noResource 0x08
  else if s.holdsStreams p then .refuse St.badState 0x08
  else .done (s.modServe p fun x => { x with geomP := n, geomG := g }) []

def execPageGeom (src : Src) (s : State) : Host.Outcome State Fault Refusal := act s (·.perform src 0x2E pageGeomBody)

end Sys2Proof.Machine
end

