-- ==== Sys2Proof/Machine/SchedCmds.lean ====
section
/-!
DEFINITION. The commands on partitions, contexts, regulators and serving roles, and RUN_STEP (spec/05 R106, R107, spec/08
R196–R215, spec/13 R308).
-/

namespace Sys2Proof.Machine

/-- The partition that a command names is the issuer's (R302). -/
def State.ownsPart (s : State) (c : Cmd) (p : Nat) : Bool := (s.part p).any fun x => x.inst == c.inst

/-- The context that a command names is the issuer's (R302). -/
def State.ownsCtx (s : State) (c : Cmd) (k : Nat) : Bool := decide ((s.ctx k).st ≠ .free) && (s.ctx k).inst == c.inst

/-! ## Partitions (R197, R198, R321) -/

/-- The quarter-clusters and spares of a new partition, or the field that refuses them. -/
def State.partMembers (s : State) (c : Cmd) (inst : Nat) : Nat ⊕ (List Nat × List Nat) :=
  if c.bit 0x08 8 then
    let n := c.field 0x0C 7 0
    let pool := s.poolOrder inst (c.field 0x08 14 12) (c.bit 0x08 9)
    let k := c.field 0x08 19 16
    if pool.length < n + k then .inl 0x0C
    else .inr ((pool.take n).foldl (fun l q => insertAsc q l) [], (pool.drop n).take k)
  else
    let map := (c.dword 0x18).toNat * 2 ^ 64 + (c.dword 0x10).toNat
    let qs := (List.range 128).filter fun q => map.testBit q
    if qs.all (s.qcFree inst) then .inr (qs, []) else .inl 0x10

def partitionCreateBody (c : Cmd) (s : State) : Answer :=
  let p := c.field 0x08 6 0
  let counted := c.bit 0x08 8
  let inst := c.field 0x08 29 24
  let n := c.field 0x0C 7 0
  if counted = true ∧ 4 < c.field 0x08 14 12 then .refuse St.badLength 0x09
  else if counted = true ∧ 8 < c.field 0x08 19 16 then .refuse St.badLength 0x0A
  else if counted = true ∧ (n = 0 ∨ 128 < n) then .refuse St.badLength 0x0C
  else if counted = false ∧ c.dword 0x10 = 0 ∧ c.dword 0x18 = 0 then .refuse St.badLength 0x10
  else if (s.part p).isSome then .refuse St.noResource 0x08
  else if s.hasInst inst = false then .refuse St.noResource 0x0B
  else match s.partMembers c inst with
    | .inl d => .refuse St.noResource d
    | .inr (qcs, spares) =>
      let x : Partition := { inst, wide := counted && c.bit 0x08 9, qcs, spares }
      let s := { s with sched := { s.sched with parts := Tbl.insert s.sched.parts p x } }
      .done (s.shareBw inst) []

def execPartitionCreate (src : Src) (s : State) : Host.Outcome State Fault Refusal :=
  act s (·.perform src 0x28 partitionCreateBody)

def partitionDestroyBody (c : Cmd) (s : State) : Answer :=
  let p := c.field 0x08 6 0
  if !s.ownsPart c p then .refuse St.noResource 0x08
  else if s.partCtxs p ≠ [] then .refuse St.badState 0x08
  else .done ((s.dropPartition p).shareBw c.inst) []

def execPartitionDestroy (src : Src) (s : State) : Host.Outcome State Fault Refusal :=
  act s (·.perform src 0x29 partitionDestroyBody)

/-! ## Contexts (R199, R203) -/

def contextCreateBody (c : Cmd) (s : State) : Answer :=
  let p := c.field 0x08 6 0
  let us := c.field 0x0C 16 0
  if us < 50 ∨ 100000 < us then .refuse St.badLength 0x0C
  else if !s.ownsPart c p then .refuse St.noResource 0x08
  else if s.ctxQuota c.inst ≤ s.ctxUsed c.inst then .refuse St.noResource noField
  else match s.makeCtx c.inst p (c.field 0x08 23 16) us none with
    | some (k, t) => .done t [Word.mk k]
    | none => .refuse St.noResource noField

def execContextCreate (src : Src) (s : State) : Host.Outcome State Fault Refusal :=
  act s (·.perform src 0x2A contextCreateBody)

def contextSetBody (c : Cmd) (s : State) : Answer :=
  let k := c.field 0x08 11 0
  let us := c.field 0x0C 16 0
  if us < 50 ∨ 100000 < us then .refuse St.badLength 0x0C
  else if !s.ownsCtx c k then .refuse St.noResource 0x08
  else .done (s.modCtx k fun x => { x with nextSet := some (c.field 0x08 23 16, us) }) []

def execContextSet (src : Src) (s : State) : Host.Outcome State Fault Refusal :=
  act s (·.perform src 0x2B contextSetBody)

/-- A context with a step dispatched, or in a transition, is freed by the event that ends it; any other at once. -/
def contextDestroyBody (c : Cmd) (s : State) : Answer :=
  let k := c.field 0x08 11 0
  let x := s.ctx k
  if !s.ownsCtx c k then .refuse St.noResource 0x08
  else if x.role.isSome || x.destroying then .refuse St.badState 0x08
  else
    let moving := decide (x.st = .loading) || decide (x.st = .saving)
    if moving || x.dispatched.isSome then
      let s := s.setCtx k { x with destroying := true }
      .later (if moving then s else s.stopStep k) (.ctxDestroy k)
    else .done (s.freeCtx k) []

def execContextDestroy (src : Src) (s : State) : Host.Outcome State Fault Refusal :=
  act s (·.perform src 0x2C contextDestroyBody)

/-! ## Regulators (R215, R321) -/

def BwrSet.sum (f : Partition → BwrSet) (ps : Tbl Partition) : Nat := ps.foldl (fun n e => n + (f e.2).rate) 0

def Partition.bwr (x : Partition) (cls : Nat) : BwrSet :=
  match cls with
  | 0 => x.brood
  | 1 => x.super
  | _ => x.link

def bwrSetBody (c : Cmd) (s : State) : Answer :=
  let p := c.field 0x08 6 0
  let cls := c.field 0x08 9 8
  let rate := c.field 0x0C 31 16
  let burst := c.field 0x0C 11 0
  if cls = 3 then .refuse St.badLength 0x09
  else if burst = 0 then .refuse St.badLength 0x0C
  else match s.part p with
    | none => .refuse St.noResource 0x08
    | some x =>
      let bw := (s.inst x.inst).q.bw cls
      let others := s.sched.parts.filter fun e => e.2.inst == x.inst && e.1 != p
      if x.inst ≠ 0 ∧ bw ≠ 0 ∧ bw < BwrSet.sum (fun y => y.bwr cls) others + rate then .refuse St.noResource 0x0E
      else .done (s.setBwr p cls rate burst) []

def execBwrSet (src : Src) (s : State) : Host.Outcome State Fault Refusal := act s (·.perform src 0x2D bwrSetBody)

/-! ## Serving roles (R106, R107) -/

/-- Variants of a SERVE_BIND. -/
def Cmd.variants (c : Cmd) : List Variant :=
  (List.range (c.field 0x08 19 16 + 1)).map fun v =>
    { program := c.dword (0x40 + 16 * v), seqs := c.field (0x48 + 16 * v) 12 0, toks := c.field (0x4C + 16 * v) 18 0 }

/-- The first range of a list of variants that fails, from place v on: its offset. -/
def variantFail (inst : Nat) : Nat → Option Variant → List Variant → Option Nat
  | _, _, [] => none
  | v, last, x :: t =>
    if x.program.toNat % 256 ≠ 0 ∨ Config.inWindows inst x.program.toNat 64 = false then some (0x40 + 16 * v)
    else if x.seqs = 0 ∨ 4096 < x.seqs ∨ last.any (fun y => x.seqs ≤ y.seqs) = true then some (0x48 + 16 * v)
    else if x.toks < 64 ∨ 262144 < x.toks ∨ x.toks % 64 ≠ 0 ∨ last.any (fun y => x.toks < y.toks) = true then
      some (0x4C + 16 * v)
    else variantFail inst (v + 1) (some x) t

/-- The fields that only MAIN carries. -/
def Cmd.mainParams (c : Cmd) : MainParams :=
  { maxSeqs := c.field 0x24 12 0, budget := c.field 0x28 18 0, chunkMax := c.field 0x2C 14 0,
    seqRes := c.field 0x2C 23 16, balance := c.field 0x30 7 0, dlFrac := c.field 0x30 15 8,
    prefixW := c.field 0x30 19 16, specDepth := c.field 0x30 27 24, tmaxUs := (c.word 0x34).toNat,
    commitWaitUs := c.field 0x38 15 0, idleMs := (c.word 0x3C).toNat }

/-- The first range of MAIN's fields that fails: its offset. -/
def MainParams.fail (m : MainParams) : Option Nat :=
  if m.maxSeqs = 0 ∨ 4096 < m.maxSeqs then some 0x24
  else if m.budget < 64 ∨ 262144 < m.budget then some 0x28
  else if m.chunkMax < 64 ∨ 16384 < m.chunkMax ∨ m.chunkMax % 64 ≠ 0 then some 0x2C
  else if m.balance = 0 then some 0x30
  else if m.dlFrac = 0 then some 0x31
  else if m.specDepth = 0 ∨ 8 < m.specDepth then some 0x33
  else if m.tmaxUs < 100 ∨ 10000000 < m.tmaxUs then some 0x34
  else none

/-- Ranges of a SERVE_BIND: the offset of the first that fails. -/
def serveBindFail (c : Cmd) : Option Nat :=
  let mt := (c.dword 0x10).toNat
  let last := ((c.variants.getLast?).map fun v => v.seqs).getD 0
  if c.field 0x08 9 8 = 3 then some 0x09
  else if c.field 0x0C 15 0 = 0xFFFF then some 0x0C
  else if mt % 256 ≠ 0 ∨ Config.inWindows c.inst mt (64 + 32 * last) = false then some 0x10
  else if c.word 0x1C = 0 then some 0x1C
  else match if c.field 0x08 9 8 = 0 then c.mainParams.fail else none with
    | some d => some d
    | none => variantFail c.inst 0 none c.variants

/-- A role given its binding. A role bound anew gets a context; its slice length is a free value, since R199 states none
(log 30). -/
def State.bindRole (s : State) (c : Cmd) (p : Nat) (r : Role) (b : RoleBinding) : Option (Nat × State) :=
  let put (k : Nat) (s : State) : State :=
    let s := (s.discardForecast p).modServe p fun x =>
      let x := x.setRole r (some { b with context := k })
      if r = .main then { x with mp := c.mainParams } else x
    let s := if r = .main then s.modPart p fun q => { q with ratio := 256 } else s
    s.wakeForecast p
  match (s.serve p).role r with
  | some old => some (old.context, put old.context s)
  | none =>
    let us := 50 + s.free 30 % 99951
    if s.ctxQuota c.inst ≤ s.ctxUsed c.inst then none
    else (s.drew.makeCtx c.inst p (if r = .fallback then 224 else 160) us (some r)).map fun e => (e.1, put e.1 e.2)

def serveBindBody (c : Cmd) (s : State) : Answer :=
  let p := c.field 0x08 6 0
  let r := roleOf (c.field 0x08 9 8)
  let model := c.field 0x0C 15 0
  let b : RoleBinding :=
    { model, variants := c.variants, mtBase := c.dword 0x10, tFixedNs := (c.word 0x18).toNat,
      tTokPs := (c.word 0x1C).toNat, tCtxPs := (c.word 0x20).toNat, context := 0 }
  let new := ((s.serve p).setRole r (some b))
  let new := if r = .main then { new with mp := c.mainParams } else new
  match serveBindFail c with
  | some d => .refuse St.badLength d
  | none =>
    if !s.ownsPart c p then .refuse St.noResource 0x08
    else if Tbl.find s.pager.models model ≠ some c.inst then .refuse St.noResource 0x0C
    else if (s.binding p r).any (fun y => y.rowsMax < rowsNeed r (new.roleS r)) then .refuse St.badLength noField
    else if ((s.serve p).role r).any (fun (y : RoleBinding) => y.unbinding) then .refuse St.badState 0x09
    else match s.bindRole c p r b with
      | some (k, t) => .done t [Word.mk k]
      | none => .refuse St.noResource noField

def execServeBind (src : Src) (s : State) : Host.Outcome State Fault Refusal := act s (·.perform src 0x42 serveBindBody)

def serveUnbindBody (c : Cmd) (s : State) : Answer :=
  let p := c.field 0x08 6 0
  let r := roleOf (c.field 0x08 9 8)
  if c.field 0x08 9 8 = 3 then .refuse St.badLength 0x09
  else if !s.ownsPart c p then .refuse St.noResource 0x08
  else match (s.serve p).role r with
    | none => .refuse St.badState 0x09
    | some b =>
      if b.unbinding then .refuse St.badState 0x09
      else if r = .main ∧ s.anyLive (fun e => e.p.partition.toNat == p) = true then .refuse St.badState 0x08
      else
        let s := s.modServe p fun x => x.setRole r (some { b with unbinding := true })
        .done ((if r = .main then s.discardForecast p else s).tryUnbind p r) []

def execServeUnbind (src : Src) (s : State) : Host.Outcome State Fault Refusal :=
  act s (·.perform src 0x43 serveUnbindBody)

/-! ## RUN_STEP (R234, R257, R272, R308) -/

/-- Valid dependences of a RUN_STEP: number k of the field, context, step number. -/
def Cmd.deps (c : Cmd) : List (Nat × Nat × Word) :=
  (List.range 4).filterMap fun k =>
    let hi := c.word (0x6C + 8 * k)
    if hi.bit 31 then some (k, hi.field 27 16, c.word (0x68 + 8 * k)) else none

/-- A dependence that names no step of the issuer's (R302): the offset of its field. -/
def State.depFail (s : State) (c : Cmd) : Option Nat :=
  c.deps.findSome? fun d =>
    if !s.ownsCtx c d.2.1 then some (0x6E + 8 * d.1)
    else if 2 ^ 31 ≤ ((s.ctx d.2.1).lastNo - d.2.2).toNat then some (0x68 + 8 * d.1)
    else none

/-- Ranges of a RUN_STEP. -/
def runStepFail (c : Cmd) : Option Nat :=
  let n := c.field 0x38 8 0
  let program := (c.dword 0x10).toNat
  let timing := (c.dword 0x30).toNat
  let len := (c.dword 0x60).toNat
  if program % 256 ≠ 0 ∨ Config.inWindows c.inst program 64 = false then some 0x10
  else if timing % 8 ≠ 0 ∨ (n ≠ 0 ∧ Config.inWindows c.inst timing (8 * n) = false) then some 0x30
  else if 256 < n ∨ (c.dword 0x28 = 0 ∧ n ≠ 0) ∨ (c.dword 0x28 ≠ 0 ∧ n = 0) then some 0x38
  else if len ≠ 0 ∧ Config.inWindows c.inst (c.dword 0x58).toNat len = false then some 0x58
  else none

/-- Steps accepted and not yet ended. -/
def Context.held (x : Context) : Nat := x.queued.length + if x.dispatched.isSome then 1 else 0

/-- What a binding to capping refuses (R257, R268, R272). No step runs in HELD: training goes on only after a replay that
matches (R32). Before a step has ended ST_OK, only the context's first is taken. -/
def State.capRunFail (s : State) (k : Nat) (t0 step : Dword) : Option (Byte × Nat) :=
  match s.capCtx k with
  | none => none
  | some x =>
    if x.st = .restoring ∨ x.st = .held then some (St.badState, 0x08)
    else if t0 = 0 then some (St.stepMismatch, 0x28)
    else match x.lastStep with
      | some l => if step = l + 1 then none else some (St.stepMismatch, 0x40)
      | none => if (s.ctx k).held = 0 then none else some (St.stepMismatch, 0x40)

/-- The step that a RUN_STEP describes (R308). -/
def Cmd.step (c : Cmd) (k : Nat) (number : Word) : Step :=
  { context := k, number, program := c.dword 0x10, estNs := (c.word 0x18).toNat,
    windowNs := (c.word 0x1C).toNat, startTime := (c.dword 0x20).toNat, t0 := (c.dword 0x28).toNat,
    timing := c.dword 0x30, timingCount := c.field 0x38 8 0, group := c.field 0x38 23 16,
    swarmStep := c.dword 0x40, hostSrc := c.dword 0x50, hostDst := c.dword 0x58, hostLen := c.dword 0x60,
    deps := c.deps.map fun d => (d.2.1, d.2.2) }

/-- What refuses a RUN_STEP, in the order of R300 and R308. -/
def State.runStepStop (s : State) (c : Cmd) (k : Nat) : Option (Byte × Nat) :=
  let x := s.ctx k
  if !s.ownsCtx c k then some (St.noResource, 0x08)
  else match s.depFail c with
    | some d => some (St.noResource, d)
    | none =>
      if x.role.isSome || x.destroying || s.cycBusy k then some (St.badState, 0x08)
      else if x.st = .faulted then some (St.dataPoisoned, noField)
      else if (s.partD x.partition).qcs = [] then some (St.fenced, noField)
      else if 16 ≤ x.held then some (St.busy, noField)
      else s.capRunFail k (c.dword 0x28) (c.dword 0x40)

/-- The step accepted: numbered, and queued at its context. -/
def State.acceptStep (s : State) (c : Cmd) (k : Nat) : Answer :=
  let x := s.ctx k
  let number := x.lastNo + 1
  .long (s.setCtx k { x with lastNo := number }) 0x48 (.runStep k number) number [number]
    fun o s => s.queueStep k { c.step k number with op := some o }

/-- An answer, unless something refuses the command. -/
def Answer.unless (x : Option (Byte × Nat)) (a : Answer) : Answer :=
  match x with
  | some (status, d) => .refuse status d
  | none => a

def runStepBody (c : Cmd) (s : State) : Answer :=
  let k := c.field 0x08 11 0
  .unless ((runStepFail c).map fun d => (St.badLength, d)) (.unless (s.runStepStop c k) (s.acceptStep c k))

def execRunStep (src : Src) (s : State) : Host.Outcome State Fault Refusal := act s (·.perform src 0x80 runStepBody)

/-- The copy of a dispatched step ends (R308): its destination is marked (R258), also where it failed after some of its bytes
(log 56). A copy that fails stops the step with
the code of a host address that cannot be read (R300). -/
def hostCopyEffect (k : Nat) (ok : Bool) (s : State) : State :=
  match s.stepOf k with
  | none => s
  | some st =>
    if !st.copying then s
    else
      let s := s.modStep k fun st => { st with copying := false }
      let s := s.capMarkAll st.hostDst.toNat (st.hostDst.toNat + st.hostLen.toNat)
      if ok then s
      else (s.modStep k fun st => { st with forced := some (st.forced.getD St.badAddress) }).stopStep k

def execHostCopyDone (context : Nat) (ok : Bool) (s : State) : Host.Outcome State Fault Refusal :=
  act s (hostCopyEffect context ok)

end Sys2Proof.Machine
end

