-- ==== Sys2Proof/Machine/Instances.lean ====
section
/-!
DEFINITION. The commands on instances but save and restore, FLR, and the mailboxes (spec/14 R317–R328).
-/

namespace Sys2Proof.Machine

/-! ## Quotas (R319–R322) -/

/-- The quarter-cluster map at 0x18. -/
def Cmd.qcMap (c : Cmd) : BitVec 128 := BitVec.ofNat 128 ((c.dword 0x20).toNat * 2 ^ 64 + (c.dword 0x18).toNat)

/-- The quotas that INSTANCE_CREATE and INSTANCE_RESIZE carry. -/
def Cmd.quotas (c : Cmd) : Quotas :=
  { rings := c.field 0x0C 16 0, comb := c.field 0x10 18 0, contexts := c.field 0x14 12 0, qc := c.qcMap,
    brood := c.field 0x28 27 0, super := c.field 0x2C 30 0, bwBrood := c.field 0x30 15 0, bwSuper := c.field 0x30 31 16,
    bwLink := c.field 0x34 15 0, trings := c.field 0x38 16 0, prefixes := c.field 0x3C 14 0 }

/-- Ranges of R319: the offset of the first field out of its range. -/
def quotaRange (c : Cmd) : Option Nat :=
  let q := c.quotas
  if c.field 0x08 5 0 = 0 then some 0x08
  else if 65472 < q.rings then some 0x0C
  else if 262144 < q.comb then some 0x10
  else if 4096 < q.contexts then some 0x14
  else if 65536 < q.trings then some 0x38
  else if 16384 < q.prefixes then some 0x3C
  else none

/-- The first quota that the physical function's remainder, less what it uses, cannot cover (R320), or the removal of a
quarter-cluster in use (R322), over the old quotas. -/
def State.grantFail (s : State) (i : Nat) (old new : Quotas) : Option (Byte × Nat) :=
  let overrun (n o quota used : Nat) : Bool := decide (o < n) && decide (quota < used + (n - o))
  let added (q : Nat) : Bool := new.qc.getLsbD q && !old.qc.getLsbD q
  let removed (q : Nat) : Bool := old.qc.getLsbD q && !new.qc.getLsbD q
  let qs := List.range 128
  if overrun new.rings old.rings (s.ringQuota 0) (s.ringsUsed 0) then some (St.noResource, 0x0C)
  else if overrun new.comb old.comb (s.combQuota 0) (s.combUsed 0) then some (St.noResource, 0x10)
  else if overrun new.contexts old.contexts (s.ctxQuota 0) (s.ctxUsed 0) then some (St.noResource, 0x14)
  else if qs.any fun q => added q && !s.qcFree 0 q then some (St.noResource, 0x18)
  else if qs.any fun q => removed q && s.sched.parts.any fun e =>
      e.2.inst == i && (e.2.qcs.contains q || e.2.spares.contains q) then some (St.badState, 0x18)
  else if overrun new.brood old.brood (s.broodQuota 0) (s.broodUsed 0) then some (St.noResource, 0x28)
  else if overrun new.super old.super (s.superQuota 0) (s.superUsed 0) then some (St.noResource, 0x2C)
  else if overrun new.trings old.trings (s.tringQuota 0) (s.tringsUsed 0) then some (St.noResource, 0x38)
  else if overrun new.prefixes old.prefixes (s.prefixQuota 0) (s.prefixUsed 0) then some (St.noResource, 0x3C)
  else none

/-- Does an instance hold no object but its boot ring; `loaded`: nor models, Sampler tables and automata (R323)? -/
def State.instEmpty (s : State) (i : Nat) (loaded : Bool) : Bool :=
  (s.instRings i).all (fun r => decide (r < 64)) && s.forager.tokens.all (fun e => e.2.inst != i) &&
  (s.instStreams i).isEmpty && (s.instCtxs i).isEmpty && (s.instParts i).isEmpty && (s.instTables i).isEmpty &&
  s.pager.prefixes.all (fun e => e.2.inst != i) &&
  (!loaded || ((s.instModels i).isEmpty && s.sampler.tables.all (fun e => e.2.inst != i) &&
    s.sampler.automata.all (fun e => e.2.inst != i)))

/-- The key of a new instance is random: while the guard core does not serve, nothing changes (R342, R408). -/
def instanceCreateBody (numVfs : Nat) (c : Cmd) (s : State) : Answer :=
  let i := c.field 0x08 5 0
  match quotaRange c with
  | some d => .refuse St.badLength d
  | none =>
    if s.hasInst i then .refuse St.badState 0x08
    else if numVfs < i then .refuse St.noResource 0x08
    else match s.grantFail i {} c.quotas, s.guardFail true with
      | some (status, d), _ => .refuse status d
      | none, some status => .refuse status noField
      | none, none =>
        let s := s.setInst i { st := .active, wairon := c.bit 0x08 8, q := c.quotas, flrCnt := (s.inst i).flrCnt }
        .done ((s.setRing i (ringDefault i)).newMemKey i) []

def execInstanceCreate (src : Src) (numVfs : Nat) (s : State) : Host.Outcome State Fault Refusal :=
  act s (·.perform src 0x20 (instanceCreateBody numVfs))

def instanceResizeBody (c : Cmd) (s : State) : Answer :=
  let i := c.field 0x08 5 0
  let x := s.inst i
  match quotaRange c with
  | some d => .refuse St.badLength d
  | none =>
    if !s.active i then .refuse St.badState 0x08
    else if x.wairon = false ∧ s.instEmpty i true = false then .refuse St.badState 0x08
    else match s.grantFail i x.q c.quotas with
      | some (status, d) => .refuse status d
      | none => .done ((s.setInst i { x with q := c.quotas }).shareBw i) []

def execInstanceResize (src : Src) (s : State) : Host.Outcome State Fault Refusal :=
  act s (·.perform src 0x21 instanceResizeBody)

/-! ## Reset, FLR, destruction (R323–R325) -/

/-- ACTIVE, FREEZING or FROZEN, and not being reset. -/
def State.resettable (s : State) (i : Nat) : Bool :=
  let x := s.inst i
  x.seq.isNone && match x.st with
    | .active | .freezing | .frozen => true
    | .none | .resetting | .restoring => false

def instanceResetBody (c : Cmd) (s : State) : Answer :=
  let i := c.field 0x08 5 0
  let squash := c.bit 0x08 8
  if i = 0 then .refuse St.badLength 0x08
  else if !s.resettable i then .refuse St.badState 0x08
  else .long s 0x10 (.reset i squash) (Word.mk i) [] fun k s => s.beginReset i .resetting squash (some k) St.ok

def execInstanceReset (src : Src) (s : State) : Host.Outcome State Fault Refusal :=
  act s (·.perform src 0x22 instanceResetBody)

def instanceDestroyBody (c : Cmd) (s : State) : Answer :=
  let i := c.field 0x08 5 0
  if i = 0 then .refuse St.badLength 0x08
  else if s.active i = false ∨ s.instEmpty i true = false then .refuse St.badState 0x08
  else
    let s := (s.clearMbx i).setInst i { flrCnt := (s.inst i).flrCnt }
    let s := s.eraseRing i
    .done { s with guard := { s.guard with memKeys := Tbl.erase s.guard.memKeys (i + 1) } } []

def execInstanceDestroy (src : Src) (s : State) : Host.Outcome State Fault Refusal :=
  act s (·.perform src 0x23 instanceDestroyBody)

/-- An FLR of a virtual function (R325): it begins a sequence with SQUASH = 1, or joins the one that runs; a function with
no instance to reset is done at once. -/
def vfFlrEffect (i : Nat) (s : State) : State :=
  if i = 0 then s
  else
    let x := s.inst i
    let s := s.setInst i { x with flrCnt := x.flrCnt + 1, flrDue := some (s.ns + 100000000) }
    let s := (s.setReg Reg.hpuInstFltInfo (Word.mk i)).raise { id := Flt.flr, inst := if s.hasInst i then some i else none }
    match x.seq with
    | some q => s.setInst i { s.inst i with seq := some { q with squash := true, flr := true } }
    | none =>
      if s.resettable i then
        let s := s.beginReset i .resetting true none St.ok
        s.setInst i { s.inst i with seq := (s.inst i).seq.map fun q => { q with flr := true } }
      else s.flrComplete i

def execVfFlr (fn : Nat) (s : State) : Host.Outcome State Fault Refusal := act s (vfFlrEffect fn)

/-- 100 ms after the FLR it is completed to the PCIe controller, whatever the sequence does. -/
def flrTimeoutEffect (i : Nat) (s : State) : State := if s.due (s.inst i).flrDue then s.flrComplete i else s

def execFlrTimeout (fn : Nat) (s : State) : Host.Outcome State Fault Refusal := act s (flrTimeoutEffect fn)

/-! ## Freezing and thawing (R328) -/

def instanceFreezeBody (c : Cmd) (s : State) : Answer :=
  let i := c.field 0x08 5 0
  if s.active i = false ∨ (s.instCtxs i).any (fun k => (s.capCtx k).isSome) = true then .refuse St.badState 0x08
  else
    let s := s.setInst i { s.inst i with st := .freezing }
    let s := (s.instRings i).foldl (fun s r => s.dropFetched r) s
    let s := (s.instCtxs i).foldl (fun s k => s.dropRuns k) s
    let s := (s.instParts i).foldl (fun s p =>
      (((s.discardForecast p).endUndispatched p .main).endUndispatched p .draft).endUndispatched p .fallback) s
    .done ((s.instTables i).foldl (fun s k => s.stopTable k false) s) []

def execInstanceFreeze (src : Src) (s : State) : Host.Outcome State Fault Refusal :=
  act s (·.perform src 0x24 instanceFreezeBody)

/-- Fetch, composition and dispatch resume (R323): rings that are ENABLED fetch from their heads. -/
def instanceThawBody (c : Cmd) (s : State) : Answer :=
  let i := c.field 0x08 5 0
  let x := s.inst i
  if x.seq.isSome ∨ (x.st ≠ .freezing ∧ x.st ≠ .frozen) then .refuse St.badState 0x08
  else
    let s := s.setInst i { x with st := .active }
    let s := (s.instRings i).foldl (fun s r => s.modRing r fun y => { y with probe := y.spec }) s
    .done ((s.instParts i).foldl (fun s p => s.wakeForecast p) s) []

def execInstanceThaw (src : Src) (s : State) : Host.Outcome State Fault Refusal :=
  act s (·.perform src 0x27 instanceThawBody)

/-! ## Mailboxes (R326, R327) -/

/-- A message handed to the firmware, or dropped. -/
def mbxGoEffect (i : Nat) (s : State) : State :=
  let x := s.inst i
  if x.inBusy ∨ 62 < (s.reg (pageKey i Reg.mbxIn)).field 15 8 then
    ((s.satReg (pageKey i Reg.mbxDropCnt)).setReg Reg.hpuInstFltInfo (Word.mk i)).raise
      { id := Flt.mbxDrop, inst := some i }
  else s.setInBusy i true

def execMbxInGo (fn : Nat) (s : State) : Host.Outcome State Fault Refusal := barWrite s fn (mbxGoEffect fn)

/-- The driver has taken the outbound message: the next one that waits follows. -/
def mbxAckEffect (i : Nat) (s : State) : State :=
  let x := s.inst i
  match x.outQueue with
  | [] => s.setInst i { x with outValid := false }
  | m :: rest => (s.setInst i { x with outValid := false, outQueue := rest }).mbxShow i m

def execMbxOutAck (fn : Nat) (s : State) : Host.Outcome State Fault Refusal := barWrite s fn (mbxAckEffect fn)

/-- A message that the firmware places of its own: while PHASE = RUN the scheduler core, before it the ROM, serves. -/
def mbxOutEffect (i : Nat) (ws : List Word) (s : State) : State :=
  let server := if s.fw.phase = .run then s.procUp schedulerCore else s.guardUp
  if s.hasInst i && server && decide (ws.length ≤ 128) then s.mbxPost i ws else s

def execMbxOutPost (fn : Nat) (message : List Word) (s : State) : Host.Outcome State Fault Refusal :=
  act s (mbxOutEffect fn message)

end Sys2Proof.Machine
end

