-- ==== Sys2Proof/Machine/TbOps.lean ====
section
/-!
DEFINITION. The discipline of the Timebase (spec/09 R220–R226): edge timestamps, the correction, the lock state and its
changes.
-/

namespace Sys2Proof.Machine

/-! ## Registers of the Timebase -/

def State.ppsEn (s : State) : Bool := (s.reg Reg.tbCtrl).bit 0
def State.ppsMinw (s : State) : Nat := max 2 (s.regField Reg.tbPpsMinw 7 0)
def State.tbKi (s : State) : Nat := max 1 (s.regField Reg.tbCtrl 11 8)
def State.tbKp (s : State) : Nat := s.regField Reg.tbCtrl 7 4
def State.lockCnt (s : State) : Nat := max 1 (s.regField Reg.tbLock 23 16)
def State.missLimit (s : State) : Nat := max 1 (s.regField Reg.tbMissLimit 3 0)

/-- Changes of the Timebase's state. -/
def State.modTb (s : State) (f : Timebase → Timebase) : State := { s with tb := f s.tb }

/-- TB_FLT_INFO and an event of the Timebase (R238). -/
def State.tbFault (s : State) (id : Nat) (info : Int) : State :=
  (s.setReg Reg.tbFltInfo (BitVec.ofInt 32 info)).raise { id }

/-- Is time-triggered work armed (R223)? -/
def State.tbArmed (s : State) : Bool :=
  (s.cyc.any fun e => match e.2.st with
    | .armed | .running | .stopping => true
    | .empty | .loaded => false) ||
  (s.sched.ctxs.any fun e => e.2.dispatched.any fun st =>
    (!st.released && (decide (st.startTime ≠ 0) || match st.origin with
      | .cyclic _ _ => true
      | _ => false)) || (decide (st.timingCount ≠ 0) && st.timed.isEmpty) || st.timed.any fun t => !st.begun.contains t.1)

/-- B of R225, t whole seconds after the last accepted edge. -/
def State.hoBoundAt (s : State) (t : Nat) : Nat := s.tb.err.natAbs + s.regField Reg.tbHoRate 15 0 * t

/-- t of R225 now: whole seconds since the last accepted edge, which marked a second with the error kept. -/
def State.hoSeconds (s : State) : Nat := ((s.ns : Int) - (s.tb.lastSec * 1000000000 + s.tb.err)).toNat / 1000000000

/-- B of R225 now. -/
def State.hoBound (s : State) : Nat := s.hoBoundAt s.hoSeconds

/-- Half the acceptance window of second sec (R224, R225). -/
def State.ppsWindow (s : State) (sec : Nat) : Nat :=
  if s.tb.lock = .locked then 2000 else 2000 + s.hoBoundAt (sec - s.tb.lastSec)

/-! ## Lock states -/

/-- A new lock state; partners hear of EXPIRED (R238, R247). -/
def State.setLock (s : State) (l : LockState) : State :=
  let said := decide (s.tb.lock = .expired) != decide (l = .expired)
  let s := s.modTb fun t => { t with lock := l }
  if said then s.sendAll (s.swarm.members.filterMap fun e => if e.2.present then some e.1 else none) Pkt.stateNotice []
  else s

/-- The mean of r over the last accepted edges, rounded toward minus infinity; r itself where there is none. -/
def Timebase.meanR (t : Timebase) : Int :=
  if t.rHist.isEmpty then t.r else t.rHist.foldl (fun n x => n + x) 0 / (t.rHist.length : Int)

def clampPpb (n : Int) : Int := max (-200000) (min 200000 n)

/-- TB_INCR for a correction of c ppb (R222). -/
def incrOf (c : Int) : BitVec 40 :=
  BitVec.ofInt 40 (((Config.tbRefPeriod : Int) * (1000000000 - c) + 500000000) / 1000000000)

/-- r, p and c with their TB_INCR. -/
def Timebase.steer (t : Timebase) (r p : Int) : Timebase :=
  let c := clampPpb (r + p)
  { t with r, c, incr := incrOf c }

/-- To HOLDOVER (R224): the mean frequency alone goes on. -/
def State.enterHoldover (s : State) : State :=
  let s := s.modTb fun t => t.steer t.meanR 0
  (s.setLock .holdover).tbFault Flt.tbHoldover s.tb.err

/-- What PPS_EN = 0 does to the lock state (R224). -/
def State.ppsCheck (s : State) : State :=
  if s.ppsEn then s
  else match s.tb.lock with
    | .acquiring => s.setLock .freeRun
    | .locked => s.enterHoldover
    | .freeRun | .holdover | .expired => s

/-! ## Edges -/

/-- An edge: its timestamp in ns, the second that it marks, its error in whole ns and in units of the counter (R221). -/
structure Edge where
  at_ : Int
  sec : Nat
  e   : Int
  raw : Int

/-- The edge whose first high sample lay a number of TB_REF cycles ago. -/
def State.edge (s : State) (phase : Nat) : Edge :=
  let delay := (s.reg Reg.tbPpsDelay).toInt
  let ts : Int := (s.tb.ctr.toNat : Int) - (phase : Int) * (s.tb.incr.toNat : Int) - delay * 4294967296
  let sec := (ts / 4294967296 + 500000000) / 1000000000
  let raw := ts - sec * 1000000000 * 4294967296
  { at_ := ts / 4294967296, sec := sec.toNat, e := raw.tdiv 4294967296, raw }

/-- Is an edge consistent with an earlier one (R224)? -/
def Edge.consistent (x : Edge) (t : Int) : Bool := decide ((x.at_ - t - 1000000000).natAbs ≤ 200000)

/-- An extra edge counted (R224, R238); severe, it masks PPS_IN. -/
def State.countExtra (s : State) (x : Edge) : State :=
  ((s.satReg Reg.tbPpsExtra).tbFault Flt.tbExtra x.e).ppsCheck

/-- R222 for an accepted edge of error e. -/
def State.discipline (s : State) (e : Int) : State :=
  let ki := s.tbKi
  let kp := s.tbKp
  s.modTb fun t => t.steer (clampPpb (t.r + e / (2 ^ ki : Nat))) (e / (2 ^ kp : Nat))

/-- The counter moved by n of its units, and by n ns (R220). -/
def Timebase.shift (t : Timebase) (n : Int) : Timebase := { t with ctr := t.ctr + BitVec.ofInt 96 n }
def Timebase.jump (t : Timebase) (n : Int) : Timebase := t.shift (n * 4294967296)

/-- The time of day that waits, applied at the edge that marks second sec (R226). -/
def State.applyTod (s : State) (sec : Nat) : State :=
  if (s.reg Reg.tbTodCtrl).bit 0 = false then s
  else
    let tod := (s.reg Reg.tbTodSecLo).toNat + s.regField Reg.tbTodSecHi 2 0 * 2 ^ 32
    let s := s.andNotReg Reg.tbTodCtrl 1
    if s.tbArmed ∧ tod ≠ sec then s.orReg Reg.tbTodCtrl 4
    else
      let by_ : Int := ((tod : Int) - (sec : Int)) * 1000000000
      let moved (n : Nat) : Nat := ((n : Int) + ((tod : Int) - (sec : Int))).toNat
      let s := s.modTb fun t =>
        { t.jump by_ with todSet := true, lastSec := moved t.lastSec, missSec := moved t.missSec,
                          candidate := t.candidate.map fun n => n + by_,
                          lastExtra := t.lastExtra.map fun n => n + by_ }
      s.orReg Reg.tbTodCtrl 2

/-- What every accepted edge leaves, and its time of day. -/
def State.accepted (s : State) (x : Edge) (e : Int) : State :=
  let s := s.modTb fun t =>
    { t with err := e, lastSec := x.sec, missSec := 0, missed := 0, extraRun := 0, lastExtra := none,
             rHist := (t.r :: t.rHist).take 16 }
  (s.incReg Reg.tbPpsAccept).applyTod x.sec

/-- LOCK_COUNT after an accepted edge of error e, and LOCKED where it reaches its count (R224). -/
def State.countLock (s : State) (e : Int) (thr : Nat) : State :=
  let s := s.modTb fun t => { t with lockCount := if e.natAbs ≤ thr then t.lockCount + 1 else 0 }
  if s.lockCnt ≤ s.tb.lockCount then s.setLock .locked else s

/-- An edge in ACQUIRING (R224): where nothing is armed the counter is stepped, fraction and all, so that the edge reads its
second exactly. -/
def State.acquireEdge (s : State) (x : Edge) : State :=
  let keep (s : State) : State := s.modTb fun t => { t with candidate := some x.at_ }
  match s.tb.candidate with
  | none => (keep s).modTb fun t => { t with lockCount := 0 }
  | some t0 =>
    if x.consistent t0 = false then
      ((keep s).modTb fun t => { t with lockCount := 0, acquired := false }).countExtra x
    else if s.tb.acquired then
      (((keep s).discipline x.e).accepted x x.e).countLock x.e (s.regField Reg.tbLock 15 0)
    else
      let armed := s.tbArmed
      let e : Int := if armed then x.e else 0
      let s := s.modTb fun t =>
        { t.shift (if armed then 0 else -x.raw) with
          r := clampPpb (x.at_ - t0 - 1000000000), lockCount := 0,
          candidate := some (if armed then x.at_ else x.sec * 1000000000), acquired := true }
      (s.discipline e).accepted x e

/-- An extra edge of LOCKED, HOLDOVER or EXPIRED; the fourth consistent one in a row is a phase jump (R224). -/
def State.extraEdge (s : State) (x : Edge) : State :=
  let run := if s.tb.lastExtra.any x.consistent then s.tb.extraRun + 1 else 1
  let s := s.modTb fun t => { t with extraRun := if run = 4 then 0 else run, lastExtra := some x.at_ }
  let s := s.countExtra x
  if run ≠ 4 then s
  else
    let s := s.tbFault Flt.phaseJump x.e
    if (s.reg Reg.tbCtrl).bit 2 = false ∨ s.ppsEn = false then s
    else (s.modTb fun t => { t with candidate := some x.at_, acquired := false, lastExtra := none }).setLock .acquiring

/-- A qualified edge (R224). -/
def State.ppsEdge (s : State) (x : Edge) : State :=
  match s.tb.lock with
  | .freeRun => (s.modTb fun t => { t with candidate := some x.at_, acquired := false }).setLock .acquiring
  | .acquiring => s.acquireEdge x
  | .locked =>
    if x.e.natAbs ≤ s.ppsWindow x.sec ∧ s.tb.lastSec < x.sec then (s.discipline x.e).accepted x x.e else s.extraEdge x
  | .holdover | .expired =>
    if x.e.natAbs ≤ s.ppsWindow x.sec ∧ s.tb.lastSec < x.sec then
      ((s.discipline x.e).accepted x x.e).countLock x.e 2000
    else s.extraEdge x

/-- A second of LOCKED, HOLDOVER or EXPIRED has passed without an accepted edge (R224, R225). -/
def State.missSecond (s : State) : State :=
  let sec := max s.tb.lastSec s.tb.missSec + 1
  let s := (s.modTb fun t => { t with missSec := sec }).tbFault Flt.tbMiss s.tb.err
  match s.tb.lock with
  | .locked =>
    let s := s.modTb fun t => { t with missed := t.missed + 1 }
    if s.missLimit ≤ s.tb.missed then s.enterHoldover else s
  | .holdover | .expired =>
    s.modTb fun t => { t.steer t.r 0 with lockCount := 0 }
  | .freeRun | .acquiring => s

end Sys2Proof.Machine
end

