-- ==== Sys2Proof/Machine/Irqs.lean ====
section
/-!
DEFINITION. Forced faults and SEVERE latches, HUM_OUT, the interrupt controller's rows (spec/17 R368, R370, R378–R387).
-/

namespace Sys2Proof.Machine

/-! ## Forcing and clearing faults -/

/-- The unit that FENCE fences for a forced event: it names unit 0, core 0 of an agent's cluster (R88). -/
def forcedFence (id : Nat) : Option (Nat × Nat) := if 1024 ≤ id ∧ id % 32 = 3 then some (0, 64 * (id / 32 - 32)) else none

/-- One forced event, of a source that exists (R367, R368): a 1 written to a bit that stands for no source, as
FRM_FLT_FORCE.ENGINE_SEVERE, has no effect (DESIGN CHOICE, log 51). No force alters the unit's own
work, so a forced ENTROPY or PCT event is counted and no service stops; forced extra edges that turn severe mask PPS_IN
as any (R238). -/
def State.forceOne (s : State) (id : Nat) : State :=
  if (faultSpec id).isNone then s
  else (s.raise { id, forced := true, fence := forcedFence id }).ppsCheck

/-- A write to the force register of a fault block: each 1 raises one event. -/
def faultForceEffect (fn off : Nat) (w : Word) (s : State) : State :=
  match forceBlock off with
  | some b =>
    if fn ≠ 0 then s
    else (List.range 32).foldl (fun s i => if w.getLsbD i then s.forceOne (32 * b + i) else s) s
  | none => s

def execFaultForce (fn offset : Nat) (value : Word) (s : State) : Host.Outcome State Fault Refusal :=
  barWrite s fn (faultForceEffect fn offset value)

/-- A write of 1 to SEVERE: the latch and every counter of the source cleared. -/
def severeClearEffect (fn id : Nat) (w : Word) (s : State) : State :=
  if fn ≠ 0 ∨ w.bit 31 = false ∨ 2048 ≤ id then s
  else
    let s := s.andNotReg (prpFSev id) 0x80000000
    let s := { s with fences := { s.fences with counts := dropWhere (fun e => e.1 / 8192 == id) s.fences.counts } }
    s.syncLine (id / 32)

def execSevereClear (fn id : Nat) (value : Word) (s : State) : Host.Outcome State Fault Refusal :=
  barWrite s fn (severeClearEffect fn id value)

/-! ## HUM_OUT (R378–R380) -/

/-- The toggle time: the line toggles, or falls for good after a stop. A freeze holds its level. -/
def humToggleEffect (s : State) : State :=
  let h := s.hum
  if h.toggling = false ∨ s.ticks < h.nextAt ∨ s.power.freeze ≠ none then s
  else if h.stopped then { s with hum := { h with level := false, toggling := false } }
  else
    let half := s.humHalf
    { s with hum := { h with level := !h.level, nextAt := if h.nextAt + half ≤ s.ticks then s.ticks + half
                                                          else h.nextAt + half } }

def execHumToggle (s : State) : Host.Outcome State Fault Refusal := actRef s humToggleEffect

/-! ## The interrupt controller (R381–R387) -/

/-- Sources that a signal of another unit or processor drives: inter-processor requests, memory ports, link engines. -/
def extSource (n : Nat) : Bool := (decide (65 ≤ n) && decide (n ≤ 99)) || (decide (165 ≤ n) && decide (n ≤ 280))

/-- A level changes. While CCLK is stopped it is only there to be taken again (R388); a rise of MC_IRQ or LE_IRQ wakes a
sleeping block (R437). -/
def irqChangeEffect (n : Nat) (level : Bool) (s : State) : State :=
  if !extSource n then s
  else if s.clocked then (s.irqLevel n level).settle
  else
    let x := s.irq n
    let rise := level && !x.level && decide (165 ≤ n)
    let s := s.setIrq n { x with level }
    if rise then s.wakeEvent else s

def execIrqLevelChange (source : Nat) (level : Bool) (s : State) : Host.Outcome State Fault Refusal :=
  .next (irqChangeEffect source level s)

/-- The highest-numbered source presentable to a processor and class. -/
def State.claimable (s : State) (p : Nat) (fast : Bool) : Option Nat :=
  ((s.ic.srcs.filter fun e => s.presents p fast e.1 e.2).map fun e => e.1).max?

/-- A claim: the source is ACTIVE, and its group's timer runs. -/
def State.claimed (s : State) (p : Nat) (fast : Bool) : State :=
  match s.claimable p fast with
  | none => s
  | some n =>
    let x := s.irq n
    let g := x.cfg.field 21 16
    let hold := (Tbl.get (fun _ => 0) s.ic.holdoff g : Word).field 15 0 * 64
    let s := s.setIrq n { x with active := some (p, fast) }
    let s := if hold = 0 then s else { s with ic := { s.ic with timers := Tbl.insert s.ic.timers g (s.cc + hold) } }
    s.icSync

/-- What a claim register reads: the source claimed, or 0x3FF (R392). -/
def State.claimWord (s : State) (p : Nat) (fast : Bool) : Word := Word.mk ((s.claimable p fast).getD 0x3FF)

def icClaimEffect (p : Nat) (fast : Bool) (s : State) : State := (s.emit (.readData 0 (s.claimWord p fast))).claimed p fast

def execIcClaim (proc : Nat) (fast : Bool) (s : State) : Host.Outcome State Fault Refusal := act s (icClaimEffect proc fast)

/-- A completion of a source ACTIVE with this target and class; of any other, BAD_COMPLETE. -/
def icCompleteEffect (p : Nat) (fast : Bool) (n : Nat) (s : State) : State :=
  let x := s.irq n
  if x.active = some (p, fast) then (s.setIrq n { x with active := none, reasserted := false }).icSync
  else (s.setReg Reg.icFltInfo (Word.mk (p * 2 ^ 26 + n % 1024))).raise { id := Flt.badComplete, unit := n }

def execIcComplete (proc : Nat) (fast : Bool) (source : Nat) (s : State) : Host.Outcome State Fault Refusal :=
  act s (icCompleteEffect proc fast source)

/-- A write of 1 to MASKED of the source that IC_SRC_SEL selects: unmasked, its count cleared. -/
def stormUnmaskEffect (fn : Nat) (w : Word) (s : State) : State :=
  if fn ≠ 0 ∨ w.bit 3 = false then s
  else
    let n := s.regField Reg.icSrcSel 9 0
    (s.setIrq n { s.irq n with masked := false, rises := 0, ws := 0 }).icSync

def execStormUnmask (fn : Nat) (value : Word) (s : State) : Host.Outcome State Fault Refusal :=
  barWrite s fn (stormUnmaskEffect fn value)

/-- A group's hold-off timer ends. -/
def holdoffEffect (g : Nat) (s : State) : State :=
  match Tbl.find s.ic.timers g with
  | some t => if t ≤ s.cc then ({ s with ic := { s.ic with timers := Tbl.erase s.ic.timers g } }).icSync else s
  | none => s

def execHoldoffExpiry (group : Nat) (s : State) : Host.Outcome State Fault Refusal := act s (holdoffEffect group)

end Sys2Proof.Machine
end

