-- ==== Sys2Proof/Machine/Pager.lean ====
section
/-!
DEFINITION. The pager's events (spec/07) and the commands on models: prompt fetches, first pages, moves, demotion, the
narrow path, repairs, poisoned frames, MODEL_LOAD and MODEL_UNLOAD.
-/

namespace Sys2Proof.Machine

/-! ## Prompt fetch and first pages (R180, R186) -/

/-- The prefix that a fetched prompt begins with: its id and length. -/
def State.prefixHit (s : State) (i : Nat) : Option (Nat × Prefix) :=
  let id := (s.entry i).p.prefixId
  if id = 0xFFFFFFFF then none
  else match Tbl.find s.pager.prefixes id.toNat with
    | some x =>
      let same := decide (x.len ≤ (s.entry i).promptLen.toNat) &&
        x.tokens.all fun e => s.token i e.1 == e.2
      if same && x.made && !x.freed then some (id.toNat, x) else none
    | none => none

/-- The stream's entries pointed at a prefix's frames, each count raised by one: the words are written with the leaf lists
that hold them, which the first pages make. -/
def State.attachPrefix (s : State) (i : Nat) (x : Prefix) : State :=
  x.pages.foldl (fun s e =>
    let s := s.modMem i fun m => { m with pages := Tbl.insert m.pages e.1 { e.2 with shared := true } }
    (s.addShared e.2.shareId).countPages i 1 0) s

/-- PREFILL_POS on entry to READY from ADMITTED: past the shared prefix. -/
def State.firstPrefill (s : State) (i : Nat) : Nat :=
  let e := s.entry i
  if (s.mem i).pages.any fun p => p.2.shared then
    match Tbl.find s.pager.prefixes e.p.prefixId.toNat with
    | some x => min x.len (e.promptLen.toNat - 1)
    | none => 0
  else 0

/-- Leaf lists for the pages shared with a prefix and the G pages of the first block to be written, all or none. -/
def State.firstPages (s : State) (i : Nat) : Option State :=
  let x := s.serve (s.entry i).p.partition.toNat
  let g := max 1 x.geomG
  let k := s.firstPrefill i / max 1 x.geomP
  let shared := (s.mem i).pages.map fun e => e.1
  let own := ((List.range g).map fun j => k * g + j).filter fun lp => !shared.contains lp
  let lists := ((shared ++ own).foldl (fun l lp => insertAsc (lp / 512) l) []).filter fun j =>
    (Tbl.find (s.mem i).leaves j).isNone
  let s := s.reclaim (s.mem i).inst (16 * own.length + 2 * lists.length)
  let leaves := shared.foldl (fun o lp => o.bind fun s => s.needLeaf i lp) (some s)
  let written := leaves.map fun s => shared.foldl (fun s lp => s.rewrote i (2 + lp / 512) (lp % 512)) s
  own.foldl (fun o lp => o.bind fun s => s.newPage i lp) written

/-- The first pages allocated and the stream READY, or PARKED where a park is pending (R40); else it waits for them. -/
def State.leaveAdmitted (s : State) (i : Nat) : State :=
  match s.firstPages i with
  | none => s.modMem i fun m => { m with waiting := true }
  | some t =>
    let pos := t.firstPrefill i
    let t := (t.modEntry i fun e => { e with prefillPos := Word.mk pos }).modMem i fun m => { m with waiting := false }
    let t := { t with pager := { t.pager with waiting := dropWhere (fun j => j == i) t.pager.waiting } }
    let e := t.entry i
    if e.parkPending then t.park i e.parkReason else t.enterReady i

def promptDoneEffect (i : Nat) (toks : List Word) (s : State) : State :=
  let e := s.entry i
  if e.st = .admitted ∧ (s.mem i).fetching = true ∧ toks.length = e.promptLen.toNat then
    let s := (s.writeTokens i 0 (toks.map BitVec.toNat)).modMem i fun m => { m with fetching := false }
    let s := match s.prefixHit i with
      | some (_, x) => s.attachPrefix i x
      | none => s.modEntry i fun e => { e with p := { e.p with prefixId := 0xFFFFFFFF } }
    (s.leaveAdmitted i).pagerSync
  else s

def execPromptFetchDone (index : Nat) (tokens : List Word) (s : State) : Host.Outcome State Fault Refusal :=
  act s (promptDoneEffect index tokens)

/-- A prompt fetch fails (R40). -/
def promptFailEffect (i : Nat) (s : State) : State :=
  if (s.entry i).st = .admitted ∧ (s.mem i).fetching = true then (s.retire i 0x12).pagerSync else s

def execPromptFetchFail (index : Nat) (s : State) : Host.Outcome State Fault Refusal := act s (promptFailEffect index)

/-- The waiting streams tried again in order of admission. -/
def firstPagesEffect (s : State) : State :=
  (s.pager.waiting.foldl (fun s i =>
    if (s.entry i).st = .admitted ∧ (s.mem i).waiting = true then s.leaveAdmitted i else s) s).pagerSync

def execFirstPagesRetry (s : State) : Host.Outcome State Fault Refusal := act s firstPagesEffect

/-! ## Moves (R182, R192) -/

/-- A completed move of stream i's page lp applied to its list entry; both frames are freed where the page has been
released meanwhile. -/
def State.landMove (s : State) (m : Move) (i gen : Nat) (ok : Bool) : State :=
  let p := (s.mem i).page m.page
  let live := decide ((s.entry i).gen.toNat = gen) && p.moving && decide (p.frame = some m.src)
  if !live then
    let s := if m.kind = .demote then s.refundSuper m.inst 16 else s.refundBrood m.inst 16
    let s := (if m.kind = .copy then s else s.giveFrame m.src).giveFrame m.dst
    if (s.entry i).gen.toNat = gen then s.moveEnded i m.page else s
  else
    let s := match m.kind with
      | .promote =>
        ((((s.setPage i m.page { p with tier := .brood, frame := some m.dst, moving := false }).releaseFrame
          m.src p.poison).refundSuper m.inst 16).countPages i 1 (-1))
      | .demote =>
        ((((s.setPage i m.page { p with tier := .super, frame := some m.dst, moving := false }).releaseFrame
          m.src p.poison).refundBrood m.inst 16).countPages i (-1) 1)
      | .copy =>
        (s.setPage i m.page { p with tier := .brood, frame := some m.dst, moving := false, shared := false,
                                     shareId := 0 }).dropShared p.shareId
    let s := if ok then s else s.poisonPage i m.page false
    s.moveEnded i m.page

/-- The front move of a die's mover completes, not before its bytes can have moved (R192); ok: its source read returned no
poison. A fenced port's reads do, and its
writes are dropped (R372). -/
def moveDoneEffect (d : Nat) (ok : Bool) (s : State) : State :=
  match s.mover d with
  | m :: rest =>
    if m.started ∧ m.due ≤ s.cc ∧ m.dueNs ≤ s.ns then
      let ok := ok && !s.poolFenced m.src.pool && !s.poolFenced m.dst.pool
      let s := s.setMover d rest
      let s := { s with pager := { s.pager with moveCnt := s.pager.moveCnt + 1 } }
      let s := match m.owner with
        | .stream i gen => s.landMove m i gen ok
        | .pfx _ => s.giveFrame m.src
        | .settled i gen =>
          if !ok && (s.entry i).gen.toNat == gen && ((s.mem i).page m.page).frame == some m.dst then s.poisonPage i m.page false
          else s
      (s.startMove d).pagerSync
    else s
  | [] => s

def execPageMoveDone (die : Nat) (ok : Bool) (s : State) : Host.Outcome State Fault Refusal := act s (moveDoneEffect die ok)

/-! ## Demotion (R181) -/

/-- The parked stream whose turn it is on die d: the oldest parking that still holds a page to demote. -/
def State.demoteNext (s : State) (d : Nat) : Option Nat :=
  s.comp.parkOrder.find? fun i =>
    let e := s.entry i
    e.st == .parked && e.homeDie.toNat == d && (s.mem i).pages.any fun p => p.2.demotable

def demoteEffect (d i : Nat) (s : State) : State :=
  if s.demotes d = true ∧ s.demoteNext d = some i then
    let lps := ((s.mem i).pages.filter fun p => p.2.demotable).map fun p => p.1
    (lps.foldl (fun s lp => (s.demote i lp).getD s) s).syncPressure
  else s

def execDemotePage (die index : Nat) (s : State) : Host.Outcome State Fault Refusal := act s (demoteEffect die index)

/-! ## The narrow path (R420) -/

/-- A narrow-path request answered, which frees its tag. A poisoned read has lost the first copy of its list block, and the
other serves; so has one that reads a fenced port (R372). A write has nothing further to see to. -/
def State.narrowDone (s : State) (q : NpReq) (ok : Bool) : State :=
  let s := ({ s with pager := { s.pager with np := dropWhere (fun x => x.tag == q.tag) s.pager.np } }).npPump q.die
  if q.write then s else
  let which := (accessAt q.page).1
  let b := (s.mem q.index).block which
  let fenced (f : Block → Frame) : Bool := b.any fun b => s.poolFenced (f b).pool
  let s := if fenced (fun b => b.first) && fenced (fun b => b.second) then
      s.loseBoth q.index ((b.map fun b => s.frameAddr b.second).getD 0)
    else if ok && !fenced (fun b => b.first) then s
    else s.repairList q.index which false
  let answer (n : Nominee) : Nominee :=
    if n.index = q.index ∧ n.walk.contains q.page = true ∧ n.answered.contains q.page = false then
      { n with answered := n.answered ++ [q.page] }
    else n
  ({ s with pager := { s.pager with nominees := s.pager.nominees.map answer } }).pagerSync

def narrowEffect (tag : Nat) (ok : Bool) (s : State) : State :=
  match s.pager.np.find? fun q => q.tag == tag with
  | some q => s.narrowDone q ok
  | none => s

def execNarrowPathResponse (tag : Nat) (ok : Bool) (s : State) : Host.Outcome State Fault Refusal :=
  act s (narrowEffect tag ok)

/-- 2 048 cc without an answer: a poisoned read. -/
def narrowTimeoutEffect (tag : Nat) (s : State) : State :=
  match s.pager.np.find? fun q => q.tag == tag with
  | some q => if q.sentCc + 2048 ≤ s.cc then s.narrowDone q false else s
  | none => s

def execNarrowPathTimeout (tag : Nat) (s : State) : Host.Outcome State Fault Refusal := act s (narrowTimeoutEffect tag)

/-! ## Regions (R189) -/

/-- A read of a region page returns poison: HELD while the page is copied back from the replica, LOST without one. -/
def regionPoisonEffect (k page : Nat) (s : State) : State :=
  match s.region k with
  | none => s
  | some x =>
    if x.pages ≤ page ∨ x.repairs.contains page = true then s
    else
      let s := s.pagFault Flt.regionPoison (x.base.toNat + page * 65536) 0 none St.dataPoisoned
      if x.st = .lost then s.modRegion k fun x => { x with bad := insertAsc page x.bad }
      else if x.replica = 0 then
        let f := regionFrame x page
        (s.report Flt.regionPoison false f.1 f.2).regionLost k page
      else
        (s.modRegion k fun x => { x with st := .held, repairs := insertAsc page x.repairs }).repairPage x page

def execRegionPoison (region page : Nat) (s : State) : Host.Outcome State Fault Refusal :=
  act s (regionPoisonEffect region page)

/-- The copy and the read-back of a region page end: ok, the replica read was clean; hard, the read-back failed. -/
def regionDoneEffect (k page : Nat) (ok hard : Bool) (s : State) : State :=
  match s.region k with
  | none => s
  | some x =>
    if x.repairs.contains page then
      let f := regionFrame x page
      let left := x.repairs.erase page
      let s := s.modRegion k fun x => { x with repairs := left }
      let s := s.report Flt.regionPoison hard f.1 f.2
      if !ok || hard then
        (if x.st = .lost then s.modRegion k fun x => { x with bad := insertAsc page x.bad } else s.regionLost k page)
      else if left.isEmpty && decide (x.st = .held) then s.modRegion k fun x => { x with st := .live }
      else s
    else s

def execRegionRepairDone (region page : Nat) (ok hard : Bool) (s : State) : Host.Outcome State Fault Refusal :=
  act s (regionDoneEffect region page ok hard)

/-! ## Poisoned frames (R190) -/

/-- A read of a prefix's log frame returns poison: one copy, or both. -/
def State.prefixLogPoison (s : State) (id j : Nat) (both hard : Bool) : State :=
  match Tbl.find s.pager.prefixes id with
  | none => s
  | some x => match both, Tbl.find x.log j with
    | _, none => s
    | true, some p => s.losePrefix id x (s.frameAddr p.primary)
    | false, some _ => s.repairPrefixLog id j hard

/-- A read of a held cap's frame returns poison (R266, R274): the cap is lost to its owner, and the frame is reported, so
that it returns to no pool (R191). -/
def State.heldPoison (s : State) (i j : Nat) (hard : Bool) : State :=
  match s.cap.held[i]? with
  | none => s
  | some x => match x.frames[j]? with
    | none => s
    | some f =>
      let s := ((s.loseHeld x).withhold f).report Flt.heldPoison hard .super f.number
      (s.setReg Reg.capFltInfo (Word.mk x.owner)).raise { id := Flt.heldPoison }

/-- A read of a stream's frame returns poison: 0 private context page, 1 shared page, 2 one copy and 3 both copies of
log frame `page`, 4 one copy and 5 both copies of list block `page` (0 root, 1 log list, 2 + j leaf list j). The same of a
prefix, by its id: 6 one copy and 7 both copies of log frame `page`. 8 is frame `page` of the i-th cap held for another
chip. -/
def framePoisonEffect (kind i page : Nat) (hard : Bool) (s : State) : State :=
  let m := s.mem i
  let e := s.entry i
  if kind = 8 then s.heldPoison i page hard
  else if 6 ≤ kind then (s.prefixLogPoison i page (decide (kind = 7)) hard).pagerSync
  else if !e.live then s
  else
    let s' := match kind with
      | 0 => if (m.page page).shared then s else s.poisonPage i page hard
      | 1 => if (m.page page).shared then s.poisonPage i page hard else s
      | 2 => s.repairLog i page hard
      | 3 => match Tbl.find m.log page with
        | some p => s.loseBoth i (s.frameAddr p.primary)
        | none => s
      | 4 => s.repairList i page hard
      | _ => match m.block page with
        | some b => s.loseBoth i (s.frameAddr b.first)
        | none => s
    s'.pagerSync

def execFramePoison (kind index page : Nat) (hard : Bool) (s : State) : Host.Outcome State Fault Refusal :=
  act s (framePoisonEffect kind index page hard)

/-- The frames of the first handle that the sweep owes, freed. -/
def frameSweepEffect (s : State) : State :=
  match s.pager.sweep with
  | [] => s
  | (i, gen) :: rest =>
    (({ s with pager := { s.pager with sweep := rest } }).sweepKey i gen).pagerSync

def execFrameTableSweep (s : State) : Host.Outcome State Fault Refusal := act s frameSweepEffect

/-! ## Models (R188, R189) -/

/-- One entry of MODEL_LOAD's list: BASE, REPLICA_ADDR, PAGES. -/
def modelEntry (ws : List Word) (k : Nat) : Nat × Nat × Nat :=
  ((dwordAt ws (32 * k)).toNat, (dwordAt ws (32 * k + 8)).toNat, (wordAt ws (8 * k + 6)).field 22 0)

/-- Regions of a model made, one already there over the same frames being shared. -/
def State.addRegion (s : State) (m : Nat) (e : Nat × Nat × Nat) (replica : Bool) : State × Nat :=
  match s.pager.regions.find? fun r => r.2.base.toNat == e.1 && r.2.pages == e.2.2 &&
      (match r.2.use with
       | .models _ => true
       | _ => false) with
  | some r =>
    let add (x : Region) : Region := match x.use with
      | .models ms => { x with use := .models (insertAsc m ms) }
      | _ => x
    (s.modRegion r.1 add, r.1)
  | none =>
    let k := Tbl.freshFrom s.pager.regions 0
    let x : Region := { use := .models [m], base := BitVec.ofNat 64 e.1, pages := e.2.2,
                        replica := if replica then BitVec.ofNat 64 e.2.1 else 0 }
    ({ s with pager := { s.pager with regions := Tbl.insert s.pager.regions k x } }, k)

def modelLoadBody (list : Reply) (c : Cmd) (s : State) : Answer :=
  let m := c.field 0x08 15 0
  let rep := c.bit 0x08 16
  let n := c.field 0x0C 8 0
  if m = 0xFFFF then .refuse St.badLength 0x08
  else if n = 0 ∨ 256 < n then .refuse St.badLength 0x0C
  else match list with
    | .error => .refuse St.badAddress 0x10
    | .poison => .refuse St.dataPoisoned 0x10
    | .data ws =>
      let es := (List.range n).map (modelEntry ws)
      let bad (e : Nat × Nat × Nat) : Bool :=
        decide (e.2.2 = 0) || decide (e.1 % 65536 ≠ 0) || !Config.inWindows c.inst e.1 (e.2.2 * 65536) ||
          (rep && (decide (e.2.1 % 65536 ≠ 0) || !Config.inWindows c.inst e.2.1 (e.2.2 * 65536)))
      if es.any bad then .refuse St.badLength 0x10
      else match Tbl.find s.pager.models m with
        | some i => .refuse (if i = c.inst then St.badState else St.noResource) 0x08
        | none =>
          let r := es.foldl (fun (x : State × List Nat) e =>
            let y := x.1.addRegion m e rep
            (y.1, x.2 ++ [y.2])) (s, [])
          if 8192 < r.1.pager.regions.length then .refuse St.noResource noField
          else
            let t := { r.1 with pager := { r.1.pager with models := Tbl.insert r.1.pager.models m c.inst } }
            let go (_ : Nat) (u : State) : State := u.emit (u.dmaRead c.inst (dwordAt ws 16).toNat 65536)
            .long t 0x18 (.model m r.2) (Word.mk m) [] go

def execModelLoad (src : Src) (list : Reply) (s : State) : Host.Outcome State Fault Refusal :=
  act s (·.perform src 0x40 (modelLoadBody list))

def modelUnloadBody (c : Cmd) (s : State) : Answer :=
  let m := c.field 0x08 15 0
  if m = 0xFFFF then .refuse St.badLength 0x08
  else if Tbl.find s.pager.models m ≠ some c.inst then .refuse St.noResource 0x08
  else if s.modelLoading m then .refuse St.badState 0x08
  else .done (s.dropModel m) []

def execModelUnload (src : Src) (s : State) : Host.Outcome State Fault Refusal :=
  act s (·.perform src 0x41 modelUnloadBody)

/-- One page of a MODEL_LOAD read from host memory: it and its replica are written, and the load goes on (R312). -/
def State.modelPage (s : State) (k : Nat) (o : LongOp) (m : Nat) (regions : List Nat) (read : Reply) : State :=
  let sizes := regions.map fun r => ((s.region r).map fun x => x.pages).getD 0
  let total := sizes.foldl (fun n x => n + x) 0
  let done := o.progress.toNat
  match read with
  | .error => (s.opEnd k St.badAddress).dropModel m
  | .poison => (s.opEnd k St.dataPoisoned).dropModel m
  | .data ws =>
    let walk (x : Option (Nat × Nat) × Nat) (e : Nat × Nat) : Option (Nat × Nat) × Nat :=
      match x.1 with
      | some _ => x
      | none => if x.2 < e.2 then (some (e.1, x.2), x.2) else (none, x.2 - e.2)
    let place := ((regions.zip sizes).foldl walk (none, done)).1
    let s := match place.bind fun q => (s.region q.1).map fun x => (q.2, x) with
      | some (page, x) => s.writeRegion x (page * 65536) ws
      | none => s
    let n := done + 1
    let full := (sizes.foldl (fun (x : Nat × Nat) z => if x.1 + z ≤ n then (x.1 + z, x.2 + 1) else (n + 1, x.2)) (0, 0)).2
    let s := s.opProgress k (BitVec.ofNat 64 n) (BitVec.ofNat 64 full)
    if total ≤ n then s.opEnd k St.ok else s

end Sys2Proof.Machine
end

