-- ==== Sys2Proof/Machine/Rings.lean ====
section
/-!
DEFINITION. The commands and events of the rings (spec/12, spec/13 R306): NOP, the ring and token-ring commands,
doorbells and pushes, the Forager's events.
-/

namespace Sys2Proof.Machine

/-! ## Ring commands (R277, R287, R293) -/

def nopBody (_ : Cmd) (s : State) : Answer := .done s []

def execNop (src : Src) (s : State) : Host.Outcome State Fault Refusal := act s (·.perform src 0x00 nopBody)

def ringCreateBody (c : Cmd) (s : State) : Answer :=
  let r := c.field 0x08 15 0
  let sz := c.field 0x0C 4 0
  if sz < 6 ∨ 16 < sz then .refuse St.badLength 0x0C
  else if (c.dword 0x10).toNat % 4096 ≠ 0 then .refuse St.badLength 0x10
  else if (c.dword 0x18).toNat % 8 ≠ 0 then .refuse St.badLength 0x18
  else if r < 64 ∨ (s.ring r).st ≠ .free then .refuse St.noResource 0x08
  else if s.ringQuota c.inst ≤ s.ringsUsed c.inst then .refuse St.noResource noField
  else
    let at_ := c.word 0x20
    .done (s.setRing r { st := .disabled, inst := c.inst, base := c.dword 0x10, sizeLog2 := sz,
                         headAddr := c.dword 0x18, spec := c.bit 0x0C 8, weight := c.field 0x0C 19 16 + 1,
                         head := at_, tail := at_, fetched := at_ }) []

def execRingCreate (src : Src) (s : State) : Host.Outcome State Fault Refusal :=
  act s (·.perform src 0x01 ringCreateBody)

/-- The ring that a command names is the issuer's (R302). -/
def State.ownsRing (s : State) (c : Cmd) : Bool :=
  let x := s.ring (c.field 0x08 15 0)
  decide (x.st ≠ .free) && x.inst == c.inst

def ringEnableBody (c : Cmd) (s : State) : Answer :=
  let r := c.field 0x08 15 0
  if !s.ownsRing c then .refuse St.noResource 0x08
  else if !(s.ring r).canEnable then .refuse St.badState 0x08
  else .done (s.enableRing r) []

def execRingEnable (src : Src) (s : State) : Host.Outcome State Fault Refusal :=
  act s (·.perform src 0x02 ringEnableBody)

/-- RING_DISABLE of the ring that holds the command itself never squashes it (R287). -/
def ringDisableBody (c : Cmd) (s : State) : Answer :=
  let r := c.field 0x08 15 0
  if !s.ownsRing c then .refuse St.noResource 0x08
  else if (s.ring r).st ≠ .enabled then .refuse St.badState 0x08
  else .done (s.drainRing r (c.bit 0x08 16 && decide (c.src ≠ .ring r)) false) []

def execRingDisable (src : Src) (s : State) : Host.Outcome State Fault Refusal :=
  act s (·.perform src 0x03 ringDisableBody)

def ringDestroyBody (c : Cmd) (s : State) : Answer :=
  let r := c.field 0x08 15 0
  if !s.ownsRing c then .refuse St.noResource 0x08
  else if r < 64 ∨ (s.ring r).canEnable = false then .refuse St.badState 0x08
  else .done (s.eraseRing r) []

def execRingDestroy (src : Src) (s : State) : Host.Outcome State Fault Refusal :=
  act s (·.perform src 0x04 ringDestroyBody)

def tokenRingCreateBody (c : Cmd) (s : State) : Answer :=
  let t := c.field 0x08 15 0
  let sz := c.field 0x0C 4 0
  if sz < 6 ∨ 20 < sz then .refuse St.badLength 0x0C
  else if (c.dword 0x10).toNat % 4096 ≠ 0 then .refuse St.badLength 0x10
  else if (Tbl.find s.forager.tokens t).isSome then .refuse St.noResource 0x08
  else if s.tringQuota c.inst ≤ s.tringsUsed c.inst then .refuse St.noResource noField
  else
    let x : TokenRing := { inst := c.inst, base := c.dword 0x10, sizeLog2 := sz, head := c.word 0x18,
                           tail := c.word 0x18 }
    .done { s with forager := { s.forager with tokens := Tbl.insert s.forager.tokens t x } } []

def execTokenRingCreate (src : Src) (s : State) : Host.Outcome State Fault Refusal :=
  act s (·.perform src 0x05 tokenRingCreateBody)

def tokenRingDestroyBody (c : Cmd) (s : State) : Answer :=
  let t := c.field 0x08 15 0
  match Tbl.find s.forager.tokens t with
  | none => .refuse St.noResource 0x08
  | some x =>
    if x.inst ≠ c.inst then .refuse St.noResource 0x08
    else if s.comb.entries.any fun e => e.2.live && e.2.p.tokenRing.toNat == t then .refuse St.badState 0x08
    else .done { s with forager := { s.forager with tokens := Tbl.erase s.forager.tokens t } } []

def execTokenRingDestroy (src : Src) (s : State) : Host.Outcome State Fault Refusal :=
  act s (·.perform src 0x06 tokenRingDestroyBody)

/-! ## Doorbells and pushes (R290–R293) -/

/-- A write that names another instance's ring (R290). -/
def State.foreignWrite (s : State) (fn ring : Nat) : State :=
  (s.satReg Reg.forForeignCnt).forFault Flt.foreign fn ring 0

def doorbellEffect (fn r : Nat) (t : Word) (s : State) : State :=
  let x := s.ring r
  if r ≥ 65536 then s
  else if x.st ≠ .free ∧ x.inst ≠ fn then s.foreignWrite fn r
  else if x.st ≠ .enabled then s.satReg Reg.forDbIgnoredCnt
  else if (s.inst fn).seq.isSome then s
  else if unitsTo x.head t ≤ x.size ∧ (t - x.tail).toNat ≤ x.size then
    (s.publish r t).modRing r fun x => { x with probe := x.spec }
  else s.forFault Flt.badDoorbell fn r t

def execDoorbellWrite (fn ring : Nat) (value : Word) (s : State) : Host.Outcome State Fault Refusal :=
  barWrite s fn (doorbellEffect fn ring value)

def pushEffect (fn r : Nat) (ws : List Word) (s : State) : State :=
  let x := s.ring r
  let w := wordAt ws 0
  if r ≥ 65536 then s
  else if x.st ≠ .free ∧ x.inst ≠ fn then s.foreignWrite fn r
  else if (Tbl.find s.forager.pushes r).isSome ∨ x.st ≠ .enabled ∨ s.active x.inst = false ∨ s.orphan = true ∨
      64 < ws.length ∨ ws.length ≠ 16 * entryUnits w ∨ entryMark w ≠ 1 then s.pushDrop
  else ({ s with forager := { s.forager with pushes := Tbl.insert s.forager.pushes r ws } }).takePush r

def execPushWrite (fn ring : Nat) (words : List Word) (s : State) : Host.Outcome State Fault Refusal :=
  barWrite s fn (pushEffect fn ring words)

/-- The host frees token records (R293). -/
def tokenDoorbellEffect (fn t : Nat) (h : Word) (s : State) : State :=
  match Tbl.find s.forager.tokens t with
  | none => s.foreignWrite fn t
  | some x =>
    if x.inst ≠ fn then s.foreignWrite fn t
    else if (h - x.head).toNat ≤ (x.tail - x.head).toNat then
      { s with forager := { s.forager with tokens := Tbl.insert s.forager.tokens t { x with head := h } } }
    else s.forFault Flt.badTokenHead fn t h

def execTokenRingDoorbell (fn ring : Nat) (value : Word) (s : State) : Host.Outcome State Fault Refusal :=
  barWrite s fn (tokenDoorbellEffect fn ring value)

/-! ## Boot rings (R294) -/

def bootEnableEffect (fn : Nat) (s : State) : State :=
  let s := s.orReg (pageKey fn Reg.forBootCtrl) 1
  if (s.ring fn).canEnable then s.enableRing fn else s

def execBootRingEnable (fn : Nat) (s : State) : Host.Outcome State Fault Refusal := barWrite s fn (bootEnableEffect fn)

def bootDisableEffect (fn : Nat) (s : State) : State :=
  let s := s.andNotReg (pageKey fn Reg.forBootCtrl) 1
  if (s.ring fn).st = .enabled then s.drainRing fn false false else s

def execBootRingDisable (fn : Nat) (s : State) : Host.Outcome State Fault Refusal :=
  barWrite s fn (bootDisableEffect fn)

/-! ## Forager events (R281–R289, R303) -/

/-- The ring's outstanding read completes. What it brings is discarded where it is stale or the ring no longer fetches; the
units are then read again. -/
def fetchEffect (r : Nat) (read : Reply) (s : State) : State :=
  match Tbl.find s.forager.reads r with
  | none => s
  | some q =>
    let s := { s with forager := { s.forager with reads := Tbl.erase s.forager.reads r } }
    if q.stale ∨ (s.ring r).st ≠ .enabled then s
    else match read with
      | .data ws =>
        if s.fetches r then s.fetchDone r q ((splitUnits 8 ws).take q.units)
        else s.modRing r fun x => { x with probe := x.spec }
      | .error => s.failRing r Flt.fetchErr (s.ring r).fetched
      | .poison => s.failRing r Flt.fetchErr (s.ring r).fetched

def execFetchReadComplete (ring : Nat) (read : Reply) (s : State) : Host.Outcome State Fault Refusal :=
  act s (fetchEffect ring read)

def rereadEffect (r : Nat) (s : State) : State :=
  if s.due (s.ring r).rereadAt then (s.modRing r fun x => { x with rereadAt := none }) else s

def execFetchRereadTimer (ring : Nat) (s : State) : Host.Outcome State Fault Refusal := act s (rereadEffect ring)

/-- Polling goes on while the last entry is less than FOR_POLL_IDLE_US old (R283). -/
def pollEffect (r : Nat) (s : State) : State :=
  let x := s.ring r
  if s.due x.pollAt then
    s.setRing r { x with pollAt := none, probe := s.pollGoes x }
  else s

def execSpecPollTimer (ring : Nat) (s : State) : Host.Outcome State Fault Refusal := act s (pollEffect ring)

def execEntryStart (ring : Nat) (s : State) : Host.Outcome State Fault Refusal := act s (·.startEntry ring)

/-- The release of an entry with BARRIER = 1 (R303). -/
def barrierEffect (r : Nat) (s : State) : State :=
  match (s.ring r).queue with
  | e :: _ => if (wordAt e.words 0).bit 16 && s.barrierMet r then s.startEntry r else s
  | [] => s

def execBarrierRelease (ring : Nat) (s : State) : Host.Outcome State Fault Refusal := act s (barrierEffect ring)

def shadowEffect (r : Nat) (s : State) : State := if (s.ring r).shadowDue then s.writeShadow r else s

def execHeadShadowWrite (ring : Nat) (s : State) : Host.Outcome State Fault Refusal := act s (shadowEffect ring)

/-- A completion write returns an error (R289): the head does not pass the entry, whose 32 bytes are kept; of two such
entries, the first. The write is that of the ring's last completion (log 17). -/
def complErrorEffect (r : Nat) (index : Word) (s : State) : State :=
  let x := s.ring r
  if x.lastDone ≠ [] ∧ wordAt x.lastDone 1 = index ∧ x.st ≠ .free then
    let s := s.setRing r { x with head := if x.stuck then x.head else index,
                                  compl := if x.stuck then x.compl else x.lastDone, lastDone := [], stuck := true }
    let s := if x.st = .enabled then s.drainRing r false true else s
    let s := s.modRing r fun x => { x with st := if x.st = .disabled then .error else x.st, failing := true }
    s.forFault Flt.complErr x.inst r index
  else s

def execCompletionWriteError (ring : Nat) (index : Word) (s : State) : Host.Outcome State Fault Refusal :=
  act s (complErrorEffect ring index)

def execRingDrainEnd (ring : Nat) (s : State) : Host.Outcome State Fault Refusal := act s (·.drainEnd ring)

/-! ## Status blocks (R311, R315) -/

/-- The update of a block falls due once CMD_SB_INTERVAL has passed; that of a final status at once. -/
def blockUpdateEffect (k : Nat) (s : State) : State :=
  match Tbl.find s.interp.ops k with
  | none => s
  | some o => if o.due && (o.ended || decide (o.shownAt + s.sbInterval ≤ s.ns)) then s.blockUpdate k else s

def execStatusBlockUpdate (op : Nat) (s : State) : Host.Outcome State Fault Refusal := act s (blockUpdateEffect op)

/-- No further writes go to the block; the operation goes on, and the error is its instance's, also where the write was
that of its final status (R315). -/
def blockErrorEffect (k : Nat) (s : State) : State :=
  match Tbl.find s.interp.ops k with
  | none => match Tbl.find s.interp.owners k with
    | some i => s.raise { id := Flt.sbErr, inst := some i }
    | none => s
  | some o =>
    let ops := if o.ended then Tbl.erase s.interp.ops k else Tbl.insert s.interp.ops k { o with failed := true }
    ({ s with interp := { s.interp with ops } }).raise { id := Flt.sbErr, inst := some o.inst }

def execStatusBlockWriteError (op : Nat) (s : State) : Host.Outcome State Fault Refusal := act s (blockErrorEffect op)

end Sys2Proof.Machine
end

