-- ==== Sys2Proof/Machine/Migration.lean ====
section
/-!
DEFINITION. INSTANCE_SAVE, INSTANCE_RESTORE and the quiescence of a frozen instance (spec/14 R328–R331). R330 names the
fields of an object record's body and not their places: a body here is the packet of the command that makes such an
object, with what the packet lacks after it (DESIGN CHOICE, log 38).
-/

namespace Sys2Proof.Machine

/-! ## Packets that make objects -/

/-- The state of a ring of a FROZEN instance: nothing of it is started, so one that drains has as good as stopped. -/
def Ring.savedState (x : Ring) : RingState := if x.st = .draining then (if x.failing then .error else .disabled) else x.st

def Ring.record (x : Ring) (r : Nat) : SavedRecord :=
  { kind := 0x11, id := r, index := 0,
    body := packet 0x01 1 ([(0x08, r), (0x0C, x.sizeLog2 + bitAt 8 x.spec + (x.weight - 1) * 2 ^ 16),
      (0x20, x.head.toNat)] ++ d64 0x10 x.base.toNat ++ d64 0x18 x.headAddr.toNat) ++
      [x.head, x.tail, Word.mk x.savedState.code] }

def TokenRing.record (x : TokenRing) (t : Nat) : SavedRecord :=
  { kind := 0x12, id := t, index := 0,
    body := packet 0x05 1 ([(0x08, t), (0x0C, x.sizeLog2), (0x18, x.head.toNat)] ++ d64 0x10 x.base.toNat) ++
      [x.head, x.tail] }

def SampleBinding.packet (b : SampleBinding) (p role : Nat) : List Word :=
  Machine.packet 0x44 1 ([(0x08, p + role * 2 ^ 8), (0x0C, b.vocab), (0x10, b.width + b.lfmt * 2 ^ 16),
    (0x14, b.rowsMax + b.penWindow * 2 ^ 16)] ++ d64 0x18 b.sumBase.toNat ++ d64 0x20 b.logitBase.toNat)

def RoleBinding.packet (b : RoleBinding) (m : MainParams) (p role : Nat) : List Word :=
  let n := b.variants.length
  let vs := ((List.range n).filterMap fun v => b.variants[v]?.map fun x =>
    d64 (0x40 + 16 * v) x.program.toNat ++ [(0x48 + 16 * v, x.seqs), (0x4C + 16 * v, x.toks)]).flatten
  Machine.packet 0x42 (1 + (n + 3) / 4) ([(0x08, p + role * 2 ^ 8 + (n - 1) * 2 ^ 16), (0x0C, b.model), (0x18, b.tFixedNs),
    (0x1C, b.tTokPs), (0x20, b.tCtxPs), (0x24, m.maxSeqs), (0x28, m.budget), (0x2C, m.chunkMax + m.seqRes * 2 ^ 16),
    (0x30, m.balance + m.dlFrac * 2 ^ 8 + m.prefixW * 2 ^ 16 + m.specDepth * 2 ^ 24), (0x34, m.tmaxUs),
    (0x38, m.commitWaitUs), (0x3C, m.idleMs)] ++ d64 0x10 b.mtBase.toNat ++ vs)

def BwrSet.packet (b : BwrSet) (p cls : Nat) : List Word :=
  if b.burst = 0 then [] else Machine.packet 0x2D 1 [(0x08, p + cls * 2 ^ 8), (0x0C, b.rate * 2 ^ 16 + b.burst)]

/-- A partition: PARTITION_CREATE in count form, then its geometry, bindings and regulators. -/
def State.partRecord (s : State) (p : Nat) (x : Partition) : SavedRecord :=
  let y := s.serve p
  let make := packet 0x28 1 [(0x08, p + 2 ^ 8 + bitAt 9 x.wide + qcDie (x.qcs.headD 0) * 2 ^ 12 + x.spares.length * 2 ^ 16 +
    x.inst * 2 ^ 24), (0x0C, x.qcs.length)]
  let geom := if y.geomP = 0 then [] else packet 0x2E 1 [(0x08, p), (0x0C, y.geomP + y.geomG * 2 ^ 16)]
  let roles := [Role.main, Role.draft, Role.fallback]
  let samples := (roles.filterMap fun r => (s.binding p r).map fun b => b.packet p r.code).flatten
  let serves := (roles.filterMap fun r => (y.role r).map fun b => b.packet y.mp p r.code).flatten
  { kind := 0x13, id := p, index := 0,
    body := make ++ geom ++ samples ++ serves ++ x.brood.packet p 0 ++ x.super.packet p 1 ++ x.link.packet p 2 }

/-- A context; the last word is 0, or 1 + the code of its role. -/
def Context.record (x : Context) (k : Nat) : SavedRecord :=
  let role := match x.role with
    | some r => r.code + 1
    | none => 0
  { kind := 0x14, id := k, index := 0,
    body := packet 0x2A 1 [(0x08, x.partition + x.prio * 2 ^ 16), (0x0C, x.sliceUs)] ++ [Word.mk role] }

/-- A stream: its Comb entry, then 8 B for each page (R330). -/
def State.streamRecord (s : State) (i : Nat) : SavedRecord :=
  let page (e : Nat × Page) : List Word :=
    [Word.mk (e.2.fill % 2 ^ 13 + e.1 * 2 ^ 16), Word.mk (e.1 / 2 ^ 16 % 2 ^ 16 + bitAt 29 e.2.shared + tierCode e.2.tier * 2 ^ 30)]
  { kind := 0x15, id := s.handle i, index := 0, body := s.entryWords i ++ ((s.mem i).pages.map page).flatten }

/-- The pages of a prefix by logical page; those of one freed and still referenced as a stream's entries name them (R187). -/
def State.savedPages (s : State) (x : Prefix) : Tbl Page :=
  if x.freed then
    s.pager.mem.foldl (fun t m => m.2.pages.foldl (fun t e =>
      if e.2.shared && x.shares.contains e.2.shareId then Tbl.insert t e.1 e.2 else t) t) []
  else x.pages

/-- Reference count of a prefix (R187, R330): its own reference until it is freed, and the streams that share its pages. -/
def State.prefixRefs (s : State) (x : Prefix) : Nat :=
  let shares := if x.freed then x.shares else x.pages.map fun e => e.2.shareId
  Tbl.count (fun _ m => m.pages.any fun p => p.2.shared && shares.contains p.2.shareId) s.pager.mem +
    (if x.freed then 0 else 1)

/-- A prefix: length, partition, token count, its tokens. -/
def State.prefixRecord (s : State) (id : Nat) (x : Prefix) : SavedRecord :=
  { kind := 0x16, id, index := s.prefixRefs x,
    body := [Word.mk x.len, Word.mk x.partition, Word.mk x.tokens.length] ++
      (List.range x.len).map fun n => Word.mk (Tbl.get (fun _ => 0) x.tokens n) }

def SlotPolicy.code : SlotPolicy → Nat
  | .preempt => 0
  | .slip => 1
  | .abort => 2

/-- The 8 words of a slot (R227). -/
def CycSlot.words (y : CycSlot) : List Word :=
  [Word.mk (bitAt 31 y.en + y.policy.code * 2 ^ 29 + y.context), Word.mk y.offset,
   Word.mk (y.guardUs * 2 ^ 16 + y.length / 2 ^ 32 * 4 + y.offset / 2 ^ 32), Word.mk y.length, y.program.lo, y.program.hi, 0, 0]

/-- A cyclic table: CYC_LOAD, then its slots. -/
def CycTable.record (t : CycTable) (k : Nat) : SavedRecord :=
  let x := t.image
  { kind := 0x17, id := k, index := 0,
    body := packet 0xA0 1 ([(0x08, k), (0x0C, x.slots.length), (0x18, x.phaseNs)] ++ d64 0x10 x.cycleNs) ++
      (x.slots.map CycSlot.words).flatten }

/-- Numbers of the models, tables and automata held: three counts, then the numbers. -/
def State.objectRecord (s : State) (i : Nat) : SavedRecord :=
  let ms := s.instModels i
  let ts := (s.sampler.tables.filter fun e => e.2.inst == i).map fun e => e.1
  let as := (s.sampler.automata.filter fun e => e.2.inst == i).map fun e => e.1
  { kind := 0x18, id := 0, index := 0, body := ([ms.length, ts.length, as.length] ++ ms ++ ts ++ as).map Word.mk }

/-- Every object record of an instance, makers before users. -/
def State.objectRecords (s : State) (i : Nat) : List SavedRecord :=
  let x := s.inst i
  [{ kind := 0x10, id := i, index := 0, body := x.q.packet i x.wairon }] ++
  (s.forager.rings.filter (fun e => decide (64 ≤ e.1) && decide (e.2.st ≠ .free) && e.2.inst == i)).map (fun e => e.2.record e.1) ++
  (s.forager.tokens.filter (fun e => e.2.inst == i)).map (fun e => e.2.record e.1) ++
  (s.sched.parts.filter (fun e => e.2.inst == i)).map (fun e => s.partRecord e.1 e.2) ++
  (s.instCtxs i).map (fun k => (s.ctx k).record k) ++
  (s.pager.prefixes.filter (fun e => e.2.inst == i)).map (fun e => s.prefixRecord e.1 e.2) ++
  (s.instStreams i).map s.streamRecord ++
  (s.cyc.filter (fun e => decide (e.2.st ≠ .empty) && e.2.inst == i)).map (fun e => e.2.record e.1) ++
  [s.objectRecord i]

/-! ## Page records (R329, R330) -/

/-- Bytes of a record (R330): 16 of header, the body's words, and the 64 KiB of a page record, which are not part of the body
here (log 38). -/
def recordBytes (x : SavedRecord) : Nat :=
  16 + 4 * x.body.length + (if x.kind = 1 ∨ x.kind = 3 then 65536 else 0)

/-- The record of one page of a stream or a prefix, and the frame that holds its 64 KiB; a page with neither frame nor POISON
is not present. -/
def State.pageRecord (s : State) (kind id lp : Nat) (p : Page) : Option (SavedRecord × Option Frame) :=
  let frame := if p.shared then (Tbl.find s.pager.shared p.shareId).map fun x => x.frame else p.frame
  if frame.isNone && !p.poison then none
  else some ({ kind, id, index := lp,
               body := [Word.mk (p.fill % 2 ^ 13), Word.mk (bitAt 31 p.poison + tierCode p.tier * 2 ^ 29)] }, frame)

/-- The record of one token-log frame. -/
def StreamMem.logRecord (m : StreamMem) (handle j : Nat) : SavedRecord :=
  { kind := 2, id := handle, index := j,
    body := (List.range 16384).map fun n => Word.mk (Tbl.get (fun _ => 0) m.tokens (16384 * j + n)) }

/-- A full pass: every page and log frame of the instance's streams, every page of its prefixes. -/
def State.fullKeys (s : State) (i : Nat) : List (Nat × Nat × Nat) :=
  ((s.instStreams i).flatMap fun k =>
    ((s.mem k).pages.filter fun e => !e.2.shared).map (fun e => (1, s.handle k, e.1)) ++
      (s.mem k).log.map fun e => (2, s.handle k, e.1)) ++
  (s.pager.prefixes.filter fun e => e.2.inst == i).flatMap fun e => (s.savedPages e.2).map fun p => (3, e.1, p.1)

/-- The pages of block k of geometry g that are present. -/
def blockPages (pages : Tbl Page) (g k : Nat) : List (Nat × Page) :=
  pages.filter fun e => decide (k * g ≤ e.1) && decide (e.1 < (k + 1) * g)

/-- What an incremental pass copies for one record of the dirty log. -/
def State.dirtyKeys (s : State) (x : Nat × Nat × Nat) : List (Nat × Nat × Nat) :=
  let (kind, index, id) := x
  let i := id % 2 ^ 18
  match kind with
  | 0 => if s.handle i = id then
      (blockPages (s.mem i).pages (s.geomG (s.entry i).p.partition.toNat) index).map fun e => (1, id, e.1)
    else []
  | 1 => [(2, id, index)]
  | 3 => match Tbl.find s.pager.prefixes id with
    | some y => (blockPages (s.savedPages y) (s.geomG y.partition) index).map fun e => (3, id, e.1)
    | none => []
  | _ => []

/-- The record that a key names as things stand, none where it has gone. -/
def State.keyRecord (s : State) (k : Nat × Nat × Nat) : Option (SavedRecord × Option Frame) :=
  let (kind, id, n) := k
  let i := id % 2 ^ 18
  match kind with
  | 1 => if s.handle i = id then (Tbl.find (s.mem i).pages n).bind fun p => s.pageRecord 1 id n p else none
  | 2 => if s.handle i = id ∧ (Tbl.find (s.mem i).log n).isSome = true then some ((s.mem i).logRecord id n, none) else none
  | 3 => (Tbl.find s.pager.prefixes id).bind fun x => (Tbl.find (s.savedPages x) n).bind fun p => s.pageRecord 3 id n p
  | _ => none

/-! ## INSTANCE_SAVE -/

/-- The 16 header words (R329). -/
def ImageHeader.words (h : ImageHeader) : List Word :=
  [0x4858494D, Word.mk (h.inst * 2 ^ 16 + 1), Word.mk h.passes, Word.mk (bitAt 1 h.fullLast + bitAt 0 h.final),
   Word.mk h.length, Word.mk (h.length / 2 ^ 32), Word.mk h.saveId, Word.mk (h.saveId / 2 ^ 32), Word.mk h.records,
   Word.mk (h.records / 2 ^ 32), Word.mk h.remap, 0, 0, 0, 0, 0]

/-- A failed pass: the next one is full (R330). -/
def State.saveFailed (s : State) (k i : Nat) (status : Byte) : State :=
  let s := (s.setInst i { s.inst i with fullNext := true }).opEnd k status
  (s.setReg Reg.hpuInstFltInfo (Word.mk (status.toNat * 2 ^ 24 + i))).raise { id := Flt.saveErr, status }

/-- The header that 16 words at DEST hold, where a pass that goes on from it may be incremental: MAGIC, the same INST, not
FINAL (R329). -/
def headerOf (i : Nat) (ws : List Word) : Option ImageHeader :=
  let d (k : Nat) : Nat := (wordAt ws k).toNat + (wordAt ws (k + 1)).toNat * 2 ^ 32
  if wordAt ws 0 = 0x4858494D ∧ (wordAt ws 1).field 21 16 = i ∧ (wordAt ws 3).bit 0 = false then
    some { inst := i, passes := (wordAt ws 2).toNat, fullLast := (wordAt ws 3).bit 1, final := false, length := d 4,
           saveId := d 6, records := d 8, remap := (wordAt ws 10).toNat }
  else none

/-- Save operation k enters a phase. -/
def State.savePhase (s : State) (k i : Nat) (dest : Dword) (phase : SavePhase) : State :=
  s.modOp k fun o => { o with body := .save i dest phase }

/-- A record appended at the end of the image; its 64 KiB, where it has them, have gone out before (R330). -/
def State.appendRecord (s : State) (dest : Nat) (p : SavePass) (r : SavedRecord) : State × SavePass :=
  let n := recordBytes r
  let w := [Word.mk (r.kind * 2 ^ 24), Word.mk (n - 16), Word.mk r.id, Word.mk r.index]
  let h := p.header
  (s.emit (.devWrite (s.imageHdr (dest + h.length)) (w ++ r.body)),
   { p with header := { h with length := h.length + n, records := h.records + 1 }, bytes := p.bytes + n, count := p.count + 1 })

/-- The object records appended, in FROZEN alone, then the header; the pass waits for its writes (R329). -/
def State.saveClose (s : State) (k owner i : Nat) (dest : Dword) (p : SavePass) : State :=
  let objects := if p.final then s.objectRecords i else []
  let more := objects.foldl (fun n r => n + recordBytes r) 0
  if Config.inWindows owner dest.toNat (p.header.length + more) = false then s.saveFailed k i St.badAddress
  else
    let (s, p) := objects.foldl (fun x r => x.1.appendRecord dest.toNat x.2 r) (s, p)
    let remap := (objects.filter fun r => [0x14, 0x15, 0x16].contains r.kind).length
    let h := { p.header with passes := p.header.passes + 1, fullLast := p.taken.isNone, final := p.final,
                             remap := if p.final then remap else p.header.remap }
    let s := s.emit (.devWrite (s.imageHdr dest.toNat) h.words)
    let s := match p.taken with
      | some (n, tail) => s.setDlog i { s.dlog i with head := tail, recs := (s.dlog i).recs.drop n }
      | none => s
    let s := s.setInst i { s.inst i with fullNext := false }
    (s.savePhase k i dest .closing).opProgress k (BitVec.ofNat 64 p.bytes) (BitVec.ofNat 64 p.count)

/-- The pass goes on with the keys left: a log frame is appended at once, a page is read first, its 64 KiB written where the
record will have them. -/
def State.saveGo (s : State) (k owner i : Nat) (dest : Dword) (p : SavePass) : List (Nat × Nat × Nat) → State
  | [] => s.saveClose k owner i dest { p with left := [] }
  | key :: t => match s.keyRecord key with
    | none => s.saveGo k owner i dest p t
    | some (r, frame) =>
      if Config.inWindows owner dest.toNat (p.header.length + recordBytes r) = false then s.saveFailed k i St.badAddress
      else match frame with
        | some f =>
          let out : Output := .frameOut (s.imageHdr (dest.toNat + p.header.length + 24)) f (s.keyid (s.frameAddr f))
          (s.emit out).savePhase k i dest (.copying { p with left := key :: t })
        | none =>
          let (s, p) := s.appendRecord dest.toNat p r
          s.saveGo k owner i dest p t

/-- The page that the pass was reading has come, or was poison: its record is appended, POISON set where it was (R330). -/
def State.savePage (s : State) (k owner i : Nat) (dest : Dword) (p : SavePass) (poison : Bool) : State :=
  match p.left with
  | [] => s
  | key :: t => match s.keyRecord key with
    | none => s.saveGo k owner i dest p t
    | some (r, _) =>
      let r := if poison then { r with body := [wordAt r.body 0, wordAt r.body 1 ||| Word.mk (2 ^ 31)] } else r
      let (s, p) := s.appendRecord dest.toNat p r
      (s.opProgress k (BitVec.ofNat 64 p.bytes) (BitVec.ofNat 64 p.count)).saveGo k owner i dest p t

/-- The header at DEST read: an incremental pass takes the dirty log as it stands; any other is full, writes a new header and
empties the log (R329). -/
def State.saveBegin (s : State) (k owner i : Nat) (dest : Dword) (ws : List Word) : State :=
  let d := s.dlog i
  let x := s.inst i
  let final := decide (x.st = .frozen)
  match (headerOf i ws).filter fun _ => !d.overflow && !x.fullNext with
  | some h =>
    s.saveGo k owner i dest { header := h, final, left := [], taken := some (d.recs.length, d.tail) }
      (d.recs.flatMap s.dirtyKeys)
  | none =>
    let h : ImageHeader := { inst := i, passes := 0, fullLast := true, final := false, length := 64, saveId := s.ns,
                             records := 0, remap := 0 }
    let s := s.emit (.devWrite (s.imageHdr dest.toNat) h.words)
    let s := s.setDlog i { d with overflow := false, head := d.tail, recs := [] }
    s.saveGo k owner i dest { header := h, final, left := [], taken := none } (s.fullKeys i)

/-- A pass begins: the header at DEST is read. -/
def State.saveRead (s : State) (k i : Nat) (dest : Dword) : State :=
  (s.emit (.devRead (s.imageHdr dest.toNat) 64)).savePhase k i dest .header

/-- A response of device memory to save operation k. A write that fails ends the pass (R330). -/
def State.saveAnswer (s : State) (k owner i : Nat) (dest : Dword) (phase : SavePhase) (read : Reply) : State :=
  match phase, read with
  | .waits, _ => s
  | .header, .data ws => s.saveBegin k owner i dest ws
  | .header, _ => s.saveBegin k owner i dest []
  | .copying p, .data _ => s.savePage k owner i dest p false
  | .copying p, .poison => s.savePage k owner i dest p true
  | .closing, .data _ => s.opEnd k St.ok
  | _, _ => s.saveFailed k i St.dataPoisoned

def instanceSaveBody (c : Cmd) (s : State) : Answer :=
  let i := c.field 0x08 5 0
  let dest := (c.dword 0x10).toNat
  let x := s.inst i
  let ready := match x.st with
    | .active | .freezing | .frozen => x.seq.isNone && (s.dlog i).en
    | .none | .resetting | .restoring => false
  if Config.inWindows c.inst dest 64 = false then .refuse St.badLength 0x10
  else if ready = false then .refuse St.badState 0x08
  else .long s 0x18 (.save i (c.dword 0x10) .waits) (Word.mk i) [] fun k s =>
    if x.st = .freezing then s else s.saveRead k i (c.dword 0x10)

def execInstanceSave (src : Src) (s : State) : Host.Outcome State Fault Refusal :=
  act s (·.perform src 0x25 instanceSaveBody)

/-- The instance is quiescent: FROZEN, and the passes that waited for it begin (R328, R329). -/
def quiescentEffect (i : Nat) (s : State) : State :=
  if (s.inst i).st ≠ .freezing ∨ s.instStill i = false then s
  else
    let s := s.setInst i { s.inst i with st := .frozen }
    s.interp.ops.foldl (fun s e => match e.2.body with
      | .save j dest .waits => if j = i ∧ e.2.ended = false then s.saveRead e.1 i dest else s
      | _ => s) s

def execInstanceQuiescent (inst : Nat) (s : State) : Host.Outcome State Fault Refusal := act s (quiescentEffect inst)

/-! ## INSTANCE_RESTORE (R331) -/

/-- A rebuild in progress: the code that ends it, the new values of contexts, streams and prefixes, the image's records with
their addresses, what of it is done. -/
structure Rebuild where
  s      : State
  fail   : Option Byte := none
  remap  : List (Nat × Nat × Nat) := []
  places : List (Nat × SavedRecord) := []
  bytes  : Nat := 0
  count  : Nat := 0

/-- The records of an image with their addresses, from the first one's. -/
def recordPlaces : Nat → List SavedRecord → List (Nat × SavedRecord)
  | _, [] => []
  | at_, x :: t => (at_, x) :: recordPlaces (at_ + recordBytes x) t

/-- The 64 KiB of a page, the last record of it, written from the image to the page's new frame (R331). -/
def Rebuild.fill (r : Rebuild) (kind id lp : Nat) (f : Frame) (s : State) : State :=
  match r.places.reverse.find? fun e => e.2.kind == kind && e.2.id == id && e.2.index == lp with
  | some (a, _) => s.emit (.frameIn (s.imageHdr (a + 24)) f (s.keyid (s.frameAddr f)))
  | none => s

/-- The new value of an old one. -/
def Rebuild.new (r : Rebuild) (kind old : Nat) : Option Nat :=
  (r.remap.find? fun e => e.1 == kind && e.2.1 == old).map fun e => e.2.2

def Rebuild.note (r : Rebuild) (kind old new : Nat) : Rebuild := { r with remap := r.remap ++ [(kind, old, new)] }

/-- A command's effect on the rebuilt instance; its refusal ends the restore. -/
def Rebuild.run (r : Rebuild) (i : Nat) (ws : List Word) (body : Cmd → State → Answer) : Rebuild × List Word :=
  if r.fail.isSome then (r, [])
  else match body { src := .ring i, inst := i, remote := none, index := 0, ws } r.s with
    | .done t rs => ({ r with s := t }, rs)
    | .ends t status rs => ({ r with s := t, fail := if status = St.ok then none else some status }, rs)
    | .refuse status _ => ({ r with fail := some status }, [])
    | .long _ _ _ _ _ _ | .later _ _ => ({ r with fail := some St.badDescriptor }, [])

/-- A body cut into its packets, by their unit counts. -/
def packetsOf : Nat → List Word → List (List Word)
  | 0, _ => []
  | _, [] => []
  | n + 1, w :: t =>
    let k := 16 * entryUnits w
    ((w :: t).take k) :: packetsOf n ((w :: t).drop k)

/-- The packets of a partition record; the instance that PARTITION_CREATE names is this device's. -/
def Rebuild.partition (r : Rebuild) (i : Nat) (x : SavedRecord) : Rebuild :=
  (packetsOf 16 x.body).foldl (fun (r : Rebuild) ws =>
    let mine := ws.set 2 (Word.mk ((wordAt ws 2).field 23 0 + i * 2 ^ 24))
    match (wordAt ws 0).field 31 24 with
    | 0x28 => (r.run i mine partitionCreateBody).1
    | 0x2E => (r.run i ws pageGeomBody).1
    | 0x44 => (r.run i ws sampleBindBody).1
    | 0x42 => (r.run i ws serveBindBody).1
    | 0x2D => (r.run i ws bwrSetBody).1
    | _ => { r with fail := some St.badDescriptor }) r

/-- A context: made SWAPPED, or the one that its role's binding has made. -/
def Rebuild.context (r : Rebuild) (i : Nat) (x : SavedRecord) : Rebuild :=
  let ws := x.body.take 16
  let p := (wordAt ws 2).field 6 0
  match (wordAt x.body 16).toNat with
  | 0 =>
    let (r, rs) := r.run i ws contextCreateBody
    if r.fail.isSome then r else r.note 0x14 x.id (wordAt rs 0).toNat
  | n + 1 => match (r.s.serve p).role (roleOf n) with
    | some b =>
      let set (y : Context) : Context := { y with prio := (wordAt ws 2).field 23 16, sliceUs := (wordAt ws 3).field 16 0 }
      ({ r with s := r.s.modCtx b.context set }).note 0x14 x.id b.context
    | none => { r with fail := some St.badDescriptor }

/-- Page records by owner and page: the last one counts. -/
def pageFlags (recs : List SavedRecord) (kind id lp : Nat) : Option (List Word) :=
  (recs.reverse.find? fun r => r.kind == kind && r.id == id && r.index == lp).map fun r => r.body

/-- The state that a code of R37 names. -/
def streamStateOf (n : Nat) : StreamState :=
  match n with
  | 1 => .admitted
  | 2 => .ready
  | 3 => .active
  | 4 => .parked
  | 5 => .dormant
  | 6 => .retired
  | _ => .free

/-- A Comb entry from its 64 words (R37); generation, owner, home die and addresses are this device's to set. -/
def entryOf (ws : List Word) : CombEntry :=
  let w (k : Nat) : Word := wordAt ws k
  let d (k : Nat) : Dword := Dword.ofWords (w k) (w (k + 1))
  { st := streamStateOf ((w 0).field 31 28), reason := BitVec.ofNat 8 ((w 0).field 7 0), poison := (w 1).bit 10,
    parkPending := (w 1).bit 9, retirePending := (w 1).bit 8, orphanPark := (w 1).bit 4,
    fails := BitVec.ofNat 4 ((w 1).field 3 0), promptLen := w 4, prefillPos := w 5, pos := w 6, genCount := w 7,
    autState := BitVec.ofNat 16 (w 10).toNat, admitTime := d 36, lastStepTime := d 38, lastStepSeq := w 40, steps := w 41,
    fallbacks := w 42, specProposed := w 43, specAccepted := w 44, resumes := w 45, openScratch0 := w 60,
    openScratch1 := w 61, openScratch2 := w 62, openScratch3 := w 63,
    p := packetParams { src := .ring 0, inst := 0, remote := none, index := 0, ws } 4 }

/-- Streams of the image that share pages of a prefix. -/
def sharersOf (recs : List SavedRecord) (id : Nat) : Nat :=
  (recs.filter fun r => r.kind == 0x15 && (entryOf (r.body.take 64)).p.prefixId == Word.mk id &&
    (List.range ((r.body.length - 64) / 2)).any fun n => (wordAt r.body (65 + 2 * n)).bit 29).length

/-- A prefix: its frames and log allocated anew, with its saved reference count, which the streams that share it bring back;
one without a reference of its own is freed (R187, R331). -/
def Rebuild.pfx (r : Rebuild) (i : Nat) (recs : List SavedRecord) (x : SavedRecord) : Rebuild :=
  let s := r.s
  let len := (wordAt x.body 0).toNat
  let p := (wordAt x.body 1).toNat
  let id := Tbl.freshFrom s.pager.prefixes 0
  let home := (s.chooseHome p 0xFFFFFFFF).getD 0
  let n := (recs.filter fun q => q.kind == 3 && q.id == x.id).foldl (fun l q => insertAsc q.index l) []
  let freed := decide (x.index ≤ sharersOf recs x.id)
  if (s.part p).any (fun q => q.inst == i) = false ∨ 16384 ≤ id ∨ s.prefixQuota i ≤ s.prefixUsed i then
    { r with fail := some St.noResource }
  else
    let toks := (List.range len).foldl (fun t k => Tbl.insert t k (wordAt x.body (3 + k)).toNat) ([] : Tbl Nat)
    let z : Prefix := { inst := i, partition := p, len, tokens := toks }
    let s := { s with pager := { s.pager with prefixes := Tbl.insert s.pager.prefixes id z } }
    let page (o : Option State) (lp : Nat) : Option State := o.bind fun s =>
      if s.broodRoom i 16 = false then none
      else (s.takePlaced broodPools home).map fun (f, t) =>
        let w := (pageFlags recs 3 x.id lp).getD []
        let k := Tbl.freshFrom t.pager.shared 0
        let q : Page := { tier := .brood, shared := true, poison := (wordAt w 1).bit 31, frame := some f, shareId := k,
                          fill := (wordAt w 0).field 12 0 }
        let add (u : Prefix) : Prefix := { u with pages := Tbl.insert u.pages lp q }
        let t := r.fill 3 x.id lp f (t.chargeBrood i 16)
        { t with pager := { t.pager with
          shared := Tbl.insert t.pager.shared k { frame := f, count := if freed then 0 else 1, poison := q.poison, pfx := id },
          prefixes := Tbl.adjust add t.pager.prefixes id } }
    let log (o : Option State) (j : Nat) : Option State := o.bind fun s =>
      if s.superRoom i 32 = false then none
      else (s.takePair superPools home).map fun (q, t) =>
        let add (u : Prefix) : Prefix := { u with log := Tbl.insert u.log j q }
        let t := t.chargeSuper i 32
        { t with pager := { t.pager with prefixes := Tbl.adjust add t.pager.prefixes id } }
    match (List.range ((len + 16383) / 16384)).foldl log (n.foldl page (some s)) with
    | some t => ({ r with s := t.writePrefixLog id }).note 0x16 x.id id
    | none => { r with fail := some St.noResource }

/-- One page of a stream placed: shared with its prefix, in brood, or in the super tier where R179 denies a frame. -/
def State.placePage (s : State) (i lp : Nat) (shared : Option Nat) (p : Page) : Option State :=
  match shared with
  | some id => match (Tbl.find s.pager.prefixes id).bind fun y => Tbl.find y.pages lp with
    | some q =>
      (s.needLeaf i lp).map fun s =>
        ((s.setPage i lp { q with shared := true }).addShared q.shareId).countPages i 1 0
    | none => none
  | none => (s.needLeaf i lp).bind fun s =>
    let home := (s.entry i).homeDie.toNat
    let inst := (s.mem i).inst
    let brood := if p.tier = .brood ∧ s.broodRoom inst 16 = true then s.takePlaced broodPools home else none
    match brood with
    | some (f, t) => some (((t.chargeBrood inst 16).setPage i lp { p with frame := some f }).countPages i 1 0)
    | none =>
      if s.superRoom inst 16 = false then none
      else (s.takePlaced superPools home).map fun (f, t) =>
        ((t.chargeSuper inst 16).setPage i lp { p with tier := .super, frame := some f }).countPages i 0 1

/-- The pages that a stream record names: logical page, whether shared, the page. -/
def pagesOf (recs : List SavedRecord) (id : Nat) : Nat → List Word → List (Nat × Bool × Page)
  | n + 1, a :: b :: t =>
    let lp := b.field 15 0 * 2 ^ 16 + a.field 31 16
    let bad := (pageFlags recs 1 id lp).any fun w => (wordAt w 1).bit 31
    let tier := match b.field 31 30 with
      | 1 => Tier.brood
      | 2 => Tier.super
      | _ => Tier.none
    (lp, b.bit 29, { tier, poison := bad, fill := a.field 12 0 }) :: pagesOf recs id n t
  | _, _ => []

/-- The tokens of a stream's log frames, later records replacing earlier ones. -/
def logTokens (recs : List SavedRecord) (id len : Nat) : Tbl Nat :=
  (recs.filter fun r => r.kind == 2 && r.id == id).foldl (fun t r =>
    (List.range 16384).foldl (fun t n =>
      if 16384 * r.index + n < len then Tbl.insert t (16384 * r.index + n) (wordAt r.body n).toNat else t) t) []

/-- A stream given a fresh entry with the saved fields and state, its lists, log and pages. A PREFIX_ID that is retired and
not shared any more is not kept (log 38). -/
def Rebuild.stream (r : Rebuild) (i : Nat) (recs : List SavedRecord) (x : SavedRecord) : Rebuild :=
  let s := r.s
  let bad (status : Byte) : Rebuild := { r with fail := some status }
  let e := entryOf (x.body.take 64)
  let p := e.p.partition.toNat
  let shares := (pagesOf recs x.id x.body.length (x.body.drop 64)).any fun q => q.2.1
  let pfx := match r.new 0x16 e.p.prefixId.toNat with
    | some id => if e.p.prefixId = 0xFFFFFFFF then some none else some (some id)
    | none => if shares then none else some none
  match pfx, s.combHead with
  | some pf, some idx =>
    if (s.part p).any (fun q => q.inst == i) = false ∨ s.combQuota i ≤ s.combUsed i ∨ e.st = .free ∨ e.st = .active then
      bad St.noResource
    else
      let home := (s.chooseHome p (Word.mk (pf.getD (2 ^ 32 - 1)))).getD e.homeDie.toNat
      let gen := (s.entry idx).gen
      let len := max e.promptLen.toNat e.pos.toNat
      match s.admitMem i gen.toNat home len with
      | none => bad St.noResource
      | some (m, s) =>
        let addr (o : Option Block) : Dword := match o with
          | some b => s.blockAddr b
          | none => 0
        let id : Word := match pf with
          | some k => Word.mk k
          | none => 0xFFFFFFFF
        let e := { e with gen, inst := BitVec.ofNat 6 i, homeDie := BitVec.ofNat 2 home, pageList := addr m.root,
                          tokenLog := addr m.logList, p := { e.p with prefixId := id } }
        let s := (s.combPop.setEntry idx e).setMem idx { m with fetching := false, tokens := logTokens recs x.id len }
        let s := ((s.madeBlock idx 0).madeBlock idx 1).writeLog idx
        let ps := pagesOf recs x.id x.body.length (x.body.drop 64)
        let put (o : Option State) (q : Nat × Bool × Page) : Option State :=
          o.bind fun s => s.placePage idx q.1 (if q.2.1 then some (pf.getD 16384) else none) q.2.2
        let load (s : State) (q : Nat × Bool × Page) : State :=
          match q.2.1, (Tbl.find (s.mem idx).pages q.1).bind fun y => y.frame with
          | false, some f => r.fill 1 x.id q.1 f s
          | _, _ => s
        match (ps.foldl put (some s)).map fun s => ps.foldl load s with
        | none => bad St.noResource
        | some s =>
          let s := match e.st with
            | .ready => s.joinReady idx
            | .parked => ((s.lastParked idx).joinParked idx).resumeChoice home
            | .admitted => { s with pager := { s.pager with waiting := s.pager.waiting ++ [idx] } }
            | .free | .active | .dormant | .retired | .unusable => s
          ({ r with s }).note 0x15 x.id (s.handle idx)
  | _, _ => bad St.noResource

/-- A cyclic table, its slots' contexts translated. -/
def Rebuild.table (r : Rebuild) (i : Nat) (x : SavedRecord) : Rebuild :=
  let ws := x.body.take 16
  let slots := x.body.drop 16
  let fix (n : Nat) (w : Word) : Word :=
    if n % 8 = 0 then Word.mk ((w.toNat / 4096) * 4096 + (r.new 0x14 (w.field 11 0)).getD (w.field 11 0)) else w
  let slots := (List.range slots.length).map fun n => fix n (wordAt slots n)
  let load (c : Cmd) (s : State) : Answer := match cycSlots (c.field 0x0C 10 0) slots with
    | none => .refuse St.badDescriptor 0
    | some l =>
      let y : CycImage := { cycleNs := (c.dword 0x10).toNat, phaseNs := c.field 0x18 29 0, slots := l }
      if y.fits && s.slotsOwned i y then .done (s.cycStore (c.field 0x08 2 0) i y) [] else .refuse St.badDescriptor 0
  (r.run i ws load).1

/-- One object record rebuilt; page records are applied with what they belong to. -/
def Rebuild.object (r : Rebuild) (i : Nat) (recs : List SavedRecord) (x : SavedRecord) : Rebuild :=
  match x.kind with
    | 0x11 =>
      let (r, _) := r.run i (x.body.take 16) ringCreateBody
      let st : RingState := match (wordAt x.body 18).toNat with
        | 2 => .enabled
        | 4 => .error
        | _ => .disabled
      if r.fail.isSome then r
      else { r with s := r.s.modRing x.id fun y => { y with tail := wordAt x.body 17, st } }
    | 0x12 =>
      let (r, _) := r.run i (x.body.take 16) tokenRingCreateBody
      let set (y : TokenRing) : TokenRing := { y with head := wordAt x.body 16, tail := wordAt x.body 17 }
      if r.fail.isSome then r
      else { r with s := { r.s with forager := { r.s.forager with tokens := Tbl.adjust set r.s.forager.tokens x.id } } }
    | 0x13 => r.partition i x
    | 0x14 => r.context i x
    | 0x15 => r.stream i recs x
    | 0x16 => r.pfx i recs x
    | 0x17 => r.table i x
    | _ => r

/-- One record taken, and counted where it does not end the restore (R312). -/
def Rebuild.record (r : Rebuild) (i : Nat) (recs : List SavedRecord) (x : SavedRecord) : Rebuild :=
  if r.fail.isSome then r
  else
    let r := r.object i recs x
    if r.fail.isSome then r else { r with bytes := r.bytes + recordBytes x, count := r.count + 1 }

/-- Prefixes rebuilt without a reference of their own are retired (R187). -/
def State.retirePrefixes (s : State) (l : List (Nat × Nat × Nat)) (recs : List SavedRecord) : State :=
  l.foldl (fun s e => match e.1, Tbl.find s.pager.prefixes e.2.2 with
    | 0x16, some x =>
      if (recs.find? fun r => r.kind == 0x16 && r.id == e.2.1).any fun r => decide (r.index ≤ sharersOf recs r.id) then
        let gone : Prefix := { x with freed := true, pages := [], wanted := [], shares := x.pages.map fun e => e.2.shareId }
        { s with pager := { s.pager with prefixes := Tbl.insert s.pager.prefixes e.2.2 gone } }
      else s
    | _, _ => s) s

/-- Are the quotas of an instance at least those that a record names? -/
def Quotas.covers (a b : Quotas) : Bool :=
  decide (b.rings ≤ a.rings) && decide (b.trings ≤ a.trings) && decide (b.comb ≤ a.comb) &&
  decide (b.contexts ≤ a.contexts) && decide (b.brood ≤ a.brood) && decide (b.super ≤ a.super) &&
  decide (b.bwBrood ≤ a.bwBrood) && decide (b.bwSuper ≤ a.bwSuper) && decide (b.bwLink ≤ a.bwLink) &&
  decide (b.prefixes ≤ a.prefixes) &&
  decide (((List.range 128).filter fun q => b.qc.getLsbD q).length ≤ ((List.range 128).filter fun q => a.qc.getLsbD q).length)

/-- Are the objects that record 0x18 names loaded in the instance? -/
def State.objectsHeld (s : State) (i : Nat) (ws : List Word) : Bool :=
  let n (k : Nat) : Nat := (wordAt ws k).toNat
  let part (a b : Nat) : List Nat := ((ws.drop (3 + a)).take b).map fun w => w.toNat
  (part 0 (n 0)).all (fun m => Tbl.find s.pager.models m == some i) &&
  (part (n 0) (n 1)).all (fun t => (Tbl.find s.sampler.tables t).any fun x => x.inst == i) &&
  (part (n 0 + n 1) (n 2)).all fun a => (Tbl.find s.sampler.automata a).any fun x => x.inst == i

/-- Is the number of a record's object free on this device? -/
def State.numberFree (s : State) (x : SavedRecord) : Bool :=
  match x.kind with
  | 0x11 => decide ((s.ring x.id).st = .free)
  | 0x12 => (Tbl.find s.forager.tokens x.id).isNone
  | 0x13 => (s.part x.id).isNone
  | 0x17 => decide ((s.table x.id).st = .empty)
  | _ => true

/-- The device addresses of a record. -/
def SavedRecord.addresses (x : SavedRecord) : List Nat :=
  let d (ws : List Word) (byte : Nat) : Nat := (dwordAt ws byte).toNat
  match x.kind with
  | 0x13 => ((packetsOf 16 x.body).map fun ws => match (wordAt ws 0).field 31 24 with
    | 0x44 => [d ws 0x18] ++ if d ws 0x20 = 0 then [] else [d ws 0x20]
    | 0x42 => d ws 0x10 :: (List.range ((wordAt ws 2).field 19 16 + 1)).map fun v => d ws (0x40 + 16 * v)
    | _ => []).flatten
  | 0x17 => (List.range ((wordAt x.body 3).field 10 0)).map fun n =>
      (wordAt x.body (16 + 8 * n + 5)).field 15 0 * 2 ^ 32 + (wordAt x.body (16 + 8 * n + 4)).toNat
  | _ => []

/-- The checks of R331, before anything is changed. -/
def State.restoreFail (s : State) (i : Nat) (h : List Word) (recs : List SavedRecord) : Option Byte :=
  let find (k : Nat) : List Word := ((recs.reverse.find? fun r => r.kind == k).map fun r => r.body).getD []
  let asked : Cmd := { src := .ring i, inst := i, remote := none, index := 0, ws := find 0x10 }
  if wordAt h 0 ≠ 0x4858494D ∨ (wordAt h 1).field 15 0 ≠ 1 ∨ (wordAt h 3).bit 0 = false then some St.badDescriptor
  else if (s.inst i).q.covers asked.quotas = false ∨ s.objectsHeld i (find 0x18) = false ∨ recs.all s.numberFree = false then
    some St.noResource
  else if ((recs.map SavedRecord.addresses).flatten.all fun a => Config.inWindows i a 1) = false then some St.badAddress
  else none

/-- The remap table after the image: KIND, old value, new value. -/
def State.writeRemap (s : State) (src : Nat) (h : List Word) (l : List (Nat × Nat × Nat)) : State :=
  let len := (wordAt h 5).toNat * 2 ^ 32 + (wordAt h 4).toNat
  s.emit (.devWrite (s.imageHdr (src + (len + 63) / 64 * 64))
    ((l.map fun e => [Word.mk e.1, Word.mk e.2.1, Word.mk e.2.2, 0]).flatten))

/-- A restore that fails: the sequence of a reset with SQUASH, and the failing code at its end (R323, R332), with the bytes
and records moved so far. -/
def State.restoreEnds (s : State) (k i : Nat) (status : Byte) (bytes count : Nat) : State :=
  let s := if count = 0 then s else s.opProgress k (BitVec.ofNat 64 bytes) (BitVec.ofNat 64 count)
  let s := (s.setReg Reg.hpuInstFltInfo (Word.mk (status.toNat * 2 ^ 24 + i))).raise { id := Flt.restoreErr, status }
  s.beginReset i .resetting true (some k) status

/-- The restore of operation k into instance i. -/
def State.restore (s : State) (k i src : Nat) (image : SavedImage) : State :=
  let s := s.setInst i { s.inst i with st := .restoring }
  match image with
  | .error => s.restoreEnds k i St.badAddress 0 0
  | .poison => s.restoreEnds k i St.dataPoisoned 0 0
  | .data h recs => match s.restoreFail i h recs with
    | some status => s.restoreEnds k i status 0 0
    | none =>
      let places := recordPlaces (src + 64) recs
      let r := recs.foldl (fun (r : Rebuild) x => r.record i recs x) { s, places }
      match r.fail with
      | some status => r.s.restoreEnds k i status r.bytes r.count
      | none =>
        let s := ((r.s.retirePrefixes r.remap recs).writeRemap src h r.remap).setInst i { r.s.inst i with st := .frozen }
        let len := (wordAt h 5).toNat * 2 ^ 32 + (wordAt h 4).toNat
        ((s.opProgress k (BitVec.ofNat 64 len) (BitVec.ofNat 64 recs.length)).opEnd k St.ok).pagerSync

def instanceRestoreBody (image : SavedImage) (c : Cmd) (s : State) : Answer :=
  let i := c.field 0x08 5 0
  let src := (c.dword 0x10).toNat
  if i = 0 then .refuse St.badLength 0x08
  else if Config.inWindows c.inst src 64 = false then .refuse St.badLength 0x10
  else if s.active i = false ∨ s.instEmpty i false = false then .refuse St.badState 0x08
  else .long s 0x18 (.restore i (c.dword 0x10)) (Word.mk i) [] fun k s => s.restore k i src image

def execInstanceRestore (src : Src) (image : SavedImage) (s : State) : Host.Outcome State Fault Refusal :=
  act s (·.perform src 0x26 (instanceRestoreBody image))

end Sys2Proof.Machine
end

