-- ==== Sys2Proof/Machine/PowerOps.lean ====
section
/-!
DEFINITION. Device resets (spec/20 R432, R433), the fuse map (spec/19 R414, R415), freezes (R442, R444).
-/

namespace Sys2Proof.Machine

/-! ## Resets -/

/-- Levels that the block's inputs hold across a reset: external interrupt sources, the thermal inputs. -/
def State.inputs (s : State) (t : State) : State :=
  let levels := s.ic.srcs.filterMap fun e =>
    let x : IrqSrc := { level := true }
    if e.2.level && ((decide (65 ≤ e.1) && decide (e.1 ≤ 99)) || (decide (165 ≤ e.1) && decide (e.1 ≤ 280))) then
      some (e.1, x)
    else none
  let stackSet := s.power.stackSet.filterMap fun e =>
    let x : StackThm := { stkHot := e.2.stkHot, stkCrit := e.2.stkCrit }
    if e.2.stkHot || e.2.stkCrit then some (e.1, x) else none
  { t with ic := { t.ic with srcs := levels }, power := { t.power with stackSet } }

/-- Every flop and SRAM at its reset value. The queue of waiting commands, the outputs given and the model's own counts
are not the block's. -/
def State.cleared (s : State) : State :=
  s.inputs { State.reset with pending := s.pending, out := s.out, freeCtr := s.freeCtr, ticks := s.ticks }

/-- Is a register one of the TB_ window? -/
def tbReg (key : Nat) : Bool := decide (key / 0x10000 = Reg.tbCtrl / 0x10000)

/-- The thermal inputs taken as reset releases the logic: a level that is high has risen (R441). -/
def State.takeStacks (s : State) : State :=
  (List.range 12).foldl (fun s k =>
    let x := s.stack k
    let s := s.setStack k {}
    let s := if x.stkCrit then critRiseEffect k s else s
    if x.stkHot then hotRiseEffect k s else s) s

/-- The fuse map read, words 0–511 in ascending order (R415). -/
def State.readFuses (s : State) : State := s.emits ((List.range 512).map Output.fuseRead)

/-- A soft (2) or wake-fail (3) reset: the Timebase, its registers and PWR_RESET_CAUSE stay (R432). -/
def State.innerReset (s : State) (cause : Nat) : State :=
  let c := s.reg Reg.pwrResetCause
  let t := s.cleared
  let t := { t with tb := s.tb, regs := s.regs.filter fun e => tbReg e.1,
                    power := { t.power with phase := .released, freeze := s.power.freeze,
                                            heldReads := s.power.heldReads } }
  let t := t.setReg Reg.pwrResetCause (Word.mk ((c.field 31 24 + 1) % 256 * 2 ^ 24 + cause))
  (t.emit .keyZero).readFuses.takeStacks

/-! ## The fuse map (R414, R415) -/

/-- Does a map pass its check? -/
def fusesOk (ws : List Word) : Bool :=
  let w (n : Nat) : Word := wordAt ws n
  ws.length == 512 && w 0 == 0x46580001#32 && crc32 (ws.take 507) == w 507 && w 1 != 0 && (w 6).field 7 5 == 0 &&
    (List.range 128).all fun q => !(w (2 + q / 32)).bit (q % 32) || (w 1).bit (q / 4)

/-- Lifecycle code of a thermometer (R414). -/
def lifecycleOf (pattern : Nat) : Nat :=
  match pattern with
  | 0 => 0
  | 1 => 1
  | 3 => 2
  | 7 => 3
  | _ => 4

/-- Position of the highest 1 of the SVN thermometer, plus one. -/
def minOf (d : Nat) : Nat := (List.range 63).foldl (fun m i => if d.testBit i then i + 1 else m) 0

/-- What the guard core takes from a map. -/
def guardFuses (ws : List Word) : Guard :=
  let code := lifecycleOf ((wordAt ws 508).field 3 0)
  { lifecycle := code, min := minOf ((wordAt ws 510).toNat * 2 ^ 32 + (wordAt ws 509).toNat),
    fused := BitVec.ofNat 4 ((wordAt ws 6).field 11 8), revoked := BitVec.ofNat 4 ((wordAt ws 508).field 7 4),
    uid := Dword.ofWords (wordAt ws 7) (wordAt ws 8), udsBlocked := decide (3 ≤ code) }

/-! ## Freezes (R442, R444) -/

/-- Does the lifecycle hold a freeze to the next reset: PRODUCTION and SCRAPPED (R397, R444)? -/
def State.freezeLocked (s : State) : Bool := s.guard.lifecycle == 2 || decide (4 ≤ s.guard.lifecycle)

/-- A freeze taken: the shadows are captured at once, after the zeroisation that PRODUCTION makes and any that runs, and
never while the block sleeps. -/
def State.takeFreeze (s : State) (cause : FreezeCause) (low : Bool) : State :=
  let f : Freeze := { cause, captured := false, counter := 0, lowSeen := low, takenAt := s.ticks }
  let s := { s with power := { s.power with freeze := some f } }
  if s.power.st ≠ .run then s
  else
    let s := if s.guard.lifecycle = 2 ∧ s.guard.zero = none then s.zeroStart .freeze none else s
    if s.guard.zero = none then s.captureFreeze else s

/-- FREEZE_IN_N sampled low twice. -/
def State.freezePin (s : State) : State :=
  match s.power.freeze with
  | some f =>
    let cause := if f.takenAt = s.ticks then FreezeCause.pin else f.cause
    { s with power := { s.power with freeze := some { f with lowSeen := true, cause } } }
  | none => match s.power.phase with
    | .inReset | .heldOff => s
    | .released => { s with power := { s.power with freezeWaits := true } }
    | .up => s.takeFreeze .pin true

end Sys2Proof.Machine
end

