-- ==== Sys2Proof/Machine/Power.lean ====
section
/-!
DEFINITION. Resets and bring-up, sleep, freeze, waggle points, the TAP (spec/19 R411–R415, R427, R428; spec/20; spec/15
R351).
-/

namespace Sys2Proof.Machine

/-! ## Reset and bring-up (R412, R415, R432–R434) -/

/-- RESET_N falls. -/
def execPowerOnReset (s : State) : Host.Outcome State Fault Refusal := .next s.cleared

/-- RESET_N rises: the fuse map is read and the SRAMs initialise. A device reset asserts KS_ZERO (R432). -/
def resetReleaseEffect (s : State) : State :=
  if s.power.phase ≠ .inReset then s
  else (State.emit { s with power := { s.power with phase := .released } } .keyZero).readFuses.takeStacks

def execResetRelease (s : State) : Host.Outcome State Fault Refusal := .next (resetReleaseEffect s)

/-- A read of the fuse map ends: it passes, and the ROMs start; it is repeated once; a second failure holds the device in
reset (R13). -/
def fuseReadEffect (ws : List Word) (error : Bool) (s : State) : State :=
  if s.power.phase ≠ .released then s
  else if error || !fusesOk ws then
    if s.power.attempts = 0 then State.readFuses { s with power := { s.power with attempts := 1 } }
    else { s with power := { s.power with phase := .heldOff, attempts := 2, freezeWaits := false } }
  else
    let waits := s.power.freezeWaits
    let s := { s with power := { s.power with phase := .up, fuses := { words := ws }, freezeWaits := false },
                      guard := guardFuses ws }
    if waits then s.takeFreeze .pin true else s

def execFuseMapReadDone (words : List Word) (error : Bool) (s : State) : Host.Outcome State Fault Refusal :=
  act s (fuseReadEffect words error)

/-- Every queued command withdrawn from the cores (R421, R433). -/
def State.withdrawAll (s : State) : State :=
  let empty (k : Nat × CoreState) : Nat × CoreState :=
    (k.1, { k.2 with queues := [], waitFrom := [], waitDue := [], gateFrom := [], gateDue := [] })
  let agents := s.agents.map fun e => (e.1, { e.2 with cores := e.2.cores.map empty })
  { s with agents }

/-- A write of the KEY and SOFT to PWR_RESET (R433): the PWR_ window is served in every power state, not in a freeze. -/
def softResetEffect (fn : Nat) (w : Word) (s : State) : State :=
  if fn ≠ 0 ∨ w.field 31 16 ≠ 0x5A3D ∨ w.bit 0 = false ∨ s.power.freeze ≠ none ∨ s.power.phase ≠ .up ∨
      s.power.softDue ≠ none then s
  else
    let s := { s with power := { s.power with softDue := some (s.ns + 1000000) },
                      hum := { s.hum with level := false, toggling := false } }
    s.withdrawAll

def execSoftReset (fn : Nat) (value : Word) (s : State) : Host.Outcome State Fault Refusal := .next (softResetEffect fn value s)

/-- Does a core execute a command? -/
def State.anyRunning (s : State) : Bool :=
  s.agents.any fun a => a.2.cores.any fun c => c.2.running.any fun q => !q.2.isEmpty

/-- Started commands have completed, or 1 ms has passed: ABORT of all contexts to every link port, and the reset. -/
def softTakeEffect (s : State) : State :=
  if s.power.softDue.isNone ∨ s.power.freeze ≠ none ∨ (s.anyRunning = true ∧ s.due s.power.softDue = false) then s
  else
    let cs := s.sched.ctxs.map fun e => e.1
    let s := cs.foldl (fun s c => s.emit (.linkCmd 0x7F 1 (BitVec.ofNat 64 (c * 2 ^ 52)))) s
    s.innerReset 2

def execSoftResetTakeEffect (s : State) : Host.Outcome State Fault Refusal := .next (softTakeEffect s)

/-! ## Sleep (R436–R439) -/

/-- The first condition of R436 that fails, none where the block may sleep. -/
def State.sleepReason (s : State) : Option Nat :=
  let cyc := s.cyc.any fun e => match e.2.st with
    | .armed | .running | .stopping => true
    | .empty | .loaded => false
  if s.insts.any (fun e => decide (e.1 ≠ 0) && decide (e.2.st ≠ .none)) then some 1
  else if s.forager.rings.any (fun e => decide (e.2.inst = 0) && decide (e.2.st ≠ .free) && decide (e.2.st ≠ .disabled)) then
    some 2
  else if s.sched.ctxs.any (fun e => e.2.dispatched.isSome || !e.2.queued.isEmpty) then some 3
  else if cyc then some 4
  else if !s.cap.ctxs.isEmpty || !s.cap.held.isEmpty then some 5
  else if (s.reg Reg.swmCtrl).bit 0 then some 6
  else if s.fw.lease ≠ .inactive then some 7
  else if s.longUsed ≠ 0 then some 8
  else if s.fw.stageReq.isSome || s.fw.activate.isSome || s.fw.update.isSome || s.store.openReq.isSome then some 9
  else none

/-- SLEEP_REQ := 1. -/
def sleepRequestEffect (fn : Nat) (s : State) : State :=
  if fn ≠ 0 ∨ s.power.st ≠ .run ∨ s.barOpen = false then s
  else match s.sleepReason with
    | some r =>
      let s := { s with power := { s.power with refused := true, reason := r } }
      (s.andNotReg Reg.pwrCtrl 1).raise { id := Flt.sleepRefused }
    | none => ({ s with power := { s.power with st := .sleepEntry, refused := false, reason := 0,
                                                wakeSeen := false } }).orReg Reg.pwrCtrl 1

def execSleepRequest (fn : Nat) (s : State) : Host.Outcome State Fault Refusal := act s (sleepRequestEffect fn)

/-- SLEEP_REQ := 0, a wake event. -/
def sleepClearEffect (fn : Nat) (s : State) : State :=
  if fn ≠ 0 ∨ s.power.freeze ≠ none ∨ s.power.phase ≠ .up ∨ s.power.softDue ≠ none then s
  else (s.andNotReg Reg.pwrCtrl 1).wakeEvent

def execSleepRequestClear (fn : Nat) (s : State) : Host.Outcome State Fault Refusal := .next (sleepClearEffect fn s)

/-- Retention written and CCLK gated: SLEEPING, or WAKING where a wake event has come. -/
def sleepEntryEffect (s : State) : State :=
  if s.power.st ≠ .sleepEntry ∨ s.power.freeze ≠ none then s
  else
    let wake := s.power.wakeSeen
    let s := { s with power := { s.power with st := .sleeping } }
    if wake then s.wakeEvent else s

def execSleepEntryDone (s : State) : Host.Outcome State Fault Refusal := .next (sleepEntryEffect s)

/-- PWR_WAKE_AT in ns. -/
def State.wakeAt (s : State) : Nat := (Dword.ofWords (s.reg Reg.pwrWakeAtLo) (s.reg Reg.pwrWakeAtHi)).toNat

/-- The counter reaches PWR_WAKE_AT, where it is not 0. -/
def wakeTimeEffect (s : State) : State := if s.wakeAt ≠ 0 ∧ s.wakeAt ≤ s.ns then s.wakeEvent else s

def execWakeTimeReached (s : State) : Host.Outcome State Fault Refusal := .next (wakeTimeEffect s)

/-- The interrupt controller at its reset values after a parity failure (R388): the levels that its inputs drive stay, those
of IC_SWI fall with it, and the request lines fall with their messages (R377). -/
def State.icLost (s : State) : State :=
  let levels := s.ic.srcs.filterMap fun e =>
    let x : IrqSrc := { level := true }
    if e.2.level && decide (64 < e.1) then some (e.1, x) else none
  let s := { s with ic := { srcs := levels, lines := s.ic.lines },
                    regs := s.regs.filter fun e => decide (e.1 / 0x10000 ≠ Reg.icCtrl / 0x10000) }
  (s.raise { id := Flt.retErr }).icSync

/-- The retention check ends: clean, and every processor restarts, planned; the interrupt controller's own failure is
RET_ERR; any other is a wake-fail reset. -/
def wakeRestoreEffect (clean icClean : Bool) (s : State) : State :=
  if s.power.st ≠ .waking ∨ s.power.restored = true ∨ s.power.freeze ≠ none then s
  else if !clean then s.innerReset 3
  else
    let s := { s with power := { s.power with restored := true }, ic := { s.ic with timers := [] } }
    let s := if icClean then s.icSync else s.icLost
    let up := s.controlCores ++ [schedulerCore, powerCore, guardCore]
    (up.foldl (fun s p => s.plannedRestart p 4) s).wakeSettle

def execWakeRestoreDone (clean icClean : Bool) (s : State) : Host.Outcome State Fault Refusal :=
  .next (wakeRestoreEffect clean icClean s)

/-! ## Freeze and waggle points (R351, R442–R444) -/

def execFreezePin (s : State) : Host.Outcome State Fault Refusal := .next s.freezePin

/-- WAGGLE_SET: the two arms of a point. -/
def waggleSetBody (c : Cmd) (s : State) : Answer :=
  let bit : BitVec 256 := 1#256 <<< c.field 0x08 7 0
  let put (m : BitVec 256) (on : Bool) : BitVec 256 := if on then m ||| bit else m &&& ~~~bit
  .done { s with fw := { s.fw with trace := put s.fw.trace (c.bit 0x08 8), freeze := put s.fw.freeze (c.bit 0x08 9) } } []

def execWaggleSet (src : Src) (s : State) : Host.Outcome State Fault Refusal := act s (·.perform src 0xD0 waggleSetBody)

/-- Arguments of a trace record: PROGRAM_ID and LAUNCH_ID at a frame agent's point (R351), those of one of the launches
that the agents hold, a free choice (log 52). -/
def State.waggleArgs (s : State) (point : Nat) : List Word :=
  let held := s.agents.flatMap fun e => e.2.steps.flatMap fun t =>
    t.descs.map fun d => [t.programId, Word.mk (Desc.ofWords d.2).launchId]
  if 48 ≤ point ∧ point < 64 then held.getD (s.free 24 % max 1 held.length) [] else []

/-- An armed point passed: a trace record; a freeze, its arm cleared. -/
def wagglePassageEffect (point : Nat) (s : State) : State :=
  let trace := s.fw.trace.getLsbD point
  let freeze := s.fw.freeze.getLsbD point
  if !trace && !freeze then s
  else
    let s := { s with fw := { s.fw with hits := s.fw.hits + 1 } }
    let s := if trace then s.logEvent 0xFF point (s.waggleArgs point) else s
    if freeze then
      State.takeFreeze { s with fw := { s.fw with freeze := s.fw.freeze &&& ~~~(1#256 <<< point) } } (.waggle point) false
    else s

def execWagglePassage (point : Nat) (s : State) : Host.Outcome State Fault Refusal := act s (wagglePassageEffect point)

/-! ## TAP (R428, R443) -/

/-- The n low bits of a number, least significant first. -/
def lsbBits (n x : Nat) : List Bool := (List.range n).map fun i => x.testBit i

def State.tapIr (s : State) (ir : Nat) : State := { s with power := { s.power with ir } }

/-- IDCODE. -/
def idcodeWord : Nat := Config.revision * 2 ^ 28 + 0x5A3D * 2 ^ 12 + Config.tapMfr * 2 + 1

def execIdcode (s : State) : Host.Outcome State Fault Refusal :=
  .next ((s.tapIr 0x01).emit (.tap (lsbBits 32 idcodeWord)))

def execScanSel (chain : BitVec 16) (s : State) : Host.Outcome State Fault Refusal :=
  .next { s with power := { s.power with ir := 0x20, chain := chain.toNat } }

/-- Is a chain listed, and of a cluster that is present? -/
def State.chainThere (s : State) (c : Nat) : Bool :=
  decide (c ≤ 0x0D) || (decide (c / 0x100 = 1 ∨ c / 0x100 = 2) && s.clusterUp (c % 0x100))

/-- Chains that bear keys. -/
def chainKeys (c : Nat) : Bool := c == 0x08 || c == 0x0D

/-- The header of the selected chain's shadow, and of the freeze record the counter at capture; the rest of a chain, and
its length, are open. Zeros outside a captured freeze, and where the lifecycle forbids the scan. -/
def scanDumpEffect (s : State) : State :=
  let s := s.tapIr 0x21
  let c := s.power.chain
  match s.power.freeze with
  | some f =>
    if !f.captured || decide (4 ≤ s.guard.lifecycle) || !s.chainThere c then s.emit (.tap (lsbBits 32 0))
    else
      let header := s.free 41 % 2 ^ 24 * 2 ^ 8 + bitAt 1 (f.zeroed && chainKeys c) + bitAt 0 (chainKeys c)
      s.drew.emit (.tap (lsbBits 32 header ++ if c = 0 then lsbBits 96 f.counter.toNat else []))
  | none => s.emit (.tap (lsbBits 32 0))

def execScanDump (s : State) : Host.Outcome State Fault Refusal := .next (scanDumpEffect s)

/-- BYPASS: a bit shifted in leaves one TCK later, behind the 0 that the register captures. -/
def execBypass (bit : Bool) (s : State) : Host.Outcome State Fault Refusal :=
  .next ((s.tapIr 0xFF).emit (.tap [false, bit]))

end Sys2Proof.Machine
end

