-- ==== Sys2Proof/Machine/Swarm.lean ====
section
/-!
DEFINITION. The Swarm Port's commands, packets and periods (spec/10), and the link engines' events (spec/19 R424).
-/

namespace Sys2Proof.Machine

/-! ## The membership commands (R241, R242) -/

def swarmSelfSetBody (c : Cmd) (s : State) : Answer :=
  let i := c.field 0x08 12 0
  if s.guard.lifecycle = 3 then .refuse St.auth noField
  else if (s.reg Reg.swmCtrl).bit 0 || s.swarm.members.any fun e => e.1 != i && e.2.st != .empty then
    .refuse St.badState noField
  else .done { s with swarm := { s.swarm with self := some (i, c.dword 0x10, c.word 0x18) } } []

def execSwarmSelfSet (src : Src) (s : State) : Host.Outcome State Fault Refusal :=
  act s (·.perform src 0xC0 swarmSelfSetBody)

def swarmMemberSetBody (c : Cmd) (s : State) : Answer :=
  let i := c.field 0x08 12 0
  let x : SwarmMember :=
    { st := .joining, chipId := c.dword 0x10, domain := c.word 0x18, permit := BitVec.ofNat 3 (c.field 0x1C 30 28),
      inst := BitVec.ofNat 6 (c.field 0x1C 27 22), rate := BitVec.ofNat 8 (c.field 0x1C 15 8),
      burst := BitVec.ofNat 8 (c.field 0x1C 7 0), bucket := c.field 0x1C 7 0 * 1000000, bucketAt := s.ns }
  if s.selfIndex = some i then .refuse St.badLength 0x08
  else if x.chipId = 0 then .refuse St.badLength 0x10
  else if x.burst = 0 then .refuse St.badLength 0x1C
  else if x.rate = 0 then .refuse St.badLength 0x1D
  else match (s.member i).st with
    | .empty | .absent | .barred => .done (s.setMember i x) []
    | .joining | .up | .suspect => .refuse St.badState 0x08

def execSwarmMemberSet (src : Src) (s : State) : Host.Outcome State Fault Refusal :=
  act s (·.perform src 0xC1 swarmMemberSetBody)

/-- An entry emptied: its pending operations end, and its remote commands that have not started go with the INST that
would run them. -/
def State.memberClear (s : State) (m : Nat) : State :=
  let s := (s.memberBarred m).setMember m {}
  { s with swarm := { s.swarm with slots := s.swarm.slots.filter fun e => e.2.member != m || e.2.running } }

def swarmMemberClearBody (c : Cmd) (s : State) : Answer :=
  let i := c.field 0x08 12 0
  if (s.member i).st = .empty then .refuse St.badState 0x08 else .done (s.memberClear i) []

def execSwarmMemberClear (src : Src) (s : State) : Host.Outcome State Fault Refusal :=
  act s (·.perform src 0xC2 swarmMemberClearBody)

/-- Members that a map of 1 KiB names: bit i of byte i div 8 names member i. -/
def mapMembers (ws : List Word) : List Nat := (List.range 8192).filter fun i => (wordAt ws (i / 32)).getLsbD (i % 32)

def swarmGroupSetBody (map : Reply) (c : Cmd) (s : State) : Answer :=
  match map with
  | .error => .refuse St.badAddress 0x10
  | .poison => .refuse St.dataPoisoned 0x10
  | .data ws =>
    .done { s with swarm := { s.swarm with groups := Tbl.put (fun _ => []) s.swarm.groups (c.field 0x08 7 0) (mapMembers ws) } } []

def execSwarmGroupSet (src : Src) (map : Reply) (s : State) : Host.Outcome State Fault Refusal :=
  act s (·.perform src 0xC3 (swarmGroupSetBody map))

/-! ## SWM_CTRL (R246, R255) -/

def portEnableEffect (fn : Nat) (w : Word) (s : State) : State :=
  if fn ≠ 0 then s
  else if w.bit 0 = false then s.setReg Reg.swmCtrl 0
  else if s.tb.todSet = false ∨ (s.reg Reg.swmCtrl).bit 0 = true then s
  else
    let base := s.swarm.seqBase.getD (4 * s.ns)
    ({ s with swarm := { s.swarm with seqBase := some base, hbAt := s.ns + s.hbNs } }).setReg Reg.swmCtrl 1

def execSwarmPortEnable (fn : Nat) (value : Word) (s : State) : Host.Outcome State Fault Refusal :=
  barWrite s fn (portEnableEffect fn value)

/-! ## Membership packets (R242, R247) -/

/-- A HELLO or HELLO_ACK of a member in JOINING or ABSENT. -/
def State.greeted (s : State) (h : SwarmHdr) (chip : Dword) (ack : Bool) : State :=
  match (s.member h.src).st with
  | .joining | .absent =>
    if (s.member h.src).chipId ≠ chip then s.malformed h.port h.src
    else
      let s := s.memberUp h.src
      if ack then s.sendPkt h.src Pkt.helloAck s.helloPayload else s
  | .empty | .up | .suspect | .barred => s

def execSwarmHello (h : SwarmHdr) (chipId : Dword) (_ : Word) (s : State) : Host.Outcome State Fault Refusal :=
  act s fun s => s.receive h (fun n => n == 2) fun s => s.greeted h chipId true

def execSwarmHelloAck (h : SwarmHdr) (chipId : Dword) (_ : Word) (s : State) : Host.Outcome State Fault Refusal :=
  act s fun s => s.receive h (fun n => n == 2) fun s => s.greeted h chipId false

/-- A HEARTBEAT keeps the member present; it has no other effect. -/
def execSwarmHeartbeat (h : SwarmHdr) (s : State) : Host.Outcome State Fault Refusal :=
  act s fun s => s.receive h (fun n => n == 0) id

/-- A STATE_NOTICE is its header: the member's Timebase fields. -/
def execStateNotice (h : SwarmHdr) (s : State) : Host.Outcome State Fault Refusal :=
  act s fun s => s.receive h (fun n => n == 0) id

/-! ## Time transfer (R252, R425) -/

/-- LE_TS_DELAY in ns, at the nominal period of TB_REF. -/
def leDelayNs : Nat := Config.leTsDelay * Config.tbRefPeriod / 2 ^ 32

def nsWords (n : Nat) : List Word := [Word.mk n, Word.mk (n / 2 ^ 32)]

/-- A TIME_REQ that arrived at t2 by the link engine: answered with TIME_RESP, launched at T3. -/
def State.timeAnswer (s : State) (h : SwarmHdr) (t1 t2 : Dword) : State :=
  let t3 := s.ns + s.ttLaunchNs
  s.sendPktAt h.src Pkt.timeResp (t3 - leDelayNs) (dwordWords t1 ++ nsWords (t2.toNat + leDelayNs) ++ nsWords t3)

def execTimeReq (h : SwarmHdr) (t1 t2 : Dword) (s : State) : Host.Outcome State Fault Refusal :=
  act s fun s => s.receive h (fun n => n == 1) fun s => s.timeAnswer h t1 t2

/-- θ and δ of an exchange, stored, and what they set off. -/
def State.timeResult (s : State) (h : SwarmHdr) (t1 t2 t3 t4 : Int) : State :=
  let theta := ((t2 - t1) - (t4 - t3)).tdiv 2
  let delta := (t4 - t1) - (t3 - t2)
  let skew := decide (((s.reg Reg.swmTtLimitNs).toNat : Int) < (theta.natAbs : Int))
  let s := s.modMember h.src fun x =>
    { x with theta := BitVec.ofInt 32 theta, delta, skew }
  let s := if ((s.reg Reg.swmSlowRttNs).toNat : Int) < delta then s.suspect h.src else s
  if skew then (s.swmInfo 0 h.port h.src).raise { id := Flt.swmSkew } else s

/-- A TIME_RESP: it counts where it answers an exchange in progress, within the absence timeout. -/
def State.timeReply (s : State) (h : SwarmHdr) (t1 t2 t3 t4 : Dword) : State :=
  let open_ (t : Nat) : Bool := decide (s.ns ≤ t + s.absentNs)
  if (s.member h.src).exchanges.any (fun t => t == t1.toNat && open_ t) then
    (s.modMember h.src fun x => { x with exchanges := x.exchanges.erase t1.toNat }).timeResult h t1.toNat t2.toNat t3.toNat
      ((t4.toNat : Int) + leDelayNs)
  else s

def execTimeResp (h : SwarmHdr) (t1 t2 t3 t4 : Dword) (s : State) : Host.Outcome State Fault Refusal :=
  act s fun s => s.receive h (fun n => n == 3) fun s => s.timeReply h t1 t2 t3 t4

/-! ## Announcements, slips, abandonments (R236, R248, R250, R251) -/

/-- An entry of the announcement table; with 1 024 the oldest is dropped. -/
def State.keep (s : State) (k : Kept) : State :=
  let l := s.swarm.kept ++ [k]
  { s with swarm := { s.swarm with kept := l.drop (l.length - 1024) } }

def State.announced (s : State) (k : Kept) : State :=
  match s.swarmCtx k.swarmStep with
  | some c => s.keptApply c k
  | none => s.keep k

def execCollAnnounce (h : SwarmHdr) (step t0 : Dword) (windowNs : Word) (timed : Half) (s : State) :
    Host.Outcome State Fault Refusal :=
  act s fun s => s.receive h (fun n => n == 3) fun s =>
    s.announced { member := h.src, swarmStep := step, body := .announce t0.toNat windowNs.toNat timed.toNat }

/-- The slips that member m has announced for a step. -/
def State.slipsOf (s : State) (step : Dword) (m : Nat) : Option SlipRec :=
  s.swarm.slips.find? fun r => r.swarmStep == step && r.member == m

/-- A slip of a dispatched step, applied once for each serial. -/
def State.slipped (s : State) (m : Nat) (step : Dword) (n serial : Nat) : State :=
  if (s.swarmCtx step).isNone then s
  else
    let r := (s.slipsOf step m).getD { swarmStep := step, member := m, serials := [], sumNs := 0 }
    if r.serials.contains serial then s
    else
      let r := { r with serials := serial :: r.serials, sumNs := r.sumNs + n }
      let rest := dropWhere (fun (r : SlipRec) => r.swarmStep == step && r.member == m) s.swarm.slips
      { s with swarm := { s.swarm with slips := r :: rest } }

def execStepSlip (h : SwarmHdr) (step : Dword) (slipNs : Word) (serial : Half) (s : State) :
    Host.Outcome State Fault Refusal :=
  act s fun s => s.receive h (fun n => n == 2) fun s => s.slipped h.src step slipNs.toNat serial.toNat

/-- An abandonment, applied once for each member and step; kept for a step not dispatched yet, ignored for one that has
ended. -/
def State.abandonedBy (s : State) (m : Nat) (step : Dword) : State :=
  if s.swarm.overrun.contains step ∨ s.swarm.abandoned.contains (m, step) then s
  else
    let s := { s with swarm := { s.swarm with abandoned := (m, step) :: s.swarm.abandoned } }
    s.announced { member := m, swarmStep := step, body := .abandon }

def execCollAbandon (h : SwarmHdr) (step : Dword) (_ : Half) (_ : Byte) (_ : Nat) (s : State) :
    Host.Outcome State Fault Refusal :=
  act s fun s => s.receive h (fun n => n == 2) fun s => s.abandonedBy h.src step

/-! ## Remote commands (R248, R253) -/

/-- A TICKET of a member recorded, with its result once there is one; the last 64 are kept. -/
def State.newTicket (s : State) (m : Nat) (t : Ticket) : State :=
  s.modMember m fun x => { x with tickets := (t :: x.tickets).take 64 }

/-- A REMOTE_CMD answered without execution. -/
def State.remoteAnswer (s : State) (m : Nat) (ticket : Word) (status : Byte) : State :=
  (s.newTicket m { ticket }).answerRemote m ticket status []

/-- The class bit of an opcode in PERMIT (R241): none outside the three classes. -/
def permitBit (op : Nat) : Option Nat :=
  if 0x80 ≤ op ∧ op < 0xA0 then some 0
  else if 0xA0 ≤ op ∧ op < 0xC0 then some 1
  else if 0xC0 ≤ op ∧ op < 0xD0 then some 2
  else none

/-- An assembled command in slot k: answered at once where ORPHAN, PERMIT, the checks of R300 or its instance's state
refuse it, else it waits for the interpreter. -/
def State.remoteReady (s : State) (h : SwarmHdr) (k : Nat) (ticket : Word) (ws : List Word) : State :=
  let x := s.member h.src
  let c : Cmd := { src := .remote k, inst := x.inst.toNat, remote := some h.src, index := ticket, ws }
  let s := s.newTicket h.src { ticket }
  let free (s : State) : State := { s with swarm := { s.swarm with slots := Tbl.erase s.swarm.slots k } }
  if s.orphan then (free s).answerRemote h.src ticket St.orphaned []
  else if (permitBit c.opcode).any (fun b => x.permit.getLsbD b) = false then
    ((free s).answerRemote h.src ticket St.auth []).denied h.port h.src
  else match s.formFail c with
    | some (status, d) => s.finishCmd c status [] d
    | none =>
      if s.active c.inst = false then s.finishCmd c St.badState [] noField
      else
        let whole (y : RemoteSlot) : RemoteSlot := { y with entry := some ws, order := s.swarm.arrived }
        { s with swarm := { s.swarm with slots := Tbl.adjust whole s.swarm.slots k, arrived := s.swarm.arrived + 1 } }

/-- A fragment put into slot k; the last one completes the command. -/
def State.remoteFrag (s : State) (h : SwarmHdr) (k : Nat) (x : RemoteSlot) (frag : Nat) (ws : List Word) : State :=
  let x := { x with got := Tbl.insert x.got frag ws }
  let s := { s with swarm := { s.swarm with slots := Tbl.insert s.swarm.slots k x } }
  if x.got.length < x.frags then s
  else
    let all := x.got.foldl (fun l e => l ++ e.2) []
    let whole := x.got.all fun e => e.1 + 1 == x.frags || e.2.length == 54
    if whole = false ∨ all.length ≠ 16 * entryUnits (wordAt all 0) then
      State.remoteAnswer { s with swarm := { s.swarm with slots := Tbl.erase s.swarm.slots k } } h.src x.ticket St.badLength
    else s.remoteReady h k x.ticket all

/-- A fragment of a (member, TICKET) accepted. -/
def State.remoteTaken (s : State) (h : SwarmHdr) (ticket : Word) (frag frags : Nat) (ws : List Word) : State :=
  let m := h.src
  match (s.member m).tickets.find? fun t => t.ticket == ticket with
  | some t => match t.result with
    | some (status, rs) => s.sendPkt m Pkt.remoteResult ([ticket, Word.mk status.toNat] ++ rs)
    | none => s
  | none => match s.swarm.slots.find? fun e => e.2.member == m && e.2.ticket == ticket with
    | some (k, x) =>
      if x.frags ≠ frags then
        State.remoteAnswer { s with swarm := { s.swarm with slots := Tbl.erase s.swarm.slots k } } m ticket St.badLength
      else s.remoteFrag h k x frag ws
    | none =>
      let k := Tbl.freshFrom s.swarm.slots 0
      if 64 ≤ k then s.remoteAnswer m ticket St.busy
      else s.remoteFrag h k { member := m, ticket, frags, got := [], firstAt := s.ns } frag ws

/-- Is a REMOTE_CMD's LEN right for 8–216 B of a command, and its FRAG within FRAGS? -/
def remoteLen (frag frags : Nat) (ws : List Word) (n : Nat) : Bool :=
  decide (2 ≤ n) && decide (n ≤ 28) && decide (ws.length = 2 * (n - 1)) && decide (frag < frags) && decide (frags ≤ 8)

def execRemoteCmd (h : SwarmHdr) (ticket : Word) (frag frags : Nat) (words : List Word) (s : State) :
    Host.Outcome State Fault Refusal :=
  act s fun s => s.receive h (remoteLen frag frags words) fun s => s.remoteTaken h ticket frag frags words

/-- A REMOTE_RESULT ends the request that it answers. -/
def State.resultTaken (s : State) (m : Nat) (ticket : Word) : State :=
  let mine (q : Request) : Bool := q.member == m && q.type == Pkt.remoteCmd && q.ticket == ticket
  { s with swarm := { s.swarm with requests := dropWhere mine s.swarm.requests } }

def execRemoteResult (h : SwarmHdr) (ticket : Word) (_ : Byte) (_ : List Word) (s : State) :
    Host.Outcome State Fault Refusal :=
  act s fun s => s.receive h (fun n => n == 3) fun s => s.resultTaken h.src ticket

def remoteSlotTimeoutEffect (k : Nat) (s : State) : State :=
  match Tbl.find s.swarm.slots k with
  | some x =>
    if x.entry.isNone && decide (x.firstAt + 4 * s.retryNs ≤ s.ns) then
      { s with swarm := { s.swarm with slots := Tbl.erase s.swarm.slots k } }
    else s
  | none => s

def execRemoteSlotTimeout (slot : Nat) (s : State) : Host.Outcome State Fault Refusal :=
  act s (remoteSlotTimeoutEffect slot)

/-! ## Periods and timeouts (R242, R243, R248, R252) -/

/-- The end of a heartbeat period for member m; a disabled port sends nothing, and the period still counts (R242, R246). -/
def State.beat (s : State) (m : Nat) : State :=
  let x := s.member m
  let s := match x.st with
    | .up | .suspect => if x.sentNow then s else s.sendPkt m Pkt.heartbeat []
    | .joining | .absent => s.sendPkt m Pkt.hello s.helloPayload
    | .empty | .barred => s
  let good := x.heardNow && !x.missNow && decide (x.delta ≤ ((s.reg Reg.swmSlowRttNs).toNat : Int))
  let run := if x.st = .suspect ∧ good = true then x.goodRun + 1 else 0
  s.modMember m fun x =>
    { x with st := if run = 16 then .up else x.st, goodRun := if run = 16 then 0 else run,
             sentNow := false, heardNow := false, missNow := false }

def heartbeatEffect (s : State) : State :=
  if s.ns < s.swarm.hbAt then s
  else
    let s := (s.swarm.members.map fun e => e.1).foldl (fun s m => s.beat m) s
    let at_ := s.swarm.hbAt + s.hbNs
    { s with swarm := { s.swarm with hbAt := if at_ ≤ s.ns then s.ns + s.hbNs else at_ } }

def execHeartbeatPeriod (s : State) : Host.Outcome State Fault Refusal := act s heartbeatEffect

def absenceEffect (m : Nat) (s : State) : State :=
  let x := s.member m
  if x.present = true ∧ x.heardAt + s.absentNs ≤ s.ns then s.memberAbsent m else s

def execAbsenceTimeout (member : Nat) (s : State) : Host.Outcome State Fault Refusal := act s (absenceEffect member)

/-- One exchange started: TIME_REQ with its launch time T1; those without a reply within the absence timeout are dropped. -/
def timePeriodEffect (m : Nat) (s : State) : State :=
  let x := s.member m
  if s.canSend m = false ∨ x.present = false ∨ s.ns < x.ttAt then s
  else
    let t1 := s.ns + s.ttLaunchNs
    let next := s.ns / s.ttPeriodNs * s.ttPeriodNs + s.ttPeriodNs + x.ttPart
    let s := s.sendPktAt m Pkt.timeReq (t1 - leDelayNs) (nsWords t1)
    let live := x.exchanges.filter fun t => decide (s.ns ≤ t + s.absentNs)
    s.modMember m fun x => { x with exchanges := t1 :: live, ttAt := next, ttRun := some s.ns }

def execTimeTransferPeriod (member : Nat) (s : State) : Host.Outcome State Fault Refusal :=
  act s (timePeriodEffect member)

/-- The operation of a request ends for want of an answer (R248, R265, R266, R271): the source of a fill is a lost buddy
too. -/
def State.requestLost (s : State) (q : Request) : State :=
  if q.type = Pkt.capOffer then
    match (s.capCtx q.context).bind fun k => k.search with
    | some x => if x.waiting = some (q.member, q.ticket) then s.capSeek q.context x.tried else s
    | none => s
  else if q.type = Pkt.capSeal then s.buddyLost q.context q.member
  else if q.type = Pkt.capFill ∧ (wordAt q.payload 4).field 25 24 = 0 then
    let s := match (s.capCtx q.context).bind fun k => k.fill with
      | some f => if f.source = q.member then s.fillLost q.context else s
      | none => s
    (s.cap.ctxs.map fun e => e.1).foldl (fun s c => s.buddyLost c q.member) s
  else s

def retryEffect (ticket : Word) (s : State) : State :=
  match s.swarm.requests.find? fun q => q.ticket == ticket with
  | none => s
  | some q =>
    if s.ns < q.sentAt + s.retryNs then s
    else if q.tries < 3 then
      let again (r : Request) : Request := { r with tries := r.tries + 1, sentAt := s.ns }
      let s := { s with swarm := { s.swarm with
        requests := updateFirst (fun r => r.ticket == ticket) again s.swarm.requests } }
      s.sendPkt q.member q.type q.payload
    else
      let rest := dropWhere (fun (r : Request) => r.ticket == ticket) s.swarm.requests
      State.requestLost { s with swarm := { s.swarm with requests := rest } } q

def execRequestRetryTimeout (ticket : Word) (s : State) : Host.Outcome State Fault Refusal :=
  act s (retryEffect ticket)

/-- Every second copy that is due. -/
def secondCopyEffect (s : State) : State :=
  let due := s.swarm.copies.filter fun q => decide (q.due ≤ s.ns)
  let s := { s with swarm := { s.swarm with copies := s.swarm.copies.filter fun q => !decide (q.due ≤ s.ns) } }
  due.foldl (fun s q => s.sendPkt q.member q.type q.payload) s

def execSecondCopySend (s : State) : Host.Outcome State Fault Refusal := act s secondCopyEffect

/-! ## Windows (R251) -/

/-- Is member m's window of a timed launch that started at t over, or m not heard any more? -/
def State.windowOver (s : State) (st : Step) (t m : Nat) : Bool :=
  let slips := ((s.slipsOf st.swarmStep m).map fun r => r.sumNs).getD 0
  let x := (s.member m).st
  decide (t ≤ s.ns) && (decide (t + st.windowNs + slips ≤ s.ns) || decide (x = .absent) || decide (x = .barred))

def windowMissEffect (c l m : Nat) (s : State) : State :=
  match s.stepOf c with
  | none => s
  | some st => match st.timedStart l with
    | none => s
    | some t =>
      if st.t0 = 0 ∨ st.launchEnded l = true ∨ (s.others st.group).contains m = false ∨ s.arrived c l m = true ∨
          s.windowOver st t m = false then s
      else s.missWindow c m

def execWindowMiss (context launch member : Nat) (s : State) : Host.Outcome State Fault Refusal :=
  act s (windowMissEffect context launch member)

def announceExpiryEffect (i : Nat) (s : State) : State :=
  match s.swarm.kept[i]? with
  | some k => match k.body with
    | .announce t0 _ _ =>
      if t0 + 1000000000 ≤ s.ns then { s with swarm := { s.swarm with kept := s.swarm.kept.eraseIdx i } } else s
    | .abandon => s
  | none => s

def execAnnounceExpiry (index : Nat) (s : State) : Host.Outcome State Fault Refusal :=
  act s (announceExpiryEffect index)

/-! ## Events of the link engines (R258, R267, R424) -/

/-- A member's contribution to a launch of the dispatched step has arrived. -/
def collArrivedEffect (c l m : Nat) (s : State) : State :=
  if (s.stepOf c).isNone ∨ s.arrived c l m = true then s
  else { s with swarm := { s.swarm with arrivals := { context := c, launch := l, member := m } :: s.swarm.arrivals } }

def execCollArrived (_ context launch member : Nat) (s : State) : Host.Outcome State Fault Refusal :=
  act s (collArrivedEffect context launch member)

/-- A collective has completed: its destination is marked (R258). -/
def execCollDone (_ context base length : Nat) (s : State) : Host.Outcome State Fault Refusal :=
  act s (·.capMark context base (base + length))

/-- A spare lane switched in, a retrain: an event of LINK each. -/
def linkHealthEffect (spare retrain : Bool) (s : State) : State :=
  let s := if spare then s.healthEvent 2 else s
  if retrain then s.healthEvent 2 else s

def execLinkHealth (_ : Nat) (spare retrain : Bool) (s : State) : Host.Outcome State Fault Refusal :=
  act s (linkHealthEffect spare retrain)

/-- A port is up or down: the link engines' re-route is their own (R32); no register of the hub shows it. -/
def execPortState (_ : Nat) (_ : Bool) (s : State) : Host.Outcome State Fault Refusal := act s id

/-- A link engine dropped a swarm packet. -/
def execSwarmDrop (_ : Nat) (s : State) : Host.Outcome State Fault Refusal := act s State.swmDrop

end Sys2Proof.Machine
end

