-- ==== Sys2Proof/Machine/OpenStore.lean ====
section
/-!
DEFINITION. The control store (spec/16): the microword and the sequencer as an open routine runs on them, machine checks,
the XLATE trap, the loading and removal of the open region; STAGE_VERIFY_DONE, which ends both verifications of the guard
core (R338, R362).
-/

namespace Sys2Proof.Machine

/-! ## The microword (R355) -/

abbrev MicroWord := BitVec 128

/-- Bits [h:l] of a microword. -/
def MicroWord.bits (w : MicroWord) (h l : Nat) : Nat := w.toNat / 2 ^ l % 2 ^ (h + 1 - l)

def MicroWord.seq (w : MicroWord) : Nat := w.bits 127 124
def MicroWord.na (w : MicroWord) : Nat := w.bits 123 110
/-- Selector C3 to C0, by k. -/
def MicroWord.sel (w : MicroWord) (k : Nat) : Nat := w.bits (91 + 6 * k) (86 + 6 * k)
def MicroWord.alu (w : MicroWord) : Nat := w.bits 85 80
def MicroWord.a (w : MicroWord) : Nat := w.bits 79 75
def MicroWord.b (w : MicroWord) : Nat := w.bits 74 70
def MicroWord.d (w : MicroWord) : Nat := w.bits 69 65
def MicroWord.bImm (w : MicroWord) : Bool := w.getLsbD 64
def MicroWord.mem (w : MicroWord) : Nat := w.bits 63 60
def MicroWord.msel (w : MicroWord) : Nat := w.bits 59 56
def MicroWord.setf (w : MicroWord) : Bool := w.getLsbD 55
def MicroWord.last (w : MicroWord) : Bool := w.getLsbD 54
def MicroWord.maskTrap (w : MicroWord) : Bool := w.getLsbD 53
def MicroWord.imm (w : MicroWord) : Nat := w.bits 47 16
def MicroWord.ofs (w : MicroWord) : Nat := w.bits 15 0

/-- Bytes of a transfer: MSEL [0]. -/
def MicroWord.width (w : MicroWord) : Nat := if w.msel % 2 = 0 then 4 else 8

/-- The parity bits: bit i makes byte i and itself odd. -/
def MicroWord.parity (w : MicroWord) : Nat :=
  (List.range 16).foldl (fun n i =>
    n + bitAt i (((List.range 8).countP fun j => w.getLsbD (8 * i + j)) % 2 == 0)) 0

/-- The word as the store holds it, parity above data. -/
def MicroWord.stored (w : MicroWord) : Nat := w.parity * 2 ^ 128 + w.toNat

/-- Does the word's MEM operation write D? -/
def MicroWord.memWrites (w : MicroWord) : Bool :=
  w.mem == 1 || w.mem == 2 || w.mem == 4 || (w.mem == 7 && w.msel == 2)

/-- cc that the word takes (R357). -/
def MicroWord.cost (w : MicroWord) : Nat := if w.mem = 2 ∨ (w.mem = 7 ∧ w.msel = 2) then 2 else 1

/-! ## Registers, the ALU, conditions -/

def Micro.reg (x : Micro) (k : Nat) : Dword := if k = 0 then 0 else Tbl.get (fun _ => 0) x.m k

def Micro.setReg (x : Micro) (k : Nat) (v : Dword) : Micro :=
  if k = 0 then x else { x with m := Tbl.put (fun _ => 0) x.m k v }

/-- The operand B. -/
def Micro.opB (x : Micro) (w : MicroWord) : Dword := if w.bImm then BitVec.ofNat 64 w.imm else x.reg w.b

/-- n bytes of words from a byte offset. -/
def bytesAt (ws : List Word) (off n : Nat) : Nat :=
  (List.range n).foldl (fun v i =>
    v + (wordAt ws ((off + i) / 4)).toNat / 2 ^ (8 * ((off + i) % 4)) % 256 * 2 ^ (8 * i)) 0

/-- The ALU's result, and C and V where R355 gives them: of a sum and a difference. `undef` stands for a shift by 64 or
more, which the spec leaves open. -/
def aluResult (op : Nat) (a b undef : Dword) : Option (Dword × Option (Bool × Bool)) :=
  let shift (v : Dword) : Dword := if 64 ≤ b.toNat then undef else v
  match op with
  | 1 =>
    let r := a + b
    some (r, some (decide (2 ^ 64 ≤ a.toNat + b.toNat), a.msb == b.msb && a.msb != r.msb))
  | 2 =>
    let r := a - b
    some (r, some (decide (a.toNat < b.toNat), a.msb != b.msb && a.msb != r.msb))
  | 3 => some (a &&& b, none)
  | 4 => some (a ||| b, none)
  | 5 => some (a ^^^ b, none)
  | 6 => some (shift (a <<< b.toNat), none)
  | 7 => some (shift (a >>> b.toNat), none)
  | 8 => some (b, none)
  | _ => none

/-- A condition (R356). -/
def Micro.cond (x : Micro) (s : State) (c : Cmd) (pushed : Bool) (sel : Nat) : Bool :=
  match sel with
  | 0 => false
  | 1 => true
  | 2 => x.z
  | 3 => x.n
  | 4 => x.c
  | 5 => x.v
  | 6 => decide (c.inst = 0)
  | 7 => c.remote.isSome
  | 8 => c.bit 0 16
  | 9 => pushed
  | 10 => x.stale
  | 11 => x.active
  | 12 => x.poison
  | 13 => x.svcFail
  | 14 => s.orphan
  | _ => decide (16 ≤ sel) && decide (sel < 48) && (x.reg 27).getLsbD (sel - 16)

/-- The target: NA or the conditions (R357). -/
def Micro.target (x : Micro) (s : State) (c : Cmd) (pushed : Bool) (w : MicroWord) : Nat :=
  let bit (k : Nat) : Nat := bitAt k (x.cond s c pushed (w.sel k))
  w.na ||| (bit 3 + bit 2 + bit 1 + bit 0)

/-! ## Commit (R358) -/

/-- A staged write takes effect; one to an entry that is no longer the handle's has nothing to write. -/
def State.commitOne (s : State) (inst : Nat) : MicroWrite → State
  | .comb h off n v =>
    if !s.handleOk inst h then s
    else s.modEntry (handleIndex h) fun e =>
      let old := e.openScratch0.toNat + e.openScratch1.toNat * 2 ^ 32 + e.openScratch2.toNat * 2 ^ 64 +
        e.openScratch3.toNat * 2 ^ 96
      let at_ := 8 * (off - 0xF0)
      let field := old / 2 ^ at_ % 2 ^ (8 * n)
      let new := old - field * 2 ^ at_ + v % 2 ^ (8 * n) * 2 ^ at_
      { e with openScratch0 := Word.mk new, openScratch1 := Word.mk (new / 2 ^ 32),
               openScratch2 := Word.mk (new / 2 ^ 64), openScratch3 := Word.mk (new / 2 ^ 96) }
  | .scratch k v =>
    let x := s.inst inst
    s.setInst inst { x with scratch := Tbl.put (fun _ => 0) x.scratch k v }

def State.commitAll (s : State) (inst : Nat) (ws : List MicroWrite) : State := ws.foldl (fun s w => s.commitOne inst w) s

/-! ## EXEC (R363) -/

/-- The checks and effect of each command, by opcode, with what it needs from outside; no opcode of the open region. -/
def bodyOf (op : Nat) (x : ExtRead) : Option (Cmd → State → Answer) :=
  let read : Reply := match x with
    | .host r => r
    | _ => .error
  match op with
  | 0x00 => some nopBody
  | 0x01 => some ringCreateBody
  | 0x02 => some ringEnableBody
  | 0x03 => some ringDisableBody
  | 0x04 => some ringDestroyBody
  | 0x05 => some tokenRingCreateBody
  | 0x06 => some tokenRingDestroyBody
  | 0x08 => some leaseRenewBody
  | 0x20 => some (instanceCreateBody (match x with
    | .vfs n => n
    | _ => 0))
  | 0x21 => some instanceResizeBody
  | 0x22 => some instanceResetBody
  | 0x23 => some instanceDestroyBody
  | 0x24 => some instanceFreezeBody
  | 0x25 => some instanceSaveBody
  | 0x26 => some (instanceRestoreBody (match x with
    | .image i => i
    | _ => .error))
  | 0x27 => some instanceThawBody
  | 0x28 => some partitionCreateBody
  | 0x29 => some partitionDestroyBody
  | 0x2A => some contextCreateBody
  | 0x2B => some contextSetBody
  | 0x2C => some contextDestroyBody
  | 0x2D => some bwrSetBody
  | 0x2E => some pageGeomBody
  | 0x40 => some (modelLoadBody read)
  | 0x41 => some modelUnloadBody
  | 0x42 => some serveBindBody
  | 0x43 => some serveUnbindBody
  | 0x44 => some sampleBindBody
  | 0x45 => some (tableLoadBody read)
  | 0x46 => some tableFreeBody
  | 0x47 => some (automatonLoadBody read)
  | 0x48 => some automatonFreeBody
  | 0x60 => some admitBody
  | 0x61 => some streamSetBody
  | 0x62 => some (streamQueryBody (match x with
    | .host .error => false
    | _ => true))
  | 0x63 => some streamParkBody
  | 0x64 => some streamResumeBody
  | 0x65 => some (streamAppendBody read)
  | 0x66 => some streamRetireBody
  | 0x67 => some streamReleaseBody
  | 0x68 => some tokenLogReadBody
  | 0x69 => some prefixCreateBody
  | 0x6A => some prefixFreeBody
  | 0x80 => some runStepBody
  | 0xA0 => some (cycLoadBody read)
  | 0xA1 => some cycStartBody
  | 0xA2 => some cycStopBody
  | 0xA3 => some cycFreeBody
  | 0xC0 => some swarmSelfSetBody
  | 0xC1 => some swarmMemberSetBody
  | 0xC2 => some swarmMemberClearBody
  | 0xC3 => some (swarmGroupSetBody read)
  | 0xC4 => some capBindBody
  | 0xC5 => some capUnbindBody
  | 0xC6 => some capFillBody
  | 0xC7 => some capRiskHintBody
  | 0xD0 => some waggleSetBody
  | _ => none

/-- What EXEC answers: the state, the status, RESULT0, and the long operation that it accepted. -/
structure ExecAnswer where
  s      : State
  status : Byte
  result : Word := 0
  op     : Option Nat := none

/-- The packet buffer run as a command of the issuing instance: the checks of R300 and R301, then its effect. The buffer
is one unit, so a command of another length fails check 4 (DEDUCED, log 39). -/
def State.exec (s : State) (c : Cmd) (x : ExtRead) (buf : List Word) : ExecAnswer :=
  let c := { c with ws := buf }
  let w := wordAt buf 0
  let form : Option (Byte × Nat) :=
    if w.field 15 8 = 1 ∧ openOpcode c.opcode = true then some (St.badOpcode, 3)
    else match s.formFail c with
      | some e => some e
      | none => if entryUnits w ≠ 1 then some (St.badLength, 0) else none
  match form, bodyOf c.opcode x with
  | some (status, _), _ => { s, status }
  | none, none => { s, status := St.badOpcode }
  | none, some body =>
    match (body c s).checked c.statusFail with
    | .refuse status _ => { s, status }
    | .done t rs => { s := t, status := St.ok, result := wordAt rs 0 }
    | .ends t status rs => { s := t, status, result := wordAt rs 0 }
    | .later t _ => { s := t, status := St.ok }
    | .long t addr body aux rs go => match s.longFail body with
      | some (status, _) => { s, status }
      | none =>
        let k := t.interp.nextOp
        { s := go k (t.openOp c addr body aux rs), status := St.pending, result := wordAt rs 0, op := some k }

/-! ## A word executed (R356–R358) -/

/-- A routine under way. -/
structure Routine where
  s      : State
  x      : Micro
  pc     : Nat
  reads  : List ExtRead
  /-- cc left of CMD_OPEN_LIMIT. -/
  left   : Nat
  /-- The long operation that EXEC accepted. -/
  op     : Option Nat := none

/-- How a routine ends: by DONE, by a machine check with cause STACK or a parity error, past its limit. -/
inductive RoutineEnd where
  | done | stack | parity | overrun
  deriving DecidableEq, Repr

/-- The next read from outside. -/
def Routine.pop (r : Routine) : ExtRead × Routine := (r.reads.headD (.host .error), { r with reads := r.reads.drop 1 })

/-- What a COMB_RD delivers: the state after its read, the value, STALE, ACTIVE and POISON. -/
structure CombValue where
  s      : State
  value  : Dword
  stale  : Bool := false
  active : Bool := false
  poison : Bool := false

/-- COMB_RD. Its words are read as any operation reads them: a single-bit error is corrected, an uncorrectable word
poisons the entry and retires the stream (R51, R54). Beyond the entry's 256 bytes the spec gives no value. -/
def State.combRead (s : State) (inst : Nat) (h : Word) (off n : Nat) : CombValue :=
  let i := handleIndex h
  if !s.handleOk inst h then { s, value := 0, stale := true }
  else
    let within (w : Nat) : Bool := decide (off < 4 * w + 4) && decide (4 * w < off + n)
    let poison := (s.entryBad i).any within
    { s := s.readWords fun j w => i == j && within w, active := decide ((s.entry i).st = .active), poison,
      value := if poison then 0 else if 256 < off + n then BitVec.ofNat 64 (s.free 44)
        else BitVec.ofNat 64 (bytesAt (s.entryWords i) off n) }

/-- The MEM operation of a word, with its operands A and B: the routine after it, the value for D, and whether the commit
buffer overflows. A service call outside the table acts as none; EXEC outside the LAST word runs nothing and leaves its
status open (DESIGN CHOICE, log 39). -/
def Routine.memOp (r : Routine) (c : Cmd) (w : MicroWord) (a b : Dword) : Routine × Dword × Bool :=
  let s := r.s
  let x := r.x
  let stage (y : MicroWrite) : Routine × Dword × Bool :=
    ({ r with x := { x with staged := x.staged ++ [y] } }, 0, decide (16 ≤ x.staged.length))
  match w.mem with
  | 1 =>
    let inside := decide (8 ≤ w.ofs) && decide (w.ofs + w.width ≤ 4 * c.ws.length)
    (r, BitVec.ofNat 64 (if inside then bytesAt c.ws w.ofs w.width else s.free 45), false)
  | 2 =>
    let y := s.combRead c.inst (Dword.lo a) w.ofs w.width
    ({ r with s := y.s, x := { x with stale := y.stale, active := y.active, poison := y.poison } }, y.value, false)
  | 3 =>
    if s.handleOk c.inst (Dword.lo a) then stage (.comb (Dword.lo a) w.ofs w.width b.toNat)
    else ({ r with x := { x with stale := true } }, 0, false)
  | 4 => (r, BitVec.ofNat 64 (Tbl.get (fun _ => 0) (s.inst c.inst).scratch w.ofs).toNat, false)
  | 5 => stage (.scratch w.ofs (Dword.lo b))
  | 6 => ({ r with x := { x with buf := (x.buf.set (w.ofs / 4) (Dword.lo b)).set (w.ofs / 4 + 1) (Dword.hi b) } }, 0, false)
  | 7 => match w.msel with
    | 0 =>
      if w.last then
        let (read, r) := r.pop
        let y := s.exec c read x.buf
        let x := (x.setReg 1 (BitVec.ofNat 64 y.status.toNat)).setReg 2 (BitVec.ofNat 64 y.result.toNat)
        let fail := decide (y.status ≠ St.ok) && decide (y.status ≠ St.pending)
        ({ r with s := y.s, x := { x with svcFail := fail }, op := y.op }, 0, false)
      else
        let x := (x.setReg 1 (BitVec.ofNat 64 (s.free 46))).setReg 2 (BitVec.ofNat 64 (s.free 47))
        ({ r with x := { x with svcFail := true } }, 0, false)
    | 1 =>
      let (read, r) := r.pop
      let r := { r with s := s.emit (s.dmaRead c.inst (x.reg 3).toNat 64) }
      match read with
      | .host (.data ws) =>
        let buf := (List.range 16).map fun k => wordAt ws k
        ({ r with x := { x with buf, svcFail := false } }, 0, false)
      | _ => ({ r with x := { x with svcFail := true } }, 0, false)
    | 2 => ({ r with x := { x with svcFail := false } }, BitVec.ofNat 64 s.ns, false)
    | _ => (r, 0, false)
  | 8 =>
    let res := match w.ofs with
      | 0x08 => x.results.set 0 (Dword.lo b)
      | 0x0C => x.results.set 1 (Dword.lo b)
      | 0x10 => (x.results.set 2 (Dword.lo b)).set 3 (Dword.hi b)
      | _ => x.results
    ({ r with x := { x with results := res } }, 0, false)
  | _ => (r, 0, false)

/-- LAST: the staged writes commit, unless the word's EXEC was refused. -/
def Routine.commit (r : Routine) (c : Cmd) (w : MicroWord) : Routine :=
  if !w.last then r
  else
    let drop := decide (w.mem = 7) && decide (w.msel = 0) && r.x.svcFail
    let s := if drop then r.s else r.s.commitAll c.inst r.x.staged
    { r with s, x := { r.x with staged := [], committed := true } }

/-- Where the sequencer goes after a word (R357). WAIT holds until the condition of C0, then goes to NA. A reserved SEQ
is in no loaded word (R362). -/
def Routine.next (r : Routine) (c : Cmd) (pushed : Bool) (w : MicroWord) : Routine × Option RoutineEnd :=
  let t := r.x.target r.s c pushed w
  match w.seq with
  | 0 => ({ r with pc := t }, none)
  | 1 =>
    if 8 ≤ r.x.stack.length then (r, some .stack)
    else ({ r with pc := t, x := { r.x with stack := (r.pc + 1) :: r.x.stack } }, none)
  | 2 => match r.x.stack with
    | a :: rest => ({ r with pc := a, x := { r.x with stack := rest } }, none)
    | [] => (r, some .stack)
  | 4 => if r.x.cond r.s c pushed (w.sel 0) then ({ r with pc := w.na }, none) else (r, none)
  | _ => (r, some .done)

/-- One word: its results, its commit, its conditions. -/
def Routine.word (r : Routine) (c : Cmd) (pushed : Bool) (w : MicroWord) : Routine × Option RoutineEnd :=
  if w.last && r.x.committed then (r, some .stack)
  else
    let a := r.x.reg w.a
    let b := r.x.opB w
    let y := aluResult w.alu a b (BitVec.ofNat 64 (r.s.free 42))
    let (r, v, full) := r.memOp c w a b
    if full then (r, some .stack)
    else
      let x := match y with
        | some (res, cv) =>
          let x := r.x.setReg w.d res
          if w.setf then
            let f := cv.getD (r.s.free 43 % 2 == 1, r.s.free 43 / 2 % 2 == 1)
            { x with z := decide (res = 0), n := res.msb, c := f.1, v := f.2 }
          else x
        | none => if w.memWrites then r.x.setReg w.d v else r.x
      let drawn := r.s.drew
      (({ r with x, s := drawn } : Routine).commit c w).next c pushed w

/-- The word at an address of the open region. -/
def State.openWord (s : State) (pc : Nat) : Option MicroWord :=
  s.store.open_.bind fun o => if pc < 0x3000 then none else o.words[pc - 0x3000]?

/-- The routine's words, at most as many as its limit has cc. -/
def Routine.run (c : Cmd) (pushed : Bool) : Nat → Routine → Routine × RoutineEnd
  | 0, r => (r, .overrun)
  | n + 1, r => match r.s.openWord r.pc with
    | none => (r, .parity)
    | some w =>
      if r.left < w.cost then (r, .overrun)
      else match ({ r with left := r.left - w.cost } : Routine).word c pushed w with
        | (r, some e) => (r, e)
        | (r, none) => Routine.run c pushed n r

/-! ## The end of a routine (R359, R361) -/

/-- The statuses that a routine may leave (R314, R361). -/
def openStatuses : List Nat :=
  [0x00, 0x01, 0x02, 0x03, 0x10, 0x11, 0x12, 0x13, 0x14, 0x15, 0x20, 0x23, 0x24, 0x30, 0x31, 0x32, 0x33, 0x34, 0x35, 0x36,
   0x37, 0x38, 0x40, 0x41, 0x50, 0x51, 0x52, 0x53, 0x54, 0x60, 0x61, 0x62]

def openStatusOk (n : Nat) : Bool := openStatuses.contains n || (decide (0xE0 ≤ n) && decide (n ≤ 0xED))

/-- OPEN_STATUS: a routine over time or with a bad status. -/
def State.openEvent (s : State) (c : Cmd) (status : Byte) : State :=
  s.raise { id := Flt.openStatus, inst := some c.inst, status }

/-- The completion of a routine: an operation that EXEC accepted answers its remote sender itself only where the entry is
pending. -/
def State.openFinish (s : State) (c : Cmd) (op : Option Nat) (status : Byte) (results : List Word) : State :=
  let s := match op with
    | some k => if status = St.pending then s else s.modOp k fun o => { o with reply := none }
    | none => s
  s.finishCmd c status results (if status = St.ok ∨ status = St.pending then 0 else noField)

/-- RESULT0 of a stopped command: COMMITTED and the address. -/
def stopResult (committed : Bool) (addr : Nat) : Word := Word.mk (addr % 2 ^ 14 * 2 ^ 16 + bitAt 0 committed)

/-- CMD_UC_MCHK and its count. -/
def State.mchkRecord (s : State) (cause addr mask : Nat) : State :=
  let s := s.satReg Reg.cmdUcMchkCnt
  { s with store := { s.store with mchkCause := cause, mchkAddr := addr, mchkMask := mask } }

/-- The routine of a command's opcode from its start word. The registers m1 to m31 hold what the microcode left there; the
packet buffer and the RESULT words begin at 0 (DEDUCED, log 39). -/
def State.openRun (s : State) (c : Cmd) (pushed : Bool) (start : Nat) (reads : List ExtRead) : State :=
  let limit := max 1024 (s.reg Reg.cmdOpenLimit).toNat
  let m : Tbl Dword := (List.range 31).foldl (fun t k => Tbl.put (fun _ => 0) t (k + 1) (BitVec.ofNat 64 (s.free (64 + k)))) []
  let x : Micro := { m, buf := List.replicate 16 0, results := [0, 0, 0, 0] }
  let (r, e) := Routine.run c pushed limit { s := s.drew, x, pc := start, reads, left := limit }
  let s := r.s
  let s := { s with store := { s.store with pc := r.pc, micro := r.x } }
  let stopped := [stopResult r.x.committed r.pc]
  match e with
  | .done =>
    let n := (r.x.reg 1).toNat % 256
    if openStatusOk n then s.openFinish c r.op (BitVec.ofNat 8 n) r.x.results
    else (s.openEvent c St.openBadStatus).openFinish c r.op St.openBadStatus r.x.results
  | .stack =>
    let s := (s.mchkRecord 2 r.pc 0).raise { id := Flt.ucStack, inst := some c.inst, status := St.machineCheck }
    s.openFinish c r.op St.machineCheck stopped
  | .parity =>
    let s := (s.mchkRecord 1 r.pc 0xFFFF).raise { id := Flt.ucParity, inst := some c.inst, status := St.machineCheck }
    let s := s.openFinish c r.op St.machineCheck stopped
    { s with store := { s.store with readback := some { addr := r.pc } } }
  | .overrun =>
    let slots := match c.src with
      | .remote k => Tbl.adjust (fun x => { x with running := true }) s.swarm.slots k
      | .ring _ => s.swarm.slots
    let s := match r.op with
      | some k => s.modOp k fun o => { o with reply := none }
      | none => s
    { s with swarm := { s.swarm with slots }, store := { s.store with overrun := some (c.src, r.x.committed) } }

/-- Was the started entry of the source taken from a push? -/
def State.pushedEntry (s : State) (src : Src) : Bool :=
  match src with
  | .ring r => (s.ring r).started.any fun e => e.pushed
  | .remote _ => false

/-- A command of opcode 0xE0–0xFF: its routine, or ST_BAD_OPCODE where the region went since the checks (R300). -/
def openRoutineEffect (src : Src) (reads : List ExtRead) (s : State) : State :=
  match s.cmd src with
  | none => s
  | some c =>
    if !openOpcode c.opcode then s
    else
      let w := (s.store.open_.map fun o => wordAt o.entries (c.opcode - 0xE0)).getD 0
      if w.bit 31 then s.openRun c (s.pushedEntry src) (w.field 13 0) reads
      else s.finishCmd c St.badOpcode [] 3

def execOpenRegionRoutine (src : Src) (reads : List ExtRead) (s : State) : Host.Outcome State Fault Refusal :=
  act s (openRoutineEffect src reads)

/-- The routine past its limit stopped with 0xEE. -/
def openTimeoutEffect (s : State) : State :=
  match s.store.overrun with
  | none => s
  | some (src, committed) => match s.holds src with
    | some c => (s.openEvent c St.openTimeout).finishCmd c St.openTimeout [stopResult committed s.store.pc] noField
    | none => { s with store := { s.store with overrun := none } }

def execOpenRoutineTimeout (s : State) : Host.Outcome State Fault Refusal := act s openTimeoutEffect

/-! ## Machine checks and the XLATE trap (R359, R360) -/

/-- A word fails its check: the running command ends, the word is rewritten and read back. -/
def parityEffect (addr mask : Nat) (s : State) : State :=
  if 0x4000 ≤ addr ∨ mask % 65536 = 0 ∨ s.store.readback.isSome = true ∨ s.store.halted = true then s
  else
    let src := match s.interp.current with
      | some src => some src
      | none => s.store.overrun.map fun (o : Src × Bool) => o.1
    let committed := s.store.overrun.any fun o => o.2
    let running := src.bind fun src => s.holds src
    let inst := running.map fun c => c.inst
    let s := (s.mchkRecord 1 addr (mask % 65536)).raise { id := Flt.ucParity, inst, status := St.machineCheck }
    let s := match running with
      | some c => s.finishCmd c St.machineCheck [stopResult committed addr] noField
      | none => s
    { s with store := { s.store with readback := some { addr } } }

def execParityMachineCheck (addr mask : Nat) (s : State) : Host.Outcome State Fault Refusal := act s (parityEffect addr mask)

/-- Steps 4 to 6 of R359. -/
def readbackEffect (ok : Bool) (s : State) : State :=
  match s.store.readback with
  | none => s
  | some y =>
    let s := { s with store := { s.store with readback := none } }
    if ok then s
    else
      let s := s.raise { id := Flt.ucHard, status := St.machineCheck }
      if y.addr < 0x3000 then
        let s := (s.andNotReg Reg.cmdCtrl 1).humStop Flt.ucHard
        { s with store := { s.store with halted := true } }
      else s.clearOpen

def execMchkReadbackDone (ok : Bool) (s : State) : Host.Outcome State Fault Refusal := act s (readbackEffect ok)

/-- The running command traps to the XLATE handler, which asks for the translation of the page that its word accesses;
which page that is, the model leaves open (DESIGN CHOICE, log 40). -/
def xlateEffect (s : State) : State :=
  match s.interp.current.bind fun src => s.cmd src with
  | none => s
  | some c =>
    let page := s.free 48 % 2 ^ 52
    if s.atc.contains (c.inst, page) then s
    else
      let store := { s.store with traps := s.store.traps + 1, trap := some (c.inst, page) }
      ({ s.drew with store }).emit (.atsRequest (s.htp c.inst (page * 4096)) (page * 4096))

def execXlateTrap (s : State) : Host.Outcome State Fault Refusal := act s xlateEffect

/-! ## The open region (R362) -/

/-- Does a word use a register above m27? -/
def MicroWord.highReg (w : MicroWord) : Bool := decide (27 < w.a) || decide (27 < w.b) || decide (27 < w.d)

/-- Every target that a word's non-zero selectors can form; a constant 1 always contributes its bit. -/
def MicroWord.targets (w : MicroWord) : List Nat :=
  if w.seq = 4 then [w.na]
  else if 1 < w.seq then []
  else ((List.range 16).filter fun v => (List.range 4).all fun k =>
    if w.sel k = 0 then !v.testBit k else if w.sel k = 1 then v.testBit k else true).map fun v => w.na ||| v

/-- Is a word of an image of n words refused ST_BAD_DESCRIPTOR? -/
def MicroWord.bad (w : MicroWord) (n : Nat) : Bool :=
  let sel (k : Nat) : Bool := decide (w.sel k = 15) || decide (47 < w.sel k)
  decide (w.bits 52 48 ≠ 0) || decide (4 < w.seq) || decide (8 < w.alu) || decide (8 < w.mem) ||
    sel 0 || sel 1 || sel 2 || sel 3 || w.maskTrap || w.highReg || (w.memWrites && decide (w.alu ≠ 0)) ||
    (w.targets.any fun t => decide (t < 0x3000) || decide (0x3000 + n ≤ t)) ||
    (decide (w.mem = 3) && (decide (w.ofs < 0xF0) || decide (0x100 < w.ofs + w.width))) ||
    ((decide (w.mem = 4) || decide (w.mem = 5)) && decide (63 < w.ofs)) ||
    (decide (w.mem = 6) && (decide (w.ofs % 8 ≠ 0) || decide (0x40 ≤ w.ofs))) ||
    (decide (w.mem = 8) && !([0x08, 0x0C, 0x10].contains w.ofs))

/-- The fields of an image. -/
def openImage (ws : List Word) : OpenImage :=
  { abi := (wordAt ws 1).field 31 16,
    words := (List.range ((wordAt ws 2).field 12 0)).map fun k =>
      let i := 64 + 4 * k
      BitVec.ofNat 128 ((wordAt ws i).toNat + (wordAt ws (i + 1)).toNat * 2 ^ 32 + (wordAt ws (i + 2)).toNat * 2 ^ 64 +
        (wordAt ws (i + 3)).toNat * 2 ^ 96),
    entries := (List.range 32).map fun e => wordAt ws (16 + e), digest := imageDigest ws (wordAt ws 3).toNat }

/-- Is an image's content refused ST_BAD_DESCRIPTOR: reserved bits of its header or entries, WORDS, a START, a word? -/
def imageBad (ws : List Word) (o : OpenImage) : Bool :=
  let n := o.words.length
  decide ((wordAt ws 2).field 31 13 ≠ 0) || ((List.range 12).any fun k => decide (wordAt ws (4 + k) ≠ 0)) ||
    decide (n = 0) || decide (4096 < n) ||
    (o.entries.any fun e => decide (e.field 30 30 ≠ 0) || decide (e.field 23 14 ≠ 0) ||
      (e.bit 31 && (decide (e.field 13 0 < 0x3000) || decide (0x3000 + n ≤ e.field 13 0)))) ||
    (o.words.any fun w => MicroWord.bad w n)

/-- OPEN_LOAD: `image` is what the copy of the image from host memory brought; it is copied to KEEP and verified, and its
OPEN_ABI is held against the microcode's when that ends. -/
def State.openLoad (s : State) (image : Reply) (q : MbxReq) : State :=
  let src := s.mbxDword q.inst 0
  let length := (s.mbxWord q.inst 8).toNat
  let keep := s.mbxDword q.inst 16
  let reject (s : State) : State := (s.sigReject q).mbxReply q St.auth
  match s.guardFail false with
  | some status => (s.grdInfo status q.msg q.inst).mbxReply q status
  | none =>
    if s.guard.openHash.isNone then (s.grdInfo St.auth q.msg q.inst).mbxReply q St.auth
    else if s.store.openReq.isSome then s.mbxReply q St.busy
    else if keep.toNat % 65536 ≠ 0 ∨ 2 ^ 48 ≤ keep.toNat then s.mbxReply q St.badAddress
    else
      let s := s.emit (s.dmaRead 0 src.toNat length)
      match image with
      | .data ws =>
        let o := openImage ws
        if length ≠ 0x100 + 16 * o.words.length + 5464 then s.mbxReply q St.badLength
        else if wordAt ws 0 ≠ 0x48584F52#32 ∨ (wordAt ws 1).field 15 0 ≠ 1 ∨ (wordAt ws 3).toNat + 5464 ≠ length then
          reject s
        else
          let fail := if imageBad ws o then some St.badDescriptor else none
          let l : OpenLoad := { req := q, keep, image := o, sig := sigBlock ws (wordAt ws 3).toNat, fail }
          State.emit { s with store := { s.store with openReq := some l } } (s.vcWrite none keep.toNat ws)
      | _ => s.mbxReply q St.badAddress

def execOpenLoad (inst : Nat) (image : Reply) (s : State) : Host.Outcome State Fault Refusal :=
  mbxMessage inst (· == 0x30) (fun q t => t.openLoad image q) s

def execOpenClear (inst : Nat) (s : State) : Host.Outcome State Fault Refusal :=
  mbxMessage inst (· == 0x31) (fun q t =>
    let t := t.clearOpen
    ({ t with store := { t.store with cleared := false } }).mbxReply q St.ok) s

/-! ## The end of a verification (R338, R362, R402) -/

/-- The guard core ends the verification of the staged image, or else of the open-region image. -/
def verifyDoneEffect (x : ImageFacts) (s : State) : State :=
  if !s.guardUp then s
  else match s.fw.stageReq with
    | some q =>
      if s.accepts x then
        let staged := { s.fw.staged with openAbi := x.openAbi, release := x.release }
        ({ s with fw := { s.fw with staged, stage := .verified, stageStatus := St.ok, stageReq := none } }).mbxReply q St.ok
      else (s.sigReject q).stageReject q St.auth
    | none => match s.store.openReq with
      | none => s
      | some l =>
        let s := { s with store := { s.store with openReq := none } }
        if !x.verified || !l.sig.formed || s.guard.openHash != some l.sig.keyHash then
          (s.sigReject l.req).mbxReply l.req St.auth
        else if l.image.abi ≠ s.fw.running.openAbi then s.mbxReply l.req St.version
        else match l.fail with
          | some status => s.mbxReply l.req status
          | none =>
            ({ s with store := { s.store with open_ := some l.image, keep := l.keep, cleared := false } }).mbxReply l.req
              St.ok

def execStageVerifyDone (facts : ImageFacts) (s : State) : Host.Outcome State Fault Refusal := actFw s (verifyDoneEffect facts)

end Sys2Proof.Machine
end

