-- ==== Sys2Proof/Machine/Ports.lean ====
section
/-!
DEFINITION. What arrives on HTP_DC, HTP_RQ and VC2 other than the reads that have a row of their own (spec/19 R417, R419):
translations, the pages of a MODEL_LOAD, token-log positions, write acknowledgements, descriptors.
-/

namespace Sys2Proof.Machine

/-! ## The Host Port Unit -/

/-- A translation arrives: the XLATE handler returns, and the word executes again unless a squash was held (R360); where the host has none, the access
fails as R300 says when the word executes. -/
def translated (read : Reply) (s : State) : State :=
  match s.store.trap with
  | none => s
  | some e =>
    let squash := s.store.heldSquash
    let s := { s with store := s.store.handlerEnds }
    let s := match read with
      | .data _ => { s with atc := e :: dropWhere (fun x => x == e) s.atc }
      | _ => s
    match squash, s.interp.current with
    | true, some (.ring r) => s.squashRing r
    | _, _ => s

/-- The end of a TOKEN_LOG_READ: a log kept for it alone is freed (R46). -/
def State.tokenReadEnd (s : State) (k i gen : Nat) (status : Byte) : State :=
  let s := s.opEnd k status
  if (s.mem i).gen = gen ∨ s.logRead i gen = true ∨ s.pager.sweep.contains (i, gen) = true then s
  else s.dropLog (logKey i gen)

/-- A write of a TOKEN_LOG_READ has been carried out: its positions count, and the copy goes on behind them (R46). -/
def State.tokenWritten (s : State) (k : Nat) (o : LongOp) (i gen n : Nat) : State :=
  if o.copying = 0 then s
  else
    let done := o.progress.toNat + o.copying
    let s := (s.opProgress k (BitVec.ofNat 64 done) o.part).modOp k fun o => { o with mirror := false, copying := 0 }
    if n ≤ done then s.tokenReadEnd k i gen St.ok else s.tokenReadAgain k

/-- What a completion on HTP_DC brings to long operation k: a page to a MODEL_LOAD, and to a TOKEN_LOG_READ the outcome of
the write that it has under way, which is that of the write's translation (R46, log 41). -/
def hostReadOp (k : Nat) (read : Reply) (s : State) : State :=
  match Tbl.find s.interp.ops k with
  | none => s
  | some o =>
    if o.ended then s
    else match o.body, read with
      | .model m regions, _ => s.modelPage k o m regions read
      | .tokenRead i gen _ n _, .data _ => s.tokenWritten k o i gen n
      | .tokenRead i gen _ _ _, .error => s.tokenReadEnd k i gen St.badAddress
      | .tokenRead i gen _ _ _, .poison => s.tokenReadEnd k i gen St.badAddress
      | _, _ => s

/-- The tags are the model's: 0 for the translation of the XLATE handler, k + 1 for long operation k (log 41). -/
def hostReadEffect (tag : Nat) (read : Reply) (s : State) : State :=
  if tag = 0 then translated read s else hostReadOp (tag - 1) read s

def execHtpDcCompletion (tag : Nat) (read : Reply) (s : State) : Host.Outcome State Fault Refusal :=
  act s (hostReadEffect tag read)

/-- The translations of a page are dropped, whichever function holds them, and the request is answered. -/
def atsInvalidateEffect (tag : Nat) (addr : Dword) (s : State) : State :=
  ({ s with atc := dropWhere (fun (x : Nat × Nat) => x.2 == addr.toNat / 4096) s.atc }).emit (.atsDone tag)

def execAtsInvalidation (tag : Nat) (addr : Dword) (s : State) : Host.Outcome State Fault Refusal :=
  act s (atsInvalidateEffect tag addr)

/-! ## VC2 responses -/

/-- Positions read from a frame of the log go out to DEST, or a copy is lost: it is repaired and the mirror read in its place (R190),
and with both lost the operation ends and the stream is retired. A fenced port's reads return poison (R372). -/
def State.tokenData (s : State) (k : Nat) (o : LongOp) (i gen first n : Nat) (dest : Dword) (read : Reply) : State :=
  let done := o.progress.toNat
  let pos := first + done
  let span := tokenSpan pos (first + n) (dest.toNat + 4 * done)
  let live := decide ((s.mem i).gen = gen)
  let pair := Tbl.find (s.mem (s.logAt i gen)).log (pos / 16384)
  let gone := pair.any fun p => s.poolFenced (if o.mirror then p.mirror else p.primary).pool
  let read := if gone then .poison else read
  match read with
  | .data ws =>
    let words := (List.range span).map fun j => wordAt ws j
    (s.emit (s.dmaWrite o.inst (dest.toNat + 4 * done) words)).modOp k fun o => { o with copying := span }
  | _ =>
    if o.mirror then
      let s := s.tokenReadEnd k i gen St.dataPoisoned
      if live then s.loseBoth i ((pair.map fun p => s.frameAddr p.mirror).getD 0) else s
    else
      let s := if live then s.repairLog i (pos / 16384) false else s
      (s.modOp k fun o => { o with mirror := true }).tokenReadAgain k

/-- A response to a long operation: nothing is copied in ORPHAN; the acknowledgement of the last write ends a pass of
INSTANCE_SAVE. -/
def fabricOp (k : Nat) (read : Reply) (s : State) : State :=
  match Tbl.find s.interp.ops k with
  | none => s
  | some o =>
    if o.ended then s
    else match o.body with
      | .tokenRead i gen first n dest => if s.orphan || decide (o.copying ≠ 0) then s else s.tokenData k o i gen first n dest read
      | .save i dest phase => s.saveAnswer k o.inst i dest phase read
      | _ => s

/-- A descriptor arrives, in program order, at most 8 ahead of the launch under expansion; one that is poisoned or an
error is an execution fault of its launch (R58). -/
def fabricAgent (a slot p : Nat) (read : Reply) (s : State) : State :=
  match (s.agent a).step p slot with
  | none => s
  | some t =>
    let n := t.descs.length
    if !t.checked || t.stopping || t.failed.isSome || decide (t.count ≤ n) || decide (t.nextLaunch + 8 ≤ n) then s
    else match read with
      | .data ws => s.modAgentStep a p slot fun t => { t with descs := Tbl.insert t.descs n (ws.take 64) }
      | _ => (s.execFault a p slot n St.dataPoisoned none).frmFault a 2 t n St.dataPoisoned none

def fabricEffect (aim : FabricReader) (read : Reply) (s : State) : State :=
  match aim with
  | .op k => fabricOp k read s
  | .agent a slot p => fabricAgent a slot p read s

def execFabricReadResponse (aim : FabricReader) (read : Reply) (s : State) : Host.Outcome State Fault Refusal :=
  act s (fabricEffect aim read)

end Sys2Proof.Machine
end

