-- ==== Sys2Proof/Machine/Timebase.lean ====
section
/-!
DEFINITION. The rows of the Timebase (spec/09 R220–R226, R234, R239).
-/

namespace Sys2Proof.Machine

/-- A rising edge of PPS_IN whose first high sample lay `phase` TB_REF cycles ago, the input high since: ignored while
PPS_EN = 0, and where it has not stayed high for TB_PPS_MINW cycles (R221). -/
def ppsEdgeEffect (phase : Nat) (s : State) : State :=
  if s.ppsEn = false ∨ phase < s.ppsMinw then s else s.ppsEdge (s.edge phase)

def execPpsEdge (phase : Nat) (s : State) : Host.Outcome State Fault Refusal := actRef s (ppsEdgeEffect phase)

/-- Is the window of the next second over? -/
def State.missDue (s : State) : Bool :=
  match s.tb.lock with
  | .locked | .holdover | .expired =>
    let sec := max s.tb.lastSec s.tb.missSec + 1
    decide (sec * 1000000000 + s.ppsWindow sec < s.ns)
  | .freeRun | .acquiring => false

def missedSecondEffect (s : State) : State := if s.missDue then s.missSecond else s

def execMissedSecond (s : State) : Host.Outcome State Fault Refusal := actRef s missedSecondEffect

/-- ACQUIRING has seen no edge for 2 s: the candidate is dropped. -/
def acquireNoEdgeEffect (s : State) : State :=
  match s.tb.candidate with
  | some t =>
    if s.tb.lock = .acquiring ∧ t + 2000000000 ≤ (s.ns : Int) then
      s.modTb fun b => { b with candidate := none, acquired := false, lockCount := 0 }
    else s
  | none => s

def execAcquireNoEdge (s : State) : Host.Outcome State Fault Refusal := actRef s acquireNoEdgeEffect

/-- The bound exceeds TB_HO_LIMIT in HOLDOVER (R225). -/
def holdoverExpireEffect (s : State) : State :=
  if s.tb.lock = .holdover ∧ (s.reg Reg.tbHoLimit).toNat < s.hoBound then
    (s.setLock .expired).tbFault Flt.tbExpired s.tb.err
  else s

def execHoldoverExpire (s : State) : Host.Outcome State Fault Refusal := actRef s holdoverExpireEffect

/-- REACQ written 1 to TB_CTRL (R224). -/
def tbReacqEffect (fn : Nat) (s : State) : State :=
  if fn ≠ 0 then s
  else
    (s.modTb fun t => { t with candidate := none, acquired := false, lockCount := 0 }).setLock
      (if s.ppsEn then .acquiring else .freeRun)

def execTbReacq (fn : Nat) (s : State) : Host.Outcome State Fault Refusal := barWrite s fn (tbReacqEffect fn)

/-- ARM written 1 to TB_TOD_CTRL (R226). -/
def tbTodArmEffect (fn : Nat) (s : State) : State := if fn ≠ 0 then s else s.orReg Reg.tbTodCtrl 1

def execTbTodArm (fn : Nat) (s : State) : Host.Outcome State Fault Refusal := barWrite s fn (tbTodArmEffect fn)

/-- A read of TB_NOW_LO: all 96 bits from one instant (R24, R239). -/
def nowCaptureEffect (fn : Nat) (s : State) : State :=
  if fn ≠ 0 then s
  else s.modTb fun t => { t with capHi := Word.mk (s.ns / 2 ^ 32), capFrac := t.ctr.setWidth 32 }

def execTbNowCapture (fn : Nat) (s : State) : Host.Outcome State Fault Refusal :=
  barRead s fn Reg.tbNowLo (fun s => if fn = 0 then Word.mk s.ns else 0) (nowCaptureEffect fn)

end Sys2Proof.Machine
end

