-- ==== Sys2Proof/Machine/Views.lean ====
section
/-!
DEFINITION. What a read of each register shows (R5, R6, R448, R449): the registers that are views of structured state, by
window; every other register is one of the register file. What a field shows that the spec names and does not define is a
choice of the model (log 42).
-/

namespace Sys2Proof.Machine

/-- A view: the register's offset and what it shows. -/
abbrev View := Nat × Word

/-- A word with a 1 for each number of a list that lies in [32k, 32k + 31]. -/
def bitsWord (l : List Nat) (k : Nat) : Word :=
  Word.mk (((List.range 32).filter fun b => l.contains (32 * k + b)).foldl (fun n b => n + 2 ^ b) 0)

/-- n registers from an offset on, one word each. -/
def viewRun (first n stride : Nat) (f : Nat → Word) : List View := (List.range n).map fun i => (first + stride * i, f i)

/-- A number as a word, held at the word's largest. -/
def satWord (n : Nat) : Word := Word.mk (min n 0xFFFFFFFF)

/-! ## The function page (R294, R334) -/

def State.pageViews (s : State) (fn : Nat) : List View :=
  let x := s.inst fn
  [(Reg.forBootCtrl, s.reg (pageKey fn Reg.forBootCtrl) &&& 1 ||| Word.mk (bitAt 1 ((s.ring fn).st == .draining))),
   (Reg.forBootHead, (s.ring fn).head),
   (Reg.mbxStatus, Word.mk (bitAt 1 x.outValid + bitAt 0 x.inBusy)),
   (Reg.mbxInDb, 0)]

/-! ## HPU_ (R333, R354, R346) -/

def LeaseState.code : LeaseState → Nat
  | .inactive => 0
  | .held => 1
  | .orphan => 2

def InstState.code : InstState → Nat
  | .none => 0
  | .active => 1
  | .resetting => 2
  | .freezing => 3
  | .frozen => 4
  | .restoring => 5

/-- A word of the orphan record (R346). -/
def State.orphanWord (s : State) (n : Nat) : Word :=
  let o := s.fw.orphan
  match n with
  | 0 => Word.mk (o.cause * 2 ^ 28 + bitAt 24 o.quiet + o.orphans.toNat * 2 ^ 16 + o.periodMs)
  | 1 => Word.mk (min 65535 o.linkEvents * 2 ^ 16 + bitAt 0 o.complHeld)
  | 2 => o.entryTime.lo
  | 3 => o.entryTime.hi
  | 4 => o.stepsEnded
  | 5 => o.streamsParked
  | 6 => o.recordsHeld
  | _ => o.ringsStopped

/-- The quotas that HPU_I_ shows are those granted: 0 for instance 0, as R333 resets them, which holds what is left (DEDUCED,
log 42). HPU_I_STATE: VF_ENABLED is shown for the instance of a virtual function (DEDUCED, log 42). -/
def State.instWord (s : State) (i : Nat) : Word :=
  let x := s.inst i
  Word.mk (x.st.code * 2 ^ 29 + bitAt 28 x.wairon + bitAt 27 (decide (i ≠ 0) && s.hasInst i))

def State.hpuViews (s : State) : List View :=
  let i := s.regField Reg.hpuIsel 5 0
  let x := s.inst i
  let left := if s.fw.lease = .held then (s.fw.expiry - s.ns) / 1000000 else 0
  let qcs := (List.range 128).filter fun q => s.hasInst i && s.instQc i q
  [(Reg.hpuIState, s.instWord i), (Reg.hpuIRingQuota, Word.mk x.q.rings),
   (Reg.hpuIRingUsed, Word.mk (s.ringsUsed i)), (Reg.hpuITringQuota, Word.mk x.q.trings),
   (Reg.hpuITringUsed, Word.mk (s.tringsUsed i)),
   (Reg.hpuICtx, Word.mk (s.ctxUsed i * 2 ^ 16 + x.q.contexts)),
   (Reg.hpuIPrefix, Word.mk (s.prefixUsed i * 2 ^ 16 + x.q.prefixes)),
   (Reg.hpuIBw0, Word.mk (x.q.bwSuper * 2 ^ 16 + x.q.bwBrood)), (Reg.hpuIBw1, Word.mk x.q.bwLink),
   (Reg.hpuIFlrCnt, x.flrCnt), (Reg.hpuLease, Word.mk (s.fw.lease.code * 2 ^ 30 + s.fw.periodMs)),
   (Reg.hpuLeaseLeft, satWord left)] ++
  viewRun Reg.hpuIQc 4 4 (bitsWord qcs) ++ viewRun Reg.hpuOrph 8 4 s.orphanWord

/-! ## FOR_ (R297) -/

def State.forViews (s : State) : List View :=
  let r := s.regField Reg.forRsel 15 0
  let x := s.ring r
  let t := s.regField Reg.forTsel 15 0
  let y := Tbl.find s.forager.tokens t
  let busy := decide (0 < s.bufUsed) || !s.forager.pushes.isEmpty
  let depth := x.queue.length
  [(Reg.forStatus, Word.mk (bitAt 1 s.orphan + bitAt 0 busy)), (Reg.forBufUsed, Word.mk s.bufUsed),
   (Reg.forRState, if x.st = .free then 0 else Word.mk (x.st.code * 2 ^ 29 + bitAt 28 x.spec +
      (x.weight - 1) * 2 ^ 24 + (x.sizeLog2 - 6) * 2 ^ 20 + x.inst)),
   (Reg.forRHead, x.head), (Reg.forRTail, x.tail), (Reg.forRFetched, x.fetched),
   (Reg.forRDepth, Word.mk (min depth 65535 * 2 ^ 16)),
   (Reg.forTState, match y with
      | some y => Word.mk (2 ^ 31 + (y.sizeLog2 - 6) * 2 ^ 20 + y.inst)
      | none => 0),
   (Reg.forTHead, (y.map fun y => y.head).getD 0), (Reg.forTTail, (y.map fun y => y.tail).getD 0)] ++
  viewRun Reg.forRCompl 8 4 (fun n => wordAt x.compl n)

/-! ## CMD_ (R316, R365) -/

/-- A command waits for INIT_DONE (R50, R435). -/
def State.combWait (s : State) : Bool :=
  decide (s.fw.phase = .run) && !s.comb.initDone &&
    (s.forager.rings.any (fun e => !e.2.queue.isEmpty) || s.swarm.slots.any fun e => e.2.entry.isSome)

/-- Is a command in execution? -/
def State.cmdBusy (s : State) : Bool := s.interp.current.isSome || s.swarm.slots.any fun e => e.2.running

/-- The word that CMD_UC_ADDR selects, parity above data: of the open region what is loaded; of the microcode a free value
with its own parity, since the image's words stand nowhere in the spec. -/
def State.ucWord (s : State) : Nat :=
  let at_ := s.regField Reg.cmdUcAddr 13 0
  if at_ < 0x3000 then
    if s.store.loaded then MicroWord.stored (BitVec.ofNat 128 (Config.freeNat 49 at_)) else 0
  else ((s.openWord at_).map MicroWord.stored).getD 0

/-- The current word: one of the open region's, or, while a standard command or the XLATE handler has the sequencer or had it
last, a free value below 0x3000 (log 40). -/
def State.ucPc (s : State) : Nat :=
  let standard := (s.interp.current.bind s.holds).any fun c => !openOpcode c.opcode
  if s.store.trap.isSome || s.store.pcMicro || standard then Config.freeNat 50 s.ns % 0x3000 else s.store.pc % 2 ^ 14

def State.cmdViews (s : State) : List View :=
  let st := s.store
  let o := st.open_
  let ents : List Word := (o.map fun x => x.entries).getD []
  [(Reg.cmdStatus, Word.mk (bitAt 1 s.combWait + bitAt 0 s.cmdBusy)), (Reg.cmdLongUsed, Word.mk s.longUsed),
   (Reg.cmdUcVersion, Word.mk (s.fw.running.openAbi * 2 ^ 16 + s.fw.running.release)),
   (Reg.cmdUcStatus, Word.mk (bitAt 2 st.halted + bitAt 1 st.trap.isSome +
      bitAt 0 (st.loaded && !st.halted && s.cmdBusy))),
   (Reg.cmdUcPc, Word.mk s.ucPc),
   (Reg.cmdUcMchk, Word.mk (st.mchkCause * 2 ^ 30 + st.mchkAddr % 2 ^ 14 * 2 ^ 16 + st.mchkMask % 2 ^ 16)),
   (Reg.cmdUcTrapCnt, st.traps), (Reg.cmdUcData4, Word.mk (s.ucWord / 2 ^ 128)),
   (Reg.cmdOpenStatus, Word.mk (bitAt 31 o.isSome + bitAt 30 st.cleared + (o.map fun x => x.words.length).getD 0)),
   (Reg.cmdOpenKeepLo, st.keep.lo), (Reg.cmdOpenKeepHi, Word.mk (st.keep.hi.field 15 0))] ++
  viewRun Reg.cmdUcData 4 4 (fun n => Word.mk (s.ucWord / 2 ^ (32 * n))) ++
  viewRun Reg.cmdOpenEntry 32 4 (fun e => wordAt ents e)

/-! ## COMB_ (R55) -/

def State.combStateCount (s : State) (n : Nat) : Nat :=
  let listed := Tbl.count (fun _ e => e.st.code == n) s.comb.entries
  if n ≠ 0 then listed
  else if s.comb.initDone then 262144 - Tbl.count (fun _ e => e.st.code != 0) s.comb.entries
  else 0

def State.combViews (s : State) : List View :=
  [(Reg.combStatus, Word.mk (bitAt 0 s.comb.initDone)),
   (Reg.combFreeCnt, if s.comb.initDone then Word.mk s.combFree else 0),
   (Reg.combUnusableCnt, Word.mk (s.combStateCount 7))] ++
  viewRun Reg.combStateCnt 8 4 (fun n => Word.mk (s.combStateCount n))

/-- COMB_QUOTA_i and COMB_USED_i. -/
def State.combInstView (s : State) (off : Nat) : Option Word :=
  let k := off - Reg.combQuotaI
  if off < Reg.combQuotaI ∨ 512 ≤ k then none
  else if k % 8 = 0 then some (Word.mk (if s.hasInst (k / 8) then s.combQuota (k / 8) else 0))
  else if k % 8 = 4 then some (Word.mk (s.combUsed (k / 8)))
  else none

/-! ## STEP_ (R134) -/

def State.stepViews (s : State) : List View :=
  let p := s.regField Reg.stepPsel 6 0
  let x := s.serve p
  let m := x.mp
  let model (b : Option RoleBinding) : Nat := (b.map fun y => y.model).getD 0xFFFF
  let hold := [0, 1, 2, 3].foldl (fun n d => n + bitAt (20 + d) (Tbl.get (fun _ => false) s.comp.hold d)) 0
  let queued (q : Tbl (List Nat)) : Nat := q.foldl (fun n e => n + e.2.length) 0
  [(Reg.stepSpecFree, Word.mk (8192 - s.comp.rounds.length)),
   (Reg.stepPState, Word.mk (bitAt 31 x.main.isSome + bitAt 30 x.draft.isSome + bitAt 29 x.forecast.isSome +
      bitAt 28 (x.batch.any fun b => !s.stepWaits b.seq) + bitAt 27 (x.rounds.any fun r => !r.done) + bitAt 26 x.fallback.isSome + hold +
      (x.main.map fun b => b.variants.length).getD 0)),
   (Reg.stepPLimits, Word.mk (x.limS * 2 ^ 16 + m.seqRes * 2 ^ 8 + m.specDepth * 2 ^ 4)),
   (Reg.stepPBudget, Word.mk x.limB), (Reg.stepPChunk, Word.mk m.chunkMax),
   (Reg.stepPBal, Word.mk (m.prefixW * 2 ^ 16 + m.dlFrac * 2 ^ 8 + m.balance)), (Reg.stepPTmax, Word.mk m.tmaxUs),
   (Reg.stepPIdle, Word.mk m.idleMs), (Reg.stepPModel, Word.mk (model x.draft * 2 ^ 16 + model x.main)),
   (Reg.stepPSeq, x.lastSeq), (Reg.stepPMembers, Word.mk (x.lastMembers * 2 ^ 16 + x.lastDeferred)),
   (Reg.stepPTokens, Word.mk x.lastTokens), (Reg.stepPEst, x.lastEst), (Reg.stepPSteps, x.steps),
   (Reg.stepPDormant, x.dormant), (Reg.stepPQdec, Word.mk (queued x.decodeQ)),
   (Reg.stepPQpre, Word.mk (queued x.prefillQ))] ++
  viewRun Reg.stepPHome 4 4 (fun d => Word.mk (s.homed p d))

/-! ## SCH_ (R218) and BWR_ (R219) -/

def SlotState.code : SlotState → Nat
  | .empty => 0
  | .loading => 1
  | .resident => 2
  | .saving => 3

def CtxState.code : CtxState → Nat
  | .free => 0
  | .swapped => 1
  | .loading => 2
  | .resident => 3
  | .saving => 4
  | .faulted => 5

def Cond.code : Cond → Nat
  | .idle => 0
  | .runnable => 1
  | .local => 2
  | .page => 3
  | .host => 4
  | .swarm => 5
  | .hold => 6
  | .drained => 1

/-- Is an accumulator set of a slot parked on one of the partition's cores (R210)? -/
def State.slotParked (s : State) (p : Partition) (k : Nat) : Bool :=
  p.places.any fun c => ((s.core c.1 c.2).setsOf k).any fun a => a.parked

def State.slotWord (s : State) (p : Partition) (k : Nat) : Word :=
  let x := p.slot k
  Word.mk (x.1.code * 2 ^ 29 + bitAt 28 (s.slotParked p k) + (if x.1 = .empty then 0 else x.2))

def State.ctxWord (s : State) (c : Nat) : Word :=
  let x := s.ctx c
  let slot := match x.st with
    | .loading | .resident | .saving => x.slot
    | .free | .swapped | .faulted => 0
  let cond := if x.st = .resident then x.cond.code else 0
  Word.mk (x.st.code * 2 ^ 28 + slot * 2 ^ 26 + cond * 2 ^ 23 +
    bitAt 22 (x.dispatched.any fun st => st.stallOnly) + x.prio * 2 ^ 14 + x.partition * 2 ^ 7 + x.inst * 2)

def State.schViews (s : State) : List View :=
  let k := s.regField Reg.schPsel 6 0
  let p := s.partD k
  let c := s.regField Reg.schCsel 11 0
  let x := s.ctx c
  let there := (s.part k).isSome
  [(Reg.schStatus, Word.mk (bitAt 1 (s.sched.rebuilding && decide ((s.proc schedulerCore).st = .restarting)) + bitAt 0 (s.procUp schedulerCore))),
   (Reg.schPState, if there then Word.mk (2 ^ 31 + bitAt 30 p.wide + p.inst * 2 ^ 24 + p.spares.length * 2 ^ 20 +
      p.issuing.getD 0 * 2 ^ 18 + bitAt 17 p.issuing.isSome + bitAt 16 p.waiting.isSome + p.revision.toNat) else 0),
   (Reg.schPCores, Word.mk p.cores.length), (Reg.schPRatio, Word.mk p.ratio), (Reg.schPPreempts, p.preempts),
   (Reg.schPBwaits, p.bwaits), (Reg.schPSwaps, p.swaps), (Reg.schPMarked, p.marked), (Reg.schPLate, p.late),
   (Reg.schCState, s.ctxWord c), (Reg.schCSeq, (x.dispatched.map fun st => st.seq).getD 0),
   (Reg.schCBlockedUs, if x.st = .resident then satWord ((s.ns - x.condSince) / 1000) else 0),
   (Reg.schCEvicted, Word.mk x.evicted.length)] ++
  viewRun Reg.schPQc 4 4 (bitsWord p.qcs) ++ viewRun Reg.schPSlot 4 4 (s.slotWord p)

def State.bwrViews (s : State) : List View :=
  let p := s.partD (s.regField Reg.bwrPsel 6 0)
  let word (b : BwrSet) : Word := Word.mk (b.rate * 2 ^ 16 + b.burst)
  [(Reg.bwrLinkPorts, Word.mk Config.linkPorts), (Reg.bwrPBrood, word p.brood), (Reg.bwrPSuper, word p.super),
   (Reg.bwrPLink, word p.link), (Reg.bwrPHeld, p.held)]

/-! ## PAG_ (R195) -/

/-- PAG_STATUS: a die whose pools the driver has not set shows nothing (log 42). -/
def State.pagStatusWord (s : State) : Word :=
  Word.mk ([0, 1, 2, 3].foldl (fun n d =>
    n + bitAt (8 + d) (s.anyFrames (superPools d) && decide (s.freeIn (superPools d) = 0)) +
      bitAt (4 + d) (s.pressure d) + bitAt d (s.demotes d)) 0)

/-- The oldest report of the retirement FIFO (R191). -/
def retireWord (l : List Retired) : Word :=
  match l with
  | [] => 0
  | r :: _ => Word.mk (2 ^ 31 + bitAt 30 r.hard + tierCode r.tier * 2 ^ 27 + r.frame % 2 ^ 27)

def State.pagViews (s : State) : List View :=
  let k := s.regField Reg.pagPoolSel 5 0
  let i := s.regField Reg.pagIsel 5 0
  let d := s.dlog i
  let own (f : State → Nat → Nat) : Nat := if s.hasInst i then f s i else 0
  [(Reg.pagStatus, s.pagStatusWord), (Reg.pagBroodBase, Config.broodBase), (Reg.pagSuperBase, Config.superBase),
   (Reg.pagPoolFirst, Word.mk (s.pool k).first), (Reg.pagPoolCount, Word.mk (s.pool k).count),
   (Reg.pagPoolFree, Word.mk (s.poolFree k)), (Reg.pagMoveCnt, s.pager.moveCnt), (Reg.pagCowCnt, s.pager.cowCnt),
   (Reg.pagSharedFree, Word.mk (1048576 - s.pager.shared.length)),
   (Reg.pagPrefixFree, Word.mk (16384 - s.pager.prefixes.length)),
   (Reg.pagRetireFrame, retireWord s.pager.retire), (Reg.pagRetireLevel, Word.mk s.pager.retire.length),
   (Reg.pagIBroodQuota, Word.mk (own State.broodQuota)), (Reg.pagIBroodUsed, Word.mk (s.broodUsed i)),
   (Reg.pagISuperQuota, Word.mk (own State.superQuota)), (Reg.pagISuperUsed, Word.mk (s.superUsed i)),
   (Reg.pagDlogCtrl, Word.mk (bitAt 31 d.en + bitAt 30 d.overflow + d.sizeLog2)), (Reg.pagDlogBaseLo, d.baseLo),
   (Reg.pagDlogBaseHi, d.baseHi), (Reg.pagDlogHead, d.head), (Reg.pagDlogTail, d.tail)]

/-! ## SMP_ (R171) -/

def State.smpViews (s : State) : List View :=
  let sel := s.reg Reg.smpBsel
  let key := sel.field 6 0 * 4 + sel.field 8 7
  let b := if sel.field 8 7 = 3 then none else Tbl.find s.sampler.bindings key
  let count (t : RowStage) : Nat := (s.sampler.rows.filter fun r => r.stage == t).length
  let pipe := count .pipeline
  let scan := count .scan
  [(Reg.smpStatus, Word.mk (bitAt 1 (decide (0 < scan)) + bitAt 0 (decide (0 < pipe)))),
   (Reg.smpQueue, Word.mk (min 65535 (scan - 1) * 2 ^ 16 + min 65535 (pipe - 1))),
   (Reg.smpBVocab, Word.mk ((b.map fun x => x.vocab).getD 0)),
   (Reg.smpBSum, match b with
      | some x => Word.mk (2 ^ 31 + bitAt 30 (decide (x.logitBase ≠ 0)) + x.lfmt * 2 ^ 26 + x.width * 2 ^ 16 +
          x.penWindow)
      | none => 0),
   (Reg.smpBRows, Word.mk ((b.map fun x => x.rowsMax).getD 0))]

/-! ## TB_ (R239) and CYC_ (R240) -/

/-- Pending starts (R223): each context with a start or a timed launch still to be reached, each cyclic table with a
boundary or a slot start still to come. -/
def State.pendingStarts (s : State) : Nat :=
  let ctxs := Tbl.count (fun _ x => x.dispatched.any fun st =>
    (!st.released && (decide (st.startTime ≠ 0) || match st.origin with
      | .cyclic _ _ => true
      | _ => false)) || st.timed.any fun t => !st.begun.contains t.1) s.sched.ctxs
  ctxs + Tbl.count (fun _ t => match t.st with
    | .armed | .running | .stopping => true
    | .empty | .loaded => false) s.cyc

def State.tbViews (s : State) : List View :=
  let t := s.tb
  let ho := decide (t.lock = .holdover) || decide (t.lock = .expired)
  [(Reg.tbStatus, Word.mk (min 255 t.lockCount * 2 ^ 8 + bitAt 5 s.tbArmed + bitAt 4 t.todSet + bitAt 3 t.traceable +
      t.lock.code)),
   (Reg.tbNowLo, Word.mk s.ns), (Reg.tbNowHi, t.capHi), (Reg.tbNowFrac, t.capFrac),
   (Reg.tbIncrFrac, t.incr.setWidth 32), (Reg.tbIncrNs, Word.mk (t.incr.toNat / 2 ^ 32)),
   (Reg.tbCorr, BitVec.ofInt 32 t.c), (Reg.tbErr, BitVec.ofInt 32 t.err),
   (Reg.tbHoSeconds, if ho then satWord s.hoSeconds else 0), (Reg.tbHoBound, satWord s.hoBound),
   (Reg.tbPending, Word.mk s.pendingStarts)]

def CycState.code : CycState → Nat
  | .empty => 0
  | .loaded => 1
  | .armed => 2
  | .running => 3
  | .stopping => 4

def State.cycViews (s : State) : List View :=
  let t := s.table (s.regField Reg.cycTsel 2 0)
  let r := t.run (s.regField Reg.cycSsel 9 0)
  let m := t.image
  let free := decide (t.st = .empty)
  [(Reg.cycTState, if free then 0 else Word.mk (t.st.code * 2 ^ 29 + bitAt 28 t.shadow.isSome + t.inst * 2 ^ 22 +
      t.partition * 2 ^ 15 + m.slots.length)),
   (Reg.cycTCycleLo, Word.mk m.cycleNs), (Reg.cycTCycleHi, Word.mk (m.cycleNs / 2 ^ 32)),
   (Reg.cycTPhase, Word.mk m.phaseNs), (Reg.cycTStartLo, Word.mk t.start), (Reg.cycTStartHi, Word.mk (t.start / 2 ^ 32)),
   (Reg.cycTCycles, t.cycles), (Reg.cycTOverruns, t.overruns), (Reg.cycTSkips, t.skips),
   (Reg.cycTLateMax, t.lateMax),
   (Reg.cycSStatus, Word.mk (r.lastStatus.toNat * 2 ^ 24 + bitAt 23 r.carried +
      bitAt 22 (r.slipped || decide (r.slip ≠ 0)) + bitAt 21 r.guardUsed)),
   (Reg.cycSRuns, r.runs), (Reg.cycSOverruns, r.overruns), (Reg.cycSLastEnd, r.lastEnd)]

/-! ## SWM_ (R255), CAP_ (R275), HLM_ (R276) -/

def MemberState.code : MemberState → Nat
  | .empty => 0
  | .joining => 1
  | .up => 2
  | .suspect => 3
  | .absent => 4
  | .barred => 5

def State.swmViews (s : State) : List View :=
  let m := s.regField Reg.swmMsel 12 0
  let x := s.member m
  let domain := match s.swarm.self with
    | some (i, _, d) => if i = m then d else x.domain
    | none => x.domain
  [(Reg.swmSelf, match s.selfIndex with
      | some i => Word.mk (2 ^ 31 + i)
      | none => 0),
   (Reg.swmUpCnt, Word.mk (Tbl.count (fun _ m => m.present) s.swarm.members)),
   (Reg.swmMState, Word.mk (x.st.code * 2 ^ 29 + bitAt 28 x.traceable + x.peerTb.toNat * 2 ^ 25 + bitAt 24 x.skew +
      x.inst.toNat * 2 ^ 18 + x.permit.toNat * 2 ^ 14)),
   (Reg.swmMDomain, domain), (Reg.swmMRate, Word.mk (x.rate.toNat * 2 ^ 8 + x.burst.toNat)), (Reg.swmMOffset, x.theta),
   (Reg.swmMDelay, BitVec.ofInt 32 x.delta), (Reg.swmMHighLo, x.high.lo), (Reg.swmMHighHi, x.high.hi), (Reg.swmMDrops, x.drops)]

def CapState.code : CapState → Nat
  | .unbound => 0
  | .seeking => 1
  | .guarded => 2
  | .exposed => 3
  | .restoring => 4
  | .restored => 5
  | .held => 6

def CapCtx.stateWord (k : CapCtx) : Word :=
  Word.mk (k.st.code * 2 ^ 29 + bitAt 28 (k.buddies.any fun b => b.correlated) + bitAt 27 k.noBuddy +
    bitAt 26 k.replayable + bitAt 25 k.stepWrote + bitAt 24 k.lossHold + bitAt 23 k.cut.isSome + bitAt 22 k.noCap +
    k.want * 2 ^ 20 + k.group * 2 ^ 12 + k.l % 4096)

def CapCtx.buddyWord (k : CapCtx) : Word :=
  let one (b : Option Buddy) : Nat := (b.map fun x => 2 ^ 15 + x.member).getD 0
  Word.mk (one k.buddies[1]? * 2 ^ 16 + one k.buddies[0]?)

def State.capViews (s : State) : List View :=
  let head := [(Reg.capHeldUsed, Word.mk s.heldFrames), (Reg.capHeldCaps, Word.mk s.cap.held.length)]
  match s.capCtx (s.regField Reg.capCsel 11 0) with
  | some k => head ++
    [(Reg.capCState, k.stateWord), (Reg.capCCut, Word.mk k.groupCut),
     (Reg.capCCutStepLo, (k.xg.getD 0).lo), (Reg.capCCutStepHi, (k.xg.getD 0).hi), (Reg.capCAtRisk, Word.mk k.atRisk),
     (Reg.capCPending, Word.mk (k.buddies.foldl (fun n b => n + b.pending.length) 0)), (Reg.capCBuddy, k.buddyWord),
     (Reg.capCHolds, k.holds)]
  | none => head

def State.hlmViews (s : State) : List View :=
  [(Reg.hlmRisk, Word.mk s.riskNow), (Reg.hlmHint, Word.mk s.health.hint.toNat)] ++
  viewRun Reg.hlmCnt 5 4 (fun i => satWord (s.healthCount i))

/-! ## GRD_ (R410), PWR_ (R446), IC_ (R392) -/

def State.grdViews (s : State) : List View :=
  let g := s.guard
  let epoch (k : Option SwarmKey) : Nat := (k.map fun x => x.epoch.toNat).getD 0
  [(Reg.grdStatus, Word.mk (bitAt 7 g.openHash.isSome + bitAt 6 g.waiting.isSome + bitAt 5 g.current.isSome +
      bitAt 4 g.zeroized + bitAt 3 s.guardSealed + bitAt 2 g.postDone + bitAt 1 g.postPass + bitAt 0 (s.guardFail false).isNone)),
   (Reg.grdLifecycle, Word.mk g.lifecycle), (Reg.grdSvn, Word.mk (s.fw.running.sig.svn * 2 ^ 16 + g.min)),
   (Reg.grdKeys, Word.mk (g.revoked.toNat * 2 ^ 4 + g.fused.toNat)), (Reg.grdUidLo, g.uid.lo), (Reg.grdUidHi, g.uid.hi),
   (Reg.grdSwarmEpoch, Word.mk (epoch g.waiting * 2 ^ 16 + epoch g.current)),
   (Reg.grdSwarmActLo, g.activateAt.lo), (Reg.grdSwarmActHi, g.activateAt.hi),
   (Reg.grdSessions, Word.mk g.sessions.length), (Reg.grdPost, Word.mk g.postBits.toNat)]

def PwrState.code : PwrState → Nat
  | .run => 0
  | .sleepEntry => 1
  | .sleeping => 2
  | .waking => 3

def State.pwrViews (s : State) : List View :=
  let p := s.power
  let stackSet (f : StackThm → Bool) : Nat := (List.range 12).foldl (fun n k => n + bitAt k (f (s.stack k))) 0
  [(Reg.pwrState, Word.mk (p.st.code * 2 ^ 29 + bitAt 28 p.refused + p.reason * 2 ^ 24)),
   (Reg.pwrThmFrac, Word.mk Config.thmFrac),
   (Reg.pwrThmIn, Word.mk (stackSet (·.stkCrit) * 2 ^ 16 + stackSet (·.stkHot))),
   (Reg.pwrThmOut, Word.mk (stackSet (·.deferred) * 2 ^ 16 + p.thrDie.toNat * 2 ^ 12 + stackSet (·.thr)))]

def State.icViews (s : State) : List View :=
  let n := s.regField Reg.icSrcSel 9 0
  let x := s.irq n
  let g := s.regField Reg.icGrpSel 5 0
  [(Reg.icSrcCfg, x.cfg),
   (Reg.icSrcState, Word.mk (bitAt 4 x.reasserted + bitAt 3 x.masked + bitAt 2 x.level + bitAt 1 x.active.isSome +
      bitAt 0 (s.presentable n x))),
   (Reg.icGrpHoldoff, Tbl.get (fun _ => 0) s.ic.holdoff g), (Reg.icGrpState, Word.mk (bitAt 0 (s.grpRuns g)))]

/-! ## DBG_ (R353), FRM_ (R89), PRP_ (R391) -/

def ProcState.code : ProcState → Nat
  | .off => 0
  | .running => 1
  | .restarting => 2
  | .halted => 3
  | .isSealed => 4

def Phase.code : Phase → Nat
  | .rom => 0
  | .loading => 1
  | .run => 2

def StageState.code : StageState → Nat
  | .empty => 0
  | .copying => 1
  | .verifying => 2
  | .verified => 3
  | .rejected => 4

def State.dbgViews (s : State) : List View :=
  let k := s.regField Reg.dbgFwSel 5 0
  let p := s.proc k
  let f := s.fw
  [(Reg.dbgFwState, Word.mk (p.st.code * 2 ^ 28 + bitAt 27 p.planned + min 255 (s.crashCount k) * 2 ^ 8)),
   (Reg.dbgFwRestarts, p.restarts), (Reg.dbgFwLastCause, Word.mk p.cause), (Reg.dbgFwLastPc, p.pc),
   (Reg.dbgFwLastTime, p.lastTime), (Reg.dbgFwWdt, Word.mk p.wdtMs), (Reg.dbgFwForce, 0),
   (Reg.dbgFwStatus, Word.mk f.phase.code), (Reg.dbgFwVersion, Word.mk (f.running.major * 2 ^ 16 + f.running.minor)),
   (Reg.dbgFwImgVer, f.running.version), (Reg.dbgFwStage, Word.mk (f.stage.code * 2 ^ 29 + f.stageStatus.toNat)),
   (Reg.dbgFwAreaLo, Config.fwArea.lo), (Reg.dbgFwAreaHi, Config.fwArea.hi),
   (Reg.dbgFwUpdate, match f.update with
      | some u => Word.mk (2 ^ 31 + bitAt 8 u.move + u.cluster)
      | none => 0),
   (Reg.dbgWaggleHits, f.hits)] ++
  viewRun Reg.dbgWaggleTrace 8 4 (fun n => Word.mk (f.trace.toNat / 2 ^ (32 * n))) ++
  viewRun Reg.dbgWaggleFreeze 8 4 (fun n => Word.mk (f.freeze.toNat / 2 ^ (32 * n)))

/-- The RO views of frame agent n (R89). FRM_STEP_SEQ shows the sequence number of the dispatch received last, whether
none is held or several are (DESIGN CHOICE, log 59). -/
def State.frmViews (s : State) (n : Nat) : List View :=
  let a := s.agent n
  [(Reg.frmStatus, Word.mk (bitAt 2 (a.steps.any fun t => t.stopping) + bitAt 1 a.held.isSome +
      bitAt 0 (!a.steps.isEmpty))),
   (Reg.frmStepSeq, a.lastSeq), (Reg.frmLaunch, Word.mk (a.launch % 65536))] ++
  viewRun Reg.frmBypass 8 4 (fun k => s.fuse (9 + 8 * n + k))

def State.prpViews (s : State) : List View :=
  let f := s.fences
  let g := s.regField Reg.prpCoreSel 10 0
  let qcs := (f.cores.map fun c => c / 16) ++ f.clusters.flatMap fun n => [4 * n, 4 * n + 1, 4 * n + 2, 4 * n + 3]
  [(Reg.prpHumStatus, Word.mk (bitAt 31 s.hum.toggling + bitAt 30 s.hum.stopped + s.hum.cause)),
   (Reg.prpFenceStatus, Word.mk (bitAt 31 f.busy.isSome + f.result.toNat)), (Reg.prpFencedCl, bitsWord f.clusters 0),
   (Reg.prpFencedMem0, bitsWord f.stackSet 0), (Reg.prpFencedMem1, bitsWord f.packages 0),
   (Reg.prpCoreFence, Word.mk (bitAt 1 (f.clusters.contains (g / 64)) + bitAt 0 (s.coreFenced g)))] ++
  viewRun Reg.prpFencedQc 4 4 (bitsWord qcs) ++ viewRun Reg.prpFencedLink 3 4 (bitsWord f.links)

/-! ## A read -/

/-- The views of a window of the physical function's BAR0 (R449). -/
def State.windowViews (s : State) (w : Nat) : List View :=
  match w with
  | 0x1 => s.hpuViews
  | 0x2 => s.forViews
  | 0x3 => s.cmdViews
  | 0x4 => s.combViews
  | 0x5 => s.stepViews
  | 0x6 => s.schViews
  | 0x7 => s.bwrViews
  | 0x8 => s.pagViews
  | 0x9 => s.smpViews
  | 0xA => s.tbViews
  | 0xB => s.cycViews
  | 0xC => s.swmViews
  | 0xD => s.capViews
  | 0xE => s.hlmViews
  | 0xF => s.grdViews
  | 0x10 => s.pwrViews
  | 0x11 => s.icViews
  | 0x12 => s.dbgViews
  | 0x16 => s.prpViews
  | _ => []

/-- Agent of an FRM_ window's offset. -/
def frmAgent (off : Nat) : Nat := (off - 0x140000) / 0x1000

/-- Is an offset one of the FRM_ window of a fused-off agent (R89)? -/
def State.frmOff (s : State) (off : Nat) : Bool := decide (off / 0x20000 = 0xA) && !s.clusterUp (frmAgent off)

/-- Has a fault id a source here: it is assigned, and its block is not that of a fused-off cluster (R366)? -/
def State.faultThere (s : State) (id : Nat) : Bool :=
  (faultSpec id).isSome && (decide (id < 1024) || s.clusterUp (id / 32 - 32))

/-- The value that a view gives a register, none where it is one of the register file. -/
def State.viewed (s : State) (fn off : Nat) : Option Word :=
  if off < 0x10000 then (s.pageViews fn).lookup off
  else if off / 0x20000 = 0xA then (s.frmViews (frmAgent off)).lookup (frmFold off)
  else match s.combInstView off with
    | some w => some w
    | none => (s.windowViews (off / 0x10000)).lookup off

/-- May function fn read the register at an offset: its own page, or a block window, which only the physical function
sees (R448, R449)? -/
def sees (fn off : Nat) : Bool := decide (off < 0x10000) || decide (fn = 0)

/-- Key of a register that a function sees. -/
def regKey (fn off : Nat) : Nat := if off < 0x10000 then pageKey fn off else off

/-- What a read of a register shows: WO registers, reserved offsets and the windows of fused-off agents read 0 (R5, R6,
R89). -/
def State.readReg (s : State) (fn off : Nat) : Word :=
  if sees fn off = false ∨ s.frmOff off = true then 0
  else match prpPage off with
    | some (id, _) => if s.faultThere id then s.reg off else 0
    | none => match regSpec off with
      | none => 0
      | some x => if x.kind = .wo then 0 else (s.viewed fn off).getD (s.reg (regKey fn off))

end Sys2Proof.Machine
end

