-- ==== Sys2Proof/Machine/Regs.lean ====
section
/-!
DEFINITION. BAR0 accesses to registers (R5, R6, R451): REGISTER_WRITE, RC_COUNTER_READ and RETIRE_FRAME_POP. A register
whose write has a row of its own acts here as that row does.
-/

namespace Sys2Proof.Machine

/-! ## What a write does beyond its access code -/

/-- The bits of a register that a write stores; its other bits stay. -/
def State.putBits (s : State) (key : Nat) (mask w : Word) : State := s.setReg key ((s.reg key &&& ~~~mask) ||| (w &&& mask))

/-- STEP_CTRL.EN = 0: held forecasts discarded (R134). -/
def State.composeStop (s : State) : State := s.comp.parts.foldl (fun s e => s.discardForecast e.1) s

/-- Levels of the 32 software sources from source n on (R386, R392). -/
def State.swiLevels (s : State) (n : Nat) (w : Word) : State :=
  (List.range 32).foldl (fun s b => s.irqLevel (n + b) (w.getLsbD b)) s

/-- What a stored register's new value does at once. -/
def State.stored (s : State) (off : Nat) (w : Word) : State :=
  if off = Reg.stepCtrl then (if w.bit 0 then s else s.composeStop)
  else if off = Reg.pagCtrl ∨ off = Reg.pagWmLow ∨ off = Reg.pagWmMin then s.pagerSync
  else if off = Reg.combCtrl ∨ off = Reg.combScrubInterval then s.scrubRestart
  else if off = Reg.icCtrl then s.icSync
  else if off = Reg.swmTtPeriodMs then s.spreadExchanges
  else if off = Reg.icSwi0 then s.swiLevels 1 w
  else if off = Reg.icSwi1 then s.swiLevels 33 w
  else s

/-! ## Pools and dirty logs (R178, R193, R195) -/

/-- Bounds of the selected pool: taken while PAG_CTRL.EN = 0 by a pool with no frame allocated (R178). -/
def State.poolBounds (s : State) (f : Pool → Pool) : State :=
  let k := s.regField Reg.pagPoolSel 5 0
  let x := s.pool k
  if (s.reg Reg.pagCtrl).bit 0 = true ∨ x.used ≠ [] ∨ 48 ≤ k ∨ (12 ≤ k ∧ k < 16) then s
  else (s.setPool k (f x)).pagerSync

def State.modDlog (s : State) (f : DirtyLog → DirtyLog) : State :=
  let i := s.regField Reg.pagIsel 5 0
  s.setDlog i (f (s.dlog i))

/-- PAG_DLOG_CTRL: SIZE_LOG2 only while EN = 0, OVERFLOW W1C; a log disabled makes the next pass a full one (R330). -/
def State.dlogCtrl (s : State) (w : Word) : State :=
  let i := s.regField Reg.pagIsel 5 0
  let d := s.dlog i
  let s := s.setDlog i { d with en := w.bit 31, overflow := d.overflow && !w.bit 30,
                                sizeLog2 := if d.en then d.sizeLog2 else w.field 4 0 }
  if d.en && !w.bit 31 then s.setInst i { s.inst i with fullNext := true } else s

/-- PAG_DLOG_HEAD: the records before the new head are consumed. -/
def DirtyLog.consume (d : DirtyLog) (head : Word) : DirtyLog :=
  { d with head, recs := d.recs.drop (head - d.head).toNat }

/-! ## Registers whose write has more to it -/

/-- A boot ring's parameters, ignored while EN or BUSY; START moves the ring (R294). -/
def State.bootWrite (s : State) (fn off : Nat) (mask w : Word) : State :=
  let x := s.ring fn
  if (s.reg (pageKey fn Reg.forBootCtrl)).bit 0 = true ∨ x.st = .draining then s
  else
    let s := s.putBits (pageKey fn off) mask w
    let s := s.loadBoot fn
    if off = Reg.forBootStart then s.modRing fn fun x => { x with head := w, tail := w, fetched := w } else s

/-- MSI-X vector control: a pending message goes out as its mask is cleared (R448; PRESUMED, the PCIe layout, log 43). -/
def State.msixUnmask (s : State) (fn vector : Nat) (w : Word) : State :=
  let s := s.setReg (msixControl fn vector) (w &&& 1)
  if w.bit 0 = false ∧ (s.reg (msixPending fn)).bit vector = true ∧ s.orphan = false then
    (s.andNotReg (msixPending fn) (Word.mk (2 ^ vector))).msix fn vector
  else s

/-- TB_CTRL: its stored fields, what PPS_EN = 0 does, then REACQ (R224). -/
def State.tbCtrlWrite (s : State) (w : Word) : State :=
  let s := (s.putBits Reg.tbCtrl 0xFF5 w).ppsCheck
  if w.bit 1 then tbReacqEffect 0 s else s

/-- TB_TOD_CTRL: REFUSED and APPLIED cleared by 1, ARM set by 1 (R226). -/
def State.todCtrlWrite (s : State) (w : Word) : State :=
  let s := s.andNotReg Reg.tbTodCtrl (w &&& 6)
  if w.bit 0 then tbTodArmEffect 0 s else s

/-- PWR_CTRL: DEFER_EN stored; SLEEP_REQ as its rows (R436, R437). -/
def State.pwrCtrlWrite (s : State) (w : Word) : State :=
  let s := s.putBits Reg.pwrCtrl 2 w
  if w.bit 0 then sleepRequestEffect 0 s else sleepClearEffect 0 s

/-- DBG_LOG_CTRL, its base: SIZE_LOG2 and the base stand while EN = 1 (R353). -/
def State.logWrite (s : State) (off : Nat) (mask w : Word) : State :=
  let en := (s.reg Reg.dbgLogCtrl).bit 0
  if off = Reg.dbgLogHead then s.setReg off w
  else if !en then s.putBits off mask w
  else if off = Reg.dbgLogCtrl then s.putBits off 1 w
  else s

/-- A write to a register of a function page that is neither stored nor cleared as it stands. -/
def State.pageSpecial (s : State) (fn off : Nat) (mask w : Word) : State :=
  if off < 0x40 then s.msixUnmask fn (off / 16) w
  else if off = Reg.forBootCtrl then (if w.bit 0 then bootEnableEffect fn s else bootDisableEffect fn s)
  else if off < 0x2000 then s.bootWrite fn off mask w
  else if off = Reg.mbxInDb then (if w.bit 0 then mbxGoEffect fn s else s)
  else if (s.inst fn).inBusy then s
  else s.putBits (pageKey fn off) mask w

/-- The same of a block window. -/
def State.blockSpecial (s : State) (off : Nat) (mask w : Word) : State :=
  if off = Reg.combInspCtrl then
    let s := s.putBits off 2 w
    if w.bit 0 then s.inspectGo else s
  else if off = Reg.schWaitDiag0 then s.andNotReg off (w &&& mask)
  else if off = Reg.pagPoolFirst then s.poolBounds fun x => { x with first := (w &&& mask).toNat }
  else if off = Reg.pagPoolCount then s.poolBounds fun x => { x with count := (w &&& mask).toNat }
  else if off = Reg.pagDlogCtrl then s.dlogCtrl w
  else if off = Reg.pagDlogBaseLo then s.modDlog fun d => { d with baseLo := w &&& mask }
  else if off = Reg.pagDlogBaseHi then s.modDlog fun d => { d with baseHi := w &&& mask }
  else if off = Reg.pagDlogHead then s.modDlog fun d => d.consume w
  else if off = Reg.tbCtrl then s.tbCtrlWrite w
  else if off = Reg.tbTodCtrl then s.todCtrlWrite w
  else if off = Reg.tbTodSecLo ∨ off = Reg.tbTodSecHi then
    if (s.reg Reg.tbTodCtrl).bit 0 then s else s.putBits off mask w
  else if off = Reg.swmCtrl then portEnableEffect 0 w s
  else if off = Reg.pwrCtrl then s.pwrCtrlWrite w
  else if off = Reg.icSrcCfg then
    let n := s.regField Reg.icSrcSel 9 0
    if n < 768 then (s.setIrq n { s.irq n with cfg := w &&& mask }).icSync else s
  else if off = Reg.icSrcState then stormUnmaskEffect 0 w s
  else if off = Reg.icGrpHoldoff then
    { s with ic := { s.ic with holdoff := Tbl.put (fun _ => 0) s.ic.holdoff (s.regField Reg.icGrpSel 5 0) (w &&& mask) } }
  else if off = Reg.dbgFwForce then (if w.bit 0 then fwForceEffect 0 s else s)
  else s.logWrite off mask w

/-- A write-only register acts as its field describes. -/
def State.woWrite (s : State) (fn off : Nat) (w : Word) : State :=
  let claim := off - Reg.icTClaimN
  if off = Reg.mbxOutAck then (if w.bit 0 then mbxAckEffect fn s else s)
  else if off = Reg.prpFenceCmd then (if w.bit 31 then unfenceCmdEffect fn w s else fenceCmdEffect fn w s)
  else if off = Reg.pwrReset then softResetEffect fn w s
  else icCompleteEffect (claim / 16) (decide (claim % 16 = 12)) (w.field 9 0) s

/-- The fault block whose sticky bits stand at an offset. -/
def stsBlock (off : Nat) : Option Nat := (List.range 64).find? fun b => decide (fltSts b = some off)

/-- A register with 1s cleared; the line of a fault block follows its sticky bits (R370). -/
def State.clearWrite (s : State) (fn off : Nat) (mask w : Word) : State :=
  let s := s.andNotReg (regKey fn off) (w &&& mask)
  match (if off < 0x10000 then none else stsBlock off) with
  | some b => s.syncLine b
  | none => s

/-- A write to a PRP_F_ page (R391): PER_UNIT is read-only, SEVERE is cleared by 1. -/
def State.prpWrite (s : State) (id part off : Nat) (w : Word) : State :=
  if !s.faultThere id then s
  else match part with
    | 0 => (s.putBits off 0xFFFFFFFD w).syncLine (id / 32)
    | 2 => severeClearEffect 0 id w s
    | _ => s

/-- One register written (R5, R6): read-only bits, reserved bits and offsets, windows that the function does not see and
those of fused-off agents ignore it. -/
def State.writeReg (s : State) (fn off : Nat) (w : Word) : State :=
  if sees fn off = false ∨ s.frmOff off = true then s
  else match prpPage off with
    | some (id, part) => s.prpWrite id part off w
    | none => match regSpec off with
      | none => s
      | some x => match x.kind with
        | .ro => s
        | .rc => s
        | .rw => (s.setReg (regKey fn off) (w &&& x.mask)).stored off (w &&& x.mask)
        | .w1c => s.clearWrite fn off x.mask w
        | .w1s => faultForceEffect fn off w s
        | .wo => s.woWrite fn off w
        | .special => if off < 0x10000 then s.pageSpecial fn off x.mask w else s.blockSpecial off x.mask w

/-! ## REGISTER_WRITE (R5, R451) -/

/-- A write of 4 bytes, or of 8 acting on two registers, the lower offset first; any other is dropped. -/
def regWriteEffect (fn off width : Nat) (v : Dword) (s : State) : State :=
  if width = 4 ∧ off % 4 = 0 then s.writeReg fn off v.lo
  else if width = 8 ∧ off % 8 = 0 then (s.writeReg fn off v.lo).writeReg fn (off + 4) v.hi
  else s

/-- Is an offset in the PWR_ window, which is served in every power state (R446, R454)? -/
def inPwr (off : Nat) : Bool := decide (off / 0x10000 = 0x10)

/-- Is the PWR_ window served: not in a freeze, a soft reset or before the fuse map has passed (R433, R444)? -/
def State.pwrServed (s : State) : Bool :=
  decide (s.power.freeze = none) && decide (s.power.phase = .up) && decide (s.power.softDue = none)

def execRegisterWrite (fn offset width : Nat) (value : Dword) (s : State) : Host.Outcome State Fault Refusal :=
  if inPwr offset && decide (fn = 0) then
    .next (if s.pwrServed then (regWriteEffect fn offset width value s).settle else s)
  else barWrite s fn (regWriteEffect fn offset width value)

/-! ## RC_COUNTER_READ (R5) -/

/-- What a read clears or does: RC fields of the register file become 0; a claim and a capture act as their rows. -/
def State.afterRead (s : State) (fn off : Nat) : State :=
  if sees fn off = false ∨ s.frmOff off = true then s
  else if off = Reg.tbNowLo then nowCaptureEffect fn s
  else if off = Reg.pagRetireFrame then { s with pager := { s.pager with retire := s.pager.retire.tail } }
  else if off = Reg.cycTLateMax then s.modTable (s.regField Reg.cycTsel 2 0) fun t => { t with lateMax := 0 }
  else if off = Reg.swmMDrops then s.modMember (s.regField Reg.swmMsel 12 0) fun x => { x with drops := 0 }
  else match prpPage off with
    | some (_, part) => if part = 3 then s.setReg off 0 else s
    | none => match regSpec off with
      | some x => if x.kind = .rc then s.setReg (regKey fn off) 0 else s
      | none => s

/-- Processor and class of an interrupt claim register (R392). -/
def claimOf (fn off : Nat) : Option (Nat × Bool) :=
  let k := off - Reg.icTClaimN
  if fn ≠ 0 ∨ off < Reg.icTClaimN ∨ 16 * 35 ≤ k then none
  else if k % 16 = 0 then some (k / 16, false)
  else if k % 16 = 8 then some (k / 16, true)
  else none

/-- A register read: its value, of which the host is given what `part` keeps, and what the read clears or claims. -/
def State.readOne (s : State) (fn off : Nat) (part : Word → Word) : State :=
  match claimOf fn off with
  | some (p, fast) => (s.emit (.readData fn (part (s.claimWord p fast)))).claimed p fast
  | none => (s.emit (.readData fn (part (s.readReg fn off)))).afterRead fn off

/-- A read of BAR space (R451): of BAR0, 4 bytes aligned to 4, 8 aligned to 8 as two registers, the lower offset first, or
some bytes of one register, which acts as a whole read. Any other, and a read of BAR2, returns 0 and has no effect. -/
def readEffect (fn : Nat) (q : BarRead) (s : State) : State :=
  let at_ := q.offset % 4
  if q.bar2 then s.emit (.readData fn 0)
  else if q.width = 8 ∧ q.offset % 8 = 0 then (s.readOne fn q.offset id).readOne fn (q.offset + 4) id
  else if 0 < q.width ∧ at_ + q.width ≤ 4 then
    s.readOne fn (q.offset - at_) fun w => Word.mk (w.toNat / 2 ^ (8 * at_) % 2 ^ (8 * q.width))
  else s.emit (.readData fn 0)

/-- The same outside a freeze; the PWR_ window is served in every power state (R454). -/
def State.readNow (s : State) (fn : Nat) (q : BarRead) : State :=
  if inPwr q.offset && decide (fn = 0) && !q.bar2 then
    if s.pwrServed then (readEffect fn q s).settle else s.emit (.readData fn 0)
  else s.barReadNow fn (readEffect fn q)

def execRcCounterRead (fn : Nat) (read : BarRead) (s : State) : Host.Outcome State Fault Refusal :=
  .next (if s.power.freeze ≠ none then s.holdRead fn read else s.readNow fn read)

/-! ## THAW (R444, R454) -/

/-- FREEZE_IN_N sampled high twice after a low: in BLANK, DEVELOPMENT and RETURNED the clocks restart, and the reads that
waited complete. -/
def thawEffect (s : State) : State :=
  match s.power.freeze with
  | none => s
  | some f =>
    if !f.lowSeen || s.freezeLocked then s
    else
      let held := s.power.heldReads
      let s := State.raise { s with power := { s.power with freeze := none, heldReads := [] } } { id := Flt.thawed }
      held.foldl (fun s e => s.readNow e.1 e.2) s.icSync

def execThaw (s : State) : Host.Outcome State Fault Refusal := .next (thawEffect s)

/-! ## RETIRE_FRAME_POP (R191) -/

/-- A read of PAG_RETIRE_FRAME by the physical function: the oldest report, which leaves the FIFO. -/
def execRetireFramePop (s : State) : Host.Outcome State Fault Refusal :=
  barRead s 0 Reg.pagRetireFrame (fun s => retireWord s.pager.retire) fun s => { s with pager := { s.pager with retire := s.pager.retire.tail } }

end Sys2Proof.Machine
end

