-- ==== Sys2Proof/Machine/Thermal.lean ====
section
/-!
DEFINITION. The rows of the thermal logic (spec/20 R441, spec/09 R237), which acts in every power state and in a freeze.
-/

namespace Sys2Proof.Machine

/-- A time of stack k passes; there are 12 stacks. -/
def thermal (k : Nat) (f : Nat → State → State) (s : State) : State := if k < 12 then f k s else s

/-- An input of stack k changes: in reset it is only there to be taken at the release. -/
def thermalIn (k : Nat) (input : StackThm → StackThm) (f : Nat → State → State) (s : State) :
    Host.Outcome State Fault Refusal :=
  if 12 ≤ k then .next s
  else if s.inReset then .next (s.modStack k input)
  else .next ((f k s).settle)

def execStkHotRise (stack : Nat) (s : State) : Host.Outcome State Fault Refusal :=
  thermalIn stack (fun x => { x with stkHot := true }) hotRiseEffect s

def execStkHotFall (stack : Nat) (s : State) : Host.Outcome State Fault Refusal :=
  thermalIn stack (fun x => { x with stkHot := false }) hotFallEffect s

def execStkCritRise (stack : Nat) (s : State) : Host.Outcome State Fault Refusal :=
  thermalIn stack (fun x => { x with stkCrit := true }) critRiseEffect s

def execStkCritFall (stack : Nat) (s : State) : Host.Outcome State Fault Refusal :=
  thermalIn stack (fun x => { x with stkCrit := false }) critFallEffect s

def execThrottleHoldRelease (stack : Nat) (s : State) : Host.Outcome State Fault Refusal :=
  actRef s (thermal stack holdReleaseEffect)
def execDeferExpire (stack : Nat) (s : State) : Host.Outcome State Fault Refusal :=
  actRef s (thermal stack deferExpireEffect)

end Sys2Proof.Machine
end

