-- ==== Sys2Proof/Machine/Dispatch.lean ====
section
/-!
DEFINITION. The dispatch of a command to its meaning, one arm per row of the opcode table.
-/

namespace Sys2Proof.Machine

/-- The effect of a command on everything but the queue. -/
def exec (i : Instr) (s : State) : Host.Outcome State Fault Refusal :=
  match i with
  | .nop src => Sys2Proof.Machine.execNop src s
  | .ringCreate src => Sys2Proof.Machine.execRingCreate src s
  | .ringEnable src => Sys2Proof.Machine.execRingEnable src s
  | .ringDisable src => Sys2Proof.Machine.execRingDisable src s
  | .ringDestroy src => Sys2Proof.Machine.execRingDestroy src s
  | .tokenRingCreate src => Sys2Proof.Machine.execTokenRingCreate src s
  | .tokenRingDestroy src => Sys2Proof.Machine.execTokenRingDestroy src s
  | .leaseRenew src => Sys2Proof.Machine.execLeaseRenew src s
  | .instanceCreate src numVfs => Sys2Proof.Machine.execInstanceCreate src numVfs s
  | .instanceResize src => Sys2Proof.Machine.execInstanceResize src s
  | .instanceReset src => Sys2Proof.Machine.execInstanceReset src s
  | .instanceDestroy src => Sys2Proof.Machine.execInstanceDestroy src s
  | .instanceFreeze src => Sys2Proof.Machine.execInstanceFreeze src s
  | .instanceQuiescent inst => Sys2Proof.Machine.execInstanceQuiescent inst s
  | .instanceSave src => Sys2Proof.Machine.execInstanceSave src s
  | .instanceRestore src image => Sys2Proof.Machine.execInstanceRestore src image s
  | .instanceThaw src => Sys2Proof.Machine.execInstanceThaw src s
  | .partitionCreate src => Sys2Proof.Machine.execPartitionCreate src s
  | .partitionDestroy src => Sys2Proof.Machine.execPartitionDestroy src s
  | .contextCreate src => Sys2Proof.Machine.execContextCreate src s
  | .contextSet src => Sys2Proof.Machine.execContextSet src s
  | .contextDestroy src => Sys2Proof.Machine.execContextDestroy src s
  | .bwrSet src => Sys2Proof.Machine.execBwrSet src s
  | .pageGeom src => Sys2Proof.Machine.execPageGeom src s
  | .modelLoad src list => Sys2Proof.Machine.execModelLoad src list s
  | .modelUnload src => Sys2Proof.Machine.execModelUnload src s
  | .serveBind src => Sys2Proof.Machine.execServeBind src s
  | .serveUnbind src => Sys2Proof.Machine.execServeUnbind src s
  | .sampleBind src => Sys2Proof.Machine.execSampleBind src s
  | .sampleTableLoad src body => Sys2Proof.Machine.execSampleTableLoad src body s
  | .sampleTableFree src => Sys2Proof.Machine.execSampleTableFree src s
  | .automatonLoad src body => Sys2Proof.Machine.execAutomatonLoad src body s
  | .automatonFree src => Sys2Proof.Machine.execAutomatonFree src s
  | .admitStream src => Sys2Proof.Machine.execAdmitStream src s
  | .streamSet src => Sys2Proof.Machine.execStreamSet src s
  | .streamQuery src mapped => Sys2Proof.Machine.execStreamQuery src mapped s
  | .streamPark src => Sys2Proof.Machine.execStreamPark src s
  | .streamResume src => Sys2Proof.Machine.execStreamResume src s
  | .streamAppend src tokens => Sys2Proof.Machine.execStreamAppend src tokens s
  | .streamRetire src => Sys2Proof.Machine.execStreamRetire src s
  | .streamRelease src => Sys2Proof.Machine.execStreamRelease src s
  | .tokenLogRead src => Sys2Proof.Machine.execTokenLogRead src s
  | .prefixCreate src => Sys2Proof.Machine.execPrefixCreate src s
  | .prefixFree src => Sys2Proof.Machine.execPrefixFree src s
  | .runStep src => Sys2Proof.Machine.execRunStep src s
  | .cycLoad src slots => Sys2Proof.Machine.execCycLoad src slots s
  | .cycStart src => Sys2Proof.Machine.execCycStart src s
  | .cycStop src => Sys2Proof.Machine.execCycStop src s
  | .cycFree src => Sys2Proof.Machine.execCycFree src s
  | .swarmSelfSet src => Sys2Proof.Machine.execSwarmSelfSet src s
  | .swarmMemberSet src => Sys2Proof.Machine.execSwarmMemberSet src s
  | .swarmMemberClear src => Sys2Proof.Machine.execSwarmMemberClear src s
  | .swarmGroupSet src map => Sys2Proof.Machine.execSwarmGroupSet src map s
  | .capBind src => Sys2Proof.Machine.execCapBind src s
  | .capUnbind src => Sys2Proof.Machine.execCapUnbind src s
  | .capFill src => Sys2Proof.Machine.execCapFill src s
  | .capRiskHint src => Sys2Proof.Machine.execCapRiskHint src s
  | .waggleSet src => Sys2Proof.Machine.execWaggleSet src s
  | .openRegionRoutine src reads => Sys2Proof.Machine.execOpenRegionRoutine src reads s
  | .openRoutineTimeout => Sys2Proof.Machine.execOpenRoutineTimeout s
  | .parityMachineCheck addr mask => Sys2Proof.Machine.execParityMachineCheck addr mask s
  | .mchkReadbackDone ok => Sys2Proof.Machine.execMchkReadbackDone ok s
  | .xlateTrap => Sys2Proof.Machine.execXlateTrap s
  | .hello inst => Sys2Proof.Machine.execHello inst s
  | .fwStage inst read => Sys2Proof.Machine.execFwStage inst read s
  | .fwActivate inst => Sys2Proof.Machine.execFwActivate inst s
  | .fwCoreUpdate inst => Sys2Proof.Machine.execFwCoreUpdate inst s
  | .orphanResume inst => Sys2Proof.Machine.execOrphanResume inst s
  | .orphanReset inst => Sys2Proof.Machine.execOrphanReset inst s
  | .zeroize inst => Sys2Proof.Machine.execZeroize inst s
  | .zeroizeDone ok => Sys2Proof.Machine.execZeroizeDone ok s
  | .lifecycleAdvance inst token verified => Sys2Proof.Machine.execLifecycleAdvance inst token verified s
  | .openKeySet inst => Sys2Proof.Machine.execOpenKeySet inst s
  | .selfTest inst => Sys2Proof.Machine.execSelfTest inst s
  | .openLoad inst image => Sys2Proof.Machine.execOpenLoad inst image s
  | .openClear inst => Sys2Proof.Machine.execOpenClear inst s
  | .getVersion q => Sys2Proof.Machine.execGetVersion q s
  | .getCapabilities q => Sys2Proof.Machine.execGetCapabilities q s
  | .negotiateAlgorithms q algorithms => Sys2Proof.Machine.execNegotiateAlgorithms q algorithms s
  | .getDigests q => Sys2Proof.Machine.execGetDigests q s
  | .getCertificate q slot => Sys2Proof.Machine.execGetCertificate q slot s
  | .challenge q slot => Sys2Proof.Machine.execChallenge q slot s
  | .getMeasurements q index => Sys2Proof.Machine.execGetMeasurements q index s
  | .keyExchange q id => Sys2Proof.Machine.execKeyExchange q id s
  | .finish q verified => Sys2Proof.Machine.execFinish q verified s
  | .keyUpdate q => Sys2Proof.Machine.execKeyUpdate q s
  | .spdmHeartbeat q => Sys2Proof.Machine.execSpdmHeartbeat q s
  | .endSession q => Sys2Proof.Machine.execEndSession q s
  | .swarmKeyLoad q epoch activateAt key => Sys2Proof.Machine.execSwarmKeyLoad q epoch activateAt key s
  | .ideKmQuery q => Sys2Proof.Machine.execIdeKmQuery q s
  | .ideKmKeyProg q stream sub set => Sys2Proof.Machine.execIdeKmKeyProg q stream sub set s
  | .ideKmKSetGo q stream sub set => Sys2Proof.Machine.execIdeKmKSetGo q stream sub set s
  | .ideKmKSetStop q stream sub set => Sys2Proof.Machine.execIdeKmKSetStop q stream sub set s
  | .mbxInGo fn => Sys2Proof.Machine.execMbxInGo fn s
  | .mbxOutAck fn => Sys2Proof.Machine.execMbxOutAck fn s
  | .mbxOutPost fn message => Sys2Proof.Machine.execMbxOutPost fn message s
  | .doorbellWrite fn ring value => Sys2Proof.Machine.execDoorbellWrite fn ring value s
  | .pushWrite fn ring words => Sys2Proof.Machine.execPushWrite fn ring words s
  | .tokenRingDoorbell fn ring value => Sys2Proof.Machine.execTokenRingDoorbell fn ring value s
  | .bootRingEnable fn => Sys2Proof.Machine.execBootRingEnable fn s
  | .bootRingDisable fn => Sys2Proof.Machine.execBootRingDisable fn s
  | .fetchReadComplete ring read => Sys2Proof.Machine.execFetchReadComplete ring read s
  | .fetchRereadTimer ring => Sys2Proof.Machine.execFetchRereadTimer ring s
  | .specPollTimer ring => Sys2Proof.Machine.execSpecPollTimer ring s
  | .entryStart ring => Sys2Proof.Machine.execEntryStart ring s
  | .barrierRelease ring => Sys2Proof.Machine.execBarrierRelease ring s
  | .headShadowWrite ring => Sys2Proof.Machine.execHeadShadowWrite ring s
  | .completionWriteError ring index => Sys2Proof.Machine.execCompletionWriteError ring index s
  | .ringDrainEnd ring => Sys2Proof.Machine.execRingDrainEnd ring s
  | .statusBlockUpdate op => Sys2Proof.Machine.execStatusBlockUpdate op s
  | .statusBlockWriteError op => Sys2Proof.Machine.execStatusBlockWriteError op s
  | .hostCopyDone context ok => Sys2Proof.Machine.execHostCopyDone context ok s
  | .inspectionSnapshot => Sys2Proof.Machine.execInspectionSnapshot s
  | .inspectionSnapshotDone => Sys2Proof.Machine.execInspectionSnapshotDone s
  | .scrubRow strikes => Sys2Proof.Machine.execScrubRow strikes s
  | .combInitDone => Sys2Proof.Machine.execCombInitDone s
  | .promptFetchDone index tokens => Sys2Proof.Machine.execPromptFetchDone index tokens s
  | .promptFetchFail index => Sys2Proof.Machine.execPromptFetchFail index s
  | .firstPagesRetry => Sys2Proof.Machine.execFirstPagesRetry s
  | .forecast partition => Sys2Proof.Machine.execForecast partition s
  | .pagerMemberReport partition index => Sys2Proof.Machine.execPagerMemberReport partition index s
  | .commit partition => Sys2Proof.Machine.execCommit partition s
  | .commitWaitTimeout partition => Sys2Proof.Machine.execCommitWaitTimeout partition s
  | .memberTableWriteError partition kind => Sys2Proof.Machine.execMemberTableWriteError partition kind s
  | .draftStepCompose partition => Sys2Proof.Machine.execDraftStepCompose partition s
  | .idleSweep => Sys2Proof.Machine.execIdleSweep s
  | .pressureVictim die => Sys2Proof.Machine.execPressureVictim die s
  | .dispatchRecord agent slot partition => Sys2Proof.Machine.execDispatchRecord agent slot partition s
  | .programCheckDone agent slot partition program timing => Sys2Proof.Machine.execProgramCheckDone agent slot partition program timing s
  | .launchExpand agent slot partition => Sys2Proof.Machine.execLaunchExpand agent slot partition s
  | .engineCommandIssue agent core engine => Sys2Proof.Machine.execEngineCommandIssue agent core engine s
  | .queueCredit agent core engine => Sys2Proof.Machine.execQueueCredit agent core engine s
  | .headIssue agent core engine => Sys2Proof.Machine.execHeadIssue agent core engine s
  | .commandComplete agent core engine slot launch index status quad => Sys2Proof.Machine.execCommandComplete agent core engine slot launch index status quad s
  | .waitTimeout agent core engine => Sys2Proof.Machine.execWaitTimeout agent core engine s
  | .gateTimeout agent core engine => Sys2Proof.Machine.execGateTimeout agent core engine s
  | .completionRecord agent slot partition launch => Sys2Proof.Machine.execCompletionRecord agent slot partition launch s
  | .executionFaultReport agent slot partition => Sys2Proof.Machine.execExecutionFaultReport agent slot partition s
  | .stepStop agent slot partition => Sys2Proof.Machine.execStepStop agent slot partition s
  | .endOfStepRecord agent slot partition => Sys2Proof.Machine.execEndOfStepRecord agent slot partition s
  | .sampleRowDone partition kind member row read => Sys2Proof.Machine.execSampleRowDone partition kind member row read s
  | .fullScanDone partition kind member row logits => Sys2Proof.Machine.execFullScanDone partition kind member row logits s
  | .memberStepEnd partition kind member => Sys2Proof.Machine.execMemberStepEnd partition kind member s
  | .stepDispatch context => Sys2Proof.Machine.execStepDispatch context s
  | .sliceEnd partition => Sys2Proof.Machine.execSliceEnd partition s
  | .sliceDrainTimeout partition => Sys2Proof.Machine.execSliceDrainTimeout partition s
  | .contextSwapOut context => Sys2Proof.Machine.execContextSwapOut context s
  | .contextSaveDone context ok => Sys2Proof.Machine.execContextSaveDone context ok s
  | .contextLoad context => Sys2Proof.Machine.execContextLoad context s
  | .contextLoadDone context ok => Sys2Proof.Machine.execContextLoadDone context ok s
  | .boundaryTest partition => Sys2Proof.Machine.execBoundaryTest partition s
  | .boundaryRetest partition => Sys2Proof.Machine.execBoundaryRetest partition s
  | .preemption agent slot partition => Sys2Proof.Machine.execPreemption agent slot partition s
  | .slotStopped agent slot partition => Sys2Proof.Machine.execSlotStopped agent slot partition s
  | .regulatorRefill cls port => Sys2Proof.Machine.execRegulatorRefill cls port s
  | .pageMoveDone die ok => Sys2Proof.Machine.execPageMoveDone die ok s
  | .demotePage die index => Sys2Proof.Machine.execDemotePage die index s
  | .narrowPathResponse tag ok => Sys2Proof.Machine.execNarrowPathResponse tag ok s
  | .narrowPathTimeout tag => Sys2Proof.Machine.execNarrowPathTimeout tag s
  | .regionPoison region page => Sys2Proof.Machine.execRegionPoison region page s
  | .regionRepairDone region page ok hard => Sys2Proof.Machine.execRegionRepairDone region page ok hard s
  | .framePoison kind index page hard => Sys2Proof.Machine.execFramePoison kind index page hard s
  | .frameTableSweep => Sys2Proof.Machine.execFrameTableSweep s
  | .retireFramePop => Sys2Proof.Machine.execRetireFramePop s
  | .ppsEdge phase => Sys2Proof.Machine.execPpsEdge phase s
  | .missedSecond => Sys2Proof.Machine.execMissedSecond s
  | .acquireNoEdge => Sys2Proof.Machine.execAcquireNoEdge s
  | .holdoverExpire => Sys2Proof.Machine.execHoldoverExpire s
  | .tbReacq fn => Sys2Proof.Machine.execTbReacq fn s
  | .tbTodArm fn => Sys2Proof.Machine.execTbTodArm fn s
  | .tbNowCapture fn => Sys2Proof.Machine.execTbNowCapture fn s
  | .timedStart context launch => Sys2Proof.Machine.execTimedStart context launch s
  | .cycleBoundary table => Sys2Proof.Machine.execCycleBoundary table s
  | .slotLead table slot => Sys2Proof.Machine.execSlotLead table slot s
  | .slotStart table slot => Sys2Proof.Machine.execSlotStart table slot s
  | .slotDeadline table slot => Sys2Proof.Machine.execSlotDeadline table slot s
  | .stkHotRise stack => Sys2Proof.Machine.execStkHotRise stack s
  | .stkHotFall stack => Sys2Proof.Machine.execStkHotFall stack s
  | .stkCritRise stack => Sys2Proof.Machine.execStkCritRise stack s
  | .throttleHoldRelease stack => Sys2Proof.Machine.execThrottleHoldRelease stack s
  | .deferExpire stack => Sys2Proof.Machine.execDeferExpire stack s
  | .swarmPortEnable fn value => Sys2Proof.Machine.execSwarmPortEnable fn value s
  | .swarmHello h chipId domain => Sys2Proof.Machine.execSwarmHello h chipId domain s
  | .swarmHelloAck h chipId domain => Sys2Proof.Machine.execSwarmHelloAck h chipId domain s
  | .swarmHeartbeat h => Sys2Proof.Machine.execSwarmHeartbeat h s
  | .timeReq h t1 t2 => Sys2Proof.Machine.execTimeReq h t1 t2 s
  | .timeResp h t1 t2 t3 t4 => Sys2Proof.Machine.execTimeResp h t1 t2 t3 t4 s
  | .collAnnounce h step t0 windowNs timed => Sys2Proof.Machine.execCollAnnounce h step t0 windowNs timed s
  | .stepSlip h step slipNs serial => Sys2Proof.Machine.execStepSlip h step slipNs serial s
  | .collAbandon h step launch status missed => Sys2Proof.Machine.execCollAbandon h step launch status missed s
  | .stateNotice h => Sys2Proof.Machine.execStateNotice h s
  | .remoteCmd h ticket frag frags words => Sys2Proof.Machine.execRemoteCmd h ticket frag frags words s
  | .remoteResult h ticket status detail => Sys2Proof.Machine.execRemoteResult h ticket status detail s
  | .capOffer h shard pages ticket domain => Sys2Proof.Machine.execCapOffer h shard pages ticket domain s
  | .capAccept h ticket status shard => Sys2Proof.Machine.execCapAccept h ticket status shard s
  | .capReport h step closed risk urgent missed group => Sys2Proof.Machine.execCapReport h step closed risk urgent missed group s
  | .capPlan h groupStep groupCut group nextValid void p n => Sys2Proof.Machine.execCapPlan h groupStep groupCut group nextValid void p n s
  | .capCut h shard n commitCut step pages void => Sys2Proof.Machine.execCapCut h shard n commitCut step pages void s
  | .capSeal h shard n ticket loss => Sys2Proof.Machine.execCapSeal h shard n ticket loss s
  | .capAck h shard n pages closed status ticket => Sys2Proof.Machine.execCapAck h shard n pages closed status ticket s
  | .capFillPacket h shard cut ticket first op => Sys2Proof.Machine.execCapFillPacket h shard cut ticket first op s
  | .capPageTransfer context => Sys2Proof.Machine.execCapPageTransfer context s
  | .stagingCopyDone context page => Sys2Proof.Machine.execStagingCopyDone context page s
  | .buddyReseek context => Sys2Proof.Machine.execBuddyReseek context s
  | .riskRecompute => Sys2Proof.Machine.execRiskRecompute s
  | .heartbeatPeriod => Sys2Proof.Machine.execHeartbeatPeriod s
  | .absenceTimeout member => Sys2Proof.Machine.execAbsenceTimeout member s
  | .timeTransferPeriod member => Sys2Proof.Machine.execTimeTransferPeriod member s
  | .requestRetryTimeout ticket => Sys2Proof.Machine.execRequestRetryTimeout ticket s
  | .secondCopySend => Sys2Proof.Machine.execSecondCopySend s
  | .remoteSlotTimeout slot => Sys2Proof.Machine.execRemoteSlotTimeout slot s
  | .windowMiss context launch member => Sys2Proof.Machine.execWindowMiss context launch member s
  | .announceExpiry index => Sys2Proof.Machine.execAnnounceExpiry index s
  | .keyActivate => Sys2Proof.Machine.execKeyActivate s
  | .collArrived port context launch member => Sys2Proof.Machine.execCollArrived port context launch member s
  | .collDone port context base length => Sys2Proof.Machine.execCollDone port context base length s
  | .linkHealth port spare retrain => Sys2Proof.Machine.execLinkHealth port spare retrain s
  | .portState port up => Sys2Proof.Machine.execPortState port up s
  | .swarmDrop port => Sys2Proof.Machine.execSwarmDrop port s
  | .watchdogExpiry proc => Sys2Proof.Machine.execWatchdogExpiry proc s
  | .processorTrapFault proc cause pc => Sys2Proof.Machine.execProcessorTrapFault proc cause pc s
  | .restartLimitExpiry proc => Sys2Proof.Machine.execRestartLimitExpiry proc s
  | .rebuildComplete proc => Sys2Proof.Machine.execRebuildComplete proc s
  | .fwRestartForce fn => Sys2Proof.Machine.execFwRestartForce fn s
  | .bootLoadTimeout => Sys2Proof.Machine.execBootLoadTimeout s
  | .leaseExpiry => Sys2Proof.Machine.execLeaseExpiry s
  | .linkDown => Sys2Proof.Machine.execLinkDown s
  | .pfFlr => Sys2Proof.Machine.execPfFlr s
  | .vfFlr fn => Sys2Proof.Machine.execVfFlr fn s
  | .flrTimeout fn => Sys2Proof.Machine.execFlrTimeout fn s
  | .wagglePassage point => Sys2Proof.Machine.execWagglePassage point s
  | .fenceCmd fn value => Sys2Proof.Machine.execFenceCmd fn value s
  | .unfenceCmd fn value => Sys2Proof.Machine.execUnfenceCmd fn value s
  | .fenceBusFence cls index checkOk => Sys2Proof.Machine.execFenceBusFence cls index checkOk s
  | .fenceBusUnfence cls index checkOk => Sys2Proof.Machine.execFenceBusUnfence cls index checkOk s
  | .fenceBusReg cls index checkOk => Sys2Proof.Machine.execFenceBusReg cls index checkOk s
  | .fenceBusIrq agent checkOk => Sys2Proof.Machine.execFenceBusIrq agent checkOk s
  | .fenceBusAck cls index seq => Sys2Proof.Machine.execFenceBusAck cls index seq s
  | .fenceBusNak cls index seq => Sys2Proof.Machine.execFenceBusNak cls index seq s
  | .fenceAckTimeout cls index => Sys2Proof.Machine.execFenceAckTimeout cls index s
  | .faultForce fn offset value => Sys2Proof.Machine.execFaultForce fn offset value s
  | .severeClear fn id value => Sys2Proof.Machine.execSevereClear fn id value s
  | .humToggle => Sys2Proof.Machine.execHumToggle s
  | .irqLevelChange source level => Sys2Proof.Machine.execIrqLevelChange source level s
  | .icClaim proc fast => Sys2Proof.Machine.execIcClaim proc fast s
  | .icComplete proc fast source => Sys2Proof.Machine.execIcComplete proc fast source s
  | .stormUnmask fn value => Sys2Proof.Machine.execStormUnmask fn value s
  | .holdoffExpiry group => Sys2Proof.Machine.execHoldoffExpiry group s
  | .rcCounterRead fn offset => Sys2Proof.Machine.execRcCounterRead fn offset s
  | .registerWrite fn offset width value => Sys2Proof.Machine.execRegisterWrite fn offset width value s
  | .powerOnReset => Sys2Proof.Machine.execPowerOnReset s
  | .resetRelease => Sys2Proof.Machine.execResetRelease s
  | .fuseMapReadDone words error => Sys2Proof.Machine.execFuseMapReadDone words error s
  | .guardPostDone bits => Sys2Proof.Machine.execGuardPostDone bits s
  | .entropyRetest passed => Sys2Proof.Machine.execEntropyRetest passed s
  | .softReset fn value => Sys2Proof.Machine.execSoftReset fn value s
  | .softResetTakeEffect => Sys2Proof.Machine.execSoftResetTakeEffect s
  | .sleepRequest fn => Sys2Proof.Machine.execSleepRequest fn s
  | .sleepRequestClear fn => Sys2Proof.Machine.execSleepRequestClear fn s
  | .sleepEntryDone => Sys2Proof.Machine.execSleepEntryDone s
  | .wakeTimeReached => Sys2Proof.Machine.execWakeTimeReached s
  | .wakeRestoreDone clean icClean => Sys2Proof.Machine.execWakeRestoreDone clean icClean s
  | .freezePin => Sys2Proof.Machine.execFreezePin s
  | .thaw => Sys2Proof.Machine.execThaw s
  | .idcode => Sys2Proof.Machine.execIdcode s
  | .scanSel chain => Sys2Proof.Machine.execScanSel chain s
  | .scanDump => Sys2Proof.Machine.execScanDump s
  | .bypass bit => Sys2Proof.Machine.execBypass bit s
  | .capPageReceived owner shard n page => Sys2Proof.Machine.execCapPageReceived owner shard n page s
  | .fillPageReceived context page => Sys2Proof.Machine.execFillPageReceived context page s
  | .htpDcCompletion tag read => Sys2Proof.Machine.execHtpDcCompletion tag read s
  | .atsInvalidation tag addr => Sys2Proof.Machine.execAtsInvalidation tag addr s
  | .fabricReadResponse aim read => Sys2Proof.Machine.execFabricReadResponse aim read s
  | .stkCritFall stack => Sys2Proof.Machine.execStkCritFall stack s
  | .mcCePulse cls port => Sys2Proof.Machine.execMcCePulse cls port s
  | .fuseProgramAck error => Sys2Proof.Machine.execFuseProgramAck error s
  | .processorLoaded proc watchdogMs => Sys2Proof.Machine.execProcessorLoaded proc watchdogMs s
  | .stageVerifyDone facts => Sys2Proof.Machine.execStageVerifyDone facts s

end Sys2Proof.Machine
end

