-- ==== Sys2Proof/Safety.lean ====
section
/-!
DEFINITION. What the statements mean by a state in good order, by a command of the interpreter that is offered, and by what
a command answers.
-/

namespace Sys2Proof

open Sys2Proof.Machine

/-- The register file is canonical: offsets rise, and no register is listed at its reset value. -/
def RegsCanonical (s : State) : Bool := Tbl.wf resetVal s.regs

/-- The answer of every command. -/
abbrev Answered := Host.Outcome State Fault Refusal

/-- Source src offers the interpreter the command c of an opcode, whose STATUS_ADDR, where it has one, is in range, and
CCLK runs; a remote command's instance is still ACTIVE (R323). -/
def Offers (s : State) (src : Src) (op : Nat) (c : Cmd) : Prop :=
  s.clocked = true ∧ s.cmd src = some c ∧ c.opcode = op ∧ c.statusFail = none ∧
  (c.remote.isSome && !s.active c.inst) = false

/-- The next state of a command whose effect leaves t, with what that effect lets go on carried out (log 33). -/
def goesOn (t : State) : Answered := .next t.settle

/-- The next state of an interpreter command that completes with a status: its effect leaves t, its entry completes with
RESULT words rs. -/
def ends (t : State) (c : Cmd) (status : Byte) (rs : List Word) (detail : Nat) : Answered :=
  .next (t.finishCmd c status rs detail).settle

/-- Completion ST_OK, DETAIL 0 (R299). -/
def completes (t : State) (c : Cmd) (rs : List Word) : Answered := ends t c St.ok rs 0

/-- Refusal with a status and DETAIL: nothing but the completion changes (R300). -/
def refuses (s : State) (c : Cmd) (status : Byte) (detail : Nat) : Answered := ends s c status [] detail

/-- Acceptance of a long operation (R309): t the state once its entry has completed ST_PENDING. -/
def accepted (s : State) (c : Cmd) (addr : Nat) (body : OpBody) (aux : Word) (rs : List Word) : State :=
  (s.openOp c addr body aux rs).finishCmd c St.pending rs 0

/-- The next state of an interpreter command whose effect leaves t and that the event w completes later: the interpreter
is free, and a remote command's slot is held (R253, R359). -/
def waitsFor (t : State) (src : Src) (w : Waiting) : Answered :=
  let slots := match src with
    | .remote k => Tbl.adjust (fun x => { x with running := true }) t.swarm.slots k
    | .ring _ => t.swarm.slots
  goesOn { t with swarm := { t.swarm with slots },
                  interp := { t.interp with current := none, waiting := t.interp.waiting ++ [(src, w)] } }

/-- A command's read of rows of the entry of stream i meets no poison and no uncorrectable word; r is the state once the
single-bit errors that it met are corrected (R51, R54, log 9). -/
def Reads (s : State) (i : Nat) (rows : List Nat) (r : State) : Prop :=
  (s.entry i).poison = false ∧ s.meetsUncorrectable (entryRows i rows) = false ∧ s.readWords (entryRows i rows) = r

/-- A packet with header h, its length allowed by len, passes the five checks of R244; t is the state once it is heard. -/
def Heard (s : State) (h : SwarmHdr) (len : Nat → Bool) (t : State) : Prop :=
  s.clocked = true ∧ (s.reg Reg.swmCtrl).bit 0 = true ∧ s.srcOk h = true ∧ s.epochOk h = true ∧ h.ver = 1 ∧
  h.defined = true ∧ h.reserved = false ∧ len h.len = true ∧ ∃ x, (s.member h.src).replay h.seq = some x ∧
    1000000 ≤ (x.refill s.ns).bucket ∧ t = s.heard h (x.refill s.ns)

/-- The firmware takes the physical function's mailbox message of a code, defined for the version matched, as request q
(R326, R348, R349); t is the state with the mailbox free. -/
def Taken (s : State) (code : Nat) (q : MbxReq) (t : State) : Prop :=
  s.clocked = true ∧ s.mbxServed 0 = true ∧ s.mbxCode 0 = code ∧ (s.inst 0).matched.isSome = true ∧
  s.mbxDefined 0 code = true ∧ q = s.mbxRequest 0 ∧ t = s.setInBusy 0 false

/-- The cores that a launch names, of those of its step's quarter-clusters qcs (R62). -/
def coresNamed (s : State) (d : Desc) (qcs : List Nat) : List Nat := (s.launchCores d qcs).filterMap id

/-- The SPDM responder takes up request q of a code: it serves, the request is well formed, of SPDM 1.2 or 1.3 unless it is
GET_VERSION, in a session that is open, if in any, and a sample that it draws passes its test (R399, R403). -/
def DoeTaken (s : State) (q : DoeReq) (code : Nat) (random : Bool) : Prop :=
  s.clocked = true ∧ s.hasInst q.fn = true ∧ s.guardSealed = false ∧ s.guardFail random = none ∧ q.bytes ≤ 4096 ∧
  q.ok = true ∧ (q.session = none ∨ (s.doeSession q).isSome = true) ∧
  (code = 0x84 ∨ q.version = 0x12 ∨ q.version = 0x13) ∧ (random = true → q.test ≠ .entropy)

/-- Request q comes in a session that its FINISH has completed (R403). -/
def Secured (s : State) (q : DoeReq) : Prop := (s.doeSession q).any (fun x => x.finished) = true

/-- Can a BAR access to a function reach its registers (R317, R454)? -/
def Reachable (s : State) (fn : Nat) : Prop :=
  s.power.freeze = none ∧ s.power.st = .run ∧ s.barOpen = true ∧ s.served fn = true

/-- What the block works on: everything but its registers, the rings, the interpreter, the Swarm Port's members and
packets, the firmware's records, the fault counts, the interrupt lines, HUM_OUT, the monitor's events and the outputs. -/
structure Work where
  pending : List Instr
  cc      : Nat
  ticks   : Nat
  comb    : Comb
  agents  : Tbl Agent
  sched   : Sched
  reqs    : List HeldReq
  comp    : Composer
  pager   : Pager
  sampler : Sampler
  tb      : Timebase
  cyc     : Tbl CycTable
  atc     : List (Nat × Nat)
  insts   : Tbl Instance
  cap     : Capping
  guard   : Guard
  power   : Power
  deriving DecidableEq, Repr

def workOf (s : State) : Work :=
  { pending := s.pending, cc := s.cc, ticks := s.ticks, comb := s.comb, agents := s.agents, sched := s.sched,
    reqs := s.reqs, comp := s.comp, pager := s.pager, sampler := s.sampler, tb := s.tb, cyc := s.cyc, atc := s.atc, insts := s.insts,
    cap := s.cap, guard := s.guard, power := s.power }

/-- Nothing waits that a later effect would carry on: no fence, instance reset, core update or activation (log 33). -/
def Quiet (s : State) : Prop :=
  s.fences.demand = [] ∧ s.fences.busy = none ∧ (∀ e ∈ s.insts, e.2.seq = none) ∧ s.fw.orphanReq = none ∧
  s.fw.update = none ∧ s.fw.activate = none

end Sys2Proof
end

