-- ==== Sys2Proof/Certificates/Slice0/Obligations.lean ====
section
/-!
DEFINITION. The statements. A completion statement answers exec's next state for operands that the spec accepts: completes,
ends, refuses, accepted, waitsFor and goesOn are those of Sys2Proof.Safety. Statements over a free value hold for each.
-/

open Sys2Proof Sys2Proof.Machine

/-- The command at the front of the queue is taken: the step is its effect on the state with the queue's rest. -/
def Obligations.StepRunsTheFrontCommand : Prop := ∀ (s : State) (c : Instr) (rest : List Instr), s.pending = c :: rest →
  step s = exec c { s with pending := rest }

/-- With no command waiting a step is one cycle of TB_REF (the model's choice, log 1), in which the Timebase counter
advances by TB_INCR (R220), CCLK's count by its cycles in that time unless CCLK is stopped; in reset nothing moves. -/
def Obligations.AnEmptyQueuePassesATimebaseCycle : Prop := ∀ s : State, s.pending = [] →
  (s.inReset = true → step s = .next s) ∧
  (s.inReset = false → step s = .next { s with
    tb := { s.tb with ctr := s.tb.ctr + s.tb.incr.setWidth 96 },
    ticks := s.ticks + 1,
    cc := if s.clocked then s.cc + Config.ccPerRef s.ticks else s.cc })

/-- Reset values that the spec states: the Timebase at 0 with the nominal increment (R220), no lock (R224), the lease
INACTIVE (R344), every Comb entry FREE with generation 1 (R50), boot rings DISABLED and the others FREE (R287), instance 0
ACTIVE and the others NONE (R317, R323), members EMPTY (R242), no swarm key (R406), nothing fenced, and registers. -/
def Obligations.ResetLeavesTheStatedValues : Prop :=
  State.reset.pending = [] ∧ State.reset.power.phase = .inReset ∧
  State.reset.tb.ctr = 0 ∧ State.reset.tb.incr = BitVec.ofNat 40 Config.tbRefPeriod ∧ State.reset.tb.lock = .freeRun ∧
  State.reset.fw.lease = .inactive ∧ State.reset.guard.current = none ∧ State.reset.comb.initDone = false ∧
  (∀ i, State.reset.entry i = { gen := 1 }) ∧
  (∀ r, r < 64 → (State.reset.ring r).st = .disabled) ∧ (∀ r, 64 ≤ r → (State.reset.ring r).st = .free) ∧
  (State.reset.inst 0).st = .active ∧ (∀ i, i ≠ 0 → (State.reset.inst i).st = .none) ∧
  (∀ m, (State.reset.member m).st = .empty) ∧ (∀ k, State.reset.combHead = some k → k = 0) ∧
  (State.reset.fences.cores = [] ∧ State.reset.fences.clusters = [] ∧ State.reset.fences.links = []) ∧
  State.reset.reg Reg.icCtrl = 1 ∧ State.reset.reg Reg.icStormCfg = 0xFF402800 ∧ State.reset.reg Reg.smpCtrl = 1 ∧
  (∀ n, (State.reset.irq n).level = false ∧ (State.reset.irq n).active = none)

/-- The register file after reset is canonical. -/
def Obligations.ResetRegistersAreCanonical : Prop := RegsCanonical State.reset = true

/-- Every step keeps the register file canonical: offsets rise, and no register is listed at its reset value. -/
def Obligations.StepKeepsRegistersCanonical : Prop := ∀ s t : State, step s = .next t → RegsCanonical s = true →
  RegsCanonical t = true

/-- The queue is first in, first out, and no command but the step's own leaves it or enters it. -/
def Obligations.StepTakesOneCommandAndNoOther : Prop := ∀ s t : State, step s = .next t → RegsCanonical s = true →
  t.pending = s.pending.tail

/-- A mailbox message other than HELLO that arrives without a matched version is the one stop of the model: R348 leaves
what it does undefined. -/
def Obligations.UnmatchedMessagesStop : Prop := ∀ (s : State) (i : Nat) (r : Reply) (b : Bool), s.clocked = true →
    s.mbxServed i = true → (s.inst i).matched = none →
  (s.mbxCode i = 0x10 → exec (.fwStage i r) s = .fault .unmatchedVersion) ∧
  (s.mbxCode i = 0x11 → exec (.fwActivate i) s = .fault .unmatchedVersion) ∧
  (s.mbxCode i = 0x12 → exec (.fwCoreUpdate i) s = .fault .unmatchedVersion) ∧
  (s.mbxCode i = 0x20 → exec (.orphanResume i) s = .fault .unmatchedVersion) ∧
  (s.mbxCode i = 0x21 → exec (.orphanReset i) s = .fault .unmatchedVersion) ∧
  (s.mbxCode i = 0x30 → exec (.openLoad i r) s = .fault .unmatchedVersion) ∧
  (s.mbxCode i = 0x31 → exec (.openClear i) s = .fault .unmatchedVersion) ∧
  (s.mbxCode i = 0x40 → exec (.zeroize i) s = .fault .unmatchedVersion) ∧
  (s.mbxCode i = 0x41 → exec (.lifecycleAdvance i r b) s = .fault .unmatchedVersion) ∧
  (s.mbxCode i = 0x42 → exec (.openKeySet i) s = .fault .unmatchedVersion) ∧
  (s.mbxCode i = 0x43 → exec (.selfTest i) s = .fault .unmatchedVersion) ∧
  (s.mbxCode i ≠ 0x01 → (s.mbxCode i) ∉ codes10 → (s.mbxCode i) ∉ codes11 → exec (.hello i) s = .fault .unmatchedVersion)

/-- A stream handle is GEN in [31:18] above INDEX in [17:0] (R33); a generation is 1 to 16 383, since that of an entry is 1
at first and its next one is never 0. -/
def Obligations.HandlesHoldGenerationAboveIndex : Prop := ∀ (s : State) (i : Nat), i < 2 ^ 18 →
  (State.reset.entry i).gen = 1 ∧ (∀ g, nextGen g ≠ 0) ∧
  (∀ h : Word, h = Word.mk (s.handle i) →
    h.toNat = (s.entry i).gen.toNat * 2 ^ 18 + i ∧ h.extractLsb' 18 14 = (s.entry i).gen ∧ handleIndex h = i)

/-- A command that names a handle is refused ST_STALE_HANDLE in each of the three cases of R35, once the fields checked
before it are in range, and the Comb keeps what it held. -/
def Obligations.StaleHandlesAreRefused : Prop := ∀ (s : State) (src : Src) (c : Cmd) (h : Word) (i : Nat),
    h = c.word 0x08 → i = h.toNat % 2 ^ 18 →
    h.toNat / 2 ^ 18 ≠ (s.entry i).gen.toNat ∨ (s.entry i).st = .free ∨ (s.entry i).st = .unusable ∨
      (s.entry i).inst.toNat ≠ c.inst →
  (Offers s src 0x63 c → exec (.streamPark src) s = refuses s c St.staleHandle 0x08) ∧
  (Offers s src 0x64 c → exec (.streamResume src) s = refuses s c St.staleHandle 0x08) ∧
  (Offers s src 0x66 c → exec (.streamRetire src) s = refuses s c St.staleHandle 0x08) ∧
  (Offers s src 0x67 c → exec (.streamRelease src) s = refuses s c St.staleHandle 0x08) ∧
  (∀ m, Offers s src 0x62 c → (c.dword 0x10).toNat % 64 = 0 →
    exec (.streamQuery src m) s = refuses s c St.staleHandle 0x08) ∧
  (∀ r, Offers s src 0x65 c → c.word 0x0C ≠ 0 → (c.word 0x0C).toNat ≤ 1048576 → (c.dword 0x10).toNat % 4 = 0 →
    exec (.streamAppend src r) s = refuses s c St.staleHandle 0x08) ∧
  (Offers s src 0x68 c → c.word 0x10 ≠ 0 → (c.word 0x10).toNat ≤ 1048576 → (c.dword 0x18).toNat % 4 = 0 →
    exec (.tokenLogRead src) s = refuses s c St.staleHandle 0x08) ∧
  (Offers s src 0x69 c → c.word 0x0C ≠ 0 → exec (.prefixCreate src) s = refuses s c St.staleHandle 0x08) ∧
  (∀ sel new, Offers s src 0x61 c → c.word 0x0C = sel → packetParams c 0x10 = new →
    sel.bit 8 = false ∨ samplingFail new = none → tableRangeFail sel new = none →
    exec (.streamSet src) s = refuses s c St.staleHandle 0x08) ∧
  (s.finishCmd c St.staleHandle [] 0x08).comb = s.comb

/-- Free entries are allocated first in, first out (R36): after initialisation indices 0 to 262 143 in ascending order,
then the released ones, each of which joins the tail under its next generation (R34). -/
def Obligations.FreeEntriesAreTakenInOrder : Prop :=
  State.reset.combHead = some 0 ∧ State.reset.comb.returned = [] ∧
  (∀ s : State, (∀ i, (s.entry i).st ≠ .unusable) →
    (s.comb.fresh < 262144 → s.combHead = some s.comb.fresh ∧ s.combPop.comb = { s.comb with fresh := s.comb.fresh + 1 }) ∧
    (∀ i rest, 262144 ≤ s.comb.fresh → s.comb.returned = i :: rest →
      s.combHead = some i ∧ s.combPop.comb = { s.comb with returned := rest }) ∧
    (262144 ≤ s.comb.fresh → s.comb.returned = [] → s.combHead = none)) ∧
  (∀ (s : State) (i : Nat), (s.freeEntry i).comb.returned = s.comb.returned ++ [i] ∧
    (s.freeEntry i).comb.fresh = s.comb.fresh ∧
    ((s.entry i).gen ≠ 16383 → (s.entry i).gen ≠ 0 → (s.freeEntry i).entry i = { gen := (s.entry i).gen + 1 }))

/-- Candidates rank by value, equal values by token id, the lower first: a total order (R146), in which −0 and +0 are
equal. The values are numbers: a
NaN has been replaced before candidates are ranked (R145, R147). -/
def Obligations.CandidateRankIsATotalOrder : Prop := ∀ a b c : Logit, a.2 ≠ .nan → b.2 ≠ .nan → c.2 ≠ .nan →
  (∀ m n i j, a.2 = .fin m i → b.2 = .fin n j → (FP.key m i > FP.key n j → Logit.above a b = true) ∧
    (FP.key m i = FP.key n j → (Logit.above a b = true ↔ a.1 < b.1))) ∧
  (a.2 = b.2 → (Logit.above a b = true ↔ a.1 < b.1)) ∧
  (a.2 ≠ .inf true → b.2 = .inf true → Logit.above a b = true) ∧
  (a.2 = .inf false → b.2 ≠ .inf false → Logit.above a b = true) ∧
  Logit.above a a = false ∧
  (Logit.above a b = true → Logit.above b c = true → Logit.above a c = true) ∧
  (a.1 ≠ b.1 → Logit.above a b = true ∨ Logit.above b a = true)

/-- A completion or a refusal, of whatever status, leaves what the block works on as it was: streams, agents, contexts,
frames, tables, time, instances, capping, keys and power (R300, R305). -/
def Obligations.CompletionsLeaveTheWorkAlone : Prop := ∀ (s : State) (c : Cmd) (status : Byte) (rs : List Word) (d : Nat),
  workOf (s.finishCmd c status rs d) = workOf s ∧ (Quiet s → Quiet (s.finishCmd c status rs d))

/-- The commands and events of rings and their doorbells, and the commands that set a register of the firmware, the
monitor or the membership, leave what the block works on as it was; a doorbell while the block sleeps is its wake event
(R454), which is the power state's alone. -/
def Obligations.RingAndSettingFrame : Prop := ∀ (s t : State) (i : Instr), Quiet s → exec i s = .next t →
  ((∃ src, i = .nop src ∨ i = .ringCreate src ∨ i = .ringEnable src ∨ i = .tokenRingCreate src ∨ i = .leaseRenew src ∨
      i = .capRiskHint src ∨ i = .waggleSet src ∨ i = .swarmSelfSet src ∨ i = .swarmMemberSet src ∨
      (∃ m, i = .swarmGroupSet src m)) ∨
    (∃ r x w, i = .fetchReadComplete r x ∨ i = .fetchRereadTimer r ∨ i = .specPollTimer r ∨ i = .entryStart r ∨
      i = .barrierRelease r ∨ i = .headShadowWrite r ∨ i = .completionWriteError r w ∨ i = .ringDrainEnd r ∨
      i = .statusBlockUpdate r ∨ i = .statusBlockWriteError r) →
    workOf t = workOf s) ∧
  ((∃ fn r w ws, i = .doorbellWrite fn r w ∨ i = .pushWrite fn r ws ∨ i = .tokenRingDoorbell fn r w) →
    { workOf t with power := s.power } = workOf s ∧ (s.power.st = .run → t.power = s.power))

/-- A completion writes bytes 0x08 to 0x1F of the entry's first unit, then its entry word with MARK 0b10, the status, and
UNITS and INDEX as they were, and moves the head past the entry (R284, R305); in ORPHAN it is held back (R345). The
entry's ring apart, nothing else changes. The outputs are listed newest first. -/
def Obligations.CompletionsWriteTheEntry : Prop := ∀ (s t : State) (r : Nat) (e : Entry) (status : Byte) (rs : List Word)
    (d a : Nat) (x : Ring), x = s.ring r → a = x.base.toNat + 64 * (e.index.toNat % 2 ^ x.sizeLog2) →
    t = s.complete r e status rs d →
  (∃ w : Word, w.extractLsb' 0 2 = 2 ∧ w.extractLsb' 2 6 = (wordAt e.words 0).extractLsb' 2 6 ∧
    w.extractLsb' 8 8 = status ∧ w.extractLsb' 16 16 = 0 ∧
    ∀ ws : List Word,
      ws = [wordAt rs 0, wordAt rs 1, wordAt rs 2, wordAt rs 3, Word.mk d, Word.mk (s.ns % 2 ^ 32)] →
      (s.orphan = false →
        t.out = .hostWrite (s.htp x.inst a) a [w, e.index] :: .hostWrite (s.htp x.inst (a + 8)) (a + 8) ws :: s.out) ∧
      (s.orphan = true → (t.ring r).heldCompl = x.heldCompl ++ [w :: e.index :: ws])) ∧
  (s.orphan = false →
    (t.ring r).head = (if x.stuck then x.head else e.index + Word.mk ((wordAt e.words 0).field 7 2 + 1)) ∧
    ((t.ring r).shadowDue = true ↔ x.headAddr ≠ 0) ∧
    { t with out := s.out, forager := s.forager } = s) ∧
  (s.orphan = true → (t.ring r).head = x.head ∧ { t with fw := s.fw, forager := s.forager } = s) ∧
  (∀ k, k ≠ r → t.ring k = s.ring k)

/-- The replay window of a member (R245): a larger SEQ becomes HIGH and the map shifts; one of the last 64 passes once;
0 and what is older never pass; the bucket refills by RATE packets per ms, up to BURST. -/
def Obligations.ReplayWindowMoves : Prop := ∀ (x : SwarmMember) (seq : Dword),
  (seq = 0 → x.replay seq = none) ∧
  (x.high < seq → ∃ y, x.replay seq = some y ∧ y = { x with high := seq, map := y.map } ∧ y.map.getLsbD 0 = true ∧
    ∀ k, 0 < k → k < 64 → y.map.getLsbD k =
      (decide (seq.toNat - x.high.toNat ≤ k) && x.map.getLsbD (k - (seq.toNat - x.high.toNat)))) ∧
  (seq ≠ 0 → seq ≤ x.high → x.high.toNat - seq.toNat < 64 → x.map.getLsbD (x.high.toNat - seq.toNat) = false →
    ∃ y, x.replay seq = some y ∧ y = { x with map := y.map } ∧
      ∀ k, k < 64 → y.map.getLsbD k = (x.map.getLsbD k || decide (k = x.high.toNat - seq.toNat))) ∧
  (seq ≤ x.high → 64 ≤ x.high.toNat - seq.toNat ∨ x.map.getLsbD (x.high.toNat - seq.toNat) = true →
    x.replay seq = none) ∧
  (∀ y, x.replay seq = some y → y.replay seq = none) ∧
  (∀ t b, b = min (1000000 * x.burst.toNat) (x.bucket + (t - x.bucketAt) * x.rate.toNat) →
    x.refill t = { x with bucket := b, bucketAt := t })

/-- The source that a claim takes is presentable and the highest-numbered that is; with none, the claim reads 0x3FF and
has no effect (R383). -/
def Obligations.HighestSourceIsClaimed : Prop := ∀ (s : State) (p : Nat) (fast : Bool),
  (∀ n, s.claimable p fast = some n ↔ ((∃ x, (n, x) ∈ s.ic.srcs ∧ s.presents p fast n x = true) ∧
    ∀ m y, (m, y) ∈ s.ic.srcs → s.presents p fast m y = true → m ≤ n)) ∧
  (s.clocked = true → (∀ n x, (n, x) ∈ s.ic.srcs → s.presents p fast n x = false) →
    exec (.icClaim p fast) s = goesOn (s.emit (.readData 0 0x3FF)))

/-- The counting of events (R369): a window begins with the first event or once W has passed, a count goes to 4 095, the
threshold is N or 16 × N, and an event turns its source severe where the count equals it; with N = 0 none does. -/
def Obligations.EventsAreCountedInTheirWindow : Prop :=
  (∀ (x : FltCount) (t w : Nat),
    (x.c = 0 ∨ w ≤ t - x.ws → x.event t w = { c := 1, ws := t }) ∧
    (x.c ≠ 0 → t - x.ws < w → x.event t w = { c := min 4095 (x.c + 1), ws := x.ws })) ∧
  (∀ cfg : Word, fltThreshold cfg = (if cfg.getLsbD 0 then 16 else 1) * (cfg.extractLsb' 24 8).toNat) ∧
  (∀ (s : State) (id unit key : Nat) (x : FltCount),
    key = id * 8192 + (if (s.reg (prpFCfg id)).bit 1 then unit else 0) →
    x = (Tbl.get (fun _ => {}) s.fences.counts key : FltCount).event s.ns (fltWindowNs (s.reg (prpFCfg id))) →
    ((s.willTurn id unit = true ↔ x.c = fltThreshold (s.reg (prpFCfg id)) ∧ (s.reg (prpFSev id)).bit 31 = false) ∧
      ((s.reg (prpFCfg id)).extractLsb' 24 8 = 0 → s.willTurn id unit = false)))

/-- A timer's event before its time has no effect: re-reads and polls (R283),
scrubs (R52), hold-offs (R385), FLR (R325), the lease (R344), entropy retests (R399), heartbeats, absences and time transfer
(R242, R243, R252), narrow reads (R420) and the wake time (R437). -/
def Obligations.NothingHappensBeforeItIsDue : Prop := ∀ (s : State) (k : Nat) (w : Word) (l : List Strike) (b : Bool),
    s.clocked = true →
  ((∀ t, (s.ring k).rereadAt = some t → s.ns < t) → exec (.fetchRereadTimer k) s = goesOn s) ∧
  ((∀ t, (s.ring k).pollAt = some t → s.ns < t) → exec (.specPollTimer k) s = goesOn s) ∧
  (s.cc < s.comb.scrubDue → exec (.scrubRow l) s = goesOn s) ∧
  ((∀ t, Tbl.find s.ic.timers k = some t → s.cc < t) → exec (.holdoffExpiry k) s = goesOn s) ∧
  ((∀ t, (s.inst k).flrDue = some t → s.ns < t) → exec (.flrTimeout k) s = goesOn s) ∧
  (s.ns < s.fw.expiry → exec .leaseExpiry s = goesOn s) ∧
  ((∀ t, s.guard.retestAt = some t → s.ns < t) → exec (.entropyRetest b) s = goesOn s) ∧
  (s.ns < s.swarm.hbAt → exec .heartbeatPeriod s = goesOn s) ∧
  (s.ns < (s.member k).heardAt + s.absentNs → exec (.absenceTimeout k) s = goesOn s) ∧
  (s.ns < (s.member k).ttAt → exec (.timeTransferPeriod k) s = goesOn s) ∧
  ((∀ q ∈ s.pager.np, q.tag = k → s.cc < q.sentCc + 2048) → exec (.narrowPathTimeout k) s = goesOn s) ∧
  (s.ns < s.wakeAt → exec .wakeTimeReached s = .next s)

/-- An object that a command names and that is another instance's, or does not exist, gives ST_NO_RESOURCE either way
(R302): rings, token rings, partitions, contexts, models, tables, automata, prefixes and cyclic tables. -/
def Obligations.ForeignObjectsAreRefused : Prop := ∀ (s : State) (src : Src) (c : Cmd),
  (∀ r, r = c.field 0x08 15 0 → (s.ring r).st = .free ∨ (s.ring r).inst ≠ c.inst →
    (Offers s src 0x02 c → exec (.ringEnable src) s = refuses s c St.noResource 0x08) ∧
    (Offers s src 0x03 c → exec (.ringDisable src) s = refuses s c St.noResource 0x08) ∧
    (Offers s src 0x04 c → exec (.ringDestroy src) s = refuses s c St.noResource 0x08)) ∧
  ((∀ x, Tbl.find s.forager.tokens (c.field 0x08 15 0) = some x → x.inst ≠ c.inst) →
    (Offers s src 0x06 c → exec (.tokenRingDestroy src) s = refuses s c St.noResource 0x08)) ∧
  ((∀ x, s.part (c.field 0x08 6 0) = some x → x.inst ≠ c.inst) →
    (Offers s src 0x29 c → exec (.partitionDestroy src) s = refuses s c St.noResource 0x08) ∧
    (Offers s src 0x2A c → 50 ≤ c.field 0x0C 16 0 → c.field 0x0C 16 0 ≤ 100000 →
      exec (.contextCreate src) s = refuses s c St.noResource 0x08) ∧
    (Offers s src 0x43 c → c.field 0x08 9 8 ≠ 3 → exec (.serveUnbind src) s = refuses s c St.noResource 0x08)) ∧
  (∀ k, k = c.field 0x08 11 0 → (s.ctx k).st = .free ∨ (s.ctx k).inst ≠ c.inst →
    (Offers s src 0x2B c → 50 ≤ c.field 0x0C 16 0 → c.field 0x0C 16 0 ≤ 100000 →
      exec (.contextSet src) s = refuses s c St.noResource 0x08) ∧
    (Offers s src 0x2C c → exec (.contextDestroy src) s = refuses s c St.noResource 0x08) ∧
    (Offers s src 0xC5 c → exec (.capUnbind src) s = refuses s c St.noResource 0x08) ∧
    (Offers s src 0xC6 c → exec (.capFill src) s = refuses s c St.noResource 0x08)) ∧
  (Tbl.find s.pager.models (c.field 0x08 15 0) ≠ some c.inst → c.field 0x08 15 0 ≠ 0xFFFF → Offers s src 0x41 c →
    exec (.modelUnload src) s = refuses s c St.noResource 0x08) ∧
  ((∀ x, Tbl.find s.sampler.tables (c.field 0x08 15 0) = some x → x.inst ≠ c.inst) → Offers s src 0x46 c →
    exec (.sampleTableFree src) s = refuses s c St.noResource 0x08) ∧
  ((∀ x, Tbl.find s.sampler.automata (c.field 0x08 11 0) = some x → x.inst ≠ c.inst) → Offers s src 0x48 c →
    exec (.automatonFree src) s = refuses s c St.noResource 0x08) ∧
  ((∀ x, Tbl.find s.pager.prefixes (c.field 0x08 13 0) = some x → x.inst ≠ c.inst) → Offers s src 0x6A c →
    exec (.prefixFree src) s = refuses s c St.noResource 0x08) ∧
  (∀ k, k = c.field 0x08 2 0 → (s.table k).st = .empty ∨ (s.table k).inst ≠ c.inst →
    (Offers s src 0xA1 c → exec (.cycStart src) s = refuses s c St.noResource 0x08) ∧
    (Offers s src 0xA2 c → exec (.cycStop src) s = refuses s c St.noResource 0x08) ∧
    (Offers s src 0xA3 c → exec (.cycFree src) s = refuses s c St.noResource 0x08))

/-- Checks 1 to 4 of R300 in their order, with the issuers of R301 and the DETAIL of R305, and an entry that fails one: it
is started and completes at once with that status. -/
def Obligations.FormChecksComeInOrder : Prop := ∀ (s : State) (c : Cmd) (w : Word) (units : Nat) (m : ParamMask),
    w = wordAt c.ws 0 →
  (w.extractLsb' 8 8 ≠ 1 → s.formFail c = some (St.version, 0x01)) ∧
  (w.extractLsb' 8 8 = 1 → (openOpcode c.opcode = false → cmdForm c.opcode c.ws = none →
    s.formFail c = some (St.badOpcode, 0x03)) ∧
  (openOpcode c.opcode = false → cmdForm c.opcode c.ws = some (units, m) →
    (c.inst ≠ 0 → c.remote = none →
      (c.opcode ∈ [0x08, 0x20, 0x21, 0x23, 0x24, 0x25, 0x26, 0x27, 0x2D, 0xC0, 0xC1, 0xC2, 0xC3, 0xD0] →
        s.formFail c = some (St.auth, 0xFFFFFFFF)) ∧
      (c.opcode = 0x22 → c.field 0x08 5 0 ≠ c.inst → s.formFail c = some (St.auth, 0x08)) ∧
      (c.opcode = 0x28 → c.field 0x08 29 24 ≠ c.inst → s.formFail c = some (St.auth, 0x0B))) ∧
    (c.authFail = none → w.field 7 2 + 1 ≠ units → s.formFail c = some (St.badLength, 0x00)) ∧
    (c.authFail = none → w.field 7 2 + 1 = units → w.field 23 17 ≠ 0 → s.formFail c = some (St.badLength, 0x02)))) ∧
  (∀ (r : Nat) (x : Ring) (e : Entry) (rest : List Entry) (t : State) (status : Byte) (d : Nat),
    x = s.ring r → x.queue = e :: rest → x.started = none → x.st = .enabled → s.clocked = true → s.canStart = true →
    s.orphan = false → s.active x.inst = true → (wordAt e.words 0).bit 16 = false → c = { src := .ring r, inst := x.inst, remote := none, index := e.index, ws := e.words } →
    t = s.setRing r { x with queue := rest, started := some e } → t.formFail c = some (status, d) →
    exec (.entryStart r) s = refuses t c status d)

/-- NOP and the commands on rings and token rings complete ST_OK with the effect of spec/12 and spec/13: a ring or token
ring created from its packet, enabled from its head, DRAINING, freed (R277, R287, R293, R306). -/
def Obligations.RingCommandsComplete : Prop := ∀ (s : State) (src : Src) (c : Cmd) (r : Nat), c.field 0x08 15 0 = r →
  (Offers s src 0x00 c → exec (.nop src) s = completes s c []) ∧
  (Offers s src 0x01 c → 64 ≤ r → (s.ring r).st = .free → 6 ≤ c.field 0x0C 4 0 → c.field 0x0C 4 0 ≤ 16 →
    (c.dword 0x10).toNat % 4096 = 0 → (c.dword 0x18).toNat % 8 = 0 → s.ringsUsed c.inst < s.ringQuota c.inst →
    exec (.ringCreate src) s = completes (s.setRing r
      { st := .disabled, inst := c.inst, base := c.dword 0x10, sizeLog2 := c.field 0x0C 4 0, headAddr := c.dword 0x18,
        spec := c.bit 0x0C 8, weight := c.field 0x0C 19 16 + 1, head := c.word 0x20, tail := c.word 0x20,
        fetched := c.word 0x20 }) c []) ∧
  (Offers s src 0x02 c → (s.ring r).inst = c.inst → (s.ring r).st = .disabled ∨ (s.ring r).st = .error →
    exec (.ringEnable src) s = completes ((s.loadBoot r).modRing r fun x =>
      { x with st := .enabled, tail := x.head, fetched := x.head, queue := [], asm := none, rereads := 0, rereadAt := none,
               pollAt := none, failing := false, stuck := false, probe := x.spec, need := 0, turn := 0 }) c []) ∧
  (Offers s src 0x03 c → (s.ring r).inst = c.inst → (s.ring r).st = .enabled →
    exec (.ringDisable src) s = completes (s.drainRing r (c.bit 0x08 16 && decide (c.src ≠ .ring r)) false) c []) ∧
  (Offers s src 0x04 c → 64 ≤ r → (s.ring r).inst = c.inst → (s.ring r).st = .disabled ∨ (s.ring r).st = .error →
    exec (.ringDestroy src) s = completes (s.eraseRing r) c []) ∧
  (64 ≤ r → Tbl.wf ringDefault s.forager.rings = true → (s.eraseRing r).ring r = {}) ∧
  (∀ k, k ≠ r → (s.eraseRing r).ring k = s.ring k) ∧
  (Offers s src 0x05 c → Tbl.find s.forager.tokens r = none → 6 ≤ c.field 0x0C 4 0 → c.field 0x0C 4 0 ≤ 20 →
    (c.dword 0x10).toNat % 4096 = 0 → s.tringsUsed c.inst < s.tringQuota c.inst →
    exec (.tokenRingCreate src) s = completes { s with forager := { s.forager with
      tokens := Tbl.insert s.forager.tokens r
        { inst := c.inst, base := c.dword 0x10, sizeLog2 := c.field 0x0C 4 0, head := c.word 0x18,
          tail := c.word 0x18 } } } c []) ∧
  (∀ x, Offers s src 0x06 c → Tbl.find s.forager.tokens r = some x → x.inst = c.inst →
    (∀ e ∈ s.comb.entries, e.2.live = true → e.2.p.tokenRing.toNat ≠ r) →
    exec (.tokenRingDestroy src) s = completes { s with forager := { s.forager with
      tokens := Tbl.erase s.forager.tokens r } } c [])

/-- The doorbells, the push window and the enable bit of a boot ring, where the access is one that R290 to R294 accept:
the published tail moves forward within the ring, a push at the next index is taken as the entry itself, token records up
to the written head are free, a boot ring starts and stops. -/
def Obligations.DoorbellsAndPushesComplete : Prop := ∀ (s : State) (fn r : Nat) (v : Word) (ws : List Word),
    Reachable s fn →
  (r < 65536 → (s.ring r).inst = fn → (s.ring r).st = .enabled → (s.inst fn).seq = none →
    unitsTo (s.ring r).head v ≤ (s.ring r).size → (v - (s.ring r).tail).toNat ≤ (s.ring r).size →
    exec (.doorbellWrite fn r v) s = goesOn ((s.modRing r fun x =>
      if unitsTo x.head x.tail < unitsTo x.head v then { x with tail := v } else x).modRing r fun x =>
        { x with probe := x.spec })) ∧
  (r < 65536 → (s.ring r).inst = fn → s.fetches r = true → Tbl.find s.forager.pushes r = none → ws.length ≤ 64 →
    ws.length = 16 * entryUnits (wordAt ws 0) → entryMark (wordAt ws 0) = 1 →
    (wordAt ws 1 = (s.ring r).fetched → s.bufRoom r (entryUnits (wordAt ws 0)) = true →
      exec (.pushWrite fn r ws) s = goesOn (((s.modRing r fun x => { x with asm := none }).takeEntry r
        { index := wordAt ws 1, words := ws, pushed := true }).incReg Reg.forPushCnt)) ∧
    (wordAt ws 1 = (s.ring r).fetched → s.bufRoom r (entryUnits (wordAt ws 0)) = false →
      exec (.pushWrite fn r ws) s = goesOn { s with forager := { s.forager with
        pushes := Tbl.insert s.forager.pushes r ws } }) ∧
    (wordAt ws 1 ≠ (s.ring r).fetched →
      exec (.pushWrite fn r ws) s = goesOn ((s.satReg Reg.forPushDropCnt).publish r
        (wordAt ws 1 + Word.mk (entryUnits (wordAt ws 0)))))) ∧
  (∀ x, Tbl.find s.forager.tokens r = some x → x.inst = fn → (v - x.head).toNat ≤ (x.tail - x.head).toNat →
    exec (.tokenRingDoorbell fn r v) s = goesOn { s with forager := { s.forager with
      tokens := Tbl.insert s.forager.tokens r { x with head := v } } }) ∧
  (∀ t, t = s.orReg (pageKey fn Reg.forBootCtrl) 1 → (s.ring fn).st = .disabled ∨ (s.ring fn).st = .error →
    exec (.bootRingEnable fn) s = goesOn ((t.loadBoot fn).modRing fn fun x =>
      { x with st := .enabled, tail := x.head, fetched := x.head, queue := [], asm := none, rereads := 0, rereadAt := none,
               pollAt := none, failing := false, stuck := false, probe := x.spec, need := 0, turn := 0 })) ∧
  ((s.ring fn).st = .enabled →
    exec (.bootRingDisable fn) s = goesOn ((s.andNotReg (pageKey fn Reg.forBootCtrl) 1).drainRing fn false false))

/-- The Forager's own events, where what each waits for has come: units of a read in hand, the timers of R283, an entry
started or held for its barrier, the head shadow, a failed completion write, the end of a drain (R281–R289, R303). -/
def Obligations.ForagerEventsComplete : Prop := ∀ (s : State) (r : Nat), s.clocked = true →
  (Tbl.find s.forager.reads r = none → ∀ d, exec (.fetchReadComplete r d) s = goesOn s) ∧
  (∀ q t, Tbl.find s.forager.reads r = some q →
      t = { s with forager := { s.forager with reads := Tbl.erase s.forager.reads r } } →
    (q.stale = true ∨ (s.ring r).st ≠ .enabled → ∀ d, exec (.fetchReadComplete r d) s = goesOn t) ∧
    (∀ ws u, q.stale = false → s.fetches r = true →
      u = t.takeUnits r (((splitUnits 8 ws).take q.units).drop (unitsTo q.at_ (s.ring r).next)) →
      exec (.fetchReadComplete r (.data ws)) s = goesOn
        (if (u.ring r).turn < (u.ring r).weight ∧ u.fetchWants r = true then u.fetchIssue r else u)) ∧
    (q.stale = false → (s.ring r).st = .enabled → ∀ d ∈ [Reply.error, Reply.poison],
      exec (.fetchReadComplete r d) s = goesOn (t.failRing r Flt.fetchErr (s.ring r).fetched))) ∧
  (s.due (s.ring r).rereadAt = true →
    exec (.fetchRereadTimer r) s = goesOn (s.setRing r { s.ring r with rereadAt := none })) ∧
  (∀ at_, s.due (s.ring r).pollAt = true → (s.ring r).lastTaken = some at_ →
    exec (.specPollTimer r) s = goesOn (s.setRing r { s.ring r with
      pollAt := none, probe := decide (s.ns - at_ < s.regField Reg.forPollIdleUs 19 0 * 1000) })) ∧
  (∀ e q, (s.ring r).queue = e :: q → (s.ring r).started = none → s.canStart = true → s.orphan = false →
    (s.ring r).st = .enabled → s.active (s.ring r).inst = true →
    s.formFail { src := .ring r, inst := (s.ring r).inst, remote := none, index := e.index, ws := e.words } = none →
    ((wordAt e.words 0).bit 16 = false ∨ s.barrierMet r = true →
      exec (.entryStart r) s = goesOn { s.setRing r { s.ring r with queue := q, started := some e } with
        interp := { s.interp with current := some (.ring r) } }) ∧
    ((wordAt e.words 0).bit 16 = true → s.barrierMet r = true →
      exec (.barrierRelease r) s = exec (.entryStart r) s) ∧
    ((wordAt e.words 0).bit 16 = true → s.barrierMet r = false → exec (.entryStart r) s = goesOn s)) ∧
  ((s.ring r).shadowDue = true → (s.ring r).headAddr ≠ 0 → s.orphan = false →
    exec (.headShadowWrite r) s = goesOn ((s.setRing r { s.ring r with shadowDue := false }).emit
      (s.dmaWrite (s.ring r).inst (s.ring r).headAddr.toNat [(s.ring r).head, Word.mk (s.ring r).st.code]))) ∧
  (∀ index t, (s.ring r).st ≠ .free → (s.ring r).lastDone ≠ [] → wordAt (s.ring r).lastDone 1 = index →
    t = s.setRing r { s.ring r with
      head := (if (s.ring r).stuck = true then (s.ring r).head else index),
      compl := (if (s.ring r).stuck = true then (s.ring r).compl else (s.ring r).lastDone),
      lastDone := [], stuck := true } →
    exec (.completionWriteError r index) s = goesOn
      (((if (s.ring r).st = .enabled then t.drainRing r false true else t).modRing r fun x =>
        { x with st := if x.st = .disabled then .error else x.st, failing := true }).forFault Flt.complErr
          (s.ring r).inst r index)) ∧
  ((s.ring r).st = .draining → (s.ring r).started = none →
    exec (.ringDrainEnd r) s = goesOn ((s.setRing r { s.ring r with
      st := if (s.ring r).failing then .error else .disabled, failing := false }).writeShadow r))

/-- The three writes of one update of a status block (R310, R311): SYNC odd, the fields, SYNC even with the status; the
operation is forgotten with its final status, its instance kept; PARTIAL of a TOKEN_LOG_READ is POS. A failed block is written no more, the operation goes on, and SB_ERR is
raised (R315). -/
def Obligations.StatusBlockWritesComplete : Prop := ∀ (s : State) (k : Nat) (o : LongOp), s.clocked = true →
    Tbl.find s.interp.ops k = some o →
  (∀ y z, o.due = true → o.failed = false → o.ended = true ∨ o.shownAt + s.sbInterval ≤ s.ns →
      s.orphan = false ∨ o.addr.getLsbD 0 = true → y = s.opPartial o →
      z = { y with upd := (y.upd + 2) % 65536, shown := y.status, shownAt := s.ns, due := false } →
    (∀ i gen first n dest, o.body = .tokenRead i gen first n dest → o.upd ≠ 0 → (s.entry i).gen.toNat = gen →
      (s.entry i).st ≠ .free → y.part = BitVec.ofNat 64 (s.entry i).pos.toNat) ∧
    exec (.statusBlockUpdate k) s = goesOn
      { ((s.blockWrite y 0 [y.head (y.upd + 1) y.shown, y.index]).blockWrite y 8
          [y.progress.lo, y.progress.hi, y.part.lo, y.part.hi, y.aux, Word.mk (s.ns % 2 ^ 32)]).blockWrite y 0
          [y.head (y.upd + 2) y.status, y.index] with
        interp := (if o.ended then
          { s.interp with ops := Tbl.erase s.interp.ops k, owners := Tbl.insert s.interp.owners k o.inst }
          else { s.interp with ops := Tbl.insert s.interp.ops k z }) }) ∧
  (o.ended = false →
    exec (.statusBlockWriteError k) s = goesOn (State.raise { s with interp := { s.interp with
      ops := Tbl.insert s.interp.ops k { o with failed := true } } } { id := Flt.sbErr, inst := some o.inst })) ∧
  (o.ended = true →
    exec (.statusBlockWriteError k) s = goesOn (State.raise { s with interp := { s.interp with
      ops := Tbl.erase s.interp.ops k } } { id := Flt.sbErr, inst := some o.inst })) ∧
  (∀ n i, Tbl.find s.interp.ops n = none → Tbl.find s.interp.owners n = some i →
    exec (.statusBlockWriteError n) s = goesOn (s.raise { id := Flt.sbErr, inst := some i }))

/-- INSTANCE_CREATE, INSTANCE_RESIZE, INSTANCE_DESTROY and LEASE_RENEW where the spec lets them complete: a new instance
with the quotas of its packet, its boot ring fresh and a memory key of its own; quotas replaced in place; every register,
ring and key of an instance gone, its count of FLRs kept; the lease armed for its period (R319–R323, R344, R408). -/
def Obligations.InstanceQuotaCommandsComplete : Prop := ∀ (s : State) (src : Src) (c : Cmd) (i : Nat), c.field 0x08 5 0 = i →
  (∀ vfs, Offers s src 0x20 c → quotaRange c = none → s.hasInst i = false → i ≤ vfs → s.grantFail i {} c.quotas = none →
    s.guardFail true = none →
    exec (.instanceCreate src vfs) s = completes (((s.setInst i
      { st := .active, wairon := c.bit 0x08 8, q := c.quotas, flrCnt := (s.inst i).flrCnt }).setRing i
        (ringDefault i)).newMemKey i) c []) ∧
  (Offers s src 0x21 c → quotaRange c = none → s.active i = true →
    (s.inst i).wairon = true ∨ s.instEmpty i true = true → s.grantFail i (s.inst i).q c.quotas = none →
    exec (.instanceResize src) s = completes ((s.setInst i { s.inst i with q := c.quotas }).shareBw i) c []) ∧
  (∀ u, Offers s src 0x23 c → i ≠ 0 → s.active i = true → s.instEmpty i true = true →
    u = ((s.clearMbx i).setInst i { flrCnt := (s.inst i).flrCnt }).eraseRing i →
    exec (.instanceDestroy src) s = completes
      { u with guard := { u.guard with memKeys := Tbl.erase u.guard.memKeys (i + 1) } } c []) ∧
  (∀ n, Offers s src 0x08 c → c.field 0x08 15 0 = n → n = 0 ∨ (10 ≤ n ∧ n ≤ 60000) → s.fw.lease ≠ .orphan →
    exec (.leaseRenew src) s = completes { s with fw := { s.fw with
      lease := .held, periodMs := if n = 0 then s.fw.periodMs else n,
      expiry := s.ns + (if n = 0 then s.fw.periodMs else n) * 1000000 } } c [])

/-- Resetting, freezing and thawing an instance where the spec lets each go on: what is in flight is ended or stopped, the
instance shows RESETTING, FREEZING, FROZEN or ACTIVE, and an FLR is counted and completed at the latest after 100 ms
(R324, R325, R328). -/
def Obligations.InstanceSequencesComplete : Prop := ∀ (s : State) (src : Src) (c : Cmd) (i : Nat),
  (Offers s src 0x22 c → c.field 0x08 5 0 = i → i ≠ 0 → (s.inst i).seq = none →
    (s.inst i).st = .active ∨ (s.inst i).st = .freezing ∨ (s.inst i).st = .frozen → s.longUsed < 4096 →
    exec (.instanceReset src) s = goesOn
      ((accepted s c 0x10 (.reset i (c.bit 0x08 8)) (Word.mk i) []).beginReset i .resetting (c.bit 0x08 8)
        (some s.interp.nextOp) St.ok)) ∧
  (∀ t u v w, Offers s src 0x24 c → c.field 0x08 5 0 = i → s.active i = true →
    (∀ k ∈ s.instCtxs i, s.capCtx k = none) →
    t = s.setInst i { s.inst i with st := .freezing } →
    u = (t.instRings i).foldl (fun s r => s.dropFetched r) t →
    v = (u.instCtxs i).foldl (fun s k => s.dropRuns k) u →
    w = (v.instParts i).foldl (fun s p =>
      (((s.discardForecast p).endUndispatched p .main).endUndispatched p .draft).endUndispatched p .fallback) v →
    exec (.instanceFreeze src) s = completes ((w.instTables i).foldl (fun s k => s.stopTable k false) w) c []) ∧
  (∀ t u, Offers s src 0x27 c → c.field 0x08 5 0 = i → (s.inst i).seq = none →
    (s.inst i).st = .freezing ∨ (s.inst i).st = .frozen →
    t = s.setInst i { s.inst i with st := .active } →
    u = (t.instRings i).foldl (fun s r => s.modRing r fun y => { y with probe := y.spec }) t →
    exec (.instanceThaw src) s = completes ((u.instParts i).foldl (fun s p => s.wakeForecast p) u) c []) ∧
  (∀ t, s.clocked = true → (s.inst i).st = .freezing → s.instStill i = true →
    t = s.setInst i { s.inst i with st := .frozen } →
    exec (.instanceQuiescent i) s = goesOn (t.interp.ops.foldl (fun s e => match e.2.body with
      | .save j dest .waits => if j = i ∧ e.2.ended = false then s.saveRead e.1 i dest else s
      | _ => s) t)) ∧
  (∀ t u, s.clocked = true → i ≠ 0 → s.hasInst i = true →
    t = ((s.setInst i { s.inst i with flrCnt := (s.inst i).flrCnt + 1, flrDue := some (s.ns + 100000000) }).setReg
      Reg.hpuInstFltInfo (Word.mk i)).raise { id := Flt.flr, inst := some i } →
    u = t.beginReset i .resetting true none St.ok →
    ((s.inst i).seq = none → t.resettable i = true →
      exec (.vfFlr i) s = goesOn (u.setInst i { u.inst i with seq := (u.inst i).seq.map fun q => { q with flr := true } })) ∧
    (∀ q, (s.inst i).seq = some q →
      exec (.vfFlr i) s = goesOn (t.setInst i { t.inst i with seq := some { q with squash := true, flr := true } }))) ∧
  (s.clocked = true → (∃ n, (s.inst i).flrDue = some n ∧ n ≤ s.ns) →
    exec (.flrTimeout i) s = goesOn ((s.setInst i { s.inst i with flrDue := none }).emit (.flrDone i)))

/-- Save and restore of an instance, and the mailboxes, where each is accepted: a long operation opened and the header
at DEST read or the restore carried out, a failed image read ending it by the reset sequence; a message handed over or dropped, the
outbound buffer emptied, filled or queued for (R326, R327, R329–R332). -/
def Obligations.ImagesAndMailboxesComplete : Prop := ∀ (s : State) (src : Src) (c : Cmd) (i fn : Nat),
  (Offers s src 0x25 c → c.field 0x08 5 0 = i → Config.inWindows c.inst (c.dword 0x10).toNat 64 = true →
    (s.inst i).seq = none → (s.dlog i).en = true → s.longUsed < 4096 →
    ((s.inst i).st = .active ∨ (s.inst i).st = .frozen →
      exec (.instanceSave src) s = goesOn ((accepted s c 0x18 (.save i (c.dword 0x10) .waits) (Word.mk i) []).saveRead
        s.interp.nextOp i (c.dword 0x10))) ∧
    ((s.inst i).st = .freezing →
      exec (.instanceSave src) s = goesOn (accepted s c 0x18 (.save i (c.dword 0x10) .waits) (Word.mk i) []))) ∧
  (∀ image t u, Offers s src 0x26 c → c.field 0x08 5 0 = i → i ≠ 0 →
    Config.inWindows c.inst (c.dword 0x10).toNat 64 = true → s.active i = true → s.instEmpty i false = true →
    s.longUsed < 4096 → t = accepted s c 0x18 (.restore i (c.dword 0x10)) (Word.mk i) [] →
    u = t.setInst i { t.inst i with st := .restoring } →
    exec (.instanceRestore src image) s = goesOn (t.restore s.interp.nextOp i (c.dword 0x10).toNat image) ∧
    (image = .error → exec (.instanceRestore src image) s = goesOn
      (((u.setReg Reg.hpuInstFltInfo (Word.mk (St.badAddress.toNat * 2 ^ 24 + i))).raise
        { id := Flt.restoreErr, status := St.badAddress }).beginReset i .resetting true (some s.interp.nextOp)
          St.badAddress))) ∧
  (Reachable s fn →
    ((s.inst fn).inBusy = false → (s.reg (pageKey fn Reg.mbxIn)).field 15 8 ≤ 62 →
      exec (.mbxInGo fn) s = goesOn ((s.setInst fn { s.inst fn with inBusy := true }).irqLevel (101 + fn) true)) ∧
    ((s.inst fn).inBusy = true ∨ 62 < (s.reg (pageKey fn Reg.mbxIn)).field 15 8 →
      exec (.mbxInGo fn) s = goesOn (((s.satReg (pageKey fn Reg.mbxDropCnt)).setReg Reg.hpuInstFltInfo
        (Word.mk fn)).raise { id := Flt.mbxDrop, inst := some fn })) ∧
    ((s.inst fn).outQueue = [] →
      exec (.mbxOutAck fn) s = goesOn (s.setInst fn { s.inst fn with outValid := false })) ∧
    (∀ m q, (s.inst fn).outQueue = m :: q → exec (.mbxOutAck fn) s = goesOn
      ((s.setInst fn { s.inst fn with outValid := false, outQueue := q }).mbxShow fn m))) ∧
  (∀ ws, s.clocked = true → s.hasInst fn = true → ws.length ≤ 128 →
    (if s.fw.phase = .run then s.procUp schedulerCore else s.guardUp) = true →
    ((s.inst fn).outValid = true → exec (.mbxOutPost fn ws) s = goesOn
      (s.setInst fn { s.inst fn with outQueue := (s.inst fn).outQueue ++ [ws] })) ∧
    ((s.inst fn).outValid = false → exec (.mbxOutPost fn ws) s = goesOn (s.mbxShow fn ws)))

/-- Partitions, contexts and regulators, where the spec refuses nothing: a partition formed of the quarter-clusters that
the packet lists or counts, and dissolved; a context made, its new weight and slice kept for its next slice, freed at once
or when what it has dispatched ends; a regulator set (R197–R203, R215, R321). -/
def Obligations.PartitionAndContextCommandsComplete : Prop := ∀ (s : State) (src : Src) (c : Cmd) (p k : Nat),
    c.field 0x08 6 0 = p → c.field 0x08 11 0 = k →
  (∀ inst qcs spares, Offers s src 0x28 c → c.field 0x08 29 24 = inst → s.part p = none → s.hasInst inst = true →
    (if c.bit 0x08 8 then c.field 0x08 14 12 ≤ 4 ∧ c.field 0x08 19 16 ≤ 8 ∧ 1 ≤ c.field 0x0C 7 0 ∧ c.field 0x0C 7 0 ≤ 128
      else c.dword 0x10 ≠ 0 ∨ c.dword 0x18 ≠ 0) →
    s.partMembers c inst = .inr (qcs, spares) →
    exec (.partitionCreate src) s = completes (State.shareBw { s with sched := { s.sched with
      parts := Tbl.insert s.sched.parts p
        { inst, wide := c.bit 0x08 8 && c.bit 0x08 9, qcs, spares } } } inst) c []) ∧
  (Offers s src 0x29 c → s.ownsPart c p = true → s.partCtxs p = [] →
    exec (.partitionDestroy src) s = completes ((s.dropPartition p).shareBw c.inst) c []) ∧
  (∀ n t, Offers s src 0x2A c → 50 ≤ c.field 0x0C 16 0 → c.field 0x0C 16 0 ≤ 100000 → s.ownsPart c p = true →
    s.ctxUsed c.inst < s.ctxQuota c.inst →
    s.makeCtx c.inst p (c.field 0x08 23 16) (c.field 0x0C 16 0) none = some (n, t) →
    exec (.contextCreate src) s = completes t c [Word.mk n]) ∧
  (Offers s src 0x2B c → 50 ≤ c.field 0x0C 16 0 → c.field 0x0C 16 0 ≤ 100000 → s.ownsCtx c k = true →
    exec (.contextSet src) s = completes (s.setCtx k { s.ctx k with
      nextSet := some (c.field 0x08 23 16, c.field 0x0C 16 0) }) c []) ∧
  (Offers s src 0x2C c → s.ownsCtx c k = true → (s.ctx k).role = none → (s.ctx k).destroying = false →
    ((s.ctx k).dispatched = none → (s.ctx k).st ≠ .loading → (s.ctx k).st ≠ .saving →
      exec (.contextDestroy src) s = completes (s.freeCtx k) c []) ∧
    ((s.ctx k).st = .loading ∨ (s.ctx k).st = .saving →
      exec (.contextDestroy src) s = waitsFor (s.setCtx k { s.ctx k with destroying := true }) src (.ctxDestroy k)) ∧
    ((s.ctx k).dispatched ≠ none → (s.ctx k).st ≠ .loading → (s.ctx k).st ≠ .saving →
      exec (.contextDestroy src) s =
        waitsFor ((s.setCtx k { s.ctx k with destroying := true }).stopStep k) src (.ctxDestroy k))) ∧
  (∀ x, Offers s src 0x2D c → c.field 0x08 9 8 ≠ 3 → c.field 0x0C 11 0 ≠ 0 → s.part p = some x →
    x.inst = 0 ∨ (s.inst x.inst).q.bw (c.field 0x08 9 8) = 0 ∨
      BwrSet.sum (fun y => y.bwr (c.field 0x08 9 8)) (s.sched.parts.filter fun e => e.2.inst == x.inst && e.1 != p) +
        c.field 0x0C 31 16 ≤ (s.inst x.inst).q.bw (c.field 0x08 9 8) →
    exec (.bwrSet src) s = completes (s.setBwr p (c.field 0x08 9 8) (c.field 0x0C 31 16) (c.field 0x0C 11 0)) c [])

/-- Page geometry, models, serving roles and RUN_STEP, where no rule refuses them: the geometry and the binding take
effect, a bound role keeps its context, a load and a step go on as long operations, the step numbered and queued at its
context (R106, R107, R183, R188, R308). -/
def Obligations.ServingAndRunStepCommandsComplete : Prop := ∀ (s : State) (src : Src) (c : Cmd) (p k m : Nat) (r : Role),
    c.field 0x08 6 0 = p → c.field 0x08 11 0 = k → c.field 0x08 15 0 = m → roleOf (c.field 0x08 9 8) = r →
  (Offers s src 0x2E c → c.field 0x0C 12 0 ∈ [16, 32, 64, 128, 256, 512, 1024, 2048, 4096] → 1 ≤ c.field 0x0C 24 16 →
    c.field 0x0C 24 16 ≤ 256 → s.ownsPart c p = true → s.holdsStreams p = false →
    exec (.pageGeom src) s = completes (s.modServe p fun x =>
      { x with geomP := c.field 0x0C 12 0, geomG := c.field 0x0C 24 16 }) c []) ∧
  (∀ b x t n, Offers s src 0x42 c → serveBindFail c = none → s.ownsPart c p = true →
    Tbl.find s.pager.models (c.field 0x0C 15 0) = some c.inst →
    b = { model := c.field 0x0C 15 0, variants := c.variants, mtBase := c.dword 0x10, tFixedNs := (c.word 0x18).toNat,
          tTokPs := (c.word 0x1C).toNat, tCtxPs := (c.word 0x20).toNat, context := 0 } →
    x = (s.serve p).setRole r (some b) →
    (∀ y, s.binding p r = some y →
      rowsNeed r ((if r = .main then { x with mp := c.mainParams } else x).roleS r) ≤ y.rowsMax) →
    (∃ old, (s.serve p).role r = some old ∧ old.unbinding = false ∧ n = old.context ∧ t = s) ∨
      ((s.serve p).role r = none ∧ s.ctxUsed c.inst < s.ctxQuota c.inst ∧
        s.drew.makeCtx c.inst p (if r = .fallback then 224 else 160) (50 + s.free 30 % 99951) (some r) = some (n, t)) →
    exec (.serveBind src) s = completes
      ((if r = .main then ((t.discardForecast p).modServe p fun x =>
          { x.setRole r (some { b with context := n }) with mp := c.mainParams }).modPart p fun q => { q with ratio := 256 }
        else (t.discardForecast p).modServe p fun x => x.setRole r (some { b with context := n })).wakeForecast p) c
      [Word.mk n]) ∧
  (∀ old t, Offers s src 0x43 c → c.field 0x08 9 8 ≠ 3 → s.ownsPart c p = true → (s.serve p).role r = some old →
    old.unbinding = false → r ≠ .main ∨ s.anyLive (fun e => e.p.partition.toNat == p) = false →
    t = s.modServe p (fun x => x.setRole r (some { old with unbinding := true })) →
    exec (.serveUnbind src) s = completes ((if r = .main then t.discardForecast p else t).tryUnbind p r) c []) ∧
  (∀ n t, Offers s src 0x80 c → runStepFail c = none → s.runStepStop c k = none → n = (s.ctx k).lastNo + 1 →
    t = s.setCtx k { s.ctx k with lastNo := n } →
    exec (.runStep src) s = goesOn ((accepted t c 0x48 (.runStep k n) n [n]).queueStep k
      { c.step k n with op := some s.interp.nextOp })) ∧
  (∀ st ctx t, s.clocked = true → s.stepOf ctx = some st → st.copying = true →
    t = (s.modStep ctx fun st => { st with copying := false }).capMarkAll st.hostDst.toNat
      (st.hostDst.toNat + st.hostLen.toNat) →
    exec (.hostCopyDone ctx true) s = goesOn t ∧
    exec (.hostCopyDone ctx false) s = goesOn ((t.modStep ctx fun st =>
      { st with forced := some (st.forced.getD St.badAddress) }).stopStep ctx)) ∧
  (∀ ws es u t, Offers s src 0x40 c → m ≠ 0xFFFF → 1 ≤ c.field 0x0C 8 0 → c.field 0x0C 8 0 ≤ 256 →
    es = (List.range (c.field 0x0C 8 0)).map (modelEntry ws) →
    (∀ e ∈ es, e.2.2 ≠ 0 ∧ e.1 % 65536 = 0 ∧ Config.inWindows c.inst e.1 (e.2.2 * 65536) = true ∧
      (c.bit 0x08 16 = true → e.2.1 % 65536 = 0 ∧ Config.inWindows c.inst e.2.1 (e.2.2 * 65536) = true)) →
    Tbl.find s.pager.models m = none → s.longUsed < 4096 →
    u = es.foldl (fun (x : State × List Nat) e =>
      ((x.1.addRegion m e (c.bit 0x08 16)).1, x.2 ++ [(x.1.addRegion m e (c.bit 0x08 16)).2])) (s, []) → u.1.pager.regions.length ≤ 8192 →
    t = accepted { u.1 with pager := { u.1.pager with
      models := Tbl.insert u.1.pager.models m c.inst } } c 0x18 (.model m u.2) (Word.mk m) [] →
    exec (.modelLoad src (.data ws)) s = goesOn (t.emit (t.dmaRead c.inst (dwordAt ws 16).toNat 65536))) ∧
  (Offers s src 0x41 c → m ≠ 0xFFFF → Tbl.find s.pager.models m = some c.inst → s.modelLoading m = false →
    exec (.modelUnload src) s = completes (s.dropModel m) c [])

/-- The Sampler's commands, where no rule refuses them: a binding, a bias table with strictly ascending finite entries, a
stop list, an automaton of the form of R143 are written to their arena and held under their numbers; a table or automaton no live stream names goes
(R136–R143). -/
def Obligations.SamplerCommandsComplete : Prop := ∀ (s : State) (src : Src) (c : Cmd),
  (∀ p r part b, Offers s src 0x44 c → c.field 0x08 6 0 = p → roleOf (c.field 0x08 9 8) = r → c.field 0x08 9 8 ≠ 3 →
    s.part p = some part → part.inst = c.inst →
    b = { vocab := c.field 0x0C 20 0, width := c.field 0x10 8 0, sumBase := c.dword 0x18, rowsMax := c.field 0x14 15 0,
          logitBase := c.dword 0x20, lfmt := c.field 0x10 19 16, penWindow := c.field 0x14 26 16 } →
    1 ≤ b.vocab → b.vocab ≤ 1048576 → 16 ≤ b.width → b.width ≤ 256 → b.width % 16 = 0 → b.lfmt = 0 ∨ b.lfmt = 6 →
    1 ≤ b.rowsMax → b.rowsMax ≤ 36864 → b.penWindow ≤ 1024 → b.sumBase.toNat % 256 = 0 →
    Config.inWindows c.inst b.sumBase.toNat (b.rowsMax * b.shards * (16 + 8 * b.width)) = true →
    b.logitBase = 0 ∨ (b.logitBase.toNat % 256 = 0 ∧
      Config.inWindows c.inst b.logitBase.toNat (b.logitAddr b.rowsMax - b.logitBase.toNat) = true) →
    (s.serve p).role r = none ∨ rowsNeed r ((s.serve p).roleS r) ≤ b.rowsMax →
    (r = .main ∨ ∀ m, Tbl.find s.sampler.bindings (p * 4) = some m → m.vocab = b.vocab) →
    (r = .draft → (s.reg Reg.smpCtrl).bit 1 = true) →
    exec (.sampleBind src) s = completes { s with sampler := { s.sampler with
      bindings := Tbl.insert s.sampler.bindings (p * 4 + r.code) b } } c []) ∧
  (∀ n k ws t, Offers s src 0x45 c → c.field 0x0C 12 0 = n → c.field 0x08 15 0 = k → 1 ≤ n →
    Tbl.find s.sampler.tables k = none → s.arenaRoom .tables = true →
    (∀ l, c.bit 0x08 16 = true → n ≤ 16 → stopSeqs n ws = some l →
      t = (s.needArena .tables 65536 32).writeArena .tables k (ws.take (17 * n)) →
      exec (.sampleTableLoad src (.data ws)) s = completes { t with sampler := { t.sampler with
        tables := Tbl.insert t.sampler.tables k { inst := c.inst, body := .stop l } } } c []) ∧
    (∀ l, c.bit 0x08 16 = false → n ≤ 4096 → l = biasEntries n ws → ascends (l.map fun e => e.1) = true →
      (∀ e ∈ l, finite32 e.2 = true) → t = (s.needArena .tables 65536 32).writeArena .tables k (ws.take (2 * n)) →
      exec (.sampleTableLoad src (.data ws)) s = completes { t with sampler := { t.sampler with
        tables := Tbl.insert t.sampler.tables k
          { inst := c.inst, body := .bias l (l.any fun e => FP.lt FP.zero (FP.ofWord e.2)) } } } c [])) ∧
  (∀ k x, Offers s src 0x46 c → c.field 0x08 15 0 = k → Tbl.find s.sampler.tables k = some x → x.inst = c.inst →
    (∀ e ∈ s.comb.entries, e.2.live = true → e.2.p.biasTable.toNat ≠ k ∧ e.2.p.stopSeq.toNat ≠ k) →
    exec (.sampleTableFree src) s = completes { s with sampler := { s.sampler with
      tables := Tbl.erase s.sampler.tables k } } c []) ∧
  (∀ a ws x o t u v, Offers s src 0x47 c → c.field 0x08 11 0 = a → Tbl.find s.sampler.automata a = none →
    s.arenaRoom .automata = true → s.longUsed < 4096 → readAutomaton c.inst (c.word 0x0C).toNat ws = some x →
    t = s.needArena .automata (2 ^ 20) 34 → o = t.interp.nextOp →
    u = (accepted t c 0x18 (.automaton a (c.word 0x0C).toNat) (Word.mk a) []).opProgress o
      (BitVec.ofNat 64 (c.word 0x0C).toNat) 0 →
    v = u.writeArena .automata a (ws.take (((c.word 0x0C).toNat + 3) / 4)) →
    exec (.automatonLoad src (.data ws)) s = goesOn (State.opEnd { v with sampler := { v.sampler with
      automata := Tbl.insert v.sampler.automata a x } } o St.ok)) ∧
  (∀ a x, Offers s src 0x48 c → c.field 0x08 11 0 = a → Tbl.find s.sampler.automata a = some x → x.inst = c.inst →
    (∀ e ∈ s.comb.entries, e.2.live = true → e.2.p.grammarEn = true → e.2.p.automaton.toNat ≠ a) →
    exec (.automatonFree src) s = completes { s with sampler := { s.sampler with
      automata := Tbl.erase s.sampler.automata a } } c [])

/-- The commands that move a stream between its states, for a handle that names a live entry of the issuer (R40, R43): the
states from which each completes, and what it does there on r, the state once the rows that it reads are read; each that
meets poison or an uncorrectable word ends ST_DATA_POISONED (R51, R54; which rows each reads is the model's reading,
log 9). -/
def Obligations.StreamStateCommandsComplete : Prop := ∀ (s r : State) (src : Src) (c : Cmd) (i : Nat) (e : CombEntry),
    handleIndex (c.word 0x08) = i → r.entry i = e → s.handleOk c.inst (c.word 0x08) = true →
  (∀ d, Offers s src 0x62 c → c.dword 0x10 = d → d.toNat % 64 = 0 → (s.entry i).poison = false →
    (s.meetsUncorrectable (wholeEntry i) = false → s.readWords (wholeEntry i) = r →
      (r.orphan = false →
        exec (.streamQuery src true) s = completes (r.emit (r.dmaWrite c.inst d.toNat (r.entryWords i))) c []) ∧
      (r.orphan = true → exec (.streamQuery src true) s = completes { r with fw := { r.fw with
        heldWrites := r.fw.heldWrites ++ [(c.inst, d.toNat, r.entryWords i)] } } c [])) ∧
    (∀ m, s.meetsUncorrectable (wholeEntry i) = true →
      exec (.streamQuery src m) s = ends (s.readWords (wholeEntry i)) c St.dataPoisoned [] noField)) ∧
  (Offers s src 0x63 c → Reads s i [0] r →
    (e.st = .ready → exec (.streamPark src) s = completes (r.park i 0x08) c []) ∧
    (e.st = .parked → exec (.streamPark src) s = completes r c []) ∧
    (e.st = .admitted ∨ e.st = .active →
      exec (.streamPark src) s = completes (r.modEntry i fun e => { e with parkPending := true }) c [])) ∧
  (Offers s src 0x64 c → Reads s i resumeRows r → e.pos ≠ e.p.maxCtx →
    (e.st = .parked → exec (.streamResume src) s = completes (r.enterReady i) c []) ∧
    (∀ home, e.st = .dormant → home = (r.chooseHome e.p.partition.toNat e.p.prefixId).map (BitVec.ofNat 2) →
      exec (.streamResume src) s = completes ((r.modEntry i fun e =>
        { e with prefillPos := 0, resumes := e.resumes + 1, homeDie := home.getD e.homeDie }).enterReady i) c [])) ∧
  (∀ n ws t, Offers s src 0x65 c → Reads s i resumeRows r → (c.word 0x0C).toNat = n → 1 ≤ n → n ≤ 1048576 →
    (c.dword 0x10).toNat % 4 = 0 → e.st = .parked ∨ e.st = .dormant → e.pos.toNat + n < e.p.maxCtx.toNat →
    r.extendLog i (e.pos.toNat + n) = some t →
    exec (.streamAppend src (.data ws)) s = completes (((t.writeTokens i e.pos.toNat
      ((List.range n).map fun k => (wordAt ws k).toNat)).modEntry i fun e =>
        { e with pos := e.pos + Word.mk n }).resume i) c []) ∧
  (Offers s src 0x66 c → Reads s i listRows r →
    (e.st = .admitted ∨ e.st = .ready ∨ e.st = .parked ∨ e.st = .dormant →
      exec (.streamRetire src) s = completes ((r.retire i 0x10).pagerSync) c []) ∧
    (e.st = .active →
      exec (.streamRetire src) s = completes (r.modEntry i fun e => { e with retirePending := true }) c [])) ∧
  (Offers s src 0x67 c → (s.entry i).st = .retired →
    (s.meetsUncorrectable (entryRows i [0]) = false → s.readWords (entryRows i [0]) = r →
      exec (.streamRelease src) s = completes (r.release i) c []) ∧
    (s.meetsUncorrectable (entryRows i [0]) = true →
      exec (.streamRelease src) s = ends (s.readWords (entryRows i [0])) c St.dataPoisoned [] noField)) ∧
  ((s.entry i).poison = true →
    (∀ m, Offers s src 0x62 c → (c.dword 0x10).toNat % 64 = 0 →
      exec (.streamQuery src m) s = refuses s c St.dataPoisoned noField) ∧
    (Offers s src 0x63 c → exec (.streamPark src) s = refuses s c St.dataPoisoned noField) ∧
    (Offers s src 0x64 c → exec (.streamResume src) s = refuses s c St.dataPoisoned noField) ∧
    (Offers s src 0x66 c → exec (.streamRetire src) s = refuses s c St.dataPoisoned noField)) ∧
  ((s.entry i).poison = false →
    (Offers s src 0x63 c → s.meetsUncorrectable (entryRows i [0]) = true →
      exec (.streamPark src) s = ends (s.readWords (entryRows i [0])) c St.dataPoisoned [] noField) ∧
    (Offers s src 0x64 c → s.meetsUncorrectable (entryRows i resumeRows) = true →
      exec (.streamResume src) s = ends (s.readWords (entryRows i resumeRows)) c St.dataPoisoned [] noField) ∧
    (Offers s src 0x66 c → s.meetsUncorrectable (entryRows i listRows) = true →
      exec (.streamRetire src) s = ends (s.readWords (entryRows i listRows)) c St.dataPoisoned [] noField))

/-- ADMIT_STREAM, STREAM_SET, TOKEN_LOG_READ and the prefix commands, where every check passes: the entry taken from the
head of the free list in ADMITTED, with its list blocks and log and its prompt fetch asked for; on r, the state once the
rows that a command reads are read (log 9), the selected fields put in place, or kept for the end of the running step; a
token log read opened; a prefix with its log frames made of the written positions; a prefix freed (R38–R46, R180,
R185–R187, R456). -/
def Obligations.StreamMakingCommandsComplete : Prop := ∀ (s r : State) (src : Src) (c : Cmd) (i : Nat) (e : CombEntry),
    handleIndex (c.word 0x08) = i → r.entry i = e →
  (∀ p len j home m t u v x, Offers s src 0x60 c → packetParams c 0x08 = p → c.word 0x14 = len → len ≠ 0 → len < p.maxCtx →
    samplingFail p = none → tableRangeFail allGroups p = none → (c.dword 0x90).toNat % 4 = 0 →
    s.objectFail c.inst allGroups p 4 = none → (s.reg Reg.pagCtrl).bit 0 = true → s.servesFail allGroups p 4 = none →
    s.kindFail allGroups p 4 = none → s.combUsed c.inst < s.combQuota c.inst → s.combHead = some j →
    s.chooseHome p.partition.toNat p.prefixId = some home →
    s.admitMem c.inst (s.entry j).gen.toNat home len.toNat = some (m, t) →
    x = { st := .admitted, gen := (s.entry j).gen, inst := BitVec.ofNat 6 c.inst, homeDie := BitVec.ofNat 2 home,
          promptLen := len, pos := len,
          autState := if p.grammarEn then BitVec.ofNat 16 (t.autStart p.automaton.toNat) else 0,
          pageList := (m.root.map t.blockAddr).getD 0, tokenLog := (m.logList.map t.blockAddr).getD 0,
          admitTime := BitVec.ofNat 64 t.ns, p, parkPending := t.orphan, orphanPark := t.orphan } →
    u = (((t.combPop.setEntry j x).setMem j m).madeBlock j 0).madeBlock j 1 →
    v = State.syncPressure { u with pager := { u.pager with waiting := u.pager.waiting ++ [j] } } →
    exec (.admitStream src) s = completes (v.emit (v.dmaRead c.inst (c.dword 0x90).toNat (4 * len.toNat))) c
      [Word.mk (handleOf j x)]) ∧
  (∀ sel new p, Offers s src 0x61 c → Reads s i setRows r → c.word 0x0C = sel → packetParams c 0x10 = new →
    e.p.select new sel = p → s.handleOk c.inst (c.word 0x08) = true → e.live = true →
    sel.bit 6 = false ∨ r.maxCtxBad i p.maxCtx.toNat = false →
    sel.bit 8 = false ∨ samplingFail new = none → tableRangeFail sel new = none →
    r.objectFail c.inst sel p 0x0C = none → r.servesFail sel p 0x0C = none → r.kindFail sel p 0x0C = none →
    (sel = 0 → exec (.streamSet src) s = completes r c []) ∧
    (sel ≠ 0 → e.st ≠ .active → exec (.streamSet src) s = completes (r.applySet i sel new) c []) ∧
    (sel ≠ 0 → e.st = .active → exec (.streamSet src) s = completes (r.defer i (.set sel new)) c [])) ∧
  (∀ first n, Offers s src 0x68 c → Reads s i listRows r → (c.word 0x0C).toNat = first → (c.word 0x10).toNat = n →
    1 ≤ n → n ≤ 1048576 → (c.dword 0x18).toNat % 4 = 0 → s.handleOk c.inst (c.word 0x08) = true →
    e.st = .ready ∨ e.st = .active ∨ e.st = .parked ∨ e.st = .dormant → first + n ≤ e.pos.toNat → s.longUsed < 4096 →
    exec (.tokenLogRead src) s = goesOn ((accepted r c 0x20 (.tokenRead i e.gen.toNat first n (c.dword 0x18))
      (c.word 0x08) []).tokenReadAgain r.interp.nextOp)) ∧
  (∀ l id y fresh log t u, Offers s src 0x69 c → Reads s i listRows r → (c.word 0x0C).toNat = l → 1 ≤ l →
    s.handleOk c.inst (c.word 0x08) = true → e.st = .ready ∨ e.st = .parked ∨ e.st = .active → l ≤ e.prefillPos.toNat →
    id = Tbl.freshFrom r.pager.prefixes 0 → id < 16384 → r.prefixUsed c.inst < r.prefixQuota c.inst →
    fresh = (r.prefixPages i l).filter (fun lp => !((r.mem i).page lp).shared) →
    r.pager.shared.length + fresh.length ≤ 1048576 →
    r.takePairs c.inst e.homeDie.toNat ((l + 16383) / 16384) = some (log, t) →
    y = { inst := c.inst, partition := e.p.partition.toNat, len := l, log } →
    u = { t with pager := { t.pager with prefixes := Tbl.insert t.pager.prefixes id y } } →
    exec (.prefixCreate src) s = completes
      (if e.st = .active then u.defer i (.mkPrefix l id) else u.makePrefix i l id).pagerSync c [Word.mk id]) ∧
  (∀ id x, Offers s src 0x6A c → c.field 0x08 13 0 = id → Tbl.find s.pager.prefixes id = some x → x.inst = c.inst →
    x.freed = false → exec (.prefixFree src) s = completes (s.freePrefix id x).pagerSync c [])

/-- The commands on cyclic tables, where no rule refuses them: an image laid out as R228 asks is taken, into the shadow of
a running table; a table is armed for a boundary of its cycle; stopped at the boundary, at once or before its first cycle;
a loaded one is freed (R227–R229). -/
def Obligations.CyclicTableCommandsComplete : Prop := ∀ (s : State) (src : Src) (c : Cmd) (k : Nat) (t : CycTable),
    c.field 0x08 2 0 = k → s.table k = t →
  (∀ n cycle ws l x, Offers s src 0xA0 c → c.field 0x0C 10 0 = n → (c.dword 0x10).toNat = cycle → 1 ≤ n → n ≤ 1024 →
    250000 ≤ cycle → cycle ≤ 10000000000 → 1000000000 % cycle = 0 ∨ cycle % 1000000000 = 0 →
    c.field 0x18 29 0 < min cycle 1000000000 → (c.dword 0x20).toNat % 32 = 0 →
    Config.inWindows c.inst (c.dword 0x20).toNat (32 * n) = true → t.st = .empty ∨ t.inst = c.inst →
    t.st ≠ .armed → t.st ≠ .stopping → cycSlots n ws = some l →
    x = { cycleNs := cycle, phaseNs := c.field 0x18 29 0, slots := l } → x.fits = true → s.slotsOwned c.inst x = true →
    exec (.cycLoad src (.data ws)) s = completes
      ((s.emit (s.vcRead none (c.dword 0x20).toNat (32 * l.length))).cycStore k c.inst x) c []) ∧
  (∀ start at_, Offers s src 0xA1 c → (c.dword 0x10).toNat = start → t.st = .loaded → t.inst = c.inst →
    s.tb.lock ≠ .freeRun → s.tb.lock ≠ .acquiring →
    (∀ e ∈ s.cyc, e.1 ≠ k → e.2.partition = t.partition → e.2.busy = false) →
    start = 0 ∨ (t.image.boundaryFrom start = start ∧ s.ns + s.leadNs ≤ start) → s.longUsed < 4096 →
    at_ = (if start = 0 then t.image.boundaryFrom (s.ns + 2 * s.leadNs) else start) →
    exec (.cycStart src) s = goesOn ((accepted s c 0x18 (.cycStart k) (Word.mk k)
      [0, 0, Word.mk at_, Word.mk (at_ / 2 ^ 32)]).setTable k
        { t with st := .armed, start := at_, cycles := 0, overruns := 0, skips := 0, runs := [],
                 op := some s.interp.nextOp })) ∧
  (Offers s src 0xA2 c → t.inst = c.inst →
    (t.st = .armed → exec (.cycStop src) s = completes (s.stopTable k (c.bit 0x08 8)) c []) ∧
    (t.st = .running → c.bit 0x08 8 = false →
      exec (.cycStop src) s = waitsFor (s.stopTable k false) src (.cycStop k)) ∧
    (t.st = .running ∨ t.st = .stopping → c.bit 0x08 8 = true →
      exec (.cycStop src) s = completes (s.stopTable k true) c [])) ∧
  (Offers s src 0xA3 c → t.st = .loaded → t.inst = c.inst →
    exec (.cycFree src) s = completes { s with cyc := Tbl.erase s.cyc k } c []) ∧
  (∀ ctx st, s.clocked = true → s.stepOf ctx = some st →
    (st.origin = .run → st.held = true → st.startTime ≤ s.ns →
      exec (.timedStart ctx 65536) s = goesOn ((s.modStep ctx fun st => { st with released := true }).bandEight ctx)) ∧
    (∀ l at_, l ≠ 65536 → st.timedStart l = some at_ → at_ ≤ s.ns → l ∉ st.begun →
      exec (.timedStart ctx l) s = goesOn ((s.modStep ctx fun st =>
        { st with begun := insertAsc l st.begun, released := st.released || decide (st.startTime = 0) }).bandEight ctx)))

/-- What a cyclic table does at its times: a cycle begins at its boundary, an occurrence's step is queued ahead of its
start, or called where it is carried, and started at its start unless a step runs on under SLIP; at its deadline the slot's policy is applied (R229–R232). -/
def Obligations.CyclicTableEventsComplete : Prop := ∀ (s : State) (k i : Nat) (t : CycTable), s.clocked = true → s.table k = t →
  (t.st = .armed → t.start ≤ s.ns → exec (.cycleBoundary k) s = goesOn (s.setTable k (t.begin_ t.start))) ∧
  (∀ u v, t.st = .running → t.next ≤ s.ns → u = s.skipUnbegun k → v = u.modTable k (fun t => { t with cycles := t.cycles + 1 }) →
    exec (.cycleBoundary k) s = goesOn ((v.cycProgress k).modTable k fun x => x.begin_ t.next)) ∧
  (t.st = .stopping → t.next ≤ s.ns → exec (.cycleBoundary k) s = goesOn ((s.skipUnbegun k).tryStop k)) ∧
  (∀ y at_, t.pendingS i = some (y, at_) → at_ ≤ s.ns + s.leadNs → (t.run i).led = false →
    (∀ u, u = s.modRun k i (fun r => { r with led := true, ledSeq := none }) →
      (∀ n, (t.run i).carried = true → (t.run i).seq = some n →
        exec (.slotLead k i) s = goesOn (u.modSlotStep y.context n fun st => { st with called := true })) ∧
      ((t.run i).carried = true ∧ (t.run i).seq = none ∨ (t.run i).carried = false ∧ (s.ctx y.context).st = .free →
        exec (.slotLead k i) s = goesOn u)) ∧
    ((t.run i).carried = false → (s.ctx y.context).st ≠ .free →
      exec (.slotLead k i) s = goesOn ((s.takeSeq.2.modRun k i fun r =>
        { r with led := true, ledSeq := some s.takeSeq.1 }).queueStep y.context
          { seq := s.takeSeq.1, context := y.context, origin := .cyclic k i, program := y.program, startTime := at_ }))) ∧
  (∀ y at_, t.pendingS i = some (y, at_) → t.st ≠ .armed → (t.run i).begun = false → (t.run i).led = true → at_ ≤ s.ns →
    at_ < t.next → s.slipOpen k i = false → exec (.slotStart k i) s = goesOn (s.slotBegin k i y at_)) ∧
  (∀ y seq u v, (t.run i).seq = some seq → t.image.slots[i]? = some y → (t.run i).deadline ≤ s.ns →
    (t.run i).done = false → (t.run i).overran = false → (t.run i).carried = false →
    u = s.modTable k (fun t => t.modRun i fun r =>
      { r with lastStatus := St.slotOverrun, overran := true, overruns := r.overruns + 1 }) →
    v = u.modTable k (fun t => { t with overruns := t.overruns + 1 }) →
    exec (.slotDeadline k i) s =
      goesOn (((v.cycProgress k).cycFault Flt.slotOverrun k i St.slotOverrun).overrun k i y seq))

/-- The Comb's own events, at their times: initialisation ends, one row of each bank is scrubbed and the next is due one
interval later, a snapshot begins and ends with its result, its words and DONE (R49–R56). -/
def Obligations.CombEventsComplete : Prop := ∀ (s : State),
  (s.clocked = true → s.comb.initDone = false → 131072 ≤ s.cc →
    exec .combInitDone s = goesOn { s with comb := { s.comb with
      initDone := true, scrubDue := s.cc + max 64 (s.regField Reg.combScrubInterval 15 0) } }) ∧
  (∀ l r here t u, s.clocked = true → s.comb.initDone = true → (s.reg Reg.combCtrl).bit 0 = true →
    s.comb.scrubDue ≤ s.cc → s.comb.scrubRow = r →
    here = (fun i w => decide (i / 16 = r / 8) && decide (w / 8 = r % 8)) →
    t = (l.filter fun x => here x.index x.word).foldl State.strike
      (((l.filter fun x => !here x.index x.word).foldl State.plant s).readWords here) →
    u = State.scrubRestart { t with comb := { t.comb with scrubRow := (r + 1) % 131072 } } →
    exec (.scrubRow l) s = goesOn (if (r + 1) % 131072 = 0 then u.incReg Reg.combScrubPasses else u).pagerSync) ∧
  (Reachable s 0 → s.comb.inspecting = false →
    exec .inspectionSnapshot s = goesOn ({ s with comb := { s.comb with inspecting := true } } |>.setReg
      Reg.combInspCtrl (s.reg Reg.combInspCtrl &&& 2 ||| 1))) ∧
  (∀ sel i raw, s.clocked = true → s.comb.inspecting = true → s.comb.initDone = true → s.reg Reg.combInspSel = sel →
    handleIndex sel = i → (s.reg Reg.combInspCtrl).bit 1 = raw →
    (raw = false → sel.toNat / 2 ^ 18 ≠ (s.entry i).gen.toNat ∨ (s.entry i).used = false →
      exec .inspectionSnapshotDone s = goesOn ({ s with comb := { s.comb with inspecting := false } } |>.setReg
        Reg.combInspCtrl (Word.mk (St.staleHandle.toNat * 2 ^ 16 + 2 ^ 8)))) ∧
    (∀ t, raw = true ∨ (sel.toNat / 2 ^ 18 = (s.entry i).gen.toNat ∧ (s.entry i).used = true) →
      t = (List.range 64).foldl (fun t w => t.setReg (Reg.combInspData + 4 * w)
        (if (s.entryBad i).contains w then 0 else wordAt (s.entryWords i) w)) s →
      exec .inspectionSnapshotDone s = goesOn ({ t with comb := { t.comb with inspecting := false } } |>.setReg
        Reg.combInspCtrl (Word.mk ((if s.entryBad i = [] then St.ok else St.dataPoisoned).toNat * 2 ^ 16 + 2 ^ 8 +
          bitAt 1 raw)))))

/-- The composer's events, when each is due for a partition that composes (R111–R134): a forecast held and nominated, or
given up where nothing is eligible; a report noted; the commit; the next draft step; a member table that cannot be
written; the idle sweep and a victim of pressure. -/
def Obligations.ComposerEventsComplete : Prop := ∀ (s : State) (p : Nat) (x : ServePart), s.clocked = true →
    s.serve p = x →
  (∀ b r, x.main = some b → s.composes p = true → x.forecastDue = true → x.forecast = none → s.forecastTurn p = true →
    r = s.readRows forecastRows ((s.candidates p true ++ s.candidates p false).map fun c => c.index) →
    (r.composeBatch p b = [] → exec (.forecast p) s =
      goesOn (r.modServe p fun x => { x with forecastDue := false, fresh := false })) ∧
    (∀ y t, r.composeBatch p b ≠ [] → y = r.serve p →
      t = r.setServe p { y with
        forecast := some (r.composeBatch p b), forecastDue := false, fresh := false,
        firstEvent := if y.batch = none ∧ y.fbStep = none then some r.ns else none } →
      exec (.forecast p) s = goesOn (((r.composeBatch p b).foldl (fun s m => s.nominate p m) t).pagerSync))) ∧
  (∀ i n ms, s.nominee p i = some n → x.forecast = some ms → (∃ m ∈ ms, m.index = i ∧ m.report = .none) →
    (n.done = true → exec (.pagerMemberReport p i) s = goesOn (s.setServe p { x with
      forecast := some (ms.map fun m => if m.index = i then { m with report := .ready } else m), reportAt := s.ns })) ∧
    (n.done = false → n.late = true → exec (.pagerMemberReport p i) s = goesOn (s.reportLate p i))) ∧
  (s.commitTurn p = true → (∀ m ∈ x.forecast.getD [], m.report ≠ .none ∨ s.nominee p m.index = none) →
    exec (.commit p) s = goesOn (s.commitStep p).pagerSync) ∧
  (∀ t, s.commitTurn p = true → x.firstEvent = some t → t + x.mp.commitWaitUs * 1000 ≤ s.ns →
    exec (.commitWaitTimeout p) s = goesOn (s.commitStep p).pagerSync) ∧
  (∀ y k z t u, x.drStep = some y → s.sched.ctxs.find? (fun e => e.2.queued.any fun q => q.seq == y.seq) = some (k, z) →
    t = s.modCtx k (fun c => { c with queued := dropWhere (fun q => q.seq == y.seq) c.queued }) →
    u = (y.members.foldl (fun s m => s.memberFailed m.index) t).modServe p (fun x => { x with drStep := none }) →
    exec (.memberTableWriteError p 1) s = goesOn
      ((((u.setReg Reg.stepFltInfo (Word.mk (St.dataPoisoned.toNat * 2 ^ 24 + p))).setReg Reg.stepFltSeq y.seq).raise
        { id := Flt.tableErr, inst := some (s.partD p).inst, status := St.dataPoisoned }).tryUnbind p .draft)) ∧
  (∀ y k z t u, x.batch = some y → x.fbStep = none →
    s.sched.ctxs.find? (fun e => e.2.queued.any fun q => q.seq == y.seq) = some (k, z) →
    t = y.members.foldl (fun s m => s.memberFailed m.index)
      (s.modCtx k (fun c => { c with queued := dropWhere (fun q => q.seq == y.seq) c.queued })) →
    u = t.modServe p (fun x => { x with
      batch := none, fbStep := none, forecastDue := x.forecastDue || decide (x.forecast = none),
      firstEvent := if x.forecast = none then none else some t.ns }) →
    exec (.memberTableWriteError p 0) s = goesOn
      (((((u.setReg Reg.stepFltInfo (Word.mk (St.dataPoisoned.toNat * 2 ^ 24 + p))).setReg Reg.stepFltSeq y.seq).raise
        { id := Flt.tableErr, inst := some (s.partD p).inst, status := St.dataPoisoned }).tryUnbind p .main).tryUnbind p
          .fallback)) ∧
  (s.composes p = true → exec (.draftStepCompose p) s = goesOn (s.composeDraft p)) ∧
  (∀ t, (s.reg Reg.stepCtrl).bit 1 = true → s.orphan = false → s.comp.lastSweep < s.ns / 1000000 →
    t = { s with comp := { s.comp with lastSweep := s.ns / 1000000 } } →
    exec .idleSweep s = goesOn (s.comp.parts.foldl (fun t e =>
      if e.2.mp.idleMs = 0 then t
      else e.2.parkedQ.foldl (fun t q => t.sweepList (e.2.mp.idleMs * 1000000) q.2) t) t).pagerSync) ∧
  (∀ d i t u, s.pressure d = true → Tbl.find s.comp.victimDue d = some t → t ≤ s.cc →
    s.victim (s.parkedHeads d) = some i → u = s.dormant i 0x0B →
    exec (.pressureVictim d) s = goesOn (State.pagerSync { u with comp := { u.comp with
      victimDue := Tbl.insert u.comp.victimDue d (u.cc + 64) } }))

/-- A step on an agent, from its dispatch to its record: the step taken and its program's head read, the program checked,
each launch begun or refused as a whole, its records and fault reports passed on, the step stopped, its end recorded
(R19, R57–R63, R82, R85, R86, R88). -/
def Obligations.AgentStepEventsComplete : Prop := ∀ (s : State) (a slot p : Nat) (t : AgentStep) (st : Step),
    s.clocked = true → s.stepOf t.context = some st →
  (∀ u, ((s.partD p).slot slot) = (.resident, t.context) → a ∈ st.awaiting → s.clusterUp a = true →
    (s.agent a).step p slot = none →
    u = (s.modAgent a fun x =>
      { x with lastSeq := st.seq, steps := x.steps ++
        [{ partition := p, slot, context := t.context, seq := st.seq, program := st.program, qcs := (s.partD p).qcs }] }).emit
      (s.vcRead none st.program.toNat 64) →
    exec (.dispatchRecord a slot p) s = goesOn (if st.timingCount = 0 then u
      else u.emit (u.vcRead none st.timing.toNat (8 * st.timingCount)))) ∧
  ((s.agent a).step p slot = some t →
    (∀ program timing, t.checked = false → t.failed = none → t.stopping = false →
      (∀ status, programCheck program = .inl status → exec (.programCheckDone a slot p program timing) s =
        goesOn ((s.readForCrc t program).programFail a p slot t status)) ∧
      (∀ x timed u, programCheck program = .inr x → timingCheck st x.launches timing = .inr timed →
        u = { t with checked := true, count := x.launches, stallOnly := x.stallOnly, summary := x.summary,
                     programId := x.id, launches := (List.range x.launches).map fun i => { index := i } } →
        exec (.programCheckDone a slot p program timing) s = goesOn
          ((((s.readForCrc t program).modAgentStep a p slot fun _ => u).modStep t.context fun st =>
            { st with launches := x.launches, stallOnly := x.stallOnly, summary := x.summary, timed }).fetchDescs u 0 8))) ∧
    (∀ l d u, t.nextLaunch = l → t.desc l = some d → t.checked = true → t.stopping = false → t.failed = none →
      l < t.count → (s.agent a).held = none → st.copying = false →
      (d.isMx && d.packable && decide (l + 1 < t.count)) = false ∨ (∃ e, t.desc (l + 1) = some e ∧
        (s.launchFail d (t.operandsOf l) t.stallOnly t.qcs ≠ none ∨ ((s.reg (frmReg Reg.frmCtrl a)).bit 0 &&
          packs d e (coresNamed s d t.qcs) (coresNamed s e t.qcs) ((coresNamed s d t.qcs).map s.width) &&
          (s.launchFail e (t.operandsOf (l + 1)) t.stallOnly t.qcs).isNone) = false)) →
      u = (match s.launchFail d (t.operandsOf l) t.stallOnly t.qcs with
        | some status => s.refuseLaunch a p slot t l status
        | none => s.beginLaunch a p slot l none) →
      exec (.launchExpand a slot p) s = goesOn (((u.modAgent a fun x => { x with launch := l }).modAgentStep a p slot
        fun t => { t with nextLaunch := l + 1 }).fetchDescs t (l + 8) (l + 9))) ∧
    (∀ l d e u, t.nextLaunch = l → t.desc l = some d → t.desc (l + 1) = some e → t.checked = true → t.stopping = false →
      t.failed = none → l + 1 < t.count → (s.agent a).held = none → st.copying = false → d.isMx = true →
      d.packable = true → (s.reg (frmReg Reg.frmCtrl a)).bit 0 = true →
      s.launchFail d (t.operandsOf l) t.stallOnly t.qcs = none →
      s.launchFail e (t.operandsOf (l + 1)) t.stallOnly t.qcs = none →
      packs d e (coresNamed s d t.qcs) (coresNamed s e t.qcs) ((coresNamed s d t.qcs).map s.width) = true →
      u = (s.beginLaunch a p slot l (some (l + 1))).beginLaunch a p slot (l + 1) (some l) →
      exec (.launchExpand a slot p) s = goesOn (((u.modAgent a fun x => { x with launch := l + 1 }).modAgentStep a p slot
        fun t => { t with nextLaunch := l + 2 }).fetchDescs t (l + 8) (l + 10))) ∧
    (∀ l x, t.launch l = some x → x.ended = true → x.recorded = false →
      exec (.completionRecord a slot p l) s = goesOn ((((s.modLaunch a p slot l fun x =>
        { x with recorded := true }).emit (.control a (x.record a t.seq).words)).modStep t.context fun st =>
          if st.awaiting.contains a then { st with records := st.records ++ [x.record a t.seq] } else st).runProgress
            t.context)) ∧
    (t.reportDue = true → exec (.executionFaultReport a slot p) s = goesOn
      ((s.modAgentStep a p slot fun t => { t with reportDue := false }).stopStep t.context)) ∧
    (t.stopping = false → st.stopSent = true → st.seq = t.seq →
      exec (.stepStop a slot p) s = goesOn (s.stopAgentStep a p slot t)) ∧
    (s.agentOver a t = true → exec (.endOfStepRecord a slot p) s = goesOn ((s.modAgent a fun x =>
      { x with steps := dropWhere (fun t => t.partition == p && t.slot == slot) x.steps }).agentDone a t.context)))

/-- The engine queues of a core: the next command of the issuing step offered to its queue in the
core's turn, a credit, a command that
starts, one that completes ST_OK, and a stall that lasts to its limit (R65–R80, R92–R102, R422). -/
def Obligations.EngineQueueEventsComplete : Prop := ∀ (s : State) (a c e p : Nat) (part : Partition), s.clocked = true →
    s.partOfQc ((64 * a + c) / 16) = some (p, part) →
  (∀ k t u v w, c < 64 → s.coreUp (64 * a + c) = true → s.coreFenced (64 * a + c) = false → e ≤ 4 →
    s.power.softDue = none → s.saveDue a c e = none → part.draining = [] → part.issuing = some k → (s.agent a).step p k = some t →
    s.mayIssue t = true → s.turnOf a c = true → s.nextWork a c e t ≠ none → u = s.unpark a c t.slot →
    u.resumeNeed a c t.context = .none →
    (∀ e' x, s.nextWork a c e' t = some x → ∀ op, u.workNeed a c x.d.engine t x ≠ .put e op) →
    u.nextWork a c e t = some w → u.workNeed a c e t w = .none → (u.core a c).occupied e < u.paceHigh a →
    u.startOk t w c = true → u.workGuard a c e t w = (v, false) →
    exec (.engineCommandIssue a c e) s =
      goesOn ((v.issueWork a c e t w).modAgent a fun x =>
        { x with served := c, servedPart := s.corePart a c })) ∧
  (∀ t n u, c < 64 → s.coreUp (64 * a + c) = true → s.coreFenced (64 * a + c) = false → e ≤ 4 → s.power.softDue = none →
    s.saveDue a c e = some (t, n) → (s.core a c).occupied 0 < 64 → s.turnOf a c = true →
    u = (s.modAgentStep a t.partition t.slot fun t => { t with saves := t.saves.erase (c, n) }).offerSave a c t n →
    exec (.engineCommandIssue a c e) s =
      goesOn (u.modAgent a fun x => { x with served := c, servedPart := s.corePart a c })) ∧
  (((s.core a c).queue e).length < (s.core a c).occupied e →
    exec (.queueCredit a c e) s = goesOn (s.modCore a c fun x => x.setOcc e (x.occupied e - 1))) ∧
  (∀ y, (s.core a c).pick e = some y →
    exec (.headIssue a c e) s = goesOn ((s.modCore a c fun x => x.start e (part.slot y.slot).2 y).syncCore a c)) ∧
  (∀ y quad shares t u v, ((s.core a c).exec e).find? (fun z =>
      z.slot == y.slot && z.part.launch == y.part.launch && z.part.index == y.part.index) = some y →
    shares = y.part :: y.packed.toList →
    t = (s.modCore a c fun x => x.leave e (s.free 23) y (shares.flatMap fun q => q.dst)).drew →
    u = shares.foldl (fun s q => s.partDone a c p y.slot q false) t → v = u.syncCore a c →
    (y.rsv = none → exec (.commandComplete a c e y.slot y.part.launch y.part.index St.ok quad) s = goesOn
      (shares.foldl (fun s q => match (s.agent a).step p y.slot with
        | some w => (s.markLaunch a c w q.launch).checkLaunch a p y.slot q.launch
        | none => s) v)) ∧
    (∀ op, y.rsv = some op → exec (.commandComplete a c e y.slot y.part.launch y.part.index St.ok quad) s = goesOn
      ((u.rsvDone a c (part.slot y.slot).2 y op).syncCore a c))) ∧
  (∀ y q w t, ((s.core a c).queue e).head? = some y → s.timedOut a (Tbl.find (s.core a c).waitDue e) = true →
    y.parts.find? (fun q => !(s.core a c).waitOk y.slot q.wait) = some q → q.wait = some w →
    t = ((((s.modCore a c fun x => { x with waitDue := Tbl.erase x.waitDue e }).waitDiag a c e (part.slot y.slot).2 y q
      w).satReg Reg.schWaitToCnt).execFault a p y.slot q.launch St.waitTimeout (some c)) →
    exec (.waitTimeout a c e) s = goesOn (t.raise
      { id := Flt.waitTimeout, inst := t.ctxInst (part.slot y.slot).2, status := St.waitTimeout })) ∧
  (∀ y gr t l, ((s.core a c).queue e).head? = some y → s.timedOut a (Tbl.find (s.core a c).gateDue e) = true →
    (s.core a c).firstInvalid y = some gr → (s.agent a).step p y.slot = some t →
    l = ((y.parts.find? fun q => q.src.contains gr).getD y.part).launch →
    exec (.gateTimeout a c e) s = goesOn ((((s.modCore a c fun x => { x with gateDue := Tbl.erase x.gateDue e }).setReg
      (frmReg Reg.frmGateInfo a) (Word.mk (gr * 2 ^ 16 + c))).execFault a p y.slot l St.operandTimeout (some c)).frmFault
        a 4 t l St.operandTimeout (some c)))

/-- The scheduler's events on a partition, when each is due: the dispatch of a context's first step, the end of a slice, a
drain that takes too long, the boundary test and its repetition, a preempted slot's withdrawal on an agent and the
take-over once every agent has stopped it (R205, R206, R210, R212). -/
def Obligations.SliceEventsComplete : Prop := ∀ (s : State) (p c : Nat) (part : Partition), s.clocked = true →
    s.partD p = part →
  (∀ st rest, (s.ctx c).dispatched = none → (s.ctx c).queued = st :: rest →
    ((s.ctx c).st = .faulted → exec (.stepDispatch c) s = goesOn (s.endUnsent c St.dataPoisoned)) ∧
    ((s.ctx c).st = .resident → s.liveAgents (s.partD (s.ctx c).partition) = [] →
      exec (.stepDispatch c) s = goesOn (s.endUnsent c St.fenced)) ∧
    ((s.ctx c).st = .resident → s.liveAgents (s.partD (s.ctx c).partition) ≠ [] → (s.ctx c).destroying = false →
      (s.reg Reg.schCtrl).bit 0 = true → s.active (s.ctx c).inst = true → s.orphan = false → s.power.softDue = none →
      s.depsMet st = true → s.ctxHeld c = false → s.partOpen (s.partD (s.ctx c).partition) = true →
      (∀ status, s.capStale c st = some status → exec (.stepDispatch c) s = goesOn (s.endUnsent c status)) ∧
      (s.capStale c st = none →
        exec (.stepDispatch c) s = goesOn (if s.lossHeld c st then s.lossHold c else s.dispatch c st rest)))) ∧
  (∀ t, part.stopping = [] → t = s.syncConds p →
    ((t.partD p).issuing = none ∨ (∃ k, (t.partD p).issuing = some k ∧ t.sliceOver p k = true) →
      exec (.sliceEnd p) s = goesOn (t.chooseIssue p)) ∧
    (∀ k, (t.partD p).issuing = some k → t.sliceOver p k = false → exec (.sliceEnd p) s = goesOn t)) ∧
  (∀ k since, part.stopping = [] → part.draining.find? (fun e => s.drainStalled p e.1 e.2) = some (k, since) →
    exec (.sliceDrainTimeout p) s = goesOn (((s.schInfo 0 (part.slot k).2 p
      (((s.stepOf (part.slot k).2).map fun st => st.seq).getD 0)).raise
        { id := Flt.drainConvert, inst := some part.inst }).preempt p k part.issuing)) ∧
  (∀ t k n w, t = s.syncConds p → (t.partD p).stopping = [] → (t.partD p).issuing = some k → t.arrival p k = some (n, w) →
    (∀ v, (t.partD p).waiting = some v → v.1 ≠ n) →
    exec (.boundaryTest p) s = goesOn (t.boundary p k n true)) ∧
  (∀ t k n at_, part.stopping = [] → part.issuing = some k → part.waiting = some (n, at_) → at_ ≤ s.ns →
    t = s.syncConds p →
    (if (part.slot n).1 = .resident ∧ (t.ctx (part.slot n).2).cond = .runnable ∧
        (t.ctx (part.slot k).2).band + t.preemptGap ≤ (t.ctx (part.slot n).2).band
      then exec (.boundaryRetest p) s = goesOn (t.boundary p k n false)
      else exec (.boundaryRetest p) s = goesOn (t.modPart p fun q => { q with waiting := none }))) ∧
  (∀ a k t u v, a ∈ part.stopping → part.stopSlot = k → (s.agent a).step p k = some t → t.preempted = false →
    u = (part.coresOf a).foldl (fun s c => (s.withdrawFor a c p k t.context).disposePass a c p k t) s →
    v = u.modAgentStep a p k (fun t => { t with preempted := true }) →
    exec (.preemption a k p) s = goesOn ((part.coresOf a).foldl (fun s c => s.syncCore a c) v)) ∧
  (∀ a k t, a ∈ part.stopping → part.stopSlot = k →
    (∀ y, (s.agent a).step p k = some y → (y.preempted = true ∨ y.stopping = true) ∧ y.saves = [] ∧ s.slotOn a p k = false) →
    t = s.modPart p (fun q => { q with stopping := part.stopping.erase a }) →
    exec (.slotStopped a k p) s = goesOn (if part.stopping.erase a = [] then t.takeOver p else t))

/-- Swaps and the refill of the regulators, where each may go on: the victim of a waiting context saved, a save that ends
leaves the context SWAPPED or FAULTED, the waiter loaded into an empty slot, a load that ends leaves it RESIDENT, a port's
buckets given 64 times each rate, up to their depth, and the requests that they now admit let go (R203, R207, R208, R216). -/
def Obligations.SwapAndRegulatorEventsComplete : Prop := ∀ (s : State) (c p : Nat), s.clocked = true → (s.ctx c).partition = p →
  (∀ t w k u v, t = s.syncConds p → t.waiter p = some w → (t.ctx c).st = .resident → t.swapOk = true →
    (t.partD p).slotIn .empty = none → (t.partD p).slotIn .saving = none → (t.partD p).stopping = [] →
    t.swapVictim p w = some c → (t.ctx c).slot = k →
    u = (t.setCtx c { t.ctx c with st := .saving }).modPart p (fun q => q.setSlot k (.saving, c)) →
    v = (t.partD p).agents.foldl (fun s a =>
      (s.modAgentStep a p k fun t => { t with preempted := true }).emit (.agentSave a k c))
      ((t.partD p).places.foldl (fun s q => s.withdrawFor q.1 q.2 p k c) u) →
    exec (.contextSwapOut c) s = goesOn
      (((t.partD p).places.foldl (fun s q => s.syncCore q.1 q.2) v).leaveSlot p k)) ∧
  (∀ k, (s.ctx c).st = .saving → (s.ctx c).slot = k →
    ((s.partD p).places.any fun q => engines.any fun e => ((s.core q.1 q.2).exec e).any fun y => y.slot == k) = false →
    exec (.contextSaveDone c false) s = goesOn ((s.ctxFaulted c).destroyDue c) ∧
    (∀ t, t = (((s.partD p).places.foldl (fun s q => (s.saveCore q.1 q.2 c k).clearSlot q.1 q.2 p k) s).placeSteps c
        (256 + c)).modCtx c (fun x => { x with st := .swapped, cond := .idle }) →
      exec (.contextSaveDone c true) s = goesOn ((t.modPart p fun q =>
        { q.setSlot k (.empty, 0) with swaps := q.swaps + 1 }).destroyDue c))) ∧
  (∀ k t, (s.partD p).slotIn .empty = some k → s.waiter p = some c → s.swapOk = true → s.part p ≠ none →
    t = (s.modCtx c fun x => { x with st := .loading, slot := k }).modPart p (fun q => q.setSlot k (.loading, c)) →
    exec (.contextLoad c) s = goesOn ((s.partD p).cores.foldl (fun s g => s.readRecord c p g)
      ((s.partD p).agents.foldl (fun s a => s.emit (.agentLoad a k c)) t))) ∧
  ((s.ctx c).st = .loading →
    exec (.contextLoadDone c false) s = goesOn ((s.ctxFaulted c).destroyDue c) ∧
    (∀ k t u, (s.ctx c).slot = k → t = (if (s.ctx c).loadedOnce then s else s.releaseGranules c) →
      u = ((s.partD p).places.foldl (fun v q => v.loadCore q.1 q.2 c k (!(s.ctx c).loadedOnce)) t).placeSteps c k →
      exec (.contextLoadDone c true) s = goesOn ((((u.modCtx c fun x =>
        { x with st := .resident, loadedOnce := true, cond := .idle, condSince := u.ns }).modPart p fun q =>
          q.setSlot k (.resident, c)).destroyDue c).syncConds p))) ∧
  (∀ cls port key, cls * 256 + port = key → port < (classPorts cls).2 →
    Tbl.get (fun _ => 0) s.sched.refills key < s.cc / 1200 →
    exec (.regulatorRefill cls port) s = goesOn (State.admitHeld { s with sched := { s.sched with
      buckets := (s.sched.portSet.filter fun e => e.1 % 256 == bucketPort cls port).foldl (fun t e =>
        Tbl.put (fun _ => 0) t e.1 (min ((e.2.2 * 4096 : Nat) : Int)
          ((Tbl.get (fun _ => 0) t e.1 : Int) + ((e.2.1 * 64 : Nat) : Int)))) s.sched.buckets,
      refills := Tbl.put (fun _ => 0) s.sched.refills key (Tbl.get (fun _ => 0) s.sched.refills key + 1) } }))

/-- Rows at the Sampler and the step end of a member without rows (R135, R139, R154–R156, R164, R165, R170): a row whose
summaries are clean is sampled over them where they are conclusive, else over its full logits where a scan is allowed;
summaries or logits that cannot be read lose the row, and a row whose
tables are being repaired is held. -/
def Obligations.SamplerRowEventsComplete : Prop := ∀ (s : State) (p k j row : Nat), s.clocked = true →
  (∀ x io, s.rowAt p k j row (fun st => st == .pipeline || st == .held) = some x →
    (∀ read, s.rowHeld x = true → exec (.sampleRowDone p k j row ⟨read, io⟩) s = goesOn (s.holdRow x .held)) ∧
    (s.rowHeld x = false →
    (∀ read ∈ [Reply.error, Reply.poison],
      exec (.sampleRowDone p k j row ⟨read, io⟩) s = goesOn (s.rowLost x Flt.smpPoison St.dataPoisoned)) ∧
    (∀ b ws, x.y.smp = some b →
      (b.summaries x.y.seq ws = none → exec (.sampleRowDone p k j row ⟨.data ws, io⟩) s = goesOn
        (if s.mayScan b then (s.smpFault Flt.sumBad St.summaryBad x).scanRow x b
         else s.rowLost x Flt.sumBad St.summaryBad)) ∧
      (∀ l o, b.summaries x.y.seq ws = some l →
        ((s.rowIn x b).overSummaries l = (true, o) →
          exec (.sampleRowDone p k j row ⟨.data ws, io⟩) s = goesOn (s.sampleRow x (s.rowIn x b) o io)) ∧
        ((s.rowIn x b).overSummaries l = (false, o) → s.mayScan b = true →
          exec (.sampleRowDone p k j row ⟨.data ws, io⟩) s = goesOn (s.scanRow x b)) ∧
        ((s.rowIn x b).overSummaries l = (false, o) → s.mayScan b = false →
          exec (.sampleRowDone p k j row ⟨.data ws, io⟩) s = goesOn
            (s.sampleRow x (s.rowIn x b) { o with inexact := true } io)))))) ∧
  (∀ x io, s.rowAt p k j row (fun st => st == .scan || st == .scanHeld) = some x →
    (∀ read, s.rowHeld x = true → exec (.fullScanDone p k j row ⟨read, io⟩) s = goesOn (s.holdRow x .scanHeld)) ∧
    (s.rowHeld x = false →
    (∀ b ws, x.y.smp = some b → exec (.fullScanDone p k j row ⟨.data ws, io⟩) s = goesOn
      (s.sampleRow x (s.rowIn x b) ((s.rowIn x b).overLogits (b.scan ws)) io)) ∧
    (∀ read ∈ [Reply.error, Reply.poison],
      exec (.fullScanDone p k j row ⟨read, io⟩) s = goesOn (s.rowLost x Flt.smpPoison St.dataPoisoned)))) ∧
  (∀ y m, (s.serve p).kindStep k = some y → y.members[j]? = some m → y.status = some St.ok → m.ended = false →
    y.rowsOf m = 0 → (∀ n ∈ y.members.take j, n.ended = true ∨ 0 < y.rowsOf n) →
    ∀ r t u, r = s.readEnd m.index → r.isMember m = true → t = r.modEntry m.index (fun e =>
      { e with prefillPos := Word.mk (m.startPos + m.nTok), steps := e.steps + 1, lastStepTime := BitVec.ofNat 64 s.ns,
               fails := 0, fallbacks := if k = 2 then e.fallbacks + 1 else e.fallbacks }) →
    u = t.wroteBlocks p m true →
    exec (.memberStepEnd p k j) s = goesOn ((u.leave m.index (t.leaveOf m.index 0)).memberEnded p k j))

/-- The pager's events, when each is due (R180–R186, R190, R192, R420): a prompt's tokens in the log and the stream given
its first pages, a failed prompt retired, the waiting streams tried again, a move landed, a parked stream's pages demoted,
a narrow-path request answered or timed out, the freed frames swept. -/
def Obligations.PagerEventsComplete : Prop := ∀ (s : State) (i d : Nat), s.clocked = true →
  (∀ ws t u, (s.entry i).st = .admitted → (s.mem i).fetching = true → ws.length = (s.entry i).promptLen.toNat →
    t = (s.writeTokens i 0 (ws.map BitVec.toNat)).modMem i (fun m => { m with fetching := false }) →
    (u = match t.prefixHit i with
      | some (_, x) => t.attachPrefix i x
      | none => t.modEntry i fun e => { e with p := { e.p with prefixId := 0xFFFFFFFF } }) →
    exec (.promptFetchDone i ws) s = goesOn (u.leaveAdmitted i).pagerSync) ∧
  ((s.entry i).st = .admitted → (s.mem i).fetching = true →
    exec (.promptFetchFail i) s = goesOn (s.retire i 0x12).pagerSync) ∧
  (exec .firstPagesRetry s = goesOn (s.pager.waiting.foldl (fun s i =>
    if (s.entry i).st = .admitted ∧ (s.mem i).waiting = true then s.leaveAdmitted i else s) s).pagerSync) ∧
  (∀ m rest ok t u, s.mover d = m :: rest → m.started = true → m.due ≤ s.cc → m.dueNs ≤ s.ns → t = s.setMover d rest →
    u = { t with pager := { t.pager with moveCnt := t.pager.moveCnt + 1 } } →
    (∀ k gen, m.owner = .stream k gen → s.poolFenced m.src.pool = false → s.poolFenced m.dst.pool = false →
      exec (.pageMoveDone d ok) s = goesOn ((u.landMove m k gen ok).startMove d).pagerSync) ∧
    (∀ id, m.owner = .pfx id →
      exec (.pageMoveDone d ok) s = goesOn ((u.giveFrame m.src).startMove d).pagerSync) ∧
    (∀ k gen, m.owner = .settled k gen → ok = true → s.poolFenced m.src.pool = false → s.poolFenced m.dst.pool = false →
      exec (.pageMoveDone d ok) s = goesOn (u.startMove d).pagerSync)) ∧
  (s.demotes d = true → s.demoteNext d = some i →
    exec (.demotePage d i) s = goesOn ((((s.mem i).pages.filter fun p => p.2.demotable).map fun p => p.1).foldl
      (fun s lp => (s.demote i lp).getD s) s).syncPressure) ∧
  (∀ tag q, s.pager.np.find? (fun q => q.tag == tag) = some q →
    (∀ ok, exec (.narrowPathResponse tag ok) s = goesOn (s.narrowDone q ok)) ∧
    (q.sentCc + 2048 ≤ s.cc → exec (.narrowPathTimeout tag) s = goesOn (s.narrowDone q false))) ∧
  (∀ k gen rest, s.pager.sweep = (k, gen) :: rest →
    exec .frameTableSweep s = goesOn ((State.sweepKey { s with pager := { s.pager with sweep := rest } } k gen).pagerSync))

/-- Errors of memory, and what a fabric read brings (R58, R189–R191): a poisoned region page is repaired from its replica
or loses its region, the copy and its read-back asked for, a repaired one goes live, a stream's lost page is marked, its lost copy rewritten, both lost retire it;
a prefix's
log and a held cap answer a lost frame; a report is read; a descriptor arrives at its step, a log position at its
TOKEN_LOG_READ. -/
def Obligations.MemoryErrorsComplete : Prop := ∀ (s : State) (k i page : Nat) (hard : Bool), s.clocked = true →
  (∀ x t, s.region k = some x → page < x.pages → page ∉ x.repairs →
    t = s.pagFault Flt.regionPoison (x.base.toNat + page * 65536) 0 none St.dataPoisoned →
    exec (.regionPoison k page) s = goesOn (
      if x.st = .lost then t.modRegion k fun x => { x with bad := insertAsc page x.bad }
      else if x.replica = 0 then (t.report Flt.regionPoison false (regionFrame x page).1 (regionFrame x page).2).regionLost k page
      else (t.modRegion k fun x => { x with st := .held, repairs := insertAsc page x.repairs }).repairPage x page)) ∧
  (∀ x t, s.region k = some x → page ∈ x.repairs →
    t = (s.modRegion k fun y => { y with repairs := x.repairs.erase page }).report Flt.regionPoison hard (regionFrame x page).1
      (regionFrame x page).2 →
    (∀ ok, ok = false ∨ hard = true →
      (x.st ≠ .lost → exec (.regionRepairDone k page ok hard) s = goesOn (t.regionLost k page)) ∧
      (x.st = .lost → exec (.regionRepairDone k page ok hard) s =
        goesOn (t.modRegion k fun x => { x with bad := insertAsc page x.bad }))) ∧
    (hard = false → x.repairs = [page] → x.st = .held →
      exec (.regionRepairDone k page true hard) s = goesOn (t.modRegion k fun x => { x with st := .live })) ∧
    (hard = false → x.repairs ≠ [page] → exec (.regionRepairDone k page true hard) s = goesOn t)) ∧
  ((s.entry i).live = true →
    (((s.mem i).page page).shared = false → exec (.framePoison 0 i page hard) s = goesOn (s.poisonPage i page hard).pagerSync) ∧
    (((s.mem i).page page).shared = true → exec (.framePoison 1 i page hard) s = goesOn (s.poisonPage i page hard).pagerSync) ∧
    exec (.framePoison 2 i page hard) s = goesOn (s.repairLog i page hard).pagerSync ∧
    (∀ q, Tbl.find (s.mem i).log page = some q →
      exec (.framePoison 3 i page hard) s = goesOn (s.loseBoth i (s.frameAddr q.primary)).pagerSync) ∧
    exec (.framePoison 4 i page hard) s = goesOn (s.repairList i page hard).pagerSync ∧
    (∀ b, (s.mem i).block page = some b →
      exec (.framePoison 5 i page hard) s = goesOn (s.loseBoth i (s.frameAddr b.first)).pagerSync)) ∧
  (∀ x q, Tbl.find s.pager.prefixes i = some x → Tbl.find x.log page = some q →
    exec (.framePoison 6 i page hard) s = goesOn (s.repairPrefixLog i page hard).pagerSync ∧
    exec (.framePoison 7 i page hard) s = goesOn (s.losePrefix i x (s.frameAddr q.primary)).pagerSync) ∧
  (∀ x f, s.cap.held[i]? = some x → x.frames[page]? = some f →
    exec (.framePoison 8 i page hard) s = goesOn
      (((((s.loseHeld x).withhold f).report Flt.heldPoison hard .super f.number).setReg Reg.capFltInfo
        (Word.mk x.owner)).raise { id := Flt.heldPoison })) ∧
  (∀ t, Reachable s 0 → t = s.emit (.readData 0 (retireWord s.pager.retire)) →
    exec .retireFramePop s = goesOn { t with pager := { t.pager with retire := t.pager.retire.tail } }) ∧
  (∀ a slot p t ws, (s.agent a).step p slot = some t → t.checked = true → t.stopping = false → t.failed = none →
    t.descs.length < t.count → t.descs.length < t.nextLaunch + 8 →
    exec (.fabricReadResponse (.agent a slot p) (.data ws)) s = goesOn (s.modAgentStep a p slot fun u =>
      { u with descs := Tbl.insert u.descs t.descs.length (ws.take 64) })) ∧
  (∀ o n first m dest ws, Tbl.find s.interp.ops k = some o → o.ended = false → o.body = .tokenRead i n first m dest →
    o.copying = 0 → s.orphan = false → exec (.fabricReadResponse (.op k) (.data ws)) s = goesOn (s.tokenData k o i n first m dest (.data ws)))

/-- The Timebase's events outside reset (R220–R226): a qualified edge disciplines it, a second passes without one, a
candidate is dropped after 2 s, HOLDOVER expires at its limit, the lock is sought again, a time of day is armed for the next
edge, the counter is captured whole. -/
def Obligations.TimebaseEventsComplete : Prop := ∀ (s : State), s.inReset = false →
  (∀ phase, s.ppsEn = true → s.ppsMinw ≤ phase → exec (.ppsEdge phase) s = goesOn (s.ppsEdge (s.edge phase))) ∧
  (∀ sec, s.tb.lock ≠ .freeRun → s.tb.lock ≠ .acquiring → sec = max s.tb.lastSec s.tb.missSec + 1 →
    sec * 1000000000 + s.ppsWindow sec < s.ns →
    exec .missedSecond s = goesOn s.missSecond) ∧
  (∀ t, s.tb.candidate = some t → s.tb.lock = .acquiring → t + 2000000000 ≤ (s.ns : Int) →
    exec .acquireNoEdge s = goesOn { s with tb := { s.tb with candidate := none, acquired := false, lockCount := 0 } }) ∧
  (s.tb.lock = .holdover → (s.reg Reg.tbHoLimit).toNat < s.hoBound →
    exec .holdoverExpire s = goesOn ((s.setLock .expired).tbFault Flt.tbExpired s.tb.err)) ∧
  (Reachable s 0 →
    exec (.tbReacq 0) s = goesOn (State.setLock
      { s with tb := { s.tb with candidate := none, acquired := false, lockCount := 0 } }
      (if s.ppsEn then .acquiring else .freeRun)) ∧
    exec (.tbTodArm 0) s = goesOn (s.orReg Reg.tbTodCtrl 1) ∧
    ∀ t, t = s.emit (.readData 0 (Word.mk s.ns)) → exec (.tbNowCapture 0) s = goesOn { t with
      tb := { t.tb with capHi := Word.mk (t.ns / 2 ^ 32), capFrac := t.tb.ctr.setWidth 32 } })

/-- The thermal inputs and times of a stack outside reset (R440, R441, R237): STK_HOT rises, its throttle deferred where a
timed step is on the die and the power core runs; STK_CRIT cuts a deferral; the inputs fall and the hold begins; the hold
and the deferral end. A corrected error and the monitor's ms (R267). -/
def Obligations.ThermalEventsComplete : Prop := ∀ (s : State) (k us : Nat) (x : StackThm), s.inReset = false →
    k < 12 → s.stack k = x → s.regField Reg.pwrThmDefer 15 0 = us →
  (∀ defers : Bool, x.stkHot = false → (defers = true ↔ (s.reg Reg.pwrCtrl).bit 1 = true ∧ us ≠ 0 ∧
      s.procUp powerCore = true ∧ x.stkCrit = false ∧ x.blocked = false ∧ s.timedOn (k / 3) ≠ []) →
    exec (.stkHotRise k) s = goesOn ((s.setStack k
      { x with stkHot := true, hot := true, lowSince := none, deferred := defers,
               deferEnd := if defers then s.ns + us * 1000 else x.deferEnd }).thmSync k)) ∧
  (∀ y, x.stkHot = true →
    y = { x with stkHot := false, blocked := false, deferred := false, hot := x.hot && !x.deferred } →
    exec (.stkHotFall k) s = goesOn ((s.setStack k y |>.holdFrom k).thmSync k)) ∧
  (∀ t, x.stkCrit = false →
    t = ((s.setStack k { x with stkCrit := true, hot := true, lowSince := none }).pwrInfo k).raise { id := Flt.crit, unit := k } →
    exec (.stkCritRise k) s = goesOn ((if x.deferred then
      ((t.pwrInfo k).raise { id := Flt.deferCut, unit := k }).modStack k fun y => { y with deferred := false, blocked := true }
      else t).thmSync k)) ∧
  (x.stkCrit = true →
    exec (.stkCritFall k) s = goesOn (((s.setStack k { x with stkCrit := false }).holdFrom k).thmSync k)) ∧
  (∀ t, x.lowSince = some t → t + s.regField Reg.pwrThmHold 15 0 * 1000 ≤ s.ns →
    exec (.throttleHoldRelease k) s = goesOn ((s.setStack k { x with hot := false, lowSince := none }).thmSync k)) ∧
  (x.deferred = true → x.deferEnd ≤ s.ns ∨ s.timedOn (k / 3) = [] →
    exec (.deferExpire k) s = goesOn ((s.setStack k { x with deferred := false, blocked := true }).thmSync k)) ∧
  (s.clocked = true → (∀ d, exec (.mcCePulse d k) s = goesOn (s.healthEvent 0)) ∧
    (s.health.lastMs < s.ns / 1000000 → exec .riskRecompute s = goesOn { s with health := { s.health with
      risk := min 255 s.riskSum, lastMs := s.ns / 1000000,
      events := (s.health.events.map fun e => (e.1, e.2.filter fun t => decide (s.ns < t + s.healthWindow))).filter
        fun e => !e.2.isEmpty } }))

/-- The swarm membership commands, where no rule refuses them (R241, R242), and WAGGLE_SET (R442): this chip's own entry
set, a member's entry filled in JOINING, an entry emptied, a group's map taken, a waggle point armed. -/
def Obligations.MembershipCommandsComplete : Prop := ∀ (s : State) (src : Src) (c : Cmd) (i : Nat),
    c.field 0x08 12 0 = i →
  (Offers s src 0xC0 c → s.guard.lifecycle = 3 → exec (.swarmSelfSet src) s = refuses s c St.auth noField) ∧
  (Offers s src 0xC0 c → s.guard.lifecycle ≠ 3 → (s.reg Reg.swmCtrl).bit 0 = false →
    (∀ e ∈ s.swarm.members, e.1 ≠ i → e.2.st = .empty) →
    exec (.swarmSelfSet src) s = completes
      { s with swarm := { s.swarm with self := some (i, c.dword 0x10, c.word 0x18) } } c []) ∧
  (Offers s src 0xC1 c → s.selfIndex ≠ some i → c.dword 0x10 ≠ 0 → c.field 0x1C 7 0 ≠ 0 → c.field 0x1C 15 8 ≠ 0 →
    (s.member i).st = .empty ∨ (s.member i).st = .absent ∨ (s.member i).st = .barred →
    exec (.swarmMemberSet src) s = completes (s.setMember i
      { st := .joining, chipId := c.dword 0x10, domain := c.word 0x18, permit := BitVec.ofNat 3 (c.field 0x1C 30 28),
        inst := BitVec.ofNat 6 (c.field 0x1C 27 22), rate := BitVec.ofNat 8 (c.field 0x1C 15 8),
        burst := BitVec.ofNat 8 (c.field 0x1C 7 0), bucket := c.field 0x1C 7 0 * 1000000, bucketAt := s.ns }) c []) ∧
  (Offers s src 0xC2 c → (s.member i).st ≠ .empty →
    exec (.swarmMemberClear src) s = completes (s.memberClear i) c []) ∧
  (∀ ws ms, Offers s src 0xC3 c → ms = (List.range 8192).filter (fun m => (wordAt ws (m / 32)).getLsbD (m % 32)) →
    exec (.swarmGroupSet src (.data ws)) s = completes
      { s with swarm := { s.swarm with groups := Tbl.put (fun _ => []) s.swarm.groups (c.field 0x08 7 0) ms } } c []) ∧
  (∀ bit : BitVec 256, Offers s src 0xD0 c → bit = 1#256 <<< c.field 0x08 7 0 →
    exec (.waggleSet src) s = completes { s with fw := { s.fw with
      trace := if c.bit 0x08 8 then s.fw.trace ||| bit else s.fw.trace &&& ~~~bit,
      freeze := if c.bit 0x08 9 then s.fw.freeze ||| bit else s.fw.freeze &&& ~~~bit } } c [])

/-- The port enabled and disabled (R246, R255), and the packets that pass the checks of R244, each with its effect on the
state t in which it is heard: a member comes UP and is answered, its presence noted, an exchange answered and closed with
θ and δ, an announcement, a slip and an abandonment taken (R242, R247, R248, R251, R252). -/
def Obligations.SwarmPacketsComplete : Prop := ∀ (s t : State) (h : SwarmHdr),
  (∀ w, Reachable s 0 →
    (w.bit 0 = false → exec (.swarmPortEnable 0 w) s = goesOn (s.setReg Reg.swmCtrl 0)) ∧
    (w.bit 0 = true → s.tb.todSet = true → (s.reg Reg.swmCtrl).bit 0 = false →
      exec (.swarmPortEnable 0 w) s = goesOn (State.setReg { s with swarm := { s.swarm with
        seqBase := some (s.swarm.seqBase.getD (4 * s.ns)), hbAt := s.ns + s.hbNs } } Reg.swmCtrl 1))) ∧
  (∀ chip dom, Heard s h (fun n => n == 2) t → (t.member h.src).st = .joining ∨ (t.member h.src).st = .absent →
    (t.member h.src).chipId = chip →
    exec (.swarmHello h chip dom) s = goesOn ((t.memberUp h.src).sendPkt h.src 0x02 (t.memberUp h.src).helloPayload) ∧
    exec (.swarmHelloAck h chip dom) s = goesOn (t.memberUp h.src)) ∧
  (Heard s h (fun n => n == 0) t →
    exec (.swarmHeartbeat h) s = goesOn t ∧ exec (.stateNotice h) s = goesOn t) ∧
  (∀ t1 t2 t3, Heard s h (fun n => n == 1) t → t3 = t.ns + t.ttLaunchNs →
    exec (.timeReq h t1 t2) s = goesOn (t.sendPktAt h.src 0x09 (t3 - leDelayNs)
      (dwordWords t1 ++ nsWords (t2.toNat + leDelayNs) ++ nsWords t3))) ∧
  (∀ (t1 t2 t3 t4 : Dword) (sent : Nat) (theta delta : Int) (skew : Bool) u v, Heard s h (fun n => n == 3) t →
    sent ∈ (t.member h.src).exchanges → t.ns ≤ sent + t.absentNs → t1.toNat = sent →
    theta = (((t2.toNat : Int) - t1.toNat) - ((t4.toNat : Int) + leDelayNs - t3.toNat)).tdiv 2 →
    delta = ((t4.toNat : Int) + leDelayNs - t1.toNat) - ((t3.toNat : Int) - t2.toNat) →
    (skew = true ↔ ((t.reg Reg.swmTtLimitNs).toNat : Int) < (theta.natAbs : Int)) →
    u = ((t.modMember h.src fun x => { x with exchanges := x.exchanges.erase sent }).modMember h.src fun x =>
      { x with theta := BitVec.ofInt 32 theta, delta, skew }) →
    v = (if ((u.reg Reg.swmSlowRttNs).toNat : Int) < delta then u.suspect h.src else u) →
    exec (.timeResp h t1 t2 t3 t4) s = goesOn (if skew then (v.swmInfo 0 h.port h.src).raise { id := Flt.swmSkew } else v)) ∧
  (∀ (step t0 : Dword) (window : Word) (timed : Half) (k : Kept), Heard s h (fun n => n == 3) t →
    k = { member := h.src, swarmStep := step, body := .announce t0.toNat window.toNat timed.toNat } →
    (∀ c, t.swarmCtx step = some c → exec (.collAnnounce h step t0 window timed) s = goesOn (t.keptApply c k)) ∧
    (t.swarmCtx step = none → exec (.collAnnounce h step t0 window timed) s = goesOn (t.keep k))) ∧
  (∀ (step : Dword) (slip : Word) (serial : Half) (r : SlipRec), Heard s h (fun n => n == 2) t →
    (t.swarmCtx step).isSome = true →
    r = (t.slipsOf step h.src).getD { swarmStep := step, member := h.src, serials := [], sumNs := 0 } →
    serial.toNat ∉ r.serials → exec (.stepSlip h step slip serial) s = goesOn { t with swarm := { t.swarm with
      slips := { r with serials := serial.toNat :: r.serials, sumNs := r.sumNs + slip.toNat } ::
        dropWhere (fun (r : SlipRec) => r.swarmStep == step && r.member == h.src) t.swarm.slips } }) ∧
  (∀ step launch status absent, Heard s h (fun n => n == 2) t → step ∉ t.swarm.overrun →
    (h.src, step) ∉ t.swarm.abandoned → exec (.collAbandon h step launch status absent) s = goesOn
      (State.announced { t with swarm := { t.swarm with abandoned := (h.src, step) :: t.swarm.abandoned } }
        { member := h.src, swarmStep := step, body := .abandon }))

/-- Remote commands (R253) and the port's periods and timeouts (R242, R243, R248, R251, R252): a fragment of a new
ticket takes a slot, a result ends its request, a slot times out; a heartbeat period ends, a member falls silent, an exchange
starts, a request is sent again or given up, second copies leave, a window is missed, an announcement expires. -/
def Obligations.SwarmTimersComplete : Prop := ∀ (s t : State) (h : SwarmHdr) (m : Nat),
  (∀ ticket frag frags ws k, Heard s h (fun n => decide (2 ≤ n) && decide (n ≤ 28) && decide (ws.length = 2 * (n - 1)) &&
      decide (frag < frags) && decide (frags ≤ 8)) t →
    (t.member h.src).tickets.find? (fun x => x.ticket == ticket) = none →
    t.swarm.slots.find? (fun e => e.2.member == h.src && e.2.ticket == ticket) = none →
    k = Tbl.freshFrom t.swarm.slots 0 → k < 64 →
    exec (.remoteCmd h ticket frag frags ws) s = goesOn (t.remoteFrag h k
      { member := h.src, ticket, frags, got := [], firstAt := t.ns } frag ws)) ∧
  (∀ ticket status ws, Heard s h (fun n => n == 3) t →
    exec (.remoteResult h ticket status ws) s = goesOn { t with swarm := { t.swarm with
      requests := dropWhere (fun q => q.member == h.src && q.type == 0x30 && q.ticket == ticket) t.swarm.requests } }) ∧
  (s.clocked = true →
    (∀ k x, Tbl.find s.swarm.slots k = some x → x.entry = none → x.firstAt + 4 * s.retryNs ≤ s.ns →
      exec (.remoteSlotTimeout k) s = goesOn { s with swarm := { s.swarm with slots := Tbl.erase s.swarm.slots k } }) ∧
    (∀ u, s.swarm.hbAt ≤ s.ns →
      u = (s.swarm.members.map fun e => e.1).foldl (fun s m => s.beat m) s →
      exec .heartbeatPeriod s = goesOn { u with swarm := { u.swarm with
        hbAt := if u.swarm.hbAt + u.hbNs ≤ u.ns then u.ns + u.hbNs else u.swarm.hbAt + u.hbNs } }) ∧
    ((s.member m).present = true → (s.member m).heardAt + s.absentNs ≤ s.ns →
      exec (.absenceTimeout m) s = goesOn (s.memberAbsent m)) ∧
    (∀ t1 next, s.canSend m = true → (s.member m).present = true → (s.member m).ttAt ≤ s.ns →
      t1 = s.ns + s.ttLaunchNs → next = (s.ns / s.ttPeriodNs + 1) * s.ttPeriodNs + (s.member m).ttPart →
      t = s.sendPktAt m 0x08 (t1 - leDelayNs) (nsWords t1) →
      exec (.timeTransferPeriod m) s = goesOn (t.modMember m fun x =>
        { x with exchanges := t1 :: (s.member m).exchanges.filter fun e => decide (t.ns ≤ e + t.absentNs),
                 ttAt := next, ttRun := some t.ns })) ∧
    (∀ ticket q, s.swarm.requests.find? (fun q => q.ticket == ticket) = some q → q.sentAt + s.retryNs ≤ s.ns →
      (∀ rs, q.tries < 3 → rs = updateFirst (fun r => r.ticket == ticket)
          (fun r => { r with tries := r.tries + 1, sentAt := s.ns }) s.swarm.requests →
        t = { s with swarm := { s.swarm with requests := rs } } →
        exec (.requestRetryTimeout ticket) s = goesOn (t.sendPkt q.member q.type q.payload)) ∧
      (3 ≤ q.tries → t = { s with swarm := { s.swarm with
          requests := dropWhere (fun r => r.ticket == ticket) s.swarm.requests } } →
        exec (.requestRetryTimeout ticket) s = goesOn (t.requestLost q))) ∧
    (t = { s with swarm := { s.swarm with copies := s.swarm.copies.filter fun q => !decide (q.due ≤ s.ns) } } →
      exec .secondCopySend s = goesOn ((s.swarm.copies.filter fun q => decide (q.due ≤ s.ns)).foldl
        (fun s q => s.sendPkt q.member q.type q.payload) t)) ∧
    (∀ c l st at_, s.stepOf c = some st → st.timedStart l = some at_ → st.t0 ≠ 0 → st.launchEnded l = false →
      m ∈ s.others st.group → s.arrived c l m = false → s.windowOver st at_ m = true →
      exec (.windowMiss c l m) s = goesOn (s.missWindow c m)) ∧
    (∀ i k t0 w n, s.swarm.kept[i]? = some k → k.body = .announce t0 w n → t0 + 1000000000 ≤ s.ns →
      exec (.announceExpiry i) s = goesOn { s with swarm := { s.swarm with kept := s.swarm.kept.eraseIdx i } }))

/-- The capping commands, where no rule refuses them (R256, R267, R270): a context is bound with its regions and looks for
buddies; a bound one is unbound, its buddies told and all that was kept of it let go; it is filled from a cut, as a long
operation; a risk hint is set. -/
def Obligations.CappingCommandsComplete : Prop := ∀ (s : State) (src : Src) (c : Cmd) (k : Nat), c.field 0x08 11 0 = k →
  (∀ x, Offers s src 0xC4 c → s.capBindFail c = none → (s.ctx k).st ≠ .free → (s.ctx k).inst = c.inst →
    (s.ctx k).role = none → s.capCtx k = none → s.shardCtx (c.dword 0x10) = none → (s.reg Reg.capCtrl).bit 0 = true →
    s.swarm.self ≠ none →
    x = { st := .seeking, shard := c.dword 0x10, group := c.field 0x08 23 16, l := c.field 0x0C 12 0,
          want := c.field 0x08 24 24 + 1, override := c.bit 0x08 28, lossAddr := c.dword 0x18, regions := c.regions } →
    exec (.capBind src) s = completes
      (State.capSeek { s with cap := { s.cap with ctxs := Tbl.insert s.cap.ctxs k x } } k []) c []) ∧
  (Offers s src 0xC5 c → (s.ctx k).st ≠ .free → (s.ctx k).inst = c.inst → (s.capCtx k).isSome = true →
    exec (.capUnbind src) s = completes (s.capRelease k) c []) ∧
  (∀ x, Offers s src 0xC6 c → (s.ctx k).st ≠ .free → (s.ctx k).inst = c.inst → s.capCtx k = some x →
    x.st = .seeking ∨ x.st = .guarded ∨ x.st = .exposed ∨ x.st = .held → c.word 0x10 ≠ 0 →
    s.newestCut x = 0 ∨ (c.word 0x10).toNat ≤ s.newestCut x → s.longUsed < 4096 →
    exec (.capFill src) s = goesOn ((accepted s c 0x18 (.capFill k) (c.word 0x10) []).fillStart k s.interp.nextOp
      (c.word 0x10).toNat (c.bit 0x08 16) (c.field 0x0C 12 0))) ∧
  (Offers s src 0xC7 c → exec (.capRiskHint src) s = completes
    { s with health := { s.health with hint := BitVec.ofNat 8 (c.field 0x08 7 0) } } c [])

/-- The events of a capped context, where each has something to do (R258–R260, R265, R270): the next pending page goes to
its buddy in the open cut, and the launches and staging frames that waited for it are let go; a page copied into its
staging frame goes on from there; buddies are sought again at their time; a fill's page is written, and the last one ends
the fill. -/
def Obligations.CappingEventsComplete : Prop := ∀ (s : State) (k : Nat) (x : CapCtx), s.clocked = true →
    s.capCtx k = some x →
  (∀ u b page (move : Buddy → Buddy), x.cut = some u → x.buddies.find? (fun b => b.inCut && !b.pending.isEmpty) = some b →
    page = b.pending.headD 0 →
    (∀ z, move z = if z.member = b.member then
      { z with pending := z.pending.drop 1, sent := z.sent ++ [page] } else z) →
    exec (.capPageTransfer k) s = goesOn
      (((s.modCap k fun y => { y with buddies := y.buddies.map move }).capSend k x b page u.number).pendingChanged k)) ∧
  (∀ page g lack (put : Staged → Staged), g ∈ x.staged → g.page = page → g.copied = false →
    lack = ((x.buddies.filter fun b =>
      b.inCut && (b.pending.contains page || (b.sent.drop b.acked).contains page)).map fun b => b.member) →
    (∀ g, put g = if g.page = page then { g with copied := true, waiting := lack } else g) →
    exec (.stagingCopyDone k page) s =
      goesOn ((s.modCap k fun y => { y with staged := y.staged.map put }).pendingChanged k)) ∧
  (∀ t, x.search = none → x.reseekAt = some t → t ≤ s.ns →
    exec (.buddyReseek k) s = goesOn ((s.modCap k fun y => { y with reseekAt := none }).capSeek k [])) ∧
  (∀ f f' page step loss t u, x.fill = some f → page ∈ f.left →
    f' = { f with left := f.left.erase page, written := f.written + 1, step := some step, loss := some loss } →
    t = (s.modCap k fun y => { y with fill := some f' }).fillWrite k x f.source page →
    (∀ o, f.op = some o → u = t.opProgress o (BitVec.ofNat 64 f'.written) (t.cutStep { x with fill := some f' } f.cut)) →
    (f.op = none → u = t) →
    exec (.fillPageReceived k ⟨page, step, loss⟩) s = goesOn (if f'.left = [] then u.fillDone k f' else u))

/-- What the link engines and collective engines tell the hub (R244, R251, R258, R267): a completed collective's destination
is marked, a contribution noted once, events of LINK counted, a dropped packet counted; a port that comes up or goes down
changes no register of the hub. -/
def Obligations.LinkReportsComplete : Prop := ∀ (s : State) (k p : Nat), s.clocked = true →
  (∀ base n, exec (.collDone p k base n) s = goesOn (s.capMark k base (base + n))) ∧
  (∀ l m, (s.stepOf k).isSome = true → s.arrived k l m = false →
    exec (.collArrived p k l m) s = goesOn { s with swarm := { s.swarm with
      arrivals := { context := k, launch := l, member := m } :: s.swarm.arrivals } }) ∧
  (∀ spare retrain t, t = (if spare then s.healthEvent 2 else s) →
    exec (.linkHealth p spare retrain) s = goesOn (if retrain then t.healthEvent 2 else t)) ∧
  (∀ up, exec (.portState p up) s = goesOn s) ∧
  exec (.swarmDrop p) s = goesOn (s.satReg Reg.swmDropCnt)

/-- The capping packets that pass the checks of R244, each with its effect on the state t in which it is heard (R260–R266,
R270, R273): an offer answered with held frames or refused, a candidate taken, a report and a plan recorded, a cut opened on
a held cap, sealed and filled, a fill served from its frames; and a page of another chip's cut written to its frame slot. -/
def Obligations.CappingPacketsComplete : Prop := ∀ (s t : State) (h : SwarmHdr),
  (∀ (shard : Dword) (pages : Nat) (ticket domain : Word) (say : State → Byte → State), Heard s h (fun n => n == 3) t →
    (∀ (u : State) (status : Byte), say u status =
      u.sendPkt h.src 0x21 ([ticket, Word.mk status.toNat] ++ dwordWords shard)) →
    (∀ status held, t.ticketAnswer h.src ticket = some (status, held) →
      exec (.capOffer h shard pages ticket domain) s = goesOn (say t status)) ∧
    (∀ u, t.ticketAnswer h.src ticket = none → (t.dropHeld h.src shard).holdCap h.src shard pages = some u →
      exec (.capOffer h shard pages ticket domain) s = goesOn (say (u.ticketDone h.src ticket 0 0) 0)) ∧
    (t.ticketAnswer h.src ticket = none → (t.dropHeld h.src shard).holdCap h.src shard pages = none →
      exec (.capOffer h shard pages ticket domain) s = goesOn
        (say ((t.dropHeld h.src shard).ticketDone h.src ticket 0x20 0) 0x20))) ∧
  (∀ ticket status shard q u x, Heard s h (fun n => n == 2) t →
    t.takeRequest h.src ticket (fun n => n == 0x20) = some (q, u) → (u.capCtx q.context).bind (fun k => k.search) = some x →
    x.waiting = some (h.src, ticket) → exec (.capAccept h ticket status shard) s = goesOn
      ((if status = 0 then u.capTake q.context h.src else u).capSeek q.context x.tried)) ∧
  (∀ step closed risk urgent missed g x r, Heard s h (fun n => n == 3) t →
    r = { step, closed, risk, urgent, missed } → x = t.leader g →
    exec (.capReport h step closed risk urgent missed g) s = goesOn (if t.leads g then t.leaderReport g h.src r
      else t.setLeader g { x with reports := Tbl.insert x.reports h.src r, risk := max x.risk risk,
                                  urgent := x.urgent || urgent })) ∧
  (∀ gs gc g nv void p n, Heard s h (fun n => n == 4) t →
    exec (.capPlan h gs gc g nv void p n) s = goesOn
      ((t.planRecord g gs gc nv void p n).applyPlan g gs gc nv void p n)) ∧
  (∀ shard n commit step pages void, Heard s h (fun n => n == 4) t →
    exec (.capCut h shard n commit step pages void) s = goesOn (t.modHeld h.src shard fun x =>
      x.cut n commit step pages void)) ∧
  (∀ shard n ticket loss, Heard s h (fun n => n == 3) t →
    (∀ status w, t.ticketAnswer h.src ticket = some (status, w) → exec (.capSeal h shard n ticket loss) s =
      goesOn (t.sendAck h.src shard n (w % 2 ^ 23) (w.testBit 23) status ticket)) ∧
    (∀ u, t.ticketAnswer h.src ticket = none → u = t.modHeld h.src shard (fun x => x.sealed n ticket loss) →
      (∀ x held closed, u.held h.src shard = some x → x.answer n = some (held, closed) →
        exec (.capSeal h shard n ticket loss) s = goesOn
          ((u.ticketDone h.src ticket 0 (held % 2 ^ 23 + bitAt 23 closed)).sendAck h.src shard n held closed 0 ticket)) ∧
      (u.held h.src shard = none → exec (.capSeal h shard n ticket loss) s =
        goesOn ((u.ticketDone h.src ticket 0x53 0).sendAck h.src shard n 0 false 0x53 ticket)))) ∧
  (∀ shard n pages closed ticket c x u, Heard s h (fun n => n == 3) t →
    t.takeRequest h.src ticket (fun n => n == 0x27) = none → t.takeRequest h.src ticket (fun n => n == 0x25) = none →
    t.shardCtx shard = some c → t.capCtx c = some x → x.cut = some u → u.number = n →
    exec (.capAck h shard n pages closed 0 ticket) s = goesOn (t.ackTaken c h.src pages closed)) ∧
  (∀ shard g ticket first, t.ticketAnswer h.src ticket = none →
    (∀ y ps, Heard s h (fun n => n == 3 && true) t → t.heldVersion shard g = some (y, ps) →
      exec (.capFillPacket h shard g ticket first 0) s = goesOn ((ps.filter fun p => decide (first ≤ p)).foldl
        (fun s p => s.emit (.capPage h.src shard g p (s.vc1 none (((y.frameOf g p).map s.frameAddr).getD 0))))
        ((t.ticketDone h.src ticket 0 ps.length).sendAck h.src shard g ps.length false 0 ticket))) ∧
    (Heard s h (fun n => n == 3 && true) t → exec (.capFillPacket h shard g ticket first 1) s = goesOn
      (((t.dropHeld h.src shard).ticketDone h.src ticket 0 0).sendAck h.src shard g 0 false 0 ticket))) ∧
  (∀ m shard n page x u v, s.clocked = true → s.held m shard = some x → x.incoming = some u → u.number = n →
    v = s.modHeld m shard (fun x => { x with incoming := x.incoming.map fun u => { u with got := insertAsc page u.got } }) →
    (∀ f, (v.held m shard).bind (fun y => y.frameOf n page) = some f →
      exec (.capPageReceived m shard n page) s = goesOn ((v.emit (.capStore m page (v.vc1 none (v.frameAddr f)))).ackHeld m shard)) ∧
    ((v.held m shard).bind (fun y => y.frameOf n page) = none →
      exec (.capPageReceived m shard n page) s = goesOn (v.ackHeld m shard)))

/-- The physical function's mailbox messages that the firmware takes (R326, R336–R340, R347–R349, R362, R396, R398, R400):
HELLO answered with the version matched, an image staged and activated, a core updated, ORPHAN left, the open region's image copied to KEEP
or the region cleared, its key set, the guard core's operations. -/
def Obligations.MailboxMessagesComplete : Prop := ∀ (s t : State) (q : MbxReq),
  (∀ w v ok, s.clocked = true → s.mbxServed 0 = true → s.mbxCode 0 = 0x01 →
    w = s.reg (pageKey 0 (Reg.mbxIn + 4)) → v = s.fw.serving → (ok = true ↔ w.field 31 16 = v.1) →
    t = (s.setInst 0 { s.inst 0 with
      matched := if ok then some (v.1, min v.2 (w.field 15 0)) else none }).setInBusy 0 false →
    exec (.hello 0) s = goesOn (t.mbxReply (s.mbxRequest 0) (if ok then St.ok else St.version))) ∧
  (∀ ws n u, Taken s 0x10 q t → t.guardFail false = none → t.fw.stageReq = none →
    n = (t.mbxWord q.inst 8).toNat → n ≤ 0x2000000 → headerFail ws n = none → (wordAt ws 6).toNat + 5464 = n →
    u = t.emit (t.dmaRead 0 (t.mbxDword q.inst 0).toNat n) →
    exec (.fwStage 0 (.data ws)) s = goesOn { u with fw := { u.fw with
      staged := headerFacts ws, stage := .verifying, stageReq := some q } }) ∧
  (∀ u, Taken s 0x11 q t → t.guardFail false = none → t.fw.stage = .verified → u = t.exchange →
    (t.fw.phase = .rom → exec (.fwActivate 0) s = goesOn { u with fw := { u.fw with
      phase := .loading, loads := [powerCore] ++ u.controlCores ++ [schedulerCore, guardCore],
      loadDue := u.ns + 1000000000, activate := some q } }) ∧
    (t.fw.phase = .run → t.fw.activate = none → (t.mbxWord q.inst 0).bit 0 = true ∨ t.fw.staged.ci = t.fw.running.ci →
      exec (.fwActivate 0) s = goesOn { u with fw := { u.fw with
        loads := (if (t.mbxWord q.inst 0).bit 0 then u.controlCores else []) ++ [powerCore, schedulerCore, guardCore],
        activate := some q } })) ∧
  (∀ w n move u, Taken s 0x12 q t → w = t.mbxWord q.inst 0 → n = w.field 4 0 → move = w.bit 8 →
    t.clusterUp n = true → t.fw.update = none → t.procUp n = true →
    u = { t with fw := { t.fw with update := some { cluster := n, move, req := q, toDrain := if move then
      [4 * n, 4 * n + 1, 4 * n + 2, 4 * n + 3].filter t.qcHeld else [] } } } →
    exec (.fwCoreUpdate 0) s = goesOn (u.sched.parts.foldl (fun s e => s.fixPartition e.1) u)) ∧
  (t.orphan = true →
    (Taken s 0x20 q t → exec (.orphanResume 0) s = goesOn (t.resumeOrphan.mbxReply q St.ok)) ∧
    (Taken s 0x21 q t → exec (.orphanReset 0) s = goesOn (t.resetOrphan q))) ∧
  (∀ ws o u, Taken s 0x30 q t → t.guardFail false = none → t.guard.openHash.isSome = true → t.store.openReq = none →
    (t.mbxDword q.inst 16).toNat % 65536 = 0 → (t.mbxDword q.inst 16).toNat < 2 ^ 48 → o = openImage ws →
    (t.mbxWord q.inst 8).toNat = 0x100 + 16 * o.words.length + 5464 →
    wordAt ws 0 = 0x48584F52#32 → (wordAt ws 1).field 15 0 = 1 → (wordAt ws 3).toNat + 5464 = (t.mbxWord q.inst 8).toNat →
    u = t.emit (t.dmaRead 0 (t.mbxDword q.inst 0).toNat (t.mbxWord q.inst 8).toNat) →
    exec (.openLoad 0 (.data ws)) s = goesOn (State.emit { u with store := { u.store with
      openReq := some { req := q, keep := t.mbxDword q.inst 16, image := o, sig := sigBlock ws (wordAt ws 3).toNat,
                        fail := if imageBad ws o then some St.badDescriptor else none } } }
      (u.vcWrite none (t.mbxDword q.inst 16).toNat ws))) ∧
  (∀ u, Taken s 0x31 q t → u = t.clearOpen →
    exec (.openClear 0) s = goesOn (State.mbxReply { u with store := { u.store with cleared := false } } q St.ok)) ∧
  (t.guardFail false = none →
    (Taken s 0x40 q t → exec (.zeroize 0) s = goesOn (t.zeroFull .zeroize (some q))) ∧
    (∀ ws n u v, Taken s 0x41 q t → n = (t.mbxWord q.inst 0).field 2 0 → n ≤ 4 →
      t.guard.lifecycle < n → u = t.emit (t.dmaRead 0 (t.mbxDword q.inst 8).toNat 5464) →
      (sigBlock ws 0).formed = true → (sigBlock ws 0).keyIndex < 3 → t.keyGood (sigBlock ws 0) = true →
      v = u.burnStart { kind := .lifecycle n, req := some q } →
      exec (.lifecycleAdvance 0 (.data ws) true) s = goesOn (if 3 ≤ n then v.zeroFull .lifecycle none else v)) ∧
    (∀ h, Taken s 0x42 q t → t.guard.openHash = none → h = (List.range 12).map (fun k => t.mbxWord q.inst (4 * k)) →
      exec (.openKeySet 0) s = goesOn
        (State.mbxReply { t with guard := { t.guard with openHash := some h } } q St.ok)) ∧
    (Taken s 0x43 q t → exec (.selfTest 0) s = goesOn { t with guard := { t.guard with testing := some q } }))

/-- The firmware's own events, when each is due (R336, R338, R341–R345, R353, R362): a verification ends, a processor of the
boot order runs or is late, one crashes, restarts, is rebuilt or is forced to restart; the lease ends. A processor's event
ends a wake that waits for it (R437). -/
def Obligations.FirmwareEventsComplete : Prop := ∀ (s : State) (p : Nat) (runs : State → Answered),
    (∀ t : State, runs t = .next t.settle.wakeSettle) →
  (s.fwClocked = true →
    (∀ x q, s.guardUp = true → s.fw.stageReq = some q →
      (∀ t, s.accepts x = true → t = { s with fw := { s.fw with
          staged := { s.fw.staged with openAbi := x.openAbi, release := x.release },
          stage := .verified, stageStatus := St.ok, stageReq := none } } →
        exec (.stageVerifyDone x) s = runs (t.mbxReply q St.ok)) ∧
      (s.accepts x = false → exec (.stageVerifyDone x) s = runs ((s.sigReject q).stageReject q St.auth))) ∧
    (∀ x l t, s.guardUp = true → s.fw.stageReq = none → s.store.openReq = some l → x.verified = true →
      l.sig.formed = true → s.guard.openHash = some l.sig.keyHash → l.image.abi = s.fw.running.openAbi → l.fail = none →
      t = { s with store := { s.store with openReq := none } } →
      exec (.stageVerifyDone x) s = runs (State.mbxReply
        { t with store := { t.store with open_ := some l.image, keep := l.keep, cleared := false } } l.req St.ok)) ∧
    (s.procUp p = true →
      exec (.watchdogExpiry p) s = runs (s.drew.crash p 1 (Word.mk (s.free 40))) ∧
      (∀ cause pc, cause = 2 ∨ cause = 3 → exec (.processorTrapFault p cause pc) s = runs (s.crash p cause pc))) ∧
    ((s.proc p).st = .restarting →
      ((s.proc p).due ≤ s.ns → exec (.restartLimitExpiry p) s = runs (s.crash p (s.proc p).cause (s.proc p).pc)) ∧
      (s.ns ≤ (s.proc p).due → (p = 34 → s.guard.postPass = true) →
        exec (.rebuildComplete p) s = runs (s.procResume p)))) ∧
  (s.clocked = true →
    (∀ ms u t, s.fw.phase = .loading → s.fw.bootEnded = false → s.fw.loads.head? = some p → s.ns ≤ s.fw.loadDue →
      u = s.modProc p (fun x => { x with st := if s.fences.has 1 p then .off else .running,
                                         wdtMs := max 1 (min ms 1000) }) →
      t = { u with fw := { u.fw with loads := u.fw.loads.tail, loadDue := u.ns + 1000000000 } } →
      (p < 32 ∨ p = powerCore → exec (.processorLoaded p ms) s = goesOn t) ∧
      (p = schedulerCore → exec (.processorLoaded p ms) s = goesOn t.loadMicrocode) ∧
      (p = guardCore → exec (.processorLoaded p ms) s = goesOn (State.serveNew { t with
        hum := if t.hum.stopped then t.hum else { t.hum with toggling := true, nextAt := t.ticks + t.humHalf },
        fw := { t.fw with phase := .run } }))) ∧
    (∀ rest t, s.fw.phase = .loading → s.fw.loads = p :: rest → s.fw.bootEnded = false → s.fw.loadDue ≤ s.ns →
      t = { s with fw := { s.fw with bootEnded := true } } →
      exec .bootLoadTimeout s = goesOn ((t.fwInfo 0 p).raise { id := Flt.fwHalted, unit := p })) ∧
    (s.fw.lease = .held → s.fw.expiry ≤ s.ns → exec .leaseExpiry s = goesOn (s.enterOrphan 1)) ∧
    exec .linkDown s = goesOn (s.enterOrphan 2) ∧ exec .pfFlr s = goesOn (s.enterOrphan 3)) ∧
  (Reachable s 0 → exec (.fwRestartForce 0) s = goesOn (s.plannedRestart (s.regField Reg.dbgFwSel 5 0) 5))

/-- The guard core's events, when each is due (R398–R402, R406, R408, R414): the start-up tests pass or fail, the entropy
retest ends, a zeroisation ends, the fuse macro acknowledges, a swarm key becomes current. -/
def Obligations.GuardEventsComplete : Prop := ∀ (s : State),
  (∀ (runs : State → Answered) t (bits : BitVec 10), (∀ t : State, runs t = .next t.settle.wakeSettle) →
    s.fwClocked = true → s.postRuns = true →
    t = { s with guard := { s.guard with postDone := true, postPass := decide (bits = 0x3FF), postBits := bits } } →
    (bits = 0x3FF → exec (.guardPostDone bits) s = runs t.postPassed) ∧
    (bits ≠ 0x3FF → exec (.guardPostDone bits) s = runs t.postFailed)) ∧
  (∀ cause req ok t u zeroed, s.guard.zero = some (cause, req) →
    t = State.grdInfo { s with guard := { s.guard with zero := none, zeroized := s.guard.zeroized || ok } } 0 0 0 →
    u = (if ok then match req with
      | some q => (t.raise { id := Flt.zeroized }).mbxReply q St.ok
      | none => t.raise { id := Flt.zeroized }
      else t.raise { id := Flt.zeroFail }) →
    (∀ f : Freeze, zeroed f =
      { f with zeroed := f.zeroed || decide (cause = .freeze) }) →
    (s.clocked = true → exec (.zeroizeDone ok) s = goesOn (State.captureFreeze
      { u with power := { u.power with freeze := u.power.freeze.map zeroed } })) ∧
    (∀ f, s.power.freeze = some f → f.captured = false → s.power.st = .run →
      exec (.zeroizeDone ok) s = .next (State.captureFreeze
        { u with power := { u.power with freeze := u.power.freeze.map zeroed } }))) ∧
  (s.clocked = true →
    (∀ passed t, s.due s.guard.retestAt = true → t = { s with guard := { s.guard with retestAt := none } } →
      exec (.entropyRetest passed) s = goesOn (if passed then t else t.postFailed)) ∧
    (∀ error b, s.guard.burn = some b →
      (error = true → b.retry = false → exec (.fuseProgramAck error) s = goesOn (s.burnGo { b with retry := true })) ∧
      (∀ svn t, error = false → b.kind = .min svn → b.req = none →
        t = { s with guard := { s.guard with min := svn } } → exec (.fuseProgramAck error) s = goesOn t.burnNext) ∧
      (∀ n q t, error = false ∨ b.retry = true → b.kind = .lifecycle n → b.req = some q → t = s.burnNext →
        exec (.fuseProgramAck error) s = goesOn (t.mbxReply q (if error then St.badState else St.ok)))) ∧
    (∀ t, s.guard.waiting.isSome = true → s.guard.activateAt.toNat ≤ s.ns →
      t = { s with guard := { s.guard with
        current := s.guard.waiting, previous := s.guard.current, waiting := none, activateAt := 0, linkDue := true } } →
      exec .keyActivate s = goesOn (if t.guardUp then t.deriveLinks else t)))

/-- The requests that the SPDM responder takes up, each answered as the rules say (R403–R407): negotiation, digests,
certificates, challenges, the measurements with their content, a session opened unless its key pair fails its test,
finished, used and ended, swarm keys and IDE keys. -/
def Obligations.SpdmRequestsComplete : Prop := ∀ (s : State) (q : DoeReq) (tells : State → Nat → List Word → Answered)
    (answers : State → Nat → Answered),
    (∀ (t : State) (code : Nat) (content : List Word), tells t code content = goesOn (t.emit (.doe q.fn 0 code content))) →
    (∀ (t : State) (code : Nat), answers t code = tells t code []) →
  (DoeTaken s q 0x84 false → exec (.getVersion q) s = tells s 0x84 [0x12, 0x13]) ∧
  (DoeTaken s q 0xE1 false → exec (.getCapabilities q) s = answers s 0xE1) ∧
  (∀ (algs : Algorithms) w, DoeTaken s q 0xE3 false →
    w = Word.mk (bitAt 4 algs.meas + bitAt 3 algs.aead + bitAt 2 algs.dhe + bitAt 1 algs.hash + bitAt 0 algs.signing) →
    exec (.negotiateAlgorithms q algs) s = tells
      { s with guard := { s.guard with negotiated := Tbl.insert s.guard.negotiated q.fn algs } } 0xE3 [w]) ∧
  (DoeTaken s q 0x81 false → exec (.getDigests q) s = tells s 0x81 [0x3]) ∧
  (∀ slot, DoeTaken s q 0x82 false → slot < 2 → exec (.getCertificate q slot) s = answers s 0x82) ∧
  (∀ slot, DoeTaken s q 0x83 true → slot < 2 → exec (.challenge q slot) s = answers s 0x83) ∧
  (DoeTaken s q 0xE0 true →
    exec (.getMeasurements q 0) s = tells s 0xE0 [7] ∧
    (∀ index, 1 ≤ index → index ≤ 7 → exec (.getMeasurements q index) s = tells s 0xE0 (s.measurement q.fn index)) ∧
    exec (.getMeasurements q 0xFF) s = tells s 0xE0 ((List.range 7).flatMap fun k => s.measurement q.fn (k + 1)) ∧
    s.measurement q.fn 5 =
      [Word.mk (s.fw.running.sig.svn * 2 ^ 16 + s.guard.min * 2 ^ 8 + s.guard.lifecycle), 0] ∧
    s.measurement 0 7 = List.replicate 12 0 ∧
    (s.store.open_ = none → s.measurement q.fn 4 = List.replicate 12 0)) ∧
  (∀ id, DoeTaken s q 0xE4 true → s.guard.sessions.length < 16 →
    (q.test ≠ .pct → exec (.keyExchange q id) s = answers
      { s with guard := { s.guard with sessions := s.guard.sessions ++ [{ fn := q.fn, id }] } } 0xE4) ∧
    (q.test = .pct → exec (.keyExchange q id) s = goesOn ((s.condFail Flt.pct q 0xE4).doeError q 0x03 0xE4))) ∧
  (∀ x, DoeTaken s q 0xE5 false → s.doeSession q = some x → x.finished = false → exec (.finish q true) s = answers
    { s with guard := { s.guard with
      sessions := updateFirst (fun y => y == x) (fun y => { y with finished := true }) s.guard.sessions } } 0xE5) ∧
  (Secured s q → (∀ code, DoeTaken s q code false) →
    exec (.keyUpdate q) s = answers s 0xE9 ∧ exec (.spdmHeartbeat q) s = answers s 0xE8 ∧
    exec (.endSession q) s = answers { s with guard := { s.guard with
      sessions := dropWhere (fun x => x.fn == q.fn && q.session == some x.id) s.guard.sessions } } 0xEC ∧
    (q.fn = 0 →
      (∀ epoch activateAt key, key.length = 8 → s.guard.waiting = none →
        (∀ k, s.guard.current = some k → k.epoch + 1 = epoch) → s.ns + 10000000 ≤ activateAt.toNat →
        exec (.swarmKeyLoad q epoch activateAt key) s = answers
          { s with guard := { s.guard with waiting := some { epoch, key }, activateAt } } 0xFE) ∧
      exec (.ideKmQuery q) s = answers s 0xFE ∧
      (∀ stream sub set t, stream < 8 → set < 2 →
        t = { s with guard := { s.guard with ide := dropWhere (fun (x : IdeKey) =>
          x.stream == stream && x.sub == sub && x.set == set) s.guard.ide ++ [({ stream, sub, set } : IdeKey)] } } →
        exec (.ideKmKeyProg q stream sub set) s = answers (t.emit (.key 0 stream (2 * sub + set) q.key)) 0xFE) ∧
      (∀ (x : IdeKey) (mine : IdeKey → Bool) (turn : Bool → State), x ∈ s.guard.ide → x.stream < 8 → x.set < 2 →
        (∀ y, mine y = (y.stream == x.stream && y.sub == x.sub && y.set == x.set)) →
        (∀ on, turn on = { s with guard := { s.guard with
          ide := updateFirst mine (fun y => { y with going := on }) s.guard.ide } }) →
        exec (.ideKmKSetGo q x.stream x.sub x.set) s = answers (turn true) 0xFE ∧
        exec (.ideKmKSetStop q x.stream x.sub x.set) s = answers (turn false) 0xFE)))

/-- The open store's commands and events (R359–R362), the translations (R417, R419): a routine runs and is stopped at its
limit, a word fails its check and is read back, a running command traps for a translation, which arrives and lets a squash
held meanwhile go on, or is invalidated; a page of a MODEL_LOAD arrives. -/
def Obligations.OpenStoreComplete : Prop := ∀ (s : State) (src : Src) (c : Cmd), s.clocked = true →
  (∀ op w reads, Offers s src op c → 0xE0 ≤ op → op ≤ 0xFF →
    w = (s.store.open_.map fun o => wordAt o.entries (op - 0xE0)).getD 0 →
    exec (.openRegionRoutine src reads) s = goesOn (if w.bit 31 then s.openRun c (s.pushedEntry src) (w.field 13 0) reads
      else s.finishCmd c St.badOpcode [] 3)) ∧
  (∀ committed, s.store.overrun = some (src, committed) → s.holds src = some c →
    exec .openRoutineTimeout s = goesOn ((s.openEvent c St.openTimeout).finishCmd c St.openTimeout [stopResult committed s.store.pc] noField)) ∧
  (∀ addr mask t, addr < 0x4000 → mask % 65536 ≠ 0 → s.store.readback = none → s.store.halted = false →
    s.interp.current = some src → s.holds src = some c → s.store.overrun = none →
    t = ((s.mchkRecord 1 addr (mask % 65536)).raise { id := Flt.ucParity, inst := some c.inst, status := St.machineCheck }).finishCmd c
      St.machineCheck [stopResult false addr] noField →
    exec (.parityMachineCheck addr mask) s = goesOn { t with store := { t.store with readback := some { addr } } }) ∧
  (∀ y t u, s.store.readback = some y → t = { s with store := { s.store with readback := none } } →
    exec (.mchkReadbackDone true) s = goesOn t ∧
    (u = t.raise { id := Flt.ucHard, status := St.machineCheck } →
      (∀ v, y.addr < 0x3000 → v = (u.andNotReg Reg.cmdCtrl 1).humStop Flt.ucHard →
        exec (.mchkReadbackDone false) s = goesOn { v with store := { v.store with halted := true } }) ∧
      (0x3000 ≤ y.addr → exec (.mchkReadbackDone false) s = goesOn u.clearOpen))) ∧
  (∀ page t, s.interp.current = some src → s.cmd src = some c → page = s.free 48 % 2 ^ 52 → (c.inst, page) ∉ s.atc →
    t = { s.drew with store := { s.store with traps := s.store.traps + 1, trap := some (c.inst, page) } } →
    exec .xlateTrap s = goesOn (t.emit (.atsRequest (s.htp c.inst (page * 4096)) (page * 4096)))) ∧
  (∀ e ws t, s.store.trap = some e →
    t = { s with store := s.store.handlerEnds, atc := e :: dropWhere (fun x => x == e) s.atc } →
    (s.store.heldSquash = false → exec (.htpDcCompletion 0 (.data ws)) s = goesOn t) ∧
    (∀ r, s.store.heldSquash = true → s.interp.current = some (.ring r) →
      exec (.htpDcCompletion 0 (.data ws)) s = goesOn (t.squashRing r))) ∧
  (∀ k o m regions read, Tbl.find s.interp.ops k = some o → o.ended = false → o.body = .model m regions →
    exec (.htpDcCompletion (k + 1) read) s = goesOn (s.modelPage k o m regions read)) ∧
  (∀ tag addr t, t = { s with atc := dropWhere (fun (x : Nat × Nat) => x.2 == addr.toNat / 4096) s.atc } →
    exec (.atsInvalidation tag addr) s = goesOn (t.emit (.atsDone tag)))

/-- Fences, the fence bus and faults (R215, R368, R370, R372–R379, R391): PRP_FENCE_CMD fences or unfences a unit or says
why not, a target takes each kind of message and answers it, the hub hears ACK and NAK or repeats; an event is forced, a
SEVERE latch cleared, HUM_OUT toggles. -/
def Obligations.FencesAndFaultsComplete : Prop := ∀ (s : State) (cls index : Nat) (w : Word),
  (Reachable s 0 → s.fences.busy = none →
    (∀ r, s.fenceCmdFail w = some r →
      (w.bit 31 = false → exec (.fenceCmd 0 w) s = goesOn { s with fences := { s.fences with result := r } }) ∧
      (w.bit 31 = true → exec (.unfenceCmd 0 w) s = goesOn { s with fences := { s.fences with result := r } })) ∧
    (∀ t, w.bit 31 = false → s.fenceCmdFail w = none → t = { s with fences := { s.fences with result := 0 } } →
      exec (.fenceCmd 0 w) s = goesOn { t with fences := { t.fences with
        demand := t.fences.demand ++ [(w.field 30 28, w.field 10 0)] } }) ∧
    (w.bit 31 = true → s.fenceCmdFail w = none →
      exec (.unfenceCmd 0 w) s = goesOn { s with fences := { s.fences with busy := some w } })) ∧
  (∀ (m : BusSent) (seq : Byte) (answer : Nat → State → State), s.clocked = true →
    (s.target cls index).sent = some m →
    (∀ kind t, answer kind t = t.emit (.bus cls index kind m.seq (busCheck kind cls index m.seq 0) 0)) →
    (∀ t, t = (if (s.target cls index).acted = some m.seq then s
        else s.setTarget cls index { s.target cls index with acted := some m.seq }) →
      (m.msg.kind = .fence → exec (.fenceBusFence cls index true) s = goesOn (answer 5 t)) ∧
      (m.msg.kind = .unfence → exec (.fenceBusUnfence cls index true) s = goesOn (answer 5 t)) ∧
      (m.msg.kind = .reg → (s.target cls index).acted ≠ some m.seq →
        exec (.fenceBusReg cls index true) s = goesOn (answer 5 (applyReg cls index m.msg t)))) ∧
    (m.msg.kind = .fence → exec (.fenceBusFence cls index false) s = goesOn (answer 6 s)) ∧
    (m.msg.kind = .unfence → exec (.fenceBusUnfence cls index false) s = goesOn (answer 6 s)) ∧
    (m.msg.kind = .reg → exec (.fenceBusReg cls index false) s = goesOn (answer 6 s)) ∧
    (m.seq = seq →
      (m.msg.kind ≠ .irq → exec (.fenceBusAck cls index seq) s = goesOn
        ((s.setTarget cls index { s.target cls index with sent := none }).busPump cls index)) ∧
      exec (.fenceBusNak cls index seq) s = goesOn (s.busRetry cls index)) ∧
    (m.msg.kind ≠ .irq → m.sentCc + s.ackLimit ≤ s.cc → exec (.fenceAckTimeout cls index) s = goesOn (s.busRetry cls index))) ∧
  (∀ t m, s.clocked = true → t = s.target 0 index → t.sent = some m → m.msg.kind = .irq →
    exec (.fenceBusIrq index true) s = goesOn ((s.setTarget 0 index
      { t with sent := none, acted := some m.seq, lines := m.msg.payload.toNat % 4 }).busPump 0 index) ∧
    exec (.fenceBusIrq index false) s = goesOn (s.emit (.bus 0 index 6 m.seq (busCheck 6 0 index m.seq 0) 0))) ∧
  (Reachable s 0 →
    (∀ off b, forceBlock off = some b → exec (.faultForce 0 off w) s = goesOn ((List.range 32).foldl (fun s i =>
      if w.getLsbD i then s.forceOne (32 * b + i) else s) s)) ∧
    (∀ id t u, id < 2048 → w.bit 31 = true → t = s.andNotReg (prpFSev id) 0x80000000 →
      u = { t with fences := { t.fences with counts := dropWhere (fun e => e.1 / 8192 == id) t.fences.counts } } →
      exec (.severeClear 0 id w) s = goesOn (u.syncLine (id / 32)))) ∧
  (s.inReset = false → s.hum.toggling = true → s.hum.nextAt ≤ s.ticks → s.power.freeze = none →
    (s.hum.stopped = true → exec .humToggle s = goesOn { s with hum := { s.hum with level := false, toggling := false } }) ∧
    (s.hum.stopped = false → exec .humToggle s = goesOn { s with hum := { s.hum with
      level := !s.hum.level,
      nextAt := if s.hum.nextAt + s.humHalf ≤ s.ticks then s.ticks + s.humHalf else s.hum.nextAt + s.humHalf } }))

/-- The interrupt controller (R381–R388) and BAR0 accesses to registers (R5, R6, R451): a level changes, the
highest-numbered source is claimed and completed, a storm mask is lifted, a hold-off ends; a read returns the register, or
the bytes of it that are asked for, and has its read's effect, an 8-byte one that of two registers, a write stores the bits of a read-write register, leaves a read-only one, and acts on two registers
where it is 8 bytes wide. -/
def Obligations.InterruptsAndRegistersComplete : Prop := ∀ (s : State) (n p : Nat) (b : Bool),
  (s.clocked = true → extSource n = true → exec (.irqLevelChange n b) s = goesOn (s.irqLevel n b)) ∧
  (s.clocked = true →
    (∀ x hold r t u, s.claimable p b = some n → x = s.irq n → r = s.emit (.readData 0 (Word.mk n)) →
      hold = (Tbl.get (fun _ => 0) s.ic.holdoff (x.cfg.field 21 16) : Word).field 15 0 * 64 →
      t = r.setIrq n { x with active := some (p, b) } →
      u = (if hold = 0 then t else { t with ic := { t.ic with
        timers := Tbl.insert t.ic.timers (x.cfg.field 21 16) (t.cc + hold) } }) →
      exec (.icClaim p b) s = goesOn u.icSync) ∧
    (s.claimable p b = none → exec (.icClaim p b) s = goesOn (s.emit (.readData 0 0x3FF))) ∧
    ((s.irq n).active = some (p, b) → exec (.icComplete p b n) s = goesOn
      ((s.setIrq n { s.irq n with active := none, reasserted := false }).icSync)) ∧
    (∀ at_ t, Tbl.find s.ic.timers n = some at_ → at_ ≤ s.cc →
      t = { s with ic := { s.ic with timers := Tbl.erase s.ic.timers n } } →
      exec (.holdoffExpiry n) s = goesOn t.icSync)) ∧
  (∀ w, Reachable s 0 → w.bit 3 = true → s.regField Reg.icSrcSel 9 0 = n →
    exec (.stormUnmask 0 w) s = goesOn ((s.setIrq n { s.irq n with masked := false, rises := 0, ws := 0 }).icSync)) ∧
  (∀ fn off, Reachable s fn → off / 0x10000 ≠ 0x10 ∨ fn ≠ 0 →
    (∀ k n w, k = off - off % 4 → off % 4 + n ≤ 4 → 0 < n → claimOf fn k = none →
      w = Word.mk ((s.readReg fn k).toNat / 2 ^ (8 * (off % 4)) % 2 ^ (8 * n)) →
      exec (.rcCounterRead fn ⟨false, off, n⟩) s = goesOn ((s.emit (.readData fn w)).afterRead fn k)) ∧
    (∀ t, off % 8 = 0 → claimOf fn off = none → claimOf fn (off + 4) = none →
      t = (s.emit (.readData fn (s.readReg fn off))).afterRead fn off →
      exec (.rcCounterRead fn ⟨false, off, 8⟩) s =
        goesOn ((t.emit (.readData fn (t.readReg fn (off + 4)))).afterRead fn (off + 4))) ∧
    (∀ n, n = 0 ∨ (4 < off % 4 + n ∧ (n ≠ 8 ∨ off % 8 ≠ 0)) →
      exec (.rcCounterRead fn ⟨false, off, n⟩) s = goesOn (s.emit (.readData fn 0))) ∧
    (∀ n, exec (.rcCounterRead fn ⟨true, off, n⟩) s = goesOn (s.emit (.readData fn 0))) ∧
    (∀ v, off % 8 = 0 → exec (.registerWrite fn off 8 v) s =
      goesOn ((s.writeReg fn off v.lo).writeReg fn (off + 4) v.hi)) ∧
    (∀ v x, off % 4 = 0 → sees fn off = true → s.frmOff off = false → prpPage off = none → regSpec off = some x →
      (x.kind = .rw → exec (.registerWrite fn off 4 v) s =
        goesOn ((s.setReg (regKey fn off) (v.lo &&& x.mask)).stored off (v.lo &&& x.mask))) ∧
      (x.kind = .ro → exec (.registerWrite fn off 4 v) s = goesOn s)))

/-- Resets, bring-up, sleep, freezes and the TAP (R351, R411–R415, R428, R432–R439, R442–R444): what each leaves, where the
block is in the state that it is for. -/
def Obligations.PowerCommandsComplete : Prop := ∀ (s t : State),
  exec .powerOnReset s = .next s.cleared ∧
  (s.power.phase = .inReset → exec .resetRelease s = .next
    (State.emits (State.emit { s with power := { s.power with phase := .released } } .keyZero)
      ((List.range 512).map Output.fuseRead)).takeStacks) ∧
  (∀ ws error, s.clocked = true → s.power.phase = .released →
    (fusesOk ws = true → s.power.freezeWaits = false → exec (.fuseMapReadDone ws false) s = goesOn { s with
      power := { s.power with phase := .up, fuses := { words := ws }, freezeWaits := false },
      guard := guardFuses ws }) ∧
    (error = true ∨ fusesOk ws = false →
      (s.power.attempts = 0 → exec (.fuseMapReadDone ws error) s = goesOn
        (State.emits { s with power := { s.power with attempts := 1 } } ((List.range 512).map Output.fuseRead))) ∧
      (s.power.attempts ≠ 0 → exec (.fuseMapReadDone ws error) s = goesOn
        { s with power := { s.power with phase := .heldOff, attempts := 2, freezeWaits := false } }))) ∧
  (∀ w : Word, w.field 31 16 = 0x5A3D → w.bit 0 = true → s.power.freeze = none → s.power.phase = .up →
    s.power.softDue = none → t = { s with
      power := { s.power with softDue := some (s.ns + 1000000) },
      hum := { s.hum with level := false, toggling := false } } →
    exec (.softReset 0 w) s = .next t.withdrawAll) ∧
  (∀ at_, s.power.softDue = some at_ → s.power.freeze = none → s.anyRunning = false ∨ at_ ≤ s.ns →
    t = (s.sched.ctxs.map fun e => e.1).foldl (fun s c => s.emit (.linkCmd 0x7F 1 (BitVec.ofNat 64 (c * 2 ^ 52)))) s →
    exec .softResetTakeEffect s = .next (t.innerReset 2)) ∧
  (s.clocked = true → s.power.st = .run → s.barOpen = true →
    (∀ r, s.sleepReason = some r → t = { s with power := { s.power with refused := true, reason := r } } →
      exec (.sleepRequest 0) s = goesOn ((t.andNotReg Reg.pwrCtrl 1).raise { id := Flt.sleepRefused })) ∧
    (s.sleepReason = none → t = { s with
      power := { s.power with st := .sleepEntry, refused := false, reason := 0, wakeSeen := false } } →
      exec (.sleepRequest 0) s = goesOn (t.orReg Reg.pwrCtrl 1))) ∧
  (s.power.freeze = none → s.power.phase = .up → s.power.softDue = none →
    exec (.sleepRequestClear 0) s = .next (s.andNotReg Reg.pwrCtrl 1).wakeEvent) ∧
  (s.power.st = .sleepEntry → s.power.freeze = none → t = { s with power := { s.power with st := .sleeping } } →
    exec .sleepEntryDone s = .next (if s.power.wakeSeen then t.wakeEvent else t)) ∧
  (s.wakeAt ≠ 0 → s.wakeAt ≤ s.ns → exec .wakeTimeReached s = .next s.wakeEvent) ∧
  (s.power.st = .waking → s.power.restored = false → s.power.freeze = none →
    (∀ ic, exec (.wakeRestoreDone false ic) s = .next (s.innerReset 3)) ∧
    (∀ ic u, t = { s with power := { s.power with restored := true }, ic := { s.ic with timers := [] } } →
      u = (if ic then t.icSync else t.icLost) → exec (.wakeRestoreDone true ic) s = .next
        ((u.controlCores ++ [schedulerCore, powerCore, guardCore]).foldl (fun s p => s.plannedRestart p 4) u).wakeSettle)) ∧
  exec .freezePin s = .next s.freezePin ∧
  (∀ fn x, s.power.freeze ≠ none → exec (.rcCounterRead fn x) s = .next { s with
    power := { s.power with heldReads := s.power.heldReads ++ [(fn, x)] } }) ∧
  (∀ f, s.power.freeze = some f → f.lowSeen = true → s.freezeLocked = false →
    t = { s with power := { s.power with freeze := none, heldReads := [] } } →
    exec .thaw s = .next (s.power.heldReads.foldl (fun s x => s.readNow x.1 x.2)
      (t.raise { id := Flt.thawed }).icSync)) ∧
  (∀ point u, s.clocked = true → t = { s with fw := { s.fw with hits := s.fw.hits + 1 } } →
    u = (if s.fw.trace.getLsbD point then t.logEvent 0xFF point (t.waggleArgs point) else t) →
    (s.fw.freeze.getLsbD point = true → exec (.wagglePassage point) s = goesOn (State.takeFreeze { u with
      fw := { u.fw with freeze := u.fw.freeze &&& ~~~(1#256 <<< point) } } (.waggle point) false)) ∧
    (s.fw.freeze.getLsbD point = false → s.fw.trace.getLsbD point = true →
      exec (.wagglePassage point) s = goesOn u)) ∧
  exec .idcode s = .next ((s.tapIr 0x01).emit (.tap (lsbBits 32 idcodeWord))) ∧
  (∀ chain, exec (.scanSel chain) s = .next { s with power := { s.power with ir := 0x20, chain := chain.toNat } }) ∧
  (∀ f header, t = s.tapIr 0x21 → s.power.freeze = some f → f.captured = true → s.guard.lifecycle < 4 →
    s.chainThere s.power.chain = true →
    header = t.free 41 % 2 ^ 24 * 2 ^ 8 + bitAt 1 (f.zeroed && chainKeys s.power.chain) + bitAt 0 (chainKeys s.power.chain) →
    exec .scanDump s = .next (t.drew.emit (.tap (lsbBits 32 header ++
      if s.power.chain = 0 then lsbBits 96 f.counter.toNat else [])))) ∧
  (∀ bit, exec (.bypass bit) s = .next ((s.tapIr 0xFF).emit (.tap [false, bit])))
end

