-- ==== Sys2Proof/Laws/Table.lean ====
section
/-!
SUPPORT. Sparse tables: erasing, inserting, filtering and writing keep keys rising; a write and a filter keep the canonical
form.
-/

namespace Sys2Proof.Machine

/-- Every listed key is above lo, where lo is given. -/
theorem Tbl.rising_weaken {α : Type} {lo : Option Nat} {i : Nat} (h : ∀ l, lo = some l → l < i) :
    ∀ {t : Tbl α}, Tbl.rising (some i) t = true → Tbl.rising lo t = true
  | [], _ => by cases lo <;> rfl
  | (j, v) :: t, ht => by
    simp only [Tbl.rising, Bool.and_eq_true, decide_eq_true_eq] at ht
    cases lo with
    | none => exact ht.2
    | some l => simpa [Tbl.rising] using ⟨Nat.lt_trans (h l rfl) ht.1, ht.2⟩

theorem Tbl.rising_cons {α : Type} {lo : Option Nat} {j : Nat} {v : α} {t : Tbl α} :
    Tbl.rising lo ((j, v) :: t) = true ↔ (∀ l, lo = some l → l < j) ∧ Tbl.rising (some j) t = true := by
  cases lo <;> simp [Tbl.rising]

theorem Tbl.rising_erase {α : Type} {k : Nat} :
    ∀ {lo : Option Nat} {t : Tbl α}, Tbl.rising lo t = true → Tbl.rising lo (Tbl.erase t k) = true
  | lo, [], _ => by cases lo <;> rfl
  | lo, (j, v) :: t, h => by
    rw [Tbl.rising_cons] at h
    unfold Tbl.erase
    split
    · exact Tbl.rising_weaken h.1 h.2
    · exact Tbl.rising_cons.2 ⟨h.1, Tbl.rising_erase h.2⟩

theorem Tbl.rising_insert {α : Type} {k : Nat} {v : α} :
    ∀ {lo : Option Nat} {t : Tbl α}, (∀ l, lo = some l → l < k) → Tbl.rising lo t = true →
      Tbl.rising lo (Tbl.insert t k v) = true
  | lo, [], hk, _ => by cases lo <;> simp [Tbl.insert, Tbl.rising] at *; exact hk
  | lo, (j, w) :: t, hk, h => by
    rw [Tbl.rising_cons] at h
    unfold Tbl.insert
    split
    · rename_i hj
      exact Tbl.rising_cons.2 ⟨hk, Tbl.rising_cons.2 ⟨fun l e => by cases e; exact hj, h.2⟩⟩
    · rename_i hj
      split
      · rename_i hjk
        subst hjk
        exact Tbl.rising_cons.2 ⟨hk, h.2⟩
      · rename_i hjk
        exact Tbl.rising_cons.2 ⟨h.1, Tbl.rising_insert (fun l e => by cases e; omega) h.2⟩

theorem Tbl.rising_filter {α : Type} {p : Nat × α → Bool} :
    ∀ {lo : Option Nat} {t : Tbl α}, Tbl.rising lo t = true → Tbl.rising lo (t.filter p) = true
  | lo, [], _ => by cases lo <;> rfl
  | lo, (j, v) :: t, h => by
    rw [Tbl.rising_cons] at h
    rw [List.filter_cons]
    split
    · exact Tbl.rising_cons.2 ⟨h.1, Tbl.rising_filter h.2⟩
    · exact Tbl.rising_filter (Tbl.rising_weaken h.1 h.2)

theorem Tbl.mem_erase {α : Type} {k : Nat} {e : Nat × α} : ∀ {t : Tbl α}, e ∈ Tbl.erase t k → e ∈ t
  | [], h => h
  | (j, v) :: t, h => by
    unfold Tbl.erase at h
    split at h
    · exact List.mem_cons_of_mem _ h
    · rcases List.mem_cons.1 h with h | h
      · exact h ▸ List.mem_cons_self
      · exact List.mem_cons_of_mem _ (Tbl.mem_erase h)

theorem Tbl.mem_insert {α : Type} {k : Nat} {v : α} {e : Nat × α} :
    ∀ {t : Tbl α}, e ∈ Tbl.insert t k v → e = (k, v) ∨ e ∈ t
  | [], h => by simp [Tbl.insert] at h; exact .inl h
  | (j, w) :: t, h => by
    unfold Tbl.insert at h
    split at h
    · rcases List.mem_cons.1 h with h | h
      · exact .inl h
      · exact .inr h
    · split at h
      · rcases List.mem_cons.1 h with h | h
        · exact .inl h
        · exact .inr (List.mem_cons_of_mem _ h)
      · rcases List.mem_cons.1 h with h | h
        · exact .inr (h ▸ List.mem_cons_self)
        · rcases Tbl.mem_insert h with h | h
          · exact .inl h
          · exact .inr (List.mem_cons_of_mem _ h)

/-- A write keeps the canonical form. -/
theorem Tbl.wf_put {α : Type} [DecidableEq α] {d : Nat → α} {t : Tbl α} {k : Nat} {v : α} (h : Tbl.wf d t = true) :
    Tbl.wf d (Tbl.put d t k v) = true := by
  simp only [Tbl.wf, Bool.and_eq_true, List.all_eq_true, decide_eq_true_eq] at h ⊢
  unfold Tbl.put
  split
  · exact ⟨Tbl.rising_erase h.1, fun e he => h.2 e (Tbl.mem_erase he)⟩
  · rename_i hv
    refine ⟨Tbl.rising_insert (fun l e => by cases e) h.1, fun e he => ?_⟩
    rcases Tbl.mem_insert he with he | he
    · subst he; exact hv
    · exact h.2 e he

theorem Tbl.wf_filter {α : Type} [DecidableEq α] {d : Nat → α} {t : Tbl α} {p : Nat × α → Bool} (h : Tbl.wf d t = true) :
    Tbl.wf d (t.filter p) = true := by
  simp only [Tbl.wf, Bool.and_eq_true, List.all_eq_true, decide_eq_true_eq] at h ⊢
  exact ⟨Tbl.rising_filter h.1, fun e he => h.2 e (List.mem_filter.1 he).1⟩

/-! What reads back -/

theorem Tbl.get_insert_same {α : Type} (d : Nat → α) (t : Tbl α) (k : Nat) (v : α) : Tbl.get d (Tbl.insert t k v) k = v := by
  induction t with
  | nil => simp [Tbl.insert, Tbl.get]
  | cons e t ih =>
    obtain ⟨j, w⟩ := e
    simp only [Tbl.insert]
    split
    · simp [Tbl.get]
    · split
      · simp [Tbl.get]
      · rename_i h; simp [Tbl.get, h, ih]

theorem Tbl.get_insert_other {α : Type} (d : Nat → α) (t : Tbl α) (k n : Nat) (v : α) (h : n ≠ k) :
    Tbl.get d (Tbl.insert t k v) n = Tbl.get d t n := by
  induction t with
  | nil => simp [Tbl.insert, Tbl.get, Ne.symm h]
  | cons e t ih =>
    obtain ⟨j, w⟩ := e
    simp only [Tbl.insert]
    split
    · simp [Tbl.get, Ne.symm h]
    · split
      · rename_i hj; subst hj; simp [Tbl.get, Ne.symm h]
      · simp only [Tbl.get, ih]

theorem Tbl.get_erase_other {α : Type} (d : Nat → α) (t : Tbl α) (k n : Nat) (h : n ≠ k) :
    Tbl.get d (Tbl.erase t k) n = Tbl.get d t n := by
  induction t with
  | nil => rfl
  | cons e t ih =>
    obtain ⟨j, w⟩ := e
    simp only [Tbl.erase]
    split
    · rename_i hj; subst hj; simp [Tbl.get, Ne.symm h]
    · simp only [Tbl.get, ih]

/-- Another key keeps its value. -/
theorem Tbl.get_put_other {α : Type} [DecidableEq α] (d : Nat → α) (t : Tbl α) (k n : Nat) (v : α) (h : n ≠ k) :
    Tbl.get d (Tbl.put d t k v) n = Tbl.get d t n := by
  unfold Tbl.put
  split
  · exact Tbl.get_erase_other d t k n h
  · exact Tbl.get_insert_other d t k n v h

/-- A value other than the default reads back. -/
theorem Tbl.get_put_same {α : Type} [DecidableEq α] (d : Nat → α) (t : Tbl α) (k : Nat) (v : α) (h : v ≠ d k) :
    Tbl.get d (Tbl.put d t k v) k = v := by
  simp [Tbl.put, h, Tbl.get_insert_same]

theorem Tbl.get_above {α : Type} (d : Nat → α) (t : Tbl α) (k : Nat) (h : Tbl.rising (some k) t = true) :
    Tbl.get d t k = d k := by
  induction t generalizing k with
  | nil => rfl
  | cons e t ih =>
    obtain ⟨j, w⟩ := e
    simp only [Tbl.rising, Bool.and_eq_true, decide_eq_true_eq] at h
    have hj : j ≠ k := by omega
    simp only [Tbl.get, hj, if_false]
    refine ih k ?_
    cases t with
    | nil => rfl
    | cons f u =>
      obtain ⟨m, y⟩ := f
      simp only [Tbl.rising, Bool.and_eq_true, decide_eq_true_eq] at h ⊢
      exact ⟨by omega, h.2.2⟩

theorem Tbl.get_erase_same {α : Type} (d : Nat → α) (t : Tbl α) (k : Nat) (o : Option Nat) (h : Tbl.rising o t = true) :
    Tbl.get d (Tbl.erase t k) k = d k := by
  induction t generalizing o with
  | nil => rfl
  | cons e t ih =>
    obtain ⟨j, w⟩ := e
    have h' : Tbl.rising (some j) t = true := by
      cases o <;> simp_all [Tbl.rising]
    simp only [Tbl.erase]
    split
    · rename_i hj; subst hj; exact Tbl.get_above d t _ h'
    · rename_i hj; simp only [Tbl.get, hj, if_false]; exact ih _ h'

/-- In a canonical table every value reads back. -/
theorem Tbl.get_put_wf {α : Type} [DecidableEq α] (d : Nat → α) (t : Tbl α) (k : Nat) (v : α)
    (h : Tbl.wf d t = true) : Tbl.get d (Tbl.put d t k v) k = v := by
  by_cases hv : v = d k
  · simp only [Tbl.wf, Bool.and_eq_true] at h
    simp only [Tbl.put, hv, if_true]
    exact Tbl.get_erase_same d t k none h.1
  · exact Tbl.get_put_same d t k v hv

theorem Tbl.find_insert_same {α : Type} (t : Tbl α) (k : Nat) (v : α) : Tbl.find (Tbl.insert t k v) k = some v := by
  induction t with
  | nil => simp [Tbl.insert, Tbl.find]
  | cons e t ih =>
    obtain ⟨j, w⟩ := e
    simp only [Tbl.insert]
    split
    · simp [Tbl.find]
    · split
      · simp [Tbl.find]
      · rename_i h; simp [Tbl.find, h, ih]

/-- A key that was not listed, inserted and erased again, leaves the table as it was. -/
theorem Tbl.erase_insert {α : Type} (t : Tbl α) (k : Nat) (v : α) (h : Tbl.find t k = none) :
    Tbl.erase (Tbl.insert t k v) k = t := by
  induction t with
  | nil => simp [Tbl.insert, Tbl.erase]
  | cons e t ih =>
    obtain ⟨j, w⟩ := e
    simp only [Tbl.find] at h
    split at h
    · cases h
    · rename_i hj
      simp only [Tbl.insert]
      split
      · simp [Tbl.erase]
      · simp [Tbl.erase, hj, ih h]

end Sys2Proof.Machine
end

