-- ==== Sys2Proof/Laws/Canon.lean ====
section
/-!
SUPPORT. What each command keeps: the register file in its canonical form, and the queue of waiting commands as it is. The
lemmas for each function of the model follow in Laws/Canon*.lean, one per function, in the order of the model.
-/

namespace Sys2Proof.Machine

/-- The register file in canonical form, the queue as it was. -/
def CanonOn (q : List Instr) (r : Tbl Word) (p : List Instr) : Prop := Tbl.wf resetVal r = true ∧ p = q

/-- The register file of a state is canonical and its queue is q. -/
abbrev Canon (q : List Instr) (s : State) : Prop := CanonOn q s.regs s.pending

theorem canon_ite {q : List Instr} {c : Prop} [Decidable c] {a b : State} (ha : Canon q a) (hb : Canon q b) :
    Canon q (if c then a else b) := by split <;> assumption

theorem canon_let {q : List Instr} {α : Sort _} {v : α} {b : α → State} (h : ∀ x, Canon q (b x)) :
    Canon q (have x := v; b x) := h v

theorem canon_let_state {q : List Instr} {v : State} {b : State → State} (hv : Canon q v)
    (h : ∀ x : State, Canon q x → Canon q (b x)) :
    Canon q (have x := v; b x) := h v hv

theorem canon_foldl {q : List Instr} {α : Type} {f : State → α → State} (hf : ∀ s x, Canon q s → Canon q (f s x))
    {l : List α} {s : State} (h : Canon q s) : Canon q (l.foldl f s) := by
  induction l generalizing s with
  | nil => exact h
  | cons x l ih => exact ih (hf s x h)

theorem canon_foldl_fst {q : List Instr} {α β : Type} {f : State × β → α → State × β}
    (hf : ∀ s x, Canon q s.1 → Canon q (f s x).1)
    {l : List α} {s : State × β} (h : Canon q s.1) :
    Canon q (l.foldl f s).1 := by
  induction l generalizing s with
  | nil => exact h
  | cons x l ih => exact ih (hf s x h)

theorem canon_foldl_snd {q : List Instr} {α β : Type} {f : β × State → α → β × State}
    (hf : ∀ s x, Canon q s.2 → Canon q (f s x).2)
    {l : List α} {s : β × State} (h : Canon q s.2) :
    Canon q (l.foldl f s).2 := by
  induction l generalizing s with
  | nil => exact h
  | cons x l ih => exact ih (hf s x h)

theorem canon_foldl_rebuild {q : List Instr} {α : Type} {f : Rebuild → α → Rebuild}
    (hf : ∀ s x, Canon q s.s → Canon q (f s x).s)
    {l : List α} {s : Rebuild} (h : Canon q s.s) :
    Canon q (l.foldl f s).s := by
  induction l generalizing s with
  | nil => exact h
  | cons x l ih => exact ih (hf s x h)

theorem of_findSome {α β : Type} {f : α → Option β} {l : List α} {y : β} {P : Prop} (e : l.findSome? f = some y)
    (h : ∀ a, f a = some y → P) : P := by
  obtain ⟨a, _, ha⟩ := List.exists_of_findSome?_eq_some e
  exact h a ha

theorem of_bind {α β : Type} {o : Option α} {f : α → Option β} {y : β} {P : Prop} (e : o.bind f = some y)
    (h : ∀ x, o = some x → f x = some y → P) : P := by
  cases o with
  | none => cases e
  | some x => exact h x rfl e

theorem of_map {α β : Type} {o : Option α} {f : α → β} {y : β} {P : Prop} (e : o.map f = some y)
    (h : ∀ x, o = some x → f x = y → P) : P := by
  cases o with
  | none => cases e
  | some x => exact h x rfl (Option.some.inj e)

/-- A fold of steps that may fail keeps what each step keeps. -/
theorem canon_foldl_opt {q : List Instr} {α : Type} {f : Option State → α → Option State} (hn : ∀ x, f none x = none)
    (hf : ∀ (s : State) x t, f (some s) x = some t → Canon q s → Canon q t)
    {l : List α} {s t : State} (e : l.foldl f (some s) = some t) (h : Canon q s) :
    Canon q t := by
  have none_fold : ∀ l : List α, l.foldl f none = none := by
    intro l; induction l with
    | nil => rfl
    | cons x l ih => rw [List.foldl_cons, hn]; exact ih
  induction l generalizing s with
  | nil => cases e; exact h
  | cons x l ih =>
    rw [List.foldl_cons] at e
    cases hx : f (some s) x with
    | none => rw [hx, none_fold] at e; cases e
    | some u => rw [hx] at e; exact ih e (hf s x u hx h)

theorem canon_foldl_opt_any {q : List Instr} {α : Type} {f : Option State → α → Option State} (hn : ∀ x, f none x = none)
    (hf : ∀ (s : State) x t, f (some s) x = some t → Canon q s → Canon q t)
    {l : List α} {o : Option State} {t : State} (e : l.foldl f o = some t)
    (h : ∀ s, o = some s → Canon q s) : Canon q t := by
  cases o with
  | some s => exact canon_foldl_opt hn hf e (h s rfl)
  | none =>
    have none_fold : ∀ l : List α, l.foldl f none = none := by
      intro l; induction l with
      | nil => rfl
      | cons x l ih => rw [List.foldl_cons, hn]; exact ih
    rw [none_fold] at e; cases e

/-- A fold of steps that may fail keeps what each step keeps, beside a value of its own. -/
theorem canon_foldl_opt_snd {q : List Instr} {α β : Type} {f : Option (β × State) → α → Option (β × State)} (hn : ∀ x, f none x = none)
    (hf : ∀ (s : β × State) x t, f (some s) x = some t → Canon q s.2 → Canon q t.2)
    {l : List α} {s t : β × State} (e : l.foldl f (some s) = some t) (h : Canon q s.2) :
    Canon q t.2 := by
  have none_fold : ∀ l : List α, l.foldl f none = none := by
    intro l; induction l with
    | nil => rfl
    | cons x l ih => rw [List.foldl_cons, hn]; exact ih
  induction l generalizing s with
  | nil => cases e; exact h
  | cons x l ih =>
    rw [List.foldl_cons] at e
    cases hx : f (some s) x with
    | none => rw [hx, none_fold] at e; cases e
    | some u => rw [hx] at e; exact ih e (hf s x u hx h)

theorem canon_foldr {q : List Instr} {α : Type} {f : α → State → State} (hf : ∀ s x, Canon q s → Canon q (f x s))
    {l : List α} {s : State} (h : Canon q s) : Canon q (l.foldr f s) := by
  induction l with
  | nil => exact h
  | cons x l ih => exact hf _ x ih

theorem canon_getD {q : List Instr} {o : Option State} {s : State} (ho : ∀ t, o = some t → Canon q t)
    (h : Canon q s) : Canon q (o.getD s) := by
  cases o with
  | none => exact h
  | some t => exact ho t rfl

theorem canon_put {q : List Instr} {r : Tbl Word} {p : List Instr} {k : Nat} {v : Word} (h : CanonOn q r p) :
    CanonOn q (Tbl.put resetVal r k v) p := ⟨Tbl.wf_put h.1, h.2⟩

theorem canon_filter {q : List Instr} {r : Tbl Word} {p : List Instr} {f : Nat × Word → Bool} (h : CanonOn q r p) :
    CanonOn q (r.filter f) p := ⟨Tbl.wf_filter h.1, h.2⟩

theorem canon_nil {q : List Instr} {r : Tbl Word} {p : List Instr} (h : CanonOn q r p) : CanonOn q [] p := ⟨rfl, h.2⟩

/-- Every state in an answer is canonical, and a long operation goes on so. -/
def AnsCanon (q : List Instr) : Answer → Prop
  | .refuse _ _ => True
  | .done s _ | .ends s _ _ | .later s _ => Canon q s
  | .long s _ _ _ _ go => Canon q s ∧ ∀ k (u : State), Canon q u → Canon q (go k u)

theorem ansCanon_refuse {q : List Instr} {a : Byte} {b : Nat} : AnsCanon q (.refuse a b) := True.intro

theorem ansCanon_done {q : List Instr} {s : State} {a : List Word} (h : Canon q s) : AnsCanon q (.done s a) := h

theorem ansCanon_ends {q : List Instr} {s : State} {b : Byte} {a : List Word} (h : Canon q s) :
    AnsCanon q (.ends s b a) := h

theorem ansCanon_later {q : List Instr} {s : State} {w : Waiting} (h : Canon q s) : AnsCanon q (.later s w) := h

theorem ansCanon_long {q : List Instr} {s : State} {n : Nat} {b : OpBody} {a : Word} {r : List Word} {go : Nat → State → State}
    (h : Canon q s) (hg : ∀ k (u : State), Canon q u → Canon q (go k u)) :
    AnsCanon q (.long s n b a r go) := ⟨h, hg⟩

theorem ansCanon_ite {q : List Instr} {c : Prop} [Decidable c] {a b : Answer} (ha : AnsCanon q a) (hb : AnsCanon q b) :
    AnsCanon q (if c then a else b) := by split <;> assumption

end Sys2Proof.Machine
end

