-- ==== Sys2Proof/Laws/CanonOps.lean ====
section
/-!
SUPPORT. Laws/Canon.lean's property for the shared operations.
-/

namespace Sys2Proof.Machine

theorem State.emit_canon {q a1} {a0 : State} (h0 : Canon q a0) :
    Canon q (State.emit a0 a1) := by
  unfold State.emit
  try dsimp only
  repeat' with_reducible first
    | assumption | dsimp only | split

theorem State.emits_canon {q a1} {a0 : State} (h0 : Canon q a0) :
    Canon q (State.emits a0 a1) := by
  unfold State.emits
  try dsimp only
  repeat' with_reducible first
    | assumption | dsimp only | split

theorem State.drew_canon {q} {a0 : State} (h0 : Canon q a0) :
    Canon q (State.drew a0) := by
  unfold State.drew
  try dsimp only
  repeat' with_reducible first
    | assumption | dsimp only | split

theorem State.setReg_canon {q a1 a2} {a0 : State} (h0 : Canon q a0) :
    Canon q (State.setReg a0 a1 a2) := by
  unfold State.setReg
  try dsimp only
  repeat' with_reducible first
    | assumption | apply canon_put | dsimp only | split

theorem State.orReg_canon {q a1 a2} {a0 : State} (h0 : Canon q a0) :
    Canon q (State.orReg a0 a1 a2) := by
  unfold State.orReg
  try dsimp only
  repeat' with_reducible first
    | assumption | apply State.setReg_canon | dsimp only | split

theorem State.andNotReg_canon {q a1 a2} {a0 : State} (h0 : Canon q a0) :
    Canon q (State.andNotReg a0 a1 a2) := by
  unfold State.andNotReg
  try dsimp only
  repeat' with_reducible first
    | assumption | apply State.setReg_canon | dsimp only | split

theorem State.incReg_canon {q a1} {a0 : State} (h0 : Canon q a0) :
    Canon q (State.incReg a0 a1) := by
  unfold State.incReg
  try dsimp only
  repeat' with_reducible first
    | assumption | apply State.setReg_canon | dsimp only | split

theorem State.addReg_canon {q a1 a2} {a0 : State} (h0 : Canon q a0) :
    Canon q (State.addReg a0 a1 a2) := by
  unfold State.addReg
  try dsimp only
  repeat' with_reducible first
    | assumption | apply State.setReg_canon | dsimp only | split

theorem State.satReg_canon {q a1} {a0 : State} (h0 : Canon q a0) :
    Canon q (State.satReg a0 a1) := by
  unfold State.satReg
  try dsimp only
  repeat' with_reducible first
    | assumption | apply State.setReg_canon | dsimp only | split

theorem State.maxReg_canon {q a1 a2} {a0 : State} (h0 : Canon q a0) :
    Canon q (State.maxReg a0 a1 a2) := by
  unfold State.maxReg
  try dsimp only
  repeat' with_reducible first
    | assumption | apply State.setReg_canon | apply canon_ite | dsimp only | split

theorem State.setInst_canon {q a1 a2} {a0 : State} (h0 : Canon q a0) :
    Canon q (State.setInst a0 a1 a2) := by
  unfold State.setInst
  try dsimp only
  repeat' with_reducible first
    | assumption | apply canon_put | dsimp only | split

theorem State.msix_canon {q a1 a2} {a0 : State} (h0 : Canon q a0) :
    Canon q (State.msix a0 a1 a2) := by
  unfold State.msix
  try dsimp only
  repeat' with_reducible first
    | assumption | apply State.orReg_canon | apply State.emit_canon | apply canon_ite | dsimp only | split

theorem State.setTarget_canon {q a1 a2 a3} {a0 : State} (h0 : Canon q a0) :
    Canon q (State.setTarget a0 a1 a2 a3) := by
  unfold State.setTarget
  try dsimp only
  repeat' with_reducible first
    | assumption | apply canon_put | intro _ | dsimp only | split

theorem State.busEmit_canon {q a1 a2 a3 a4} {a0 : State} (h0 : Canon q a0) :
    Canon q (State.busEmit a0 a1 a2 a3 a4) := by
  unfold State.busEmit
  try dsimp only
  repeat' with_reducible first
    | assumption | apply State.emit_canon | dsimp only | split

theorem State.busPump_canon {q a1 a2} {a0 : State} (h0 : Canon q a0) :
    Canon q (State.busPump a0 a1 a2) := by
  unfold State.busPump
  try dsimp only
  repeat' with_reducible first
    | assumption | apply State.busEmit_canon | apply State.setTarget_canon | dsimp only | split

theorem State.busSend_canon {q a1 a2 a3} {a0 : State} (h0 : Canon q a0) :
    Canon q (State.busSend a0 a1 a2 a3) := by
  unfold State.busSend
  try dsimp only
  repeat' with_reducible first
    | assumption | apply State.busPump_canon | apply State.setTarget_canon | intro _ | apply canon_ite | dsimp only
    | split

theorem State.setIrq_canon {q a1 a2} {a0 : State} (h0 : Canon q a0) :
    Canon q (State.setIrq a0 a1 a2) := by
  unfold State.setIrq
  try dsimp only
  repeat' with_reducible first
    | assumption | apply canon_put | intro _ | dsimp only | split

theorem State.icSync_canon {q} {a0 : State} (h0 : Canon q a0) :
    Canon q (State.icSync a0) := by
  unfold State.icSync
  try dsimp only
  repeat' with_reducible first
    | assumption | intro _ | apply State.busSend_canon | apply canon_ite | apply canon_foldl | dsimp only | split

theorem State.errToInst_canon {q a1 a2 a3} {a0 : State} (h0 : Canon q a0) :
    Canon q (State.errToInst a0 a1 a2 a3) := by
  unfold State.errToInst
  try dsimp only
  repeat' with_reducible first
    | assumption | apply State.orReg_canon | apply State.setReg_canon | apply State.msix_canon | apply canon_ite
    | dsimp only | split

theorem State.errToPf_canon {q a1 a2} {a0 : State} (h0 : Canon q a0) :
    Canon q (State.errToPf a0 a1 a2) := by
  unfold State.errToPf
  try dsimp only
  repeat' with_reducible first
    | assumption | apply State.orReg_canon | apply State.setReg_canon | apply State.msix_canon | apply canon_ite
    | dsimp only | split

theorem State.errMessage_canon {q a1 a2 a3 a4} {a0 : State} (h0 : Canon q a0) :
    Canon q (State.errMessage a0 a1 a2 a3 a4) := by
  unfold State.errMessage
  try dsimp only
  repeat' with_reducible first
    | assumption | apply State.errToInst_canon | apply State.errToPf_canon | dsimp only | split

theorem State.humStop_canon {q a1} {a0 : State} (h0 : Canon q a0) :
    Canon q (State.humStop a0 a1) := by
  unfold State.humStop
  try dsimp only
  repeat' with_reducible first
    | assumption | apply canon_ite | dsimp only | split

theorem State.fltMask_canon {q a1 a2} {a0 : State} (h0 : Canon q a0) :
    Canon q (State.fltMask a0 a1 a2) := by
  unfold State.fltMask
  try dsimp only
  repeat' with_reducible first
    | assumption | apply State.orReg_canon | apply State.andNotReg_canon | apply canon_ite | dsimp only | split

theorem State.turnSevere_canon {q a1 a2} {a0 : State} (h0 : Canon q a0) :
    Canon q (State.turnSevere a0 a1 a2) := by
  unfold State.turnSevere
  try dsimp only
  repeat' with_reducible first
    | assumption | apply State.setReg_canon | apply State.orReg_canon | apply State.errMessage_canon
    | apply State.andNotReg_canon | apply State.humStop_canon | apply State.fltMask_canon | apply canon_ite
    | dsimp only | split

theorem State.healthEvent_canon {q a1} {a0 : State} (h0 : Canon q a0) :
    Canon q (State.healthEvent a0 a1) := by
  unfold State.healthEvent
  try dsimp only
  repeat' with_reducible first
    | assumption | intro _ | dsimp only | split

theorem State.raiseQuiet_canon {q a1} {a0 : State} (h0 : Canon q a0) :
    Canon q (State.raiseQuiet a0 a1) := by
  unfold State.raiseQuiet
  try dsimp only
  repeat' with_reducible first
    | assumption | apply State.healthEvent_canon | apply State.orReg_canon | apply State.satReg_canon
    | apply State.setReg_canon | apply State.errMessage_canon | apply State.turnSevere_canon | apply canon_put
    | intro _ | apply canon_ite | dsimp only | split

theorem State.irqLevelCore_canon {q a1 a2} {a0 : State} (h0 : Canon q a0) : Canon q ((State.irqLevelCore a0 a1 a2).1) := by
  unfold State.irqLevelCore
  try dsimp only
  repeat' with_reducible first
    | assumption | apply State.setIrq_canon | apply State.setReg_canon | apply State.raiseQuiet_canon | apply canon_ite
    | dsimp only | split

theorem State.irqLevelCore_canon' {q a1 a2} {a0 : State} {t y1} (e : State.irqLevelCore a0 a1 a2 = (t, y1)) (h0 : Canon q a0) : Canon q t := by
  have z := State.irqLevelCore_canon (q := q) (a0 := a0) (a1 := a1) (a2 := a2) h0
  rw [e] at z; exact z

theorem State.irqLevel_canon {q a1 a2} {a0 : State} (h0 : Canon q a0) :
    Canon q (State.irqLevel a0 a1 a2) := by
  unfold State.irqLevel
  try dsimp only
  repeat' with_reducible first
    | assumption | apply State.irqLevelCore_canon | refine State.irqLevelCore_canon' (by assumption) ?_
    | apply State.icSync_canon | apply canon_ite | dsimp only | split

theorem State.syncLine_canon {q a1} {a0 : State} (h0 : Canon q a0) :
    Canon q (State.syncLine a0 a1) := by
  unfold State.syncLine
  try dsimp only
  repeat' with_reducible first
    | assumption | apply State.irqLevel_canon | dsimp only | split

theorem State.raise_canon {q a1} {a0 : State} (h0 : Canon q a0) :
    Canon q (State.raise a0 a1) := by
  unfold State.raise
  try dsimp only
  repeat' with_reducible first
    | assumption | apply State.syncLine_canon | apply State.raiseQuiet_canon | dsimp only | split

theorem State.logEvent_canon {q a1 a2 a3} {a0 : State} (h0 : Canon q a0) :
    Canon q (State.logEvent a0 a1 a2 a3) := by
  unfold State.logEvent
  try dsimp only
  repeat' with_reducible first
    | assumption | apply State.raise_canon | apply State.satReg_canon | apply State.emit_canon
    | apply State.incReg_canon | apply State.emits_canon | apply State.drew_canon | intro _ | apply State.setReg_canon
    | apply canon_ite | dsimp only | split

theorem State.setCtx_canon {q a1 a2} {a0 : State} (h0 : Canon q a0) :
    Canon q (State.setCtx a0 a1 a2) := by
  unfold State.setCtx
  try dsimp only
  repeat' with_reducible first
    | assumption | apply canon_put | intro _ | dsimp only | split

theorem State.modCtx_canon {q a1 a2} {a0 : State} (h0 : Canon q a0) :
    Canon q (State.modCtx a0 a1 a2) := by
  unfold State.modCtx
  try dsimp only
  repeat' with_reducible first
    | assumption | intro _ | apply State.setCtx_canon | dsimp only | split

theorem State.modPart_canon {q a1 a2} {a0 : State} (h0 : Canon q a0) :
    Canon q (State.modPart a0 a1 a2) := by
  unfold State.modPart
  try dsimp only
  repeat' with_reducible first
    | assumption | intro _ | dsimp only | split

theorem State.setAgent_canon {q a1 a2} {a0 : State} (h0 : Canon q a0) :
    Canon q (State.setAgent a0 a1 a2) := by
  unfold State.setAgent
  try dsimp only
  repeat' with_reducible first
    | assumption | apply canon_put | intro _ | dsimp only | split

theorem State.modAgent_canon {q a1 a2} {a0 : State} (h0 : Canon q a0) :
    Canon q (State.modAgent a0 a1 a2) := by
  unfold State.modAgent
  try dsimp only
  repeat' with_reducible first
    | assumption | intro _ | apply State.setAgent_canon | dsimp only | split

theorem State.modStep_canon {q a1 a2} {a0 : State} (h0 : Canon q a0) :
    Canon q (State.modStep a0 a1 a2) := by
  unfold State.modStep
  try dsimp only
  repeat' with_reducible first
    | assumption | intro _ | apply State.modCtx_canon | dsimp only | split

theorem State.stopStep_canon {q a1} {a0 : State} (h0 : Canon q a0) :
    Canon q (State.stopStep a0 a1) := by
  unfold State.stopStep
  try dsimp only
  repeat' with_reducible first
    | assumption | intro _ | apply State.modStep_canon | apply State.emit_canon | apply canon_ite | apply canon_foldl
    | dsimp only | split

theorem State.stopWith_canon {q a1 a2 a3} {a0 : State} (h0 : Canon q a0) :
    Canon q (State.stopWith a0 a1 a2 a3) := by
  unfold State.stopWith
  try dsimp only
  repeat' with_reducible first
    | assumption | apply State.stopStep_canon | apply State.modStep_canon | intro _ | dsimp only | split

theorem State.schInfo_canon {q a1 a2 a3 a4} {a0 : State} (h0 : Canon q a0) :
    Canon q (State.schInfo a0 a1 a2 a3 a4) := by
  unfold State.schInfo
  try dsimp only
  repeat' with_reducible first
    | assumption | apply State.setReg_canon | dsimp only | split

theorem State.setServe_canon {q a1 a2} {a0 : State} (h0 : Canon q a0) :
    Canon q (State.setServe a0 a1 a2) := by
  unfold State.setServe
  try dsimp only
  repeat' with_reducible first
    | assumption | apply canon_put | intro _ | apply canon_ite | dsimp only | split

theorem State.modServe_canon {q a1 a2} {a0 : State} (h0 : Canon q a0) :
    Canon q (State.modServe a0 a1 a2) := by
  unfold State.modServe
  try dsimp only
  repeat' with_reducible first
    | assumption | intro _ | apply State.setServe_canon | dsimp only | split

theorem State.setMember_canon {q a1 a2} {a0 : State} (h0 : Canon q a0) :
    Canon q (State.setMember a0 a1 a2) := by
  unfold State.setMember
  try dsimp only
  repeat' with_reducible first
    | assumption | apply canon_put | intro _ | dsimp only | split

theorem State.modMember_canon {q a1 a2} {a0 : State} (h0 : Canon q a0) :
    Canon q (State.modMember a0 a1 a2) := by
  unfold State.modMember
  try dsimp only
  repeat' with_reducible first
    | assumption | intro _ | apply State.setMember_canon | dsimp only | split

theorem State.sendPktAt_canon {q a1 a2 a3 a4} {a0 : State} (h0 : Canon q a0) :
    Canon q (State.sendPktAt a0 a1 a2 a3 a4) := by
  unfold State.sendPktAt
  try dsimp only
  repeat' with_reducible first
    | assumption | apply State.emit_canon | apply State.incReg_canon | apply State.setMember_canon | apply canon_getD
    | apply canon_ite | dsimp only | split

theorem State.sendOut_canon {q a1} {a0 : State} (h0 : Canon q a0) :
    Canon q (State.sendOut a0 a1) := by
  unfold State.sendOut
  try dsimp only
  repeat' with_reducible first
    | assumption | apply State.emit_canon | apply State.incReg_canon | apply State.setMember_canon | apply canon_ite
    | dsimp only | split

theorem State.sendDrain_canon {q} {a0 : State} (h0 : Canon q a0) :
    Canon q (State.sendDrain a0) := by
  unfold State.sendDrain
  try dsimp only
  repeat' with_reducible first
    | assumption | intro _ | apply State.sendOut_canon | apply canon_foldl | dsimp only | split

theorem State.sendPkt_canon {q a1 a2 a3} {a0 : State} (h0 : Canon q a0) :
    Canon q (State.sendPkt a0 a1 a2 a3) := by
  unfold State.sendPkt
  try dsimp only
  repeat' with_reducible first
    | assumption | apply State.sendPktAt_canon | dsimp only | split

theorem State.sendAll_canon {q a1 a2 a3} {a0 : State} (h0 : Canon q a0) :
    Canon q (State.sendAll a0 a1 a2 a3) := by
  unfold State.sendAll
  try dsimp only
  repeat' with_reducible first
    | assumption | intro _ | apply State.sendPkt_canon | apply canon_foldl | dsimp only | split

theorem State.sendTwice_canon {q a1 a2 a3} {a0 : State} (h0 : Canon q a0) :
    Canon q (State.sendTwice a0 a1 a2 a3) := by
  unfold State.sendTwice
  try dsimp only
  repeat' with_reducible first
    | assumption | apply State.sendAll_canon | intro _ | dsimp only | split

theorem State.sendRequest_canon {q a1 a2 a3 a4} {a0 : State} (h0 : Canon q a0) :
    Canon q (State.sendRequest a0 a1 a2 a3 a4) := by
  unfold State.sendRequest
  try dsimp only
  repeat' with_reducible first
    | assumption | intro _ | apply State.sendPkt_canon | dsimp only | split

theorem State.swmInfo_canon {q a1 a2 a3} {a0 : State} (h0 : Canon q a0) :
    Canon q (State.swmInfo a0 a1 a2 a3) := by
  unfold State.swmInfo
  try dsimp only
  repeat' with_reducible first
    | assumption | apply State.setReg_canon | dsimp only | split

theorem State.takeRequests_canon {q a1} {a0 : State} (h0 : Canon q a0) : Canon q ((State.takeRequests a0 a1).2) := by
  unfold State.takeRequests
  try dsimp only
  repeat' with_reducible first
    | assumption | apply canon_filter | dsimp only

theorem State.takeRequests_canon' {q a1} {a0 : State} {y0 t} (e : State.takeRequests a0 a1 = (y0, t)) (h0 : Canon q a0) : Canon q t := by
  have z := State.takeRequests_canon (q := q) (a0 := a0) (a1 := a1) h0
  rw [e] at z; exact z

theorem State.swmDrop_canon {q} {a0 : State} (h0 : Canon q a0) :
    Canon q (State.swmDrop a0) := by
  unfold State.swmDrop
  try dsimp only
  repeat' with_reducible first
    | assumption | apply State.satReg_canon | dsimp only | split

theorem State.setRing_canon {q a1 a2} {a0 : State} (h0 : Canon q a0) :
    Canon q (State.setRing a0 a1 a2) := by
  unfold State.setRing
  try dsimp only
  repeat' with_reducible first
    | assumption | apply canon_put | dsimp only | split

theorem State.modRing_canon {q a1 a2} {a0 : State} (h0 : Canon q a0) :
    Canon q (State.modRing a0 a1 a2) := by
  unfold State.modRing
  try dsimp only
  repeat' with_reducible first
    | assumption | intro _ | apply State.setRing_canon | dsimp only | split

theorem State.blockWrite_canon {q a1 a2 a3} {a0 : State} (h0 : Canon q a0) :
    Canon q (State.blockWrite a0 a1 a2 a3) := by
  unfold State.blockWrite
  try dsimp only
  repeat' with_reducible first
    | assumption | apply State.emit_canon | apply canon_ite | dsimp only | split

theorem State.blockUpdate_canon {q a1} {a0 : State} (h0 : Canon q a0) :
    Canon q (State.blockUpdate a0 a1) := by
  unfold State.blockUpdate
  try dsimp only
  repeat' with_reducible first
    | assumption | apply State.blockWrite_canon | apply canon_ite | dsimp only | split

theorem State.modOp_canon {q a1 a2} {a0 : State} (h0 : Canon q a0) :
    Canon q (State.modOp a0 a1 a2) := by
  unfold State.modOp
  try dsimp only
  repeat' with_reducible first
    | assumption | intro _ | apply canon_ite | dsimp only | split

theorem State.answerRemote_canon {q a1 a2 a3 a4} {a0 : State} (h0 : Canon q a0) :
    Canon q (State.answerRemote a0 a1 a2 a3 a4) := by
  unfold State.answerRemote
  try dsimp only
  repeat' with_reducible first
    | assumption | apply State.modMember_canon | apply State.sendPkt_canon | intro _ | dsimp only | split

theorem State.opEnd_canon {q a1 a2} {a0 : State} (h0 : Canon q a0) :
    Canon q (State.opEnd a0 a1 a2) := by
  unfold State.opEnd
  try dsimp only
  repeat' with_reducible first
    | assumption | apply State.blockUpdate_canon | apply State.modOp_canon | apply State.answerRemote_canon | intro _
    | apply canon_ite | dsimp only | split

theorem State.opProgress_canon {q a1 a2 a3} {a0 : State} (h0 : Canon q a0) :
    Canon q (State.opProgress a0 a1 a2 a3) := by
  unfold State.opProgress
  try dsimp only
  repeat' with_reducible first
    | assumption | apply State.modOp_canon | intro _ | apply canon_ite | dsimp only | split

theorem State.writeCompl_canon {q a1 a2} {a0 : State} (h0 : Canon q a0) :
    Canon q (State.writeCompl a0 a1 a2) := by
  unfold State.writeCompl
  try dsimp only
  repeat' with_reducible first
    | assumption | apply State.emits_canon | apply State.modRing_canon | intro _ | apply canon_ite | dsimp only
    | split

theorem State.complete_canon {q a1 a2 a3 a4 a5} {a0 : State} (h0 : Canon q a0) :
    Canon q (State.complete a0 a1 a2 a3 a4 a5) := by
  unfold State.complete
  try dsimp only
  repeat' with_reducible first
    | assumption | apply State.modRing_canon | apply State.writeCompl_canon | intro _ | apply canon_ite | dsimp only
    | split

theorem State.flushDiscarded_canon {q a1 a2} {a0 : State} (h0 : Canon q a0) :
    Canon q (State.flushDiscarded a0 a1 a2) := by
  induction a2 generalizing a0 with
  | zero => exact h0
  | succ n ih =>
    unfold State.flushDiscarded
    dsimp only
    split
    · refine canon_ite (ih ?_) h0
      exact State.complete_canon (State.setRing_canon h0)
    · exact h0

theorem State.countDone_canon {q a1 a2 a3} {a0 : State} (h0 : Canon q a0) :
    Canon q (State.countDone a0 a1 a2 a3) := by
  unfold State.countDone
  try dsimp only
  repeat' with_reducible first
    | assumption | apply State.incReg_canon | apply State.satReg_canon | apply State.setReg_canon
    | apply State.raise_canon | apply canon_ite | dsimp only | split

theorem State.finishCmd_canon {q a1 a2 a3 a4} {a0 : State} (h0 : Canon q a0) :
    Canon q (State.finishCmd a0 a1 a2 a3 a4) := by
  unfold State.finishCmd
  try dsimp only
  repeat' with_reducible first
    | assumption | apply State.modRing_canon | apply State.flushDiscarded_canon | apply State.complete_canon
    | apply State.answerRemote_canon | apply State.countDone_canon | intro _ | apply canon_ite | dsimp only | split

theorem State.urgent_canon {q} {a0 : State} (h0 : Canon q a0) :
    Canon q (State.urgent a0) := by
  unfold State.urgent
  try dsimp only
  repeat' with_reducible first
    | assumption | apply canon_ite | dsimp only | split

theorem State.openOp_canon {q a1 a2 a3 a4 a5} {a0 : State} (h0 : Canon q a0) :
    Canon q (State.openOp a0 a1 a2 a3 a4 a5) := by
  unfold State.openOp
  try dsimp only
  repeat' with_reducible first
    | assumption | apply State.blockUpdate_canon | intro _ | dsimp only | split

theorem State.acceptLong_canon {q a1 a2 a3 a4 a5 a6} {a0 : State} (h0 : Canon q a0) (h6 : ∀ x0 u, Canon q u → Canon q (a6 x0 u)) :
    Canon q (State.acceptLong a0 a1 a2 a3 a4 a5 a6) := by
  unfold State.acceptLong
  try dsimp only
  repeat' with_reducible first
    | assumption | intro _ | apply h6 | apply State.finishCmd_canon | apply State.openOp_canon | dsimp only | split

theorem Answer.checked_canon {q a0 a1} (h0 : AnsCanon q a0) :
    AnsCanon q (Answer.checked a0 a1) := by
  unfold Answer.checked
  try dsimp only
  repeat' with_reducible first
    | assumption | exact ansCanon_refuse | apply ansCanon_ite | intro _ | apply canon_ite | dsimp only | split

theorem State.perform_canon {q a1 a2 a3} {a0 : State} (h0 : Canon q a0) (h3 : ∀ x0 u, Canon q u → AnsCanon q (a3 x0 u)) :
    Canon q (State.perform a0 a1 a2 a3) := by
  unfold State.perform
  split
  · exact h0
  · rename_i c _
    split
    · exact h0
    · split
      · exact State.finishCmd_canon h0
      · have ha := Answer.checked_canon (a1 := c.statusFail) (h3 c a0 h0)
        dsimp only
        split
        · exact State.finishCmd_canon h0
        · rename_i e; rw [e] at ha; exact State.finishCmd_canon ha
        · rename_i e; rw [e] at ha; exact State.finishCmd_canon ha
        · rename_i e; rw [e] at ha; exact ha
        · rename_i e
          rw [e] at ha
          split
          · exact State.finishCmd_canon h0
          · exact State.acceptLong_canon ha.1 ha.2

theorem State.finishWaiting_canon {q a1 a2} {a0 : State} (h0 : Canon q a0) :
    Canon q (State.finishWaiting a0 a1 a2) := by
  unfold State.finishWaiting
  try dsimp only
  repeat' with_reducible first
    | assumption | apply State.finishCmd_canon | intro _ | apply canon_ite | dsimp only | split

theorem State.setPool_canon {q a1 a2} {a0 : State} (h0 : Canon q a0) :
    Canon q (State.setPool a0 a1 a2) := by
  unfold State.setPool
  try dsimp only
  repeat' with_reducible first
    | assumption | apply canon_put | intro _ | dsimp only | split

theorem State.npSend_canon {q a1 a2} {a0 : State} (h0 : Canon q a0) :
    Canon q (State.npSend a0 a1 a2) := by
  unfold State.npSend
  try dsimp only
  repeat' with_reducible first
    | assumption | apply State.emit_canon | dsimp only | split

theorem State.npPump_canon {q a1} {a0 : State} (h0 : Canon q a0) :
    Canon q (State.npPump a0 a1) := by
  unfold State.npPump
  try dsimp only
  repeat' with_reducible first
    | assumption | intro _ | apply State.npSend_canon | apply canon_foldl | dsimp only | split

theorem State.npQueue_canon {q a1} {a0 : State} (h0 : Canon q a0) :
    Canon q (State.npQueue a0 a1) := by
  unfold State.npQueue
  try dsimp only
  repeat' with_reducible first
    | assumption | intro _ | apply State.npPump_canon | apply canon_foldl | dsimp only | split

theorem State.frameRecord_canon {q a1} {a0 : State} (h0 : Canon q a0) :
    Canon q (State.frameRecord a0 a1) := by
  unfold State.frameRecord
  try dsimp only
  repeat' with_reducible first
    | assumption | intro _ | apply State.npQueue_canon | dsimp only | split

theorem State.takeFrame_canon {q a1} {a0 : State} {y0 t} (e : State.takeFrame a0 a1 = some (y0, t)) (h0 : Canon q a0) : Canon q t := by
  unfold State.takeFrame at e
  split at e
  · refine of_map e fun n _ e => ?_
    cases e
    exact State.frameRecord_canon (State.setPool_canon h0)
  · cases e

theorem State.takeAny_canon {q a1} {a0 : State} {y0 t} (e : State.takeAny a0 a1 = some (y0, t)) (h0 : Canon q a0) : Canon q t := by
  unfold State.takeAny at e
  try dsimp only at e
  (repeat' split at e)
  all_goals first | cases e | skip
  repeat' with_reducible first
    | assumption | intro _ | refine State.takeFrame_canon (by assumption) ?_ | dsimp only | split

theorem State.takeMany_canon {q a1 a2} {a0 : State} {y0 t} (e : State.takeMany a0 a1 a2 = some (y0, t)) (h0 : Canon q a0) : Canon q t := by
  induction a2 generalizing a0 y0 t with
  | zero => cases e; exact h0
  | succ n ih =>
    unfold State.takeMany at e
    split at e
    · split at e
      · cases e
        exact ih (by assumption) (State.takeAny_canon (by assumption) h0)
      · cases e
    · cases e

theorem State.giveFrame_canon {q a1} {a0 : State} (h0 : Canon q a0) :
    Canon q (State.giveFrame a0 a1) := by
  unfold State.giveFrame
  try dsimp only
  repeat' with_reducible first
    | assumption | apply State.setPool_canon | apply State.frameRecord_canon | dsimp only | split

theorem State.giveFrames_canon {q a1} {a0 : State} (h0 : Canon q a0) :
    Canon q (State.giveFrames a0 a1) := by
  unfold State.giveFrames
  try dsimp only
  repeat' with_reducible first
    | assumption | intro _ | apply State.giveFrame_canon | apply canon_foldl | dsimp only | split

theorem State.withhold_canon {q a1} {a0 : State} (h0 : Canon q a0) :
    Canon q (State.withhold a0 a1) := by
  unfold State.withhold
  try dsimp only
  repeat' with_reducible first
    | assumption | apply State.setPool_canon | apply State.frameRecord_canon | dsimp only | split

theorem State.setBroodUsed_canon {q a1 a2} {a0 : State} (h0 : Canon q a0) :
    Canon q (State.setBroodUsed a0 a1 a2) := by
  unfold State.setBroodUsed
  try dsimp only
  repeat' with_reducible first
    | assumption | apply canon_put | intro _ | dsimp only | split

theorem State.setSuperUsed_canon {q a1 a2} {a0 : State} (h0 : Canon q a0) :
    Canon q (State.setSuperUsed a0 a1 a2) := by
  unfold State.setSuperUsed
  try dsimp only
  repeat' with_reducible first
    | assumption | apply canon_put | intro _ | dsimp only | split

theorem State.chargeBrood_canon {q a1 a2} {a0 : State} (h0 : Canon q a0) :
    Canon q (State.chargeBrood a0 a1 a2) := by
  unfold State.chargeBrood
  try dsimp only
  repeat' with_reducible first
    | assumption | apply State.setBroodUsed_canon | dsimp only | split

theorem State.refundBrood_canon {q a1 a2} {a0 : State} (h0 : Canon q a0) :
    Canon q (State.refundBrood a0 a1 a2) := by
  unfold State.refundBrood
  try dsimp only
  repeat' with_reducible first
    | assumption | apply State.setBroodUsed_canon | dsimp only | split

theorem State.chargeSuper_canon {q a1 a2} {a0 : State} (h0 : Canon q a0) :
    Canon q (State.chargeSuper a0 a1 a2) := by
  unfold State.chargeSuper
  try dsimp only
  repeat' with_reducible first
    | assumption | apply State.setSuperUsed_canon | dsimp only | split

theorem State.refundSuper_canon {q a1 a2} {a0 : State} (h0 : Canon q a0) :
    Canon q (State.refundSuper a0 a1 a2) := by
  unfold State.refundSuper
  try dsimp only
  repeat' with_reducible first
    | assumption | apply State.setSuperUsed_canon | dsimp only | split

theorem State.forFault_canon {q a1 a2 a3 a4} {a0 : State} (h0 : Canon q a0) :
    Canon q (State.forFault a0 a1 a2 a3 a4) := by
  unfold State.forFault
  try dsimp only
  repeat' with_reducible first
    | assumption | apply State.raise_canon | apply State.setReg_canon | dsimp only | split

theorem State.fetchIssue_canon {q a1} {a0 : State} (h0 : Canon q a0) :
    Canon q (State.fetchIssue a0 a1) := by
  unfold State.fetchIssue
  try dsimp only
  repeat' with_reducible first
    | assumption | apply State.emit_canon | apply canon_getD | intro _ | apply State.setRing_canon | apply canon_ite
    | dsimp only | split

theorem State.fetchTurns_canon {q a1} {a0 : State} (h0 : Canon q a0) : Canon q (State.fetchTurns a0 a1) := by
  induction a1 generalizing a0 with
  | zero => exact h0
  | succ n ih =>
    unfold State.fetchTurns
    dsimp only
    split
    · exact h0
    · split
      · exact h0
      · exact ih (State.fetchIssue_canon (State.modRing_canon h0))

theorem State.takeEntry_canon {q a1 a2} {a0 : State} (h0 : Canon q a0) :
    Canon q (State.takeEntry a0 a1 a2) := by
  unfold State.takeEntry
  try dsimp only
  repeat' with_reducible first
    | assumption | apply State.modRing_canon | intro _ | apply canon_ite | dsimp only | split

theorem State.pushDrop_canon {q} {a0 : State} (h0 : Canon q a0) :
    Canon q (State.pushDrop a0) := by
  unfold State.pushDrop
  try dsimp only
  repeat' with_reducible first
    | assumption | apply State.satReg_canon | dsimp only | split

theorem State.dropFetched_canon {q a1} {a0 : State} (h0 : Canon q a0) :
    Canon q (State.dropFetched a0 a1) := by
  unfold State.dropFetched
  try dsimp only
  repeat' with_reducible first
    | assumption | apply State.modRing_canon | intro _ | apply State.pushDrop_canon | apply canon_ite | dsimp only
    | split

theorem State.forgo_canon {q a1} {a0 : State} (h0 : Canon q a0) :
    Canon q (State.forgo a0 a1) := by
  unfold State.forgo
  try dsimp only
  repeat' with_reducible first
    | assumption | intro _ | apply State.modCtx_canon | apply canon_ite | apply canon_foldl | dsimp only | split

theorem State.squashRing_canon {q a1} {a0 : State} (h0 : Canon q a0) :
    Canon q (State.squashRing a0 a1) := by
  unfold State.squashRing
  try dsimp only
  repeat' with_reducible first
    | assumption | apply State.finishCmd_canon | apply State.forgo_canon | apply canon_ite | dsimp only | split

theorem State.drainRing_canon {q a1 a2 a3} {a0 : State} (h0 : Canon q a0) :
    Canon q (State.drainRing a0 a1 a2 a3) := by
  unfold State.drainRing
  try dsimp only
  repeat' with_reducible first
    | assumption | apply State.modRing_canon | apply State.finishCmd_canon | apply State.urgent_canon | intro _
    | apply State.dropFetched_canon | apply State.squashRing_canon | apply canon_ite | dsimp only | split

theorem State.failRing_canon {q a1 a2 a3} {a0 : State} (h0 : Canon q a0) :
    Canon q (State.failRing a0 a1 a2 a3) := by
  unfold State.failRing
  try dsimp only
  repeat' with_reducible first
    | assumption | apply State.forFault_canon | apply State.drainRing_canon | dsimp only | split

theorem State.notAcceptable_canon {q a1} {a0 : State} (h0 : Canon q a0) :
    Canon q (State.notAcceptable a0 a1) := by
  unfold State.notAcceptable
  try dsimp only
  repeat' with_reducible first
    | assumption | apply State.failRing_canon | apply State.setRing_canon | apply canon_ite | dsimp only | split

theorem State.takeUnits_canon {q a1 a2} {a0 : State} (h0 : Canon q a0) :
    Canon q (State.takeUnits a0 a1 a2) := by
  induction a2 generalizing a0 with
  | nil => exact h0
  | cons x l ih =>
    unfold State.takeUnits
    dsimp only
    repeat' first
    | with_reducible assumption
    | intro _
    | with_reducible apply ih
    | with_reducible apply State.takeEntry_canon
    | with_reducible apply State.setRing_canon
    | with_reducible apply State.modRing_canon
    | with_reducible apply State.flushDiscarded_canon
    | with_reducible apply State.notAcceptable_canon
    | with_reducible apply canon_ite
    | dsimp only
    | split

theorem State.loadBoot_canon {q a1} {a0 : State} (h0 : Canon q a0) :
    Canon q (State.loadBoot a0 a1) := by
  unfold State.loadBoot
  try dsimp only
  repeat' with_reducible first
    | assumption | apply State.modRing_canon | intro _ | apply canon_ite | dsimp only | split

theorem State.enableRing_canon {q a1} {a0 : State} (h0 : Canon q a0) :
    Canon q (State.enableRing a0 a1) := by
  unfold State.enableRing
  try dsimp only
  repeat' with_reducible first
    | assumption | apply State.loadBoot_canon | apply State.fetchIssue_canon | apply State.modRing_canon | intro _
    | dsimp only | split

theorem State.publish_canon {q a1 a2} {a0 : State} (h0 : Canon q a0) :
    Canon q (State.publish a0 a1 a2) := by
  unfold State.publish
  try dsimp only
  repeat' with_reducible first
    | assumption | apply State.modRing_canon | intro _ | apply canon_ite | dsimp only | split

theorem State.takePush_canon {q a1} {a0 : State} (h0 : Canon q a0) :
    Canon q (State.takePush a0 a1) := by
  unfold State.takePush
  try dsimp only
  repeat' with_reducible first
    | assumption | apply State.fetchIssue_canon | apply State.publish_canon | apply State.pushDrop_canon
    | apply State.incReg_canon | apply State.takeEntry_canon | apply State.modRing_canon | intro _ | apply canon_ite
    | dsimp only | split

theorem State.fetchSettle_canon {q} {a0 : State} (h0 : Canon q a0) :
    Canon q (State.fetchSettle a0) := by
  unfold State.fetchSettle
  try dsimp only
  repeat' with_reducible first
    | assumption | intro _ | apply State.fetchTurns_canon | apply State.takePush_canon | apply canon_ite
    | apply canon_foldl | dsimp only | split

theorem State.fetchDone_canon {q a1 a2 a3} {a0 : State} (h0 : Canon q a0) :
    Canon q (State.fetchDone a0 a1 a2 a3) := by
  unfold State.fetchDone
  try dsimp only
  repeat' with_reducible first
    | assumption | apply State.fetchIssue_canon | apply State.takeUnits_canon | apply canon_ite | dsimp only | split

theorem State.writeShadow_canon {q a1} {a0 : State} (h0 : Canon q a0) :
    Canon q (State.writeShadow a0 a1) := by
  unfold State.writeShadow
  try dsimp only
  repeat' with_reducible first
    | assumption | apply State.emit_canon | apply State.setRing_canon | apply canon_ite | dsimp only | split

theorem State.drainEnd_canon {q a1} {a0 : State} (h0 : Canon q a0) :
    Canon q (State.drainEnd a0 a1) := by
  unfold State.drainEnd
  try dsimp only
  repeat' with_reducible first
    | assumption | apply State.setRing_canon | apply State.writeShadow_canon | apply canon_ite | dsimp only | split

theorem State.eraseRing_canon {q a1} {a0 : State} (h0 : Canon q a0) :
    Canon q (State.eraseRing a0 a1) := by
  unfold State.eraseRing
  try dsimp only
  repeat' with_reducible first
    | assumption | intro _ | apply State.setRing_canon | apply State.dropFetched_canon | apply State.loadBoot_canon
    | apply State.writeShadow_canon | apply State.drainEnd_canon | apply canon_ite | dsimp only | split

theorem State.startEntry_canon {q a1} {a0 : State} (h0 : Canon q a0) :
    Canon q (State.startEntry a0 a1) := by
  unfold State.startEntry
  try dsimp only
  repeat' with_reducible first
    | assumption | apply State.takePush_canon | apply State.setRing_canon | apply State.fetchIssue_canon
    | apply State.finishCmd_canon | apply canon_ite | dsimp only | split

theorem State.modCap_canon {q a1 a2} {a0 : State} (h0 : Canon q a0) :
    Canon q (State.modCap a0 a1 a2) := by
  unfold State.modCap
  try dsimp only
  repeat' with_reducible first
    | assumption | intro _ | dsimp only | split

theorem State.capFault_canon {q a1 a2 a3 a4} {a0 : State} (h0 : Canon q a0) :
    Canon q (State.capFault a0 a1 a2 a3 a4) := by
  unfold State.capFault
  try dsimp only
  repeat' with_reducible first
    | assumption | apply State.raise_canon | apply State.setReg_canon | dsimp only | split

theorem State.capMark_canon {q a1 a2 a3} {a0 : State} (h0 : Canon q a0) :
    Canon q (State.capMark a0 a1 a2 a3) := by
  unfold State.capMark
  try dsimp only
  repeat' with_reducible first
    | assumption | apply State.modCap_canon | intro _ | apply canon_ite | dsimp only | split

theorem State.capMarkAll_canon {q a1 a2} {a0 : State} (h0 : Canon q a0) :
    Canon q (State.capMarkAll a0 a1 a2) := by
  unfold State.capMarkAll
  try dsimp only
  repeat' with_reducible first
    | assumption | intro _ | apply State.capMark_canon | apply canon_foldl | dsimp only | split

theorem State.capSeek_canon {q a1 a2} {a0 : State} (h0 : Canon q a0) :
    Canon q (State.capSeek a0 a1 a2) := by
  unfold State.capSeek
  try dsimp only
  repeat' with_reducible first
    | assumption | apply State.modCap_canon | apply State.sendRequest_canon | apply State.capFault_canon | intro _
    | apply canon_ite | dsimp only | split

theorem State.capTake_canon {q a1 a2} {a0 : State} (h0 : Canon q a0) :
    Canon q (State.capTake a0 a1 a2) := by
  unfold State.capTake
  try dsimp only
  repeat' with_reducible first
    | assumption | apply State.modCap_canon | apply State.capFault_canon | intro _ | apply canon_ite | dsimp only
    | split

theorem State.freeStaged_canon {q a1} {a0 : State} (h0 : Canon q a0) :
    Canon q (State.freeStaged a0 a1) := by
  unfold State.freeStaged
  try dsimp only
  repeat' with_reducible first
    | assumption | intro _ | apply State.modCap_canon | apply State.refundBrood_canon | apply State.giveFrame_canon
    | apply canon_filter | apply canon_foldl | dsimp only | split

theorem State.pendingChanged_canon {q a1} {a0 : State} (h0 : Canon q a0) :
    Canon q (State.pendingChanged a0 a1) := by
  unfold State.pendingChanged
  try dsimp only
  repeat' with_reducible first
    | assumption | apply State.modCap_canon | apply State.freeStaged_canon | dsimp only | split

theorem State.sendCut_canon {q a1 a2 a3 a4 a5} {a0 : State} (h0 : Canon q a0) :
    Canon q (State.sendCut a0 a1 a2 a3 a4 a5) := by
  unfold State.sendCut
  try dsimp only
  repeat' with_reducible first
    | assumption | apply State.sendTwice_canon | dsimp only | split

theorem State.capCutNow_canon {q a1 a2 a3} {a0 : State} (h0 : Canon q a0) :
    Canon q (State.capCutNow a0 a1 a2 a3) := by
  unfold State.capCutNow
  try dsimp only
  repeat' with_reducible first
    | assumption | intro _ | apply State.modCap_canon | apply State.sendCut_canon | apply canon_ite
    | apply canon_foldl | dsimp only | split

theorem State.capVoid_canon {q a1 a2} {a0 : State} (h0 : Canon q a0) :
    Canon q (State.capVoid a0 a1 a2) := by
  unfold State.capVoid
  try dsimp only
  repeat' with_reducible first
    | assumption | intro _ | apply State.modCap_canon | apply State.sendCut_canon | apply State.capFault_canon
    | apply State.pendingChanged_canon | apply canon_ite | apply canon_foldl | dsimp only | split

theorem State.setLeader_canon {q a1 a2} {a0 : State} (h0 : Canon q a0) :
    Canon q (State.setLeader a0 a1 a2) := by
  unfold State.setLeader
  try dsimp only
  repeat' with_reducible first
    | assumption | apply canon_put | intro _ | dsimp only | split

theorem State.capGroupClosed_canon {q a1 a2 a3} {a0 : State} (h0 : Canon q a0) :
    Canon q (State.capGroupClosed a0 a1 a2 a3) := by
  unfold State.capGroupClosed
  try dsimp only
  repeat' with_reducible first
    | assumption | apply State.modCap_canon | apply State.urgent_canon | intro _ | apply canon_ite | dsimp only
    | split

theorem State.capTakePlan_canon {q a1 a2 a3 a4 a5} {a0 : State} (h0 : Canon q a0) :
    Canon q (State.capTakePlan a0 a1 a2 a3 a4 a5) := by
  unfold State.capTakePlan
  try dsimp only
  repeat' with_reducible first
    | assumption | apply State.capVoid_canon | apply State.modCap_canon | intro _ | apply canon_ite | dsimp only
    | split

theorem State.applyPlan_canon {q a1 a2 a3 a4 a5 a6 a7} {a0 : State} (h0 : Canon q a0) :
    Canon q (State.applyPlan a0 a1 a2 a3 a4 a5 a6 a7) := by
  unfold State.applyPlan
  try dsimp only
  repeat' with_reducible first
    | assumption | intro _ | apply State.capTakePlan_canon | apply State.capGroupClosed_canon | apply canon_foldl
    | dsimp only | split

theorem State.sendPlan_canon {q a1 a2 a3 a4 a5} {a0 : State} (h0 : Canon q a0) :
    Canon q (State.sendPlan a0 a1 a2 a3 a4 a5) := by
  unfold State.sendPlan
  try dsimp only
  repeat' with_reducible first
    | assumption | apply State.applyPlan_canon | apply State.sendTwice_canon | intro _ | dsimp only | split

theorem State.leaderCount_canon {q a1} {a0 : State} (h0 : Canon q a0) :
    Canon q (State.leaderCount a0 a1) := by
  unfold State.leaderCount
  try dsimp only
  repeat' with_reducible first
    | assumption | apply State.setLeader_canon | apply State.sendPlan_canon | apply canon_ite | dsimp only | split

theorem State.leaderReport_canon {q a1 a2 a3} {a0 : State} (h0 : Canon q a0) :
    Canon q (State.leaderReport a0 a1 a2 a3) := by
  unfold State.leaderReport
  try dsimp only
  repeat' with_reducible first
    | assumption | apply State.setLeader_canon | apply State.sendPlan_canon | apply State.urgent_canon
    | apply State.leaderCount_canon | apply canon_ite | dsimp only | split

theorem State.leaderPlan_canon {q a1 a2 a3} {a0 : State} (h0 : Canon q a0) :
    Canon q (State.leaderPlan a0 a1 a2 a3) := by
  unfold State.leaderPlan
  try dsimp only
  repeat' with_reducible first
    | assumption | apply State.sendPlan_canon | apply State.setLeader_canon | apply State.urgent_canon
    | apply canon_ite | dsimp only | split

theorem State.capReportOut_canon {q a1 a2} {a0 : State} (h0 : Canon q a0) :
    Canon q (State.capReportOut a0 a1 a2) := by
  unfold State.capReportOut
  try dsimp only
  repeat' with_reducible first
    | assumption | apply State.modCap_canon | apply State.leaderReport_canon | apply State.sendPkt_canon
    | apply State.urgent_canon | intro _ | apply canon_ite | dsimp only | split

theorem State.capTryClose_canon {q a1} {a0 : State} (h0 : Canon q a0) :
    Canon q (State.capTryClose a0 a1) := by
  unfold State.capTryClose
  try dsimp only
  repeat' with_reducible first
    | assumption | apply State.modCap_canon | intro _ | apply State.capReportOut_canon | apply canon_ite | dsimp only
    | split

theorem State.capSealOut_canon {q a1 a2} {a0 : State} (h0 : Canon q a0) :
    Canon q (State.capSealOut a0 a1 a2) := by
  unfold State.capSealOut
  try dsimp only
  repeat' with_reducible first
    | assumption | intro _ | apply State.modCap_canon | apply State.sendRequest_canon | apply canon_foldl | dsimp only
    | split

theorem State.capStepEnd_canon {q a1 a2 a3 a4} {a0 : State} (h0 : Canon q a0) :
    Canon q (State.capStepEnd a0 a1 a2 a3 a4) := by
  unfold State.capStepEnd
  try dsimp only
  repeat' with_reducible first
    | assumption | apply State.modCap_canon | apply State.capSealOut_canon | apply State.capCutNow_canon
    | apply State.capReportOut_canon | apply State.leaderPlan_canon | intro _ | apply canon_ite | dsimp only | split

theorem State.fillRequest_canon {q a1 a2 a3 a4} {a0 : State} (h0 : Canon q a0) :
    Canon q (State.fillRequest a0 a1 a2 a3 a4) := by
  unfold State.fillRequest
  try dsimp only
  repeat' with_reducible first
    | assumption | apply State.sendRequest_canon | intro _ | dsimp only | split

theorem State.fillGoOn_canon {q a1 a2 a3} {a0 : State} (h0 : Canon q a0) :
    Canon q (State.fillGoOn a0 a1 a2 a3) := by
  unfold State.fillGoOn
  try dsimp only
  repeat' with_reducible first
    | assumption | apply State.fillRequest_canon | apply State.modCap_canon | apply State.opEnd_canon
    | apply State.capFault_canon | intro _ | apply canon_ite | dsimp only | split

theorem State.fillLost_canon {q a1} {a0 : State} (h0 : Canon q a0) :
    Canon q (State.fillLost a0 a1) := by
  unfold State.fillLost
  try dsimp only
  repeat' with_reducible first
    | assumption | apply State.fillGoOn_canon | apply State.capFault_canon | intro _ | dsimp only | split

theorem State.fillDone_canon {q a1 a2} {a0 : State} (h0 : Canon q a0) :
    Canon q (State.fillDone a0 a1 a2) := by
  unfold State.fillDone
  try dsimp only
  repeat' with_reducible first
    | assumption | apply State.modCap_canon | apply State.drew_canon | apply State.opEnd_canon
    | apply State.pendingChanged_canon | intro _ | apply canon_ite | dsimp only | split

theorem State.buddyLost_canon {q a1 a2} {a0 : State} (h0 : Canon q a0) :
    Canon q (State.buddyLost a0 a1 a2) := by
  unfold State.buddyLost
  try dsimp only
  repeat' with_reducible first
    | assumption | apply State.modCap_canon | apply State.capTryClose_canon | apply State.capFault_canon
    | apply State.capSeek_canon | apply State.urgent_canon | apply State.pendingChanged_canon | intro _
    | apply canon_ite | dsimp only | split

theorem State.capCtxLost_canon {q a1 a2} {a0 : State} (h0 : Canon q a0) :
    Canon q (State.capCtxLost a0 a1 a2) := by
  unfold State.capCtxLost
  try dsimp only
  repeat' with_reducible first
    | assumption | apply State.buddyLost_canon | apply State.capSeek_canon | apply State.fillLost_canon | intro _
    | apply canon_ite | dsimp only | split

theorem State.modHeld_canon {q a1 a2 a3} {a0 : State} (h0 : Canon q a0) :
    Canon q (State.modHeld a0 a1 a2 a3) := by
  unfold State.modHeld
  try dsimp only
  repeat' with_reducible first
    | assumption | intro _ | dsimp only | split

theorem State.dropHeld_canon {q a1 a2} {a0 : State} (h0 : Canon q a0) :
    Canon q (State.dropHeld a0 a1 a2) := by
  unfold State.dropHeld
  try dsimp only
  repeat' with_reducible first
    | assumption | apply State.giveFrames_canon | intro _ | dsimp only | split

theorem State.loseHeld_canon {q a1} {a0 : State} (h0 : Canon q a0) :
    Canon q (State.loseHeld a0 a1) := by
  unfold State.loseHeld
  try dsimp only
  repeat' with_reducible first
    | assumption | intro _ | apply State.sendRequest_canon | apply State.dropHeld_canon | dsimp only | split

theorem State.heldPoolLost_canon {q a1} {a0 : State} (h0 : Canon q a0) :
    Canon q (State.heldPoolLost a0 a1) := by
  unfold State.heldPoolLost
  try dsimp only
  repeat' with_reducible first
    | assumption | intro _ | apply State.loseHeld_canon | apply canon_foldl | dsimp only | split

theorem State.capMemberLost_canon {q a1} {a0 : State} (h0 : Canon q a0) :
    Canon q (State.capMemberLost a0 a1) := by
  unfold State.capMemberLost
  try dsimp only
  repeat' with_reducible first
    | assumption | intro _ | apply State.capCtxLost_canon | apply State.leaderCount_canon | apply canon_foldl
    | dsimp only | split

theorem State.sendAbandon_canon {q a1 a2 a3 a4} {a0 : State} (h0 : Canon q a0) :
    Canon q (State.sendAbandon a0 a1 a2 a3 a4) := by
  unfold State.sendAbandon
  try dsimp only
  repeat' with_reducible first
    | assumption | apply State.sendTwice_canon | dsimp only | split

theorem State.suspect_canon {q a1} {a0 : State} (h0 : Canon q a0) :
    Canon q (State.suspect a0 a1) := by
  unfold State.suspect
  try dsimp only
  repeat' with_reducible first
    | assumption | apply State.raise_canon | apply State.swmInfo_canon | apply State.modMember_canon | intro _
    | apply canon_ite | dsimp only | split

theorem State.swmStepInfo_canon {q a1} {a0 : State} (h0 : Canon q a0) :
    Canon q (State.swmStepInfo a0 a1) := by
  unfold State.swmStepInfo
  try dsimp only
  repeat' with_reducible first
    | assumption | apply State.setReg_canon | dsimp only | split

theorem State.missWindow_canon {q a1 a2} {a0 : State} (h0 : Canon q a0) :
    Canon q (State.missWindow a0 a1 a2) := by
  unfold State.missWindow
  try dsimp only
  repeat' with_reducible first
    | assumption | apply State.suspect_canon | apply State.sendAbandon_canon | apply State.stopWith_canon
    | apply State.modMember_canon | apply State.raise_canon | apply State.swmInfo_canon
    | apply State.swmStepInfo_canon | intro _ | apply canon_ite | dsimp only | split

theorem State.memberGone_canon {q a1} {a0 : State} (h0 : Canon q a0) :
    Canon q (State.memberGone a0 a1) := by
  unfold State.memberGone
  try dsimp only
  repeat' with_reducible first
    | assumption | intro _ | apply State.missWindow_canon | apply canon_ite | apply canon_foldl | dsimp only | split

theorem State.spreadExchanges_canon {q} {a0 : State} (h0 : Canon q a0) :
    Canon q (State.spreadExchanges a0) := by
  unfold State.spreadExchanges
  try dsimp only
  repeat' with_reducible first
    | assumption | intro _ | apply State.modMember_canon | apply canon_ite | apply canon_foldl | dsimp only | split

theorem State.memberAbsent_canon {q a1} {a0 : State} (h0 : Canon q a0) :
    Canon q (State.memberAbsent a0 a1) := by
  unfold State.memberAbsent
  try dsimp only
  repeat' with_reducible first
    | assumption | apply State.takeRequests_canon | refine State.takeRequests_canon' (by assumption) ?_
    | apply State.modMember_canon | apply State.raise_canon | apply State.swmInfo_canon | apply State.memberGone_canon
    | apply State.capMemberLost_canon | intro _ | apply State.spreadExchanges_canon | dsimp only | split

theorem State.memberBarred_canon {q a1} {a0 : State} (h0 : Canon q a0) :
    Canon q (State.memberBarred a0 a1) := by
  unfold State.memberBarred
  try dsimp only
  repeat' with_reducible first
    | assumption | apply State.takeRequests_canon | refine State.takeRequests_canon' (by assumption) ?_
    | apply State.modMember_canon | apply State.memberGone_canon | apply State.capMemberLost_canon | intro _
    | apply State.spreadExchanges_canon | dsimp only | split

theorem State.memberUp_canon {q a1} {a0 : State} (h0 : Canon q a0) :
    Canon q (State.memberUp a0 a1) := by
  unfold State.memberUp
  try dsimp only
  repeat' with_reducible first
    | assumption | apply State.modMember_canon | apply State.spreadExchanges_canon | intro _ | dsimp only | split

theorem State.malformed_canon {q a1 a2} {a0 : State} (h0 : Canon q a0) :
    Canon q (State.malformed a0 a1 a2) := by
  unfold State.malformed
  try dsimp only
  repeat' with_reducible first
    | assumption | apply State.raise_canon | apply State.swmInfo_canon | apply State.swmDrop_canon
    | apply State.memberBarred_canon | apply canon_ite | dsimp only | split

theorem State.denied_canon {q a1 a2} {a0 : State} (h0 : Canon q a0) :
    Canon q (State.denied a0 a1 a2) := by
  unfold State.denied
  try dsimp only
  repeat' with_reducible first
    | assumption | apply State.raise_canon | apply State.swmInfo_canon | apply State.memberBarred_canon
    | apply canon_ite | dsimp only | split

theorem State.heard_canon {q a1 a2} {a0 : State} (h0 : Canon q a0) :
    Canon q (State.heard a0 a1 a2) := by
  unfold State.heard
  try dsimp only
  repeat' with_reducible first
    | assumption | apply State.incReg_canon | apply State.setMember_canon | dsimp only | split

theorem State.receive_canon {q a1 a2 a3} {a0 : State} (h0 : Canon q a0) (h3 : ∀ u, Canon q u → Canon q (a3 u)) :
    Canon q (State.receive a0 a1 a2 a3) := by
  unfold State.receive
  try dsimp only
  repeat' with_reducible first
    | assumption | intro _ | apply h3 | apply State.swmDrop_canon | apply State.raise_canon
    | apply State.swmInfo_canon | apply State.malformed_canon | apply State.setMember_canon | apply State.heard_canon
    | apply canon_ite | dsimp only | split

theorem State.sendSlip_canon {q a1 a2} {a0 : State} (h0 : Canon q a0) :
    Canon q (State.sendSlip a0 a1 a2) := by
  unfold State.sendSlip
  try dsimp only
  repeat' with_reducible first
    | assumption | apply State.sendTwice_canon | apply canon_getD | intro _ | dsimp only | split

theorem State.tbInfo_canon {q a1} {a0 : State} (h0 : Canon q a0) :
    Canon q (State.tbInfo a0 a1) := by
  unfold State.tbInfo
  try dsimp only
  repeat' with_reducible first
    | assumption | apply State.setReg_canon | dsimp only | split

theorem State.lateStart_canon {q a1 a2 a3} {a0 : State} (h0 : Canon q a0) :
    Canon q (State.lateStart a0 a1 a2 a3) := by
  unfold State.lateStart
  try dsimp only
  repeat' with_reducible first
    | assumption | apply State.maxReg_canon | apply State.raise_canon | apply State.tbInfo_canon
    | apply State.sendSlip_canon | apply canon_ite | dsimp only | split

theorem State.slotLate_canon {q a1 a2 a3} {a0 : State} (h0 : Canon q a0) :
    Canon q (State.slotLate a0 a1 a2 a3) := by
  unfold State.slotLate
  try dsimp only
  repeat' with_reducible first
    | assumption | apply State.raise_canon | apply State.setReg_canon | apply canon_ite | dsimp only | split

theorem State.firstIssued_canon {q a1 a2 a3 a4} {a0 : State} (h0 : Canon q a0) :
    Canon q (State.firstIssued a0 a1 a2 a3 a4) := by
  unfold State.firstIssued
  try dsimp only
  repeat' with_reducible first
    | assumption | apply State.modStep_canon | apply State.lateStart_canon | apply State.slotLate_canon | intro _
    | apply canon_ite | dsimp only | split

theorem State.modCore_canon {q a1 a2 a3} {a0 : State} (h0 : Canon q a0) :
    Canon q (State.modCore a0 a1 a2 a3) := by
  unfold State.modCore
  try dsimp only
  repeat' with_reducible first
    | assumption | intro _ | apply State.modAgent_canon | apply canon_put | dsimp only | split

theorem State.modAgentStep_canon {q a1 a2 a3 a4} {a0 : State} (h0 : Canon q a0) :
    Canon q (State.modAgentStep a0 a1 a2 a3 a4) := by
  unfold State.modAgentStep
  try dsimp only
  repeat' with_reducible first
    | assumption | intro _ | apply State.modAgent_canon | dsimp only | split

theorem State.modLaunch_canon {q a1 a2 a3 a4 a5} {a0 : State} (h0 : Canon q a0) :
    Canon q (State.modLaunch a0 a1 a2 a3 a4 a5) := by
  unfold State.modLaunch
  try dsimp only
  repeat' with_reducible first
    | assumption | intro _ | apply State.modAgentStep_canon | dsimp only | split

theorem State.syncCore_canon {q a1 a2} {a0 : State} (h0 : Canon q a0) :
    Canon q (State.syncCore a0 a1 a2) := by
  unfold State.syncCore
  try dsimp only
  repeat' with_reducible first
    | assumption | intro _ | apply State.modCore_canon | apply canon_foldl | dsimp only | split

theorem State.checkLaunch_canon {q a1 a2 a3 a4} {a0 : State} (h0 : Canon q a0) :
    Canon q (State.checkLaunch a0 a1 a2 a3 a4) := by
  unfold State.checkLaunch
  try dsimp only
  repeat' with_reducible first
    | assumption | intro _ | apply State.modLaunch_canon | apply canon_ite | dsimp only | split

theorem State.frmFault_canon {q a1 a2 a3 a4 a5 a6} {a0 : State} (h0 : Canon q a0) :
    Canon q (State.frmFault a0 a1 a2 a3 a4 a5 a6) := by
  unfold State.frmFault
  try dsimp only
  repeat' with_reducible first
    | assumption | apply State.setReg_canon | apply State.raise_canon | apply canon_getD | intro _ | dsimp only
    | split

theorem State.execFault_canon {q a1 a2 a3 a4 a5 a6} {a0 : State} (h0 : Canon q a0) :
    Canon q (State.execFault a0 a1 a2 a3 a4 a5 a6) := by
  unfold State.execFault
  try dsimp only
  repeat' with_reducible first
    | assumption | intro _ | apply State.modLaunch_canon | apply State.modAgentStep_canon | apply canon_getD
    | apply canon_ite | dsimp only | split

theorem State.setEntry_canon {q a1 a2} {a0 : State} (h0 : Canon q a0) :
    Canon q (State.setEntry a0 a1 a2) := by
  unfold State.setEntry
  try dsimp only
  repeat' with_reducible first
    | assumption | apply canon_put | dsimp only | split

theorem State.modEntry_canon {q a1 a2} {a0 : State} (h0 : Canon q a0) :
    Canon q (State.modEntry a0 a1 a2) := by
  unfold State.modEntry
  try dsimp only
  repeat' with_reducible first
    | assumption | intro _ | apply State.setEntry_canon | dsimp only | split

theorem State.combPop_canon {q} {a0 : State} (h0 : Canon q a0) :
    Canon q (State.combPop a0) := by
  unfold State.combPop
  try dsimp only
  repeat' with_reducible first
    | assumption | apply canon_ite | dsimp only | split

theorem State.freeEntry_canon {q a1} {a0 : State} (h0 : Canon q a0) :
    Canon q (State.freeEntry a0 a1) := by
  unfold State.freeEntry
  try dsimp only
  repeat' with_reducible first
    | assumption | apply State.setEntry_canon | dsimp only | split

theorem State.setUpset_canon {q a1 a2 a3} {a0 : State} (h0 : Canon q a0) :
    Canon q (State.setUpset a0 a1 a2 a3) := by
  unfold State.setUpset
  try dsimp only
  repeat' with_reducible first
    | assumption | dsimp only | split

theorem State.rewriteWords_canon {q a1} {a0 : State} (h0 : Canon q a0) :
    Canon q (State.rewriteWords a0 a1) := by
  unfold State.rewriteWords
  try dsimp only
  repeat' with_reducible first
    | assumption | intro _ | dsimp only | split

theorem State.takeCombUnit_canon {q a1} {a0 : State} (h0 : Canon q a0) :
    Canon q (State.takeCombUnit a0 a1) := by
  unfold State.takeCombUnit
  try dsimp only
  repeat' with_reducible first
    | assumption | apply State.setInst_canon | apply canon_ite | dsimp only | split

theorem State.makeUnusable_canon {q a1 a2} {a0 : State} (h0 : Canon q a0) :
    Canon q (State.makeUnusable a0 a1 a2) := by
  unfold State.makeUnusable
  try dsimp only
  repeat' with_reducible first
    | assumption | apply State.setEntry_canon | apply State.takeCombUnit_canon | apply State.raise_canon
    | apply canon_ite | dsimp only | split

theorem State.takePlaced_canon {q a1 a2} {a0 : State} {y0 t} (e : State.takePlaced a0 a1 a2 = some (y0, t)) (h0 : Canon q a0) : Canon q t := by
  unfold State.takePlaced at e
  exact of_findSome e fun d hd => State.takeAny_canon hd h0

theorem State.takePair_canon {q a1 a2} {a0 : State} {y0 t} (e : State.takePair a0 a1 a2 = some (y0, t)) (h0 : Canon q a0) : Canon q t := by
  unfold State.takePair at e
  refine of_findSome e fun d hd => ?_
  split at hd
  · rename_i f u hu
    have hu := State.takeAny_canon hu h0
    dsimp only at hd
    split at hd
    · rename_i hv
      cases hd
      split at hv
      · rename_i hw
        cases hv
        exact State.takeAny_canon hw hu
      · exact State.takeFrame_canon hv hu
    · cases hd
  · cases hd

theorem State.setCarved_canon {q a1 a2} {a0 : State} (h0 : Canon q a0) :
    Canon q (State.setCarved a0 a1 a2) := by
  unfold State.setCarved
  try dsimp only
  repeat' with_reducible first
    | assumption | dsimp only | split

theorem State.carve_canon {q a1 a2} {a0 : State} {y0 y1 t} (e : State.carve a0 a1 a2 = some (y0, y1, t)) (h0 : Canon q a0) : Canon q t := by
  unfold State.carve at e
  try dsimp only at e
  (repeat' split at e)
  all_goals first | cases e | skip
  repeat' with_reducible first
    | assumption | intro _ | apply State.setCarved_canon | refine State.takeFrame_canon (by assumption) ?_
    | apply canon_ite | dsimp only | split

theorem State.takeBlock_canon {q a1 a2} {a0 : State} {y0 t} (e : State.takeBlock a0 a1 a2 = some (y0, t)) (h0 : Canon q a0) : Canon q t := by
  unfold State.takeBlock at e
  refine of_findSome e fun d hd => ?_
  split at hd
  · rename_i hu
    refine of_bind hu fun k _ hk => ?_
    have hu := State.carve_canon hk h0
    dsimp only at hd
    split at hd
    · rename_i hv
      cases hd
      exact State.carve_canon hv hu
    · cases hd
  · cases hd

theorem State.uncarve_canon {q a1 a2 a3} {a0 : State} (h0 : Canon q a0) :
    Canon q (State.uncarve a0 a1 a2 a3) := by
  unfold State.uncarve
  try dsimp only
  repeat' with_reducible first
    | assumption | apply State.setCarved_canon | apply State.withhold_canon | apply State.giveFrame_canon | intro _
    | apply canon_ite | dsimp only | split

theorem State.freeBlock_canon {q a1 a2} {a0 : State} (h0 : Canon q a0) :
    Canon q (State.freeBlock a0 a1 a2) := by
  unfold State.freeBlock
  try dsimp only
  repeat' with_reducible first
    | assumption | apply State.uncarve_canon | dsimp only | split

theorem State.takeTokens_canon {q a1 a2 a3} {a0 : State} (h0 : Canon q a0) :
    Canon q (State.takeTokens a0 a1 a2 a3) := by
  unfold State.takeTokens
  try dsimp only
  repeat' with_reducible first
    | assumption | intro _ | apply canon_ite | dsimp only | split

theorem State.admitReq_canon {q a1} {a0 : State} (h0 : Canon q a0) :
    Canon q (State.admitReq a0 a1) := by
  unfold State.admitReq
  try dsimp only
  repeat' with_reducible first
    | assumption | intro _ | apply State.emit_canon | apply State.takeTokens_canon | apply canon_foldl | dsimp only
    | split

theorem State.request_canon {q a1 a2 a3} {a0 : State} (h0 : Canon q a0) :
    Canon q (State.request a0 a1 a2 a3) := by
  unfold State.request
  try dsimp only
  repeat' with_reducible first
    | assumption | intro _ | apply State.modPart_canon | apply State.admitReq_canon | apply canon_ite | dsimp only
    | split

theorem State.urgentTraffic_canon {q a1 a2 a3} {a0 : State} (h0 : Canon q a0) :
    Canon q (State.urgentTraffic a0 a1 a2 a3) := by
  unfold State.urgentTraffic
  try dsimp only
  repeat' with_reducible first
    | assumption | apply State.takeTokens_canon | dsimp only | split

theorem State.admitHeld_canon {q} {a0 : State} (h0 : Canon q a0) :
    Canon q (State.admitHeld a0) := by
  unfold State.admitHeld
  try dsimp only
  repeat' with_reducible first
    | assumption | intro _ | apply State.admitReq_canon | apply canon_ite | apply canon_foldl | dsimp only | split

theorem State.tagRead_canon {q a1 a2 a3} {a0 : State} (h0 : Canon q a0) :
    Canon q (State.tagRead a0 a1 a2 a3) := by
  unfold State.tagRead
  try dsimp only
  repeat' with_reducible first
    | assumption | apply State.request_canon | dsimp only | split

theorem State.tagWrite_canon {q a1 a2 a3} {a0 : State} (h0 : Canon q a0) :
    Canon q (State.tagWrite a0 a1 a2 a3) := by
  unfold State.tagWrite
  try dsimp only
  repeat' with_reducible first
    | assumption | apply State.request_canon | dsimp only | split

theorem State.setMem_canon {q a1 a2} {a0 : State} (h0 : Canon q a0) :
    Canon q (State.setMem a0 a1 a2) := by
  unfold State.setMem
  try dsimp only
  repeat' with_reducible first
    | assumption | apply canon_put | intro _ | dsimp only | split

theorem State.modMem_canon {q a1 a2} {a0 : State} (h0 : Canon q a0) :
    Canon q (State.modMem a0 a1 a2) := by
  unfold State.modMem
  try dsimp only
  repeat' with_reducible first
    | assumption | intro _ | apply State.setMem_canon | dsimp only | split

theorem State.pagFault_canon {q a1 a2 a3 a4 a5} {a0 : State} (h0 : Canon q a0) :
    Canon q (State.pagFault a0 a1 a2 a3 a4 a5) := by
  unfold State.pagFault
  try dsimp only
  repeat' with_reducible first
    | assumption | apply State.setReg_canon | apply State.raise_canon | dsimp only | split

theorem State.setDlog_canon {q a1 a2} {a0 : State} (h0 : Canon q a0) :
    Canon q (State.setDlog a0 a1 a2) := by
  unfold State.setDlog
  try dsimp only
  repeat' with_reducible first
    | assumption | apply canon_put | intro _ | dsimp only | split

theorem State.dlogPut_canon {q a1 a2 a3 a4 a5} {a0 : State} (h0 : Canon q a0) :
    Canon q (State.dlogPut a0 a1 a2 a3 a4 a5) := by
  unfold State.dlogPut
  try dsimp only
  repeat' with_reducible first
    | assumption | apply State.tagWrite_canon | apply State.pagFault_canon | apply State.setDlog_canon
    | apply canon_ite | dsimp only | split

theorem State.dlogAdd_canon {q a1 a2 a3} {a0 : State} (h0 : Canon q a0) :
    Canon q (State.dlogAdd a0 a1 a2 a3) := by
  unfold State.dlogAdd
  try dsimp only
  repeat' with_reducible first
    | assumption | apply State.raise_canon | apply State.setDlog_canon | apply State.emit_canon
    | apply State.pagFault_canon | apply State.dlogPut_canon | apply canon_ite | dsimp only | split

theorem State.writeEntry_canon {q a1 a2 a3} {a0 : State} (h0 : Canon q a0) :
    Canon q (State.writeEntry a0 a1 a2 a3) := by
  unfold State.writeEntry
  try dsimp only
  repeat' with_reducible first
    | assumption | intro _ | apply State.emits_canon | refine State.carve_canon (by assumption) ?_
    | apply State.npQueue_canon | dsimp only | split

theorem State.writeCopy_canon {q a1 a2 a3 a4} {a0 : State} (h0 : Canon q a0) :
    Canon q (State.writeCopy a0 a1 a2 a3 a4) := by
  unfold State.writeCopy
  try dsimp only
  repeat' with_reducible first
    | assumption | apply State.emit_canon | refine State.carve_canon (by assumption) ?_ | apply State.npQueue_canon
    | intro _ | dsimp only | split

theorem State.madeBlock_canon {q a1 a2} {a0 : State} (h0 : Canon q a0) :
    Canon q (State.madeBlock a0 a1 a2) := by
  unfold State.madeBlock
  try dsimp only
  repeat' with_reducible first
    | assumption | apply State.dlogAdd_canon | apply State.writeCopy_canon | dsimp only | split

theorem State.rewrote_canon {q a1 a2 a3} {a0 : State} (h0 : Canon q a0) :
    Canon q (State.rewrote a0 a1 a2 a3) := by
  unfold State.rewrote
  try dsimp only
  repeat' with_reducible first
    | assumption | apply State.dlogAdd_canon | apply State.writeEntry_canon | dsimp only | split

theorem State.setPage_canon {q a1 a2 a3} {a0 : State} (h0 : Canon q a0) :
    Canon q (State.setPage a0 a1 a2 a3) := by
  unfold State.setPage
  try dsimp only
  repeat' with_reducible first
    | assumption | apply State.modMem_canon | apply State.dlogAdd_canon | apply canon_put | apply State.rewrote_canon
    | intro _ | dsimp only | split

theorem State.countPages_canon {q a1 a2 a3} {a0 : State} (h0 : Canon q a0) :
    Canon q (State.countPages a0 a1 a2 a3) := by
  unfold State.countPages
  try dsimp only
  repeat' with_reducible first
    | assumption | apply State.modEntry_canon | intro _ | dsimp only | split

theorem State.report_canon {q a1 a2 a3 a4} {a0 : State} (h0 : Canon q a0) :
    Canon q (State.report a0 a1 a2 a3 a4) := by
  unfold State.report
  try dsimp only
  repeat' with_reducible first
    | assumption | apply State.raise_canon | apply State.msix_canon | apply State.errMessage_canon
    | apply State.pagFault_canon | apply canon_ite | dsimp only | split

theorem State.releaseFrame_canon {q a1 a2} {a0 : State} (h0 : Canon q a0) :
    Canon q (State.releaseFrame a0 a1 a2) := by
  unfold State.releaseFrame
  try dsimp only
  repeat' with_reducible first
    | assumption | apply State.giveFrame_canon | apply State.withhold_canon | apply canon_ite | dsimp only | split

theorem State.dropCount_canon {q a1} {a0 : State} (h0 : Canon q a0) :
    Canon q (State.dropCount a0 a1) := by
  unfold State.dropCount
  try dsimp only
  repeat' with_reducible first
    | assumption | intro _ | apply State.refundBrood_canon | apply State.report_canon | apply State.releaseFrame_canon
    | apply canon_ite | dsimp only | split

theorem State.addShared_canon {q a1} {a0 : State} (h0 : Canon q a0) :
    Canon q (State.addShared a0 a1) := by
  unfold State.addShared
  try dsimp only
  repeat' with_reducible first
    | assumption | intro _ | dsimp only | split

theorem State.prefixSweep_canon {q a1} {a0 : State} (h0 : Canon q a0) :
    Canon q (State.prefixSweep a0 a1) := by
  unfold State.prefixSweep
  try dsimp only
  repeat' with_reducible first
    | assumption | intro _ | apply State.refundSuper_canon | apply State.giveFrame_canon | apply canon_ite
    | apply canon_foldl | dsimp only | split

theorem State.dropShared_canon {q a1} {a0 : State} (h0 : Canon q a0) :
    Canon q (State.dropShared a0 a1) := by
  unfold State.dropShared
  try dsimp only
  repeat' with_reducible first
    | assumption | apply State.refundBrood_canon | apply State.withhold_canon | apply State.report_canon
    | apply State.giveFrame_canon | apply State.dropCount_canon | apply State.prefixSweep_canon | intro _
    | apply canon_ite | apply canon_foldl | dsimp only | split

theorem State.freePrefix_canon {q a1 a2} {a0 : State} (h0 : Canon q a0) :
    Canon q (State.freePrefix a0 a1 a2) := by
  unfold State.freePrefix
  try dsimp only
  repeat' with_reducible first
    | assumption | intro _ | apply State.dropShared_canon | apply State.prefixSweep_canon | apply canon_foldl
    | dsimp only | split

theorem State.freePage_canon {q a1 a2} {a0 : State} (h0 : Canon q a0) :
    Canon q (State.freePage a0 a1 a2) := by
  unfold State.freePage
  try dsimp only
  repeat' with_reducible first
    | assumption | apply State.modMem_canon | apply State.countPages_canon | apply State.dropShared_canon
    | apply State.prefixSweep_canon | apply State.refundBrood_canon | apply State.withhold_canon
    | apply State.giveFrame_canon | apply State.refundSuper_canon | apply State.setPage_canon
    | apply State.releaseFrame_canon | intro _ | apply canon_ite | dsimp only | split

theorem State.dropPages_canon {q a1} {a0 : State} (h0 : Canon q a0) :
    Canon q (State.dropPages a0 a1) := by
  unfold State.dropPages
  try dsimp only
  repeat' with_reducible first
    | assumption | intro _ | apply State.freePage_canon | apply State.refundBrood_canon | apply State.freeBlock_canon
    | apply State.modMem_canon | apply State.modEntry_canon | apply State.rewrote_canon | apply canon_foldl
    | dsimp only | split

theorem State.dropLog_canon {q a1} {a0 : State} (h0 : Canon q a0) :
    Canon q (State.dropLog a0 a1) := by
  unfold State.dropLog
  try dsimp only
  repeat' with_reducible first
    | assumption | intro _ | apply State.refundSuper_canon | apply State.giveFrame_canon
    | apply State.refundBrood_canon | apply State.freeBlock_canon | apply State.setMem_canon | apply canon_foldl
    | dsimp only | split

theorem State.dropMemory_canon {q a1} {a0 : State} (h0 : Canon q a0) :
    Canon q (State.dropMemory a0 a1) := by
  unfold State.dropMemory
  try dsimp only
  repeat' with_reducible first
    | assumption | apply State.dropPages_canon | apply State.modMem_canon | apply State.refundBrood_canon
    | apply State.freeBlock_canon | apply State.setMem_canon | apply State.dropLog_canon | intro _ | apply canon_ite
    | dsimp only | split

theorem State.needLeaf_canon {q a1 a2} {a0 : State} {t} (e : State.needLeaf a0 a1 a2 = some t) (h0 : Canon q a0) : Canon q t := by
  unfold State.needLeaf at e
  try dsimp only at e
  (repeat' split at e)
  all_goals first | cases e | skip
  repeat' with_reducible first
    | assumption | intro _ | refine State.takeBlock_canon (by assumption) ?_ | apply State.modMem_canon
    | apply State.chargeBrood_canon | apply State.madeBlock_canon | apply State.rewrote_canon | apply canon_ite
    | dsimp only | split

theorem State.newPage_canon {q a1 a2} {a0 : State} {t} (e : State.newPage a0 a1 a2 = some t) (h0 : Canon q a0) : Canon q t := by
  unfold State.newPage at e
  try dsimp only at e
  (repeat' split at e)
  all_goals first | cases e | skip
  repeat' with_reducible first
    | assumption | intro _ | refine State.needLeaf_canon (by assumption) ?_
    | refine State.takePlaced_canon (by assumption) ?_ | apply State.countPages_canon | apply State.setPage_canon
    | apply State.chargeBrood_canon | apply canon_ite | dsimp only | split

theorem State.takePairs_canon {q a1 a2 a3} {a0 : State} {y0 t} (e : State.takePairs a0 a1 a2 a3 = some (y0, t)) (h0 : Canon q a0) : Canon q t := by
  unfold State.takePairs at e
  split at e
  · cases e
  · refine of_map e fun y hy e => ?_
    cases e
    refine State.chargeSuper_canon (canon_foldl_opt_snd (fun _ => rfl) ?_ hy h0)
    intro s x t ht hs
    refine of_map ht fun y hy e => ?_
    subst e
    exact State.takePair_canon hy hs

theorem State.extendLog_canon {q a1 a2} {a0 : State} {t} (e : State.extendLog a0 a1 a2 = some t) (h0 : Canon q a0) : Canon q t := by
  unfold State.extendLog at e
  refine canon_foldl_opt (fun _ => rfl) ?_ e h0
  intro s x t ht hs
  dsimp only [Option.bind_some] at ht
  split at ht
  · cases ht
  · refine of_map ht fun y hy e => ?_
    subst e
    exact State.rewrote_canon (State.modMem_canon (State.chargeSuper_canon (State.takePair_canon hy hs)))

theorem State.writeLogFrame_canon {q a1 a2 a3 a4} {a0 : State} (h0 : Canon q a0) :
    Canon q (State.writeLogFrame a0 a1 a2 a3 a4) := by
  unfold State.writeLogFrame
  try dsimp only
  repeat' with_reducible first
    | assumption | intro _ | apply State.tagWrite_canon | dsimp only | split

theorem State.writeTokens_canon {q a1 a2 a3} {a0 : State} (h0 : Canon q a0) :
    Canon q (State.writeTokens a0 a1 a2 a3) := by
  unfold State.writeTokens
  try dsimp only
  repeat' with_reducible first
    | assumption | intro _ | apply State.modMem_canon | apply State.dlogAdd_canon | apply State.writeLogFrame_canon
    | apply canon_ite | apply canon_foldl | dsimp only | split

theorem State.setMover_canon {q a1 a2} {a0 : State} (h0 : Canon q a0) :
    Canon q (State.setMover a0 a1 a2) := by
  unfold State.setMover
  try dsimp only
  repeat' with_reducible first
    | assumption | apply canon_put | intro _ | dsimp only | split

theorem State.startMove_canon {q a1} {a0 : State} (h0 : Canon q a0) :
    Canon q (State.startMove a0 a1) := by
  unfold State.startMove
  try dsimp only
  repeat' with_reducible first
    | assumption | apply State.emit_canon | apply State.setMover_canon | apply State.request_canon | apply canon_ite
    | dsimp only | split

theorem State.queueMove_canon {q a1} {a0 : State} (h0 : Canon q a0) :
    Canon q (State.queueMove a0 a1) := by
  unfold State.queueMove
  try dsimp only
  repeat' with_reducible first
    | assumption | apply State.startMove_canon | apply State.setMover_canon | dsimp only | split

theorem State.promote_canon {q a1 a2} {a0 : State} {t} (e : State.promote a0 a1 a2 = some t) (h0 : Canon q a0) : Canon q t := by
  unfold State.promote at e
  try dsimp only at e
  (repeat' split at e)
  all_goals first | cases e | skip
  repeat' with_reducible first
    | assumption | intro _ | refine State.takePlaced_canon (by assumption) ?_ | apply State.queueMove_canon
    | apply State.setPage_canon | apply State.chargeBrood_canon | apply canon_ite | dsimp only | split

theorem State.demote_canon {q a1 a2} {a0 : State} {t} (e : State.demote a0 a1 a2 = some t) (h0 : Canon q a0) : Canon q t := by
  unfold State.demote at e
  try dsimp only at e
  (repeat' split at e)
  all_goals first | cases e | skip
  repeat' with_reducible first
    | assumption | intro _ | refine State.takePlaced_canon (by assumption) ?_ | apply State.queueMove_canon
    | apply State.setPage_canon | apply State.chargeSuper_canon | apply canon_ite | dsimp only | split

theorem State.moveNow_canon {q a1 a2 a3 a4 a5} {a0 : State} (h0 : Canon q a0) :
    Canon q (State.moveNow a0 a1 a2 a3 a4 a5) := by
  unfold State.moveNow
  try dsimp only
  repeat' with_reducible first
    | assumption | apply State.emit_canon | apply State.queueMove_canon | dsimp only | split

theorem State.demoteNow_canon {q a1 a2} {a0 : State} (h0 : Canon q a0) :
    Canon q (State.demoteNow a0 a1 a2) := by
  unfold State.demoteNow
  try dsimp only
  repeat' with_reducible first
    | assumption | refine State.takePlaced_canon (by assumption) ?_ | apply State.giveFrame_canon
    | apply State.refundBrood_canon | apply State.chargeSuper_canon | apply State.countPages_canon
    | apply State.setPage_canon | refine State.demote_canon (by assumption) ?_ | apply State.moveNow_canon | intro _
    | apply canon_ite | dsimp only | split

theorem State.reclaimTo_canon {q a1 a2} {a0 : State} (h0 : Canon q a0) :
    Canon q (State.reclaimTo a0 a1 a2) := by
  unfold State.reclaimTo
  try dsimp only
  repeat' with_reducible first
    | assumption | intro _ | apply State.demoteNow_canon | apply canon_ite | apply canon_foldl | dsimp only | split

theorem State.reclaim_canon {q a1 a2} {a0 : State} (h0 : Canon q a0) :
    Canon q (State.reclaim a0 a1 a2) := by
  unfold State.reclaim
  try dsimp only
  repeat' with_reducible first
    | assumption | intro _ | apply State.demoteNow_canon | apply State.reclaimTo_canon | apply canon_ite
    | apply canon_foldl | dsimp only | split

theorem State.dropMoves_canon {q a1} {a0 : State} (h0 : Canon q a0) :
    Canon q (State.dropMoves a0 a1) := by
  unfold State.dropMoves
  try dsimp only
  repeat' with_reducible first
    | assumption | intro _ | apply State.setMover_canon | apply State.refundSuper_canon
    | apply State.refundBrood_canon | apply State.giveFrame_canon | apply State.setPage_canon | apply canon_filter
    | refine State.demote_canon (by assumption) ?_ | apply canon_ite | apply canon_foldl | dsimp only | split

theorem State.cancelMoves_canon {q a1} {a0 : State} (h0 : Canon q a0) :
    Canon q (State.cancelMoves a0 a1) := by
  unfold State.cancelMoves
  try dsimp only
  repeat' with_reducible first
    | assumption | intro _ | apply State.dropMoves_canon | refine State.demote_canon (by assumption) ?_ | dsimp only
    | split

theorem State.endDemotion_canon {q a1} {a0 : State} (h0 : Canon q a0) :
    Canon q (State.endDemotion a0 a1) := by
  unfold State.endDemotion
  try dsimp only
  repeat' with_reducible first
    | assumption | apply State.dropMoves_canon | refine State.demote_canon (by assumption) ?_ | intro _ | dsimp only
    | split

theorem State.takeBeside_canon {q a1 a2} {a0 : State} {y0 t} (e : State.takeBeside a0 a1 a2 = some (y0, t)) (h0 : Canon q a0) : Canon q t := by
  unfold State.takeBeside at e
  extract_lets d at e
  cases h1 : a0.takeAny (dropWhere (fun k => k == a2.pool) (a1 d)) with
  | some x => rw [h1] at e; cases e; exact State.takeAny_canon h1 h0
  | none =>
    rw [h1] at e
    cases h2 : a0.takeFrame a2.pool with
    | some x => rw [h2] at e; cases e; exact State.takeFrame_canon h2 h0
    | none => rw [h2] at e; exact of_findSome e fun d hd => State.takeAny_canon hd h0

theorem State.closeCarved_canon {q a1} {a0 : State} (h0 : Canon q a0) :
    Canon q (State.closeCarved a0 a1) := by
  unfold State.closeCarved
  try dsimp only
  repeat' with_reducible first
    | assumption | apply State.setCarved_canon | dsimp only | split

theorem State.carveBeside_canon {q a1 a2} {a0 : State} {y0 y1 t} (e : State.carveBeside a0 a1 a2 = some (y0, y1, t)) (h0 : Canon q a0) : Canon q t := by
  unfold State.carveBeside at e
  dsimp only at e
  split at e
  · cases e; rename_i hu; exact of_bind hu fun k _ hk => State.carve_canon hk h0
  · split at e
    · cases e; rename_i hu; exact of_bind hu fun k _ hk => State.carve_canon hk h0
    · exact of_findSome e fun d hd => of_bind hd fun k _ hk => State.carve_canon hk h0

theorem State.writeFrames_canon {q a1 a2 a3} {a0 : State} (h0 : Canon q a0) :
    Canon q (State.writeFrames a0 a1 a2 a3) := by
  unfold State.writeFrames
  try dsimp only
  repeat' with_reducible first
    | assumption | intro _ | apply State.tagWrite_canon | apply canon_foldl | dsimp only | split

theorem State.writeLog_canon {q a1} {a0 : State} (h0 : Canon q a0) :
    Canon q (State.writeLog a0 a1) := by
  unfold State.writeLog
  try dsimp only
  repeat' with_reducible first
    | assumption | apply State.writeFrames_canon | dsimp only | split

theorem State.writePrefixLog_canon {q a1} {a0 : State} (h0 : Canon q a0) :
    Canon q (State.writePrefixLog a0 a1) := by
  unfold State.writePrefixLog
  try dsimp only
  repeat' with_reducible first
    | assumption | apply State.writeFrames_canon | dsimp only | split

theorem State.copyLog_canon {q a1 a2} {a0 : State} {t} (e : State.copyLog a0 a1 a2 = some t) (h0 : Canon q a0) : Canon q t := by
  unfold State.copyLog at e
  split at e
  · cases e; exact h0
  · split at e
    · cases e; exact h0
    · split at e
      · cases e
      · refine of_map e fun y hy e => ?_
        subst e
        exact State.rewrote_canon (State.dlogAdd_canon (State.tagWrite_canon (State.modMem_canon (State.takeBeside_canon hy h0))))

theorem State.copyPrefixLog_canon {q a1 a2} {a0 : State} {t} (e : State.copyPrefixLog a0 a1 a2 = some t) (h0 : Canon q a0) : Canon q t := by
  unfold State.copyPrefixLog at e
  split at e
  · cases e; exact h0
  · split at e
    · cases e; exact h0
    · split at e
      · cases e; exact h0
      · refine of_map e fun y hy e => ?_
        subst e
        refine State.tagWrite_canon ?_
        have hc := State.takeBeside_canon (y0 := y.1) (t := y.2) hy h0
        exact hc

theorem State.keepBlock_canon {q a1 a2 a3} {a0 : State} (h0 : Canon q a0) :
    Canon q (State.keepBlock a0 a1 a2 a3) := by
  unfold State.keepBlock
  try dsimp only
  repeat' with_reducible first
    | assumption | intro _ | apply State.modMem_canon | dsimp only | split

theorem State.setBlock_canon {q a1 a2 a3} {a0 : State} (h0 : Canon q a0) :
    Canon q (State.setBlock a0 a1 a2 a3) := by
  unfold State.setBlock
  try dsimp only
  repeat' with_reducible first
    | assumption | intro _ | apply State.modEntry_canon | apply State.modMem_canon | apply State.rewrote_canon
    | apply State.keepBlock_canon | dsimp only | split

theorem State.copyBlock_canon {q a1 a2} {a0 : State} {t} (e : State.copyBlock a0 a1 a2 = some t) (h0 : Canon q a0) : Canon q t := by
  unfold State.copyBlock at e
  split at e
  · cases e; exact h0
  · split at e
    · cases e; exact h0
    · split at e
      · cases e
      · refine of_map e fun y hy e => ?_
        subst e
        exact State.dlogAdd_canon (State.writeCopy_canon (State.setBlock_canon (State.carveBeside_canon hy h0)))

theorem State.placeBlock_canon {q a1 a2} {a0 : State} {t} (e : State.placeBlock a0 a1 a2 = some t) (h0 : Canon q a0) : Canon q t := by
  unfold State.placeBlock at e
  split at e
  · cases e; exact h0
  · split at e
    · cases e
    · cases e; exact State.setBlock_canon h0

theorem State.copyOwed_canon {q a1} {a0 : State} {t} (e : State.copyOwed a0 a1 = some t) (h0 : Canon q a0) : Canon q t := by
  unfold State.copyOwed at e
  split at e
  · exact State.copyLog_canon e h0
  · exact State.copyBlock_canon e h0
  · exact State.placeBlock_canon e h0
  · exact State.copyPrefixLog_canon e h0

theorem State.owe_canon {q a1} {a0 : State} (h0 : Canon q a0) :
    Canon q (State.owe a0 a1) := by
  unfold State.owe
  try dsimp only
  repeat' with_reducible first
    | assumption | refine State.copyOwed_canon (by assumption) ?_ | dsimp only | split

theorem State.retryMirrors_canon {q} {a0 : State} (h0 : Canon q a0) :
    Canon q (State.retryMirrors a0) := by
  unfold State.retryMirrors
  try dsimp only
  repeat' with_reducible first
    | assumption | intro _ | apply State.owe_canon | apply canon_foldl | dsimp only | split

theorem State.syncPressure_canon {q} {a0 : State} (h0 : Canon q a0) :
    Canon q (State.syncPressure a0) := by
  unfold State.syncPressure
  try dsimp only
  repeat' with_reducible first
    | assumption | intro _ | apply canon_put | apply canon_ite | apply canon_foldl | dsimp only | split

theorem State.evictPlace_canon {q a1 a2} {a0 : State} {y0 t} (e : State.evictPlace a0 a1 a2 = some (y0, t)) (h0 : Canon q a0) : Canon q t := by
  unfold State.evictPlace at e
  dsimp only at e
  split at e
  · cases e; exact h0
  · split at e
    · refine of_map e fun y hy e => ?_
      cases e
      exact State.chargeBrood_canon (State.takeAny_canon hy h0)
    · split at e
      · refine of_map e fun y hy e => ?_
        cases e
        exact State.chargeBrood_canon (State.takeAny_canon hy (State.reclaim_canon h0))
      · cases e

theorem State.evictFree_canon {q a1 a2} {a0 : State} (h0 : Canon q a0) :
    Canon q (State.evictFree a0 a1 a2) := by
  unfold State.evictFree
  try dsimp only
  repeat' with_reducible first
    | assumption | apply State.setCtx_canon | apply State.refundBrood_canon | apply State.giveFrame_canon | intro _
    | apply canon_ite | dsimp only | split

theorem State.claim_canon {q a1 a2 a3 a4 a5} {a0 : State} (h0 : Canon q a0) :
    Canon q (State.claim a0 a1 a2 a3 a4 a5) := by
  unfold State.claim
  try dsimp only
  repeat' with_reducible first
    | assumption | intro _ | apply State.modCore_canon | apply State.modLaunch_canon | apply canon_ite | dsimp only
    | split

theorem State.stagePage_canon {q a1 a2} {a0 : State} (h0 : Canon q a0) :
    Canon q (State.stagePage a0 a1 a2) := by
  unfold State.stagePage
  try dsimp only
  repeat' with_reducible first
    | assumption | refine State.takeAny_canon (by assumption) ?_ | apply State.modCap_canon
    | apply State.chargeBrood_canon | intro _ | apply canon_ite | dsimp only | split

theorem State.capGuard_canon {q a1 a2 a3 a4} {a0 : State} (h0 : Canon q a0) : Canon q ((State.capGuard a0 a1 a2 a3 a4).1) := by
  unfold State.capGuard
  try dsimp only
  repeat' with_reducible first
    | assumption | intro _ | apply State.stagePage_canon | apply State.modCap_canon | apply canon_ite
    | apply canon_foldl | dsimp only | split

theorem State.capGuard_canon' {q a1 a2 a3 a4} {a0 : State} {t y1} (e : State.capGuard a0 a1 a2 a3 a4 = (t, y1)) (h0 : Canon q a0) : Canon q t := by
  have z := State.capGuard_canon (q := q) (a0 := a0) (a1 := a1) (a2 := a2) (a3 := a3) (a4 := a4) h0
  rw [e] at z; exact z

theorem State.offer_canon {q a1 a2 a3 a4} {a0 : State} (h0 : Canon q a0) :
    Canon q (State.offer a0 a1 a2 a3 a4) := by
  unfold State.offer
  try dsimp only
  repeat' with_reducible first
    | assumption | intro _ | apply State.syncCore_canon | apply State.modCore_canon | dsimp only | split

theorem State.countIssue_canon {q a1 a2 a3 a4 a5} {a0 : State} (h0 : Canon q a0) :
    Canon q (State.countIssue a0 a1 a2 a3 a4 a5) := by
  unfold State.countIssue
  try dsimp only
  repeat' with_reducible first
    | assumption | intro _ | apply State.modLaunch_canon | apply State.incReg_canon | apply State.firstIssued_canon
    | apply canon_put | apply canon_ite | dsimp only | split

theorem State.issueWork_canon {q a1 a2 a3 a4 a5} {a0 : State} (h0 : Canon q a0) :
    Canon q (State.issueWork a0 a1 a2 a3 a4 a5) := by
  unfold State.issueWork
  try dsimp only
  repeat' with_reducible first
    | assumption | intro _ | apply State.claim_canon | apply State.modCore_canon | apply State.modLaunch_canon
    | apply State.offer_canon | apply State.countIssue_canon | apply State.firstIssued_canon
    | apply State.incReg_canon | apply canon_put | apply canon_ite | dsimp only | split

theorem State.issueRsv_canon {q a1 a2 a3 a4 a5} {a0 : State} (h0 : Canon q a0) : Canon q ((State.issueRsv a0 a1 a2 a3 a4 a5).1) := by
  unfold State.issueRsv
  try dsimp only
  repeat' with_reducible first
    | assumption | apply State.offer_canon | refine State.evictPlace_canon (by assumption) ?_ | apply State.modCtx_canon
    | apply State.modAgentStep_canon | apply State.raise_canon | apply State.schInfo_canon | apply canon_ite | dsimp only
    | split

theorem State.unpark_canon {q a1 a2 a3} {a0 : State} (h0 : Canon q a0) :
    Canon q (State.unpark a0 a1 a2 a3) := by
  unfold State.unpark
  try dsimp only
  repeat' with_reducible first
    | assumption | intro _ | apply State.modCore_canon | apply canon_ite | dsimp only | split

theorem State.workGuard_canon {q a1 a2 a3 a4 a5} {a0 : State} (h0 : Canon q a0) : Canon q ((State.workGuard a0 a1 a2 a3 a4 a5).1) := by
  unfold State.workGuard
  refine canon_foldl_fst ?_ h0
  intro s x hs
  split
  · exact State.capGuard_canon hs
  · exact hs

theorem State.workGuard_canon' {q a1 a2 a3 a4 a5} {a0 : State} {t y1} (e : State.workGuard a0 a1 a2 a3 a4 a5 = (t, y1)) (h0 : Canon q a0) : Canon q t := by
  have z := State.workGuard_canon (q := q) (a0 := a0) (a1 := a1) (a2 := a2) (a3 := a3) (a4 := a4) (a5 := a5) h0
  rw [e] at z; exact z

theorem State.issueFor_canon {q a1 a2 a3 a4} {a0 : State} (h0 : Canon q a0) : Canon q ((State.issueFor a0 a1 a2 a3 a4).1) := by
  unfold State.issueFor
  try dsimp only
  repeat' with_reducible first
    | assumption | apply State.unpark_canon | apply State.issueRsv_canon | apply State.workGuard_canon
    | refine State.workGuard_canon' (by assumption) ?_ | apply State.issueWork_canon | apply canon_ite | dsimp only
    | split

theorem State.offerSave_canon {q a1 a2 a3 a4} {a0 : State} (h0 : Canon q a0) :
    Canon q (State.offerSave a0 a1 a2 a3 a4) := by
  unfold State.offerSave
  try dsimp only
  repeat' with_reducible first
    | assumption | intro _ | apply State.modAgentStep_canon | apply State.offer_canon | apply canon_ite | dsimp only
    | split

theorem State.issueOn_canon {q a1 a2 a3} {a0 : State} (h0 : Canon q a0) : Canon q ((State.issueOn a0 a1 a2 a3).1) := by
  unfold State.issueOn
  try dsimp only
  repeat' with_reducible first
    | assumption | intro _ | apply State.offerSave_canon | apply State.modAgentStep_canon | apply State.issueWork_canon
    | apply State.issueFor_canon | apply canon_ite | dsimp only | split

theorem State.issue_canon {q a1 a2 a3} {a0 : State} (h0 : Canon q a0) :
    Canon q (State.issue a0 a1 a2 a3) := by
  unfold State.issue
  try dsimp only
  repeat' with_reducible first
    | assumption | apply State.issueOn_canon | apply State.modAgent_canon | apply canon_ite | dsimp only | split

theorem State.moveBack_canon {q a1 a2 a3 a4 a5} {a0 : State} (h0 : Canon q a0) :
    Canon q (State.moveBack a0 a1 a2 a3 a4 a5) := by
  unfold State.moveBack
  try dsimp only
  repeat' with_reducible first
    | assumption | intro _ | apply State.modLaunch_canon | apply canon_put | dsimp only | split

theorem State.withdrawCore_canon {q a1 a2 a3 a4 a5} {a0 : State} (h0 : Canon q a0) :
    Canon q (State.withdrawCore a0 a1 a2 a3 a4 a5) := by
  unfold State.withdrawCore
  try dsimp only
  repeat' with_reducible first
    | assumption | intro _ | apply State.modCore_canon | apply State.evictFree_canon | apply State.modLaunch_canon
    | apply State.moveBack_canon | apply canon_filter | apply canon_ite | apply canon_foldl | dsimp only | split

theorem State.modRec_canon {q a1 a2 a3} {a0 : State} (h0 : Canon q a0) :
    Canon q (State.modRec a0 a1 a2 a3) := by
  unfold State.modRec
  try dsimp only
  repeat' with_reducible first
    | assumption | intro _ | apply State.modCtx_canon | apply canon_put | apply canon_ite | dsimp only | split

theorem State.runProgress_canon {q a1} {a0 : State} (h0 : Canon q a0) :
    Canon q (State.runProgress a0 a1) := by
  unfold State.runProgress
  try dsimp only
  repeat' with_reducible first
    | assumption | apply State.opProgress_canon | apply canon_getD | apply canon_filter | intro _ | dsimp only | split

theorem State.leaveLists_canon {q a1} {a0 : State} (h0 : Canon q a0) :
    Canon q (State.leaveLists a0 a1) := by
  unfold State.leaveLists
  try dsimp only
  repeat' with_reducible first
    | assumption | apply State.modServe_canon | intro _ | dsimp only | split

theorem State.joinReady_canon {q a1} {a0 : State} (h0 : Canon q a0) :
    Canon q (State.joinReady a0 a1) := by
  unfold State.joinReady
  try dsimp only
  repeat' with_reducible first
    | assumption | apply State.modServe_canon | intro _ | apply canon_ite | dsimp only | split

theorem State.lastParked_canon {q a1} {a0 : State} (h0 : Canon q a0) :
    Canon q (State.lastParked a0 a1) := by
  unfold State.lastParked
  try dsimp only
  repeat' with_reducible first
    | assumption | intro _ | dsimp only | split

theorem State.joinParked_canon {q a1} {a0 : State} (h0 : Canon q a0) :
    Canon q (State.joinParked a0 a1) := by
  unfold State.joinParked
  try dsimp only
  repeat' with_reducible first
    | assumption | apply State.modServe_canon | apply State.lastParked_canon | intro _ | apply canon_ite | dsimp only
    | split

theorem State.loseRound_canon {q a1} {a0 : State} (h0 : Canon q a0) :
    Canon q (State.loseRound a0 a1) := by
  unfold State.loseRound
  try dsimp only
  repeat' with_reducible first
    | assumption | apply State.modServe_canon | intro _ | apply canon_ite | dsimp only | split

theorem State.endDrafting_canon {q a1} {a0 : State} (h0 : Canon q a0) :
    Canon q (State.endDrafting a0 a1) := by
  unfold State.endDrafting
  try dsimp only
  repeat' with_reducible first
    | assumption | intro _ | apply State.loseRound_canon | apply canon_foldl | dsimp only | split

theorem State.idleForecast_canon {q a1} {a0 : State} (h0 : Canon q a0) :
    Canon q (State.idleForecast a0 a1) := by
  unfold State.idleForecast
  try dsimp only
  repeat' with_reducible first
    | assumption | apply State.modServe_canon | intro _ | apply canon_ite | dsimp only | split

theorem State.wakeForecast_canon {q a1} {a0 : State} (h0 : Canon q a0) :
    Canon q (State.wakeForecast a0 a1) := by
  unfold State.wakeForecast
  try dsimp only
  repeat' with_reducible first
    | assumption | apply State.idleForecast_canon | apply State.modServe_canon | intro _ | dsimp only | split

theorem State.countOrphanPark_canon {q a1} {a0 : State} (h0 : Canon q a0) :
    Canon q (State.countOrphanPark a0 a1) := by
  unfold State.countOrphanPark
  try dsimp only
  repeat' with_reducible first
    | assumption | apply canon_ite | dsimp only | split

theorem State.endNominee_canon {q a1} {a0 : State} (h0 : Canon q a0) :
    Canon q (State.endNominee a0 a1) := by
  unfold State.endNominee
  try dsimp only
  repeat' with_reducible first
    | assumption | apply State.cancelMoves_canon | intro _ | apply canon_ite | dsimp only | split

theorem State.resumeChoice_canon {q a1} {a0 : State} (h0 : Canon q a0) :
    Canon q (State.resumeChoice a0 a1) := by
  unfold State.resumeChoice
  try dsimp only
  repeat' with_reducible first
    | assumption | apply canon_ite | dsimp only | split

theorem State.park_canon {q a1 a2} {a0 : State} (h0 : Canon q a0) :
    Canon q (State.park a0 a1 a2) := by
  unfold State.park
  try dsimp only
  repeat' with_reducible first
    | assumption | apply State.endNominee_canon | apply State.leaveLists_canon | apply State.loseRound_canon
    | apply State.modEntry_canon | apply State.countOrphanPark_canon | apply State.joinParked_canon
    | apply State.lastParked_canon | intro _ | apply State.resumeChoice_canon | apply canon_ite | dsimp only | split

theorem State.enterReady_canon {q a1} {a0 : State} (h0 : Canon q a0) :
    Canon q (State.enterReady a0 a1) := by
  unfold State.enterReady
  try dsimp only
  repeat' with_reducible first
    | assumption | apply State.endDemotion_canon | apply State.modEntry_canon | apply State.leaveLists_canon
    | apply State.wakeForecast_canon | apply State.joinReady_canon | intro _ | apply State.park_canon
    | apply canon_ite | dsimp only | split

theorem State.dormant_canon {q a1 a2} {a0 : State} (h0 : Canon q a0) :
    Canon q (State.dormant a0 a1 a2) := by
  unfold State.dormant
  try dsimp only
  repeat' with_reducible first
    | assumption | apply State.modEntry_canon | apply State.leaveLists_canon | apply State.modServe_canon
    | apply State.dropPages_canon | intro _ | dsimp only | split

theorem State.release_canon {q a1} {a0 : State} (h0 : Canon q a0) :
    Canon q (State.release a0 a1) := by
  unfold State.release
  try dsimp only
  repeat' with_reducible first
    | assumption | apply State.rewriteWords_canon | apply State.makeUnusable_canon | apply State.freeEntry_canon
    | apply canon_ite | dsimp only | split

theorem State.retire_canon {q a1 a2} {a0 : State} (h0 : Canon q a0) :
    Canon q (State.retire a0 a1 a2) := by
  unfold State.retire
  try dsimp only
  repeat' with_reducible first
    | assumption | apply State.leaveLists_canon | apply State.loseRound_canon | apply State.dropMemory_canon
    | apply State.modEntry_canon | apply State.release_canon | intro _ | apply canon_ite | dsimp only | split

theorem State.retireLost_canon {q a1 a2} {a0 : State} (h0 : Canon q a0) :
    Canon q (State.retireLost a0 a1 a2) := by
  unfold State.retireLost
  try dsimp only
  repeat' with_reducible first
    | assumption | apply State.setMem_canon | apply State.retire_canon | apply State.raise_canon
    | apply State.pagFault_canon | dsimp only | split

theorem State.poisonEntry_canon {q a1} {a0 : State} (h0 : Canon q a0) :
    Canon q (State.poisonEntry a0 a1) := by
  unfold State.poisonEntry
  try dsimp only
  repeat' with_reducible first
    | assumption | apply State.modEntry_canon | apply State.retire_canon | apply State.raise_canon | intro _
    | apply canon_ite | dsimp only | split

theorem State.strike_canon {q a1} {a0 : State} (h0 : Canon q a0) :
    Canon q (State.strike a0 a1) := by
  unfold State.strike
  try dsimp only
  repeat' with_reducible first
    | assumption | apply State.raise_canon | apply State.setReg_canon | apply State.setUpset_canon
    | apply State.rewriteWords_canon | apply State.makeUnusable_canon | apply State.poisonEntry_canon
    | apply canon_ite | dsimp only | split

theorem State.meet_canon {q a1} {a0 : State} (h0 : Canon q a0) :
    Canon q (State.meet a0 a1) := by
  unfold State.meet
  repeat' with_reducible first
    | assumption | apply State.strike_canon | apply State.setUpset_canon | apply canon_ite | split

theorem State.readWords_canon {q a1} {a0 : State} (h0 : Canon q a0) :
    Canon q (State.readWords a0 a1) := by
  unfold State.readWords
  repeat' with_reducible first
    | assumption | apply canon_foldl | intro _ | apply State.meet_canon

theorem State.applySet_canon {q a1 a2 a3} {a0 : State} (h0 : Canon q a0) :
    Canon q (State.applySet a0 a1 a2 a3) := by
  unfold State.applySet
  try dsimp only
  repeat' with_reducible first
    | assumption | apply State.modEntry_canon | apply State.loseRound_canon | apply State.joinReady_canon
    | apply State.leaveLists_canon | apply State.wakeForecast_canon | apply State.joinParked_canon | intro _
    | apply canon_ite | dsimp only | split

theorem State.healBlock_canon {q a1 a2 a3 a4} {a0 : State} (h0 : Canon q a0) :
    Canon q (State.healBlock a0 a1 a2 a3 a4) := by
  unfold State.healBlock
  try dsimp only
  repeat' with_reducible first
    | assumption | intro _ | apply State.freePage_canon | apply State.wakeForecast_canon | apply State.joinReady_canon
    | apply State.modEntry_canon | apply State.leaveLists_canon | apply canon_ite | apply canon_foldl | dsimp only
    | split

theorem State.copyPage_canon {q a1 a2 a3} {a0 : State} {t} (e : State.copyPage a0 a1 a2 a3 = some t) (h0 : Canon q a0) : Canon q t := by
  unfold State.copyPage at e
  try dsimp only at e
  (repeat' split at e)
  all_goals first | cases e | skip
  repeat' with_reducible first
    | assumption | intro _ | refine State.takePlaced_canon (by assumption) ?_ | apply State.queueMove_canon
    | apply State.setPage_canon | apply State.chargeBrood_canon | apply canon_ite | dsimp only | split

theorem State.lostPage_canon {q a1 a2} {a0 : State} (h0 : Canon q a0) :
    Canon q (State.lostPage a0 a1 a2) := by
  unfold State.lostPage
  try dsimp only
  repeat' with_reducible first
    | assumption | apply State.pagFault_canon | apply State.report_canon | apply State.setPage_canon | intro _
    | apply canon_ite | dsimp only | split

theorem State.freshPage_canon {q a1 a2} {a0 : State} (h0 : Canon q a0) : Canon q ((State.freshPage a0 a1 a2).1) := by
  unfold State.freshPage
  dsimp only
  split
  · rename_i e
    exact State.newPage_canon e (State.reclaim_canon h0)
  · exact State.reclaim_canon h0

theorem State.needPage_canon {q a1 a2} {a0 : State} (h0 : Canon q a0) : Canon q ((State.needPage a0 a1 a2).1) := by
  unfold State.needPage
  dsimp only
  repeat' with_reducible first
    | assumption | intro _ | apply State.healBlock_canon | apply State.lostPage_canon | apply State.reclaim_canon
    | apply State.freshPage_canon | refine State.copyPage_canon (by assumption) ?_
    | refine State.promote_canon (by assumption) ?_ | apply canon_foldl_fst | dsimp only | split

theorem State.needPage_canon' {q a1 a2} {a0 : State} {t y1} (e : State.needPage a0 a1 a2 = (t, y1)) (h0 : Canon q a0) : Canon q t := by
  have z := State.needPage_canon (q := q) (a0 := a0) (a1 := a1) (a2 := a2) h0
  rw [e] at z; exact z

theorem State.needLog_canon {q a1 a2} {a0 : State} (h0 : Canon q a0) : Canon q ((State.needLog a0 a1 a2).1) := by
  rw [State.needLog]
  split
  · exact h0
  · split
    · rename_i e
      exact State.extendLog_canon e h0
    · dsimp only
      split
      · exact h0
      · exact State.pagFault_canon h0

theorem State.needLog_canon' {q a1 a2} {a0 : State} {t y1} (e : State.needLog a0 a1 a2 = (t, y1)) (h0 : Canon q a0) : Canon q t := by
  have z := State.needLog_canon (q := q) (a0 := a0) (a1 := a1) (a2 := a2) h0
  rw [e] at z; exact z

theorem State.putNominee_canon {q a1} {a0 : State} (h0 : Canon q a0) :
    Canon q (State.putNominee a0 a1) := by
  unfold State.putNominee
  try dsimp only
  repeat' with_reducible first
    | assumption | apply canon_ite | dsimp only | split

theorem State.npIssue_canon {q} {a0 : State} (h0 : Canon q a0) :
    Canon q (State.npIssue a0) := by
  unfold State.npIssue
  try dsimp only
  repeat' with_reducible first
    | assumption | intro _ | apply State.emit_canon | apply State.npQueue_canon | apply canon_ite | apply canon_foldl
    | dsimp only | split

theorem State.pushNominee_canon {q a1} {a0 : State} (h0 : Canon q a0) :
    Canon q (State.pushNominee a0 a1) := by
  unfold State.pushNominee
  try dsimp only
  repeat' with_reducible first
    | assumption | intro _ | dsimp only | split

theorem State.nominate_canon {q a1 a2} {a0 : State} (h0 : Canon q a0) :
    Canon q (State.nominate a0 a1 a2) := by
  rw [State.nominate]
  exact State.pushNominee_canon (State.needLog_canon h0)

theorem State.walked_canon {q a1 a2} {a0 : State} (h0 : Canon q a0) :
    Canon q (State.walked a0 a1 a2) := by
  unfold State.walked
  try dsimp only
  repeat' with_reducible first
    | assumption | intro _ | apply State.needPage_canon | refine State.needPage_canon' (by assumption) ?_
    | apply State.putNominee_canon | apply canon_foldl_fst | apply canon_filter | apply canon_ite | apply canon_foldl
    | dsimp only | split

theorem State.walkOn_canon {q a1 a2} {a0 : State} (h0 : Canon q a0) : Canon q (State.walkOn a0 a1 a2) := by
  induction a2 generalizing a0 with
  | zero => exact h0
  | succ n ih =>
    unfold State.walkOn
    split
    · exact ih (State.walked_canon h0)
    · exact h0

theorem State.walkAll_canon {q} {a0 : State} (h0 : Canon q a0) : Canon q (State.walkAll a0) := by
  unfold State.walkAll
  exact canon_foldl (fun _ _ h => State.walkOn_canon h) h0

theorem State.retryWanted_canon {q} {a0 : State} (h0 : Canon q a0) :
    Canon q (State.retryWanted a0) := by
  unfold State.retryWanted
  try dsimp only
  repeat' with_reducible first
    | assumption | intro _ | apply State.needLog_canon | refine State.needLog_canon' (by assumption) ?_
    | apply State.needPage_canon | refine State.needPage_canon' (by assumption) ?_ | apply State.putNominee_canon
    | apply canon_foldl_fst | apply canon_ite | apply canon_foldl | dsimp only | split

theorem State.promoteNow_canon {q a1 a2} {a0 : State} {t} (e : State.promoteNow a0 a1 a2 = some t) (h0 : Canon q a0) : Canon q t := by
  unfold State.promoteNow at e
  dsimp only at e
  have hr : Canon q (a0.reclaim (a0.mem a1).inst 16) := State.reclaim_canon h0
  split at e
  · split at e
    · cases e
    · refine of_map e fun y hy e => ?_
      subst e
      exact State.moveNow_canon (State.countPages_canon (State.setPage_canon (State.giveFrame_canon
        (State.refundSuper_canon (State.chargeBrood_canon (State.takePlaced_canon hy hr))))))
  · cases e; exact hr

theorem State.modPrefix_canon {q a1 a2} {a0 : State} (h0 : Canon q a0) :
    Canon q (State.modPrefix a0 a1 a2) := by
  unfold State.modPrefix
  try dsimp only
  repeat' with_reducible first
    | assumption | dsimp only | split

theorem State.prefixPage_canon {q a1 a2 a3 a4} {a0 : State} (h0 : Canon q a0) :
    Canon q (State.prefixPage a0 a1 a2 a3 a4) := by
  unfold State.prefixPage
  try dsimp only
  repeat' with_reducible first
    | assumption | intro _ | apply State.dlogPut_canon | apply State.modPrefix_canon | dsimp only | split

theorem State.sharePage_canon {q a1 a2 a3} {a0 : State} (h0 : Canon q a0) :
    Canon q (State.sharePage a0 a1 a2 a3) := by
  unfold State.sharePage
  dsimp only
  split
  · exact State.modPrefix_canon h0
  · rename_i s e
    have hs : Canon q s := State.promoteNow_canon e h0
    split
    · exact State.modPrefix_canon hs
    · split
      · refine State.prefixPage_canon (State.setPage_canon ?_)
        exact hs
      · exact State.prefixPage_canon (State.addShared_canon hs)
      · exact State.modPrefix_canon hs

theorem State.retryPrefixes_canon {q} {a0 : State} (h0 : Canon q a0) :
    Canon q (State.retryPrefixes a0) := by
  unfold State.retryPrefixes
  try dsimp only
  repeat' with_reducible first
    | assumption | intro _ | apply State.modPrefix_canon | apply State.sharePage_canon | apply canon_ite
    | apply canon_foldl | dsimp only | split

theorem State.pagerSync_canon {q} {a0 : State} (h0 : Canon q a0) :
    Canon q (State.pagerSync a0) := by
  unfold State.pagerSync
  try dsimp only
  repeat' with_reducible first
    | assumption | apply State.syncPressure_canon | apply State.npIssue_canon | apply State.retryWanted_canon
    | apply State.retryMirrors_canon | apply State.walkAll_canon | apply State.retryPrefixes_canon | apply canon_ite
    | dsimp only | split

theorem State.moveEnded_canon {q a1 a2} {a0 : State} (h0 : Canon q a0) :
    Canon q (State.moveEnded a0 a1 a2) := by
  unfold State.moveEnded
  try dsimp only
  repeat' with_reducible first
    | assumption | apply State.needPage_canon | refine State.needPage_canon' (by assumption) ?_
    | apply State.putNominee_canon | intro _ | dsimp only | split

theorem State.queueStep_canon {q a1 a2} {a0 : State} (h0 : Canon q a0) :
    Canon q (State.queueStep a0 a1 a2) := by
  unfold State.queueStep
  try dsimp only
  repeat' with_reducible first
    | assumption | apply State.modCtx_canon | intro _ | apply canon_ite | dsimp only | split

theorem State.issueStep_canon {q a1 a2 a3} {a0 : State} (h0 : Canon q a0) :
    Canon q (State.issueStep a0 a1 a2 a3) := by
  unfold State.issueStep
  try dsimp only
  repeat' with_reducible first
    | assumption | apply State.emit_canon | apply State.queueStep_canon | apply canon_getD
    | apply State.tagWrite_canon | intro _ | dsimp only | split

theorem State.takeSeq_canon {q} {a0 : State} (h0 : Canon q a0) : Canon q ((State.takeSeq a0).2) := by
  unfold State.takeSeq
  try dsimp only
  repeat' with_reducible first
    | assumption | dsimp only

theorem State.takeSeq_canon' {q} {a0 : State} {y0 t} (e : State.takeSeq a0 = (y0, t)) (h0 : Canon q a0) : Canon q t := by
  have z := State.takeSeq_canon (q := q) (a0 := a0) h0
  rw [e] at z; exact z

theorem State.setReport_canon {q a1 a2 a3} {a0 : State} (h0 : Canon q a0) :
    Canon q (State.setReport a0 a1 a2 a3) := by
  unfold State.setReport
  try dsimp only
  repeat' with_reducible first
    | assumption | intro _ | apply State.modServe_canon | apply State.report_canon | apply canon_ite | dsimp only
    | split

theorem State.reportLate_canon {q a1 a2} {a0 : State} (h0 : Canon q a0) :
    Canon q (State.reportLate a0 a1 a2) := by
  unfold State.reportLate
  try dsimp only
  repeat' with_reducible first
    | assumption | apply State.satReg_canon | apply State.pagFault_canon | apply State.setReport_canon
    | apply canon_ite | dsimp only | split

theorem State.countDefer_canon {q a1 a2} {a0 : State} (h0 : Canon q a0) :
    Canon q (State.countDefer a0 a1 a2) := by
  unfold State.countDefer
  try dsimp only
  repeat' with_reducible first
    | assumption | apply State.setReg_canon | apply State.raise_canon | apply State.pagFault_canon
    | apply State.satReg_canon | apply State.report_canon | apply canon_ite | dsimp only | split

theorem State.activate_canon {q a1 a2} {a0 : State} (h0 : Canon q a0) :
    Canon q (State.activate a0 a1 a2) := by
  unfold State.activate
  try dsimp only
  repeat' with_reducible first
    | assumption | apply State.modEntry_canon | apply State.leaveLists_canon | intro _ | dsimp only | split

theorem State.readRows_canon {q a1 a2} {a0 : State} (h0 : Canon q a0) :
    Canon q (State.readRows a0 a1 a2) := by
  unfold State.readRows
  try dsimp only
  repeat' with_reducible first
    | assumption | intro _ | apply State.readWords_canon | apply canon_foldl | dsimp only | split

theorem State.nominateMember_canon {q a1 a2} {a0 : State} (h0 : Canon q a0) :
    Canon q (State.nominateMember a0 a1 a2) := by
  unfold State.nominateMember
  try dsimp only
  repeat' with_reducible first
    | assumption | apply State.loseRound_canon | apply State.activate_canon | apply canon_ite | dsimp only | split

theorem State.commitStep_canon {q a1} {a0 : State} (h0 : Canon q a0) :
    Canon q (State.commitStep a0 a1) := by
  unfold State.commitStep
  try dsimp only
  repeat' with_reducible first
    | assumption | intro _ | apply State.countDefer_canon | apply State.cancelMoves_canon | apply State.modServe_canon
    | apply State.takeSeq_canon | refine State.takeSeq_canon' (by assumption) ?_ | apply State.raise_canon
    | apply State.schInfo_canon | apply State.modPart_canon | apply State.activate_canon | apply State.issueStep_canon
    | apply canon_filter | apply State.readRows_canon | apply State.nominateMember_canon | apply canon_ite
    | apply canon_foldl | dsimp only | split

theorem State.formGroup_canon {q a1 a2} {a0 : State} (h0 : Canon q a0) :
    Canon q (State.formGroup a0 a1 a2) := by
  unfold State.formGroup
  try dsimp only
  repeat' with_reducible first
    | assumption | apply State.modServe_canon | apply canon_filter | intro _ | apply canon_ite | apply canon_foldl
    | dsimp only | split

theorem State.composeDraft_canon {q a1} {a0 : State} (h0 : Canon q a0) :
    Canon q (State.composeDraft a0 a1) := by
  unfold State.composeDraft
  try dsimp only
  repeat' with_reducible first
    | assumption | apply State.takeSeq_canon | refine State.takeSeq_canon' (by assumption) ?_
    | apply State.modServe_canon | apply State.issueStep_canon | apply canon_filter | apply State.loseRound_canon
    | apply State.activate_canon | apply State.readRows_canon | intro _ | apply canon_ite | apply canon_foldl
    | dsimp only | split

theorem State.makePrefix_canon {q a1 a2 a3} {a0 : State} (h0 : Canon q a0) :
    Canon q (State.makePrefix a0 a1 a2 a3) := by
  unfold State.makePrefix
  try dsimp only
  repeat' with_reducible first
    | assumption | intro _ | apply State.sharePage_canon | apply State.dlogAdd_canon
    | refine State.takePair_canon (by assumption) ?_ | apply State.chargeSuper_canon | apply canon_filter
    | apply State.writePrefixLog_canon | apply State.modPrefix_canon | apply canon_foldl | dsimp only | split

theorem State.defer_canon {q a1 a2} {a0 : State} (h0 : Canon q a0) :
    Canon q (State.defer a0 a1 a2) := by
  unfold State.defer
  try dsimp only
  repeat' with_reducible first
    | assumption | apply canon_put | intro _ | dsimp only | split

theorem State.applyPend_canon {q a1} {a0 : State} (h0 : Canon q a0) :
    Canon q (State.applyPend a0 a1) := by
  unfold State.applyPend
  try dsimp only
  repeat' with_reducible first
    | assumption | intro _ | apply State.applySet_canon | apply State.makePrefix_canon | apply canon_foldl
    | dsimp only | split

theorem State.memberFailed_canon {q a1} {a0 : State} (h0 : Canon q a0) :
    Canon q (State.memberFailed a0 a1) := by
  unfold State.memberFailed
  try dsimp only
  repeat' with_reducible first
    | assumption | apply State.applyPend_canon | apply State.loseRound_canon | apply State.retireLost_canon
    | apply State.retire_canon | apply State.park_canon | apply State.modEntry_canon | apply State.enterReady_canon
    | intro _ | apply canon_ite | dsimp only | split

theorem State.discardForecast_canon {q a1} {a0 : State} (h0 : Canon q a0) :
    Canon q (State.discardForecast a0 a1) := by
  unfold State.discardForecast
  try dsimp only
  repeat' with_reducible first
    | assumption | apply State.cancelMoves_canon | apply State.modServe_canon | intro _ | dsimp only | split

theorem State.modRegion_canon {q a1 a2} {a0 : State} (h0 : Canon q a0) :
    Canon q (State.modRegion a0 a1 a2) := by
  unfold State.modRegion
  try dsimp only
  repeat' with_reducible first
    | assumption | intro _ | dsimp only | split

theorem State.writeRegion_canon {q a1 a2 a3} {a0 : State} (h0 : Canon q a0) :
    Canon q (State.writeRegion a0 a1 a2 a3) := by
  unfold State.writeRegion
  try dsimp only
  repeat' with_reducible first
    | assumption | apply State.emit_canon | apply canon_ite | dsimp only | split

theorem State.repairPage_canon {q a1 a2} {a0 : State} (h0 : Canon q a0) :
    Canon q (State.repairPage a0 a1 a2) := by
  unfold State.repairPage
  try dsimp only
  repeat' with_reducible first
    | assumption | apply State.emits_canon | dsimp only | split

theorem State.regionLost_canon {q a1 a2} {a0 : State} (h0 : Canon q a0) :
    Canon q (State.regionLost a0 a1 a2) := by
  unfold State.regionLost
  try dsimp only
  repeat' with_reducible first
    | assumption | intro _ | apply State.modRegion_canon | apply State.pagFault_canon | apply State.errToInst_canon
    | apply canon_foldl | dsimp only | split

theorem State.endUndispatched_canon {q a1 a2} {a0 : State} (h0 : Canon q a0) :
    Canon q (State.endUndispatched a0 a1 a2) := by
  unfold State.endUndispatched
  try dsimp only
  repeat' with_reducible first
    | assumption | intro _ | apply State.modCtx_canon | apply State.loseRound_canon | apply State.memberFailed_canon
    | apply State.modServe_canon | apply canon_ite | apply canon_foldl | dsimp only | split

theorem State.poisonStep_canon {q a1} {a0 : State} (h0 : Canon q a0) :
    Canon q (State.poisonStep a0 a1) := by
  unfold State.poisonStep
  try dsimp only
  repeat' with_reducible first
    | assumption | apply State.stopStep_canon | apply State.modStep_canon | intro _ | apply canon_ite | dsimp only
    | split

theorem State.poisonPage_canon {q a1 a2 a3} {a0 : State} (h0 : Canon q a0) :
    Canon q (State.poisonPage a0 a1 a2 a3) := by
  unfold State.poisonPage
  try dsimp only
  repeat' with_reducible first
    | assumption | apply State.report_canon | apply State.setPage_canon | apply State.poisonStep_canon
    | apply State.pagFault_canon | intro _ | apply canon_ite | dsimp only | split

theorem State.loseBoth_canon {q a1 a2} {a0 : State} (h0 : Canon q a0) :
    Canon q (State.loseBoth a0 a1 a2) := by
  unfold State.loseBoth
  try dsimp only
  repeat' with_reducible first
    | assumption | apply State.defer_canon | apply State.retireLost_canon | apply State.reportLate_canon | intro _
    | apply canon_ite | apply canon_foldl | dsimp only | split

theorem State.losePrefix_canon {q a1 a2 a3} {a0 : State} (h0 : Canon q a0) :
    Canon q (State.losePrefix a0 a1 a2 a3) := by
  unfold State.losePrefix
  try dsimp only
  repeat' with_reducible first
    | assumption | apply State.pagFault_canon | apply State.freePrefix_canon | apply canon_ite | dsimp only | split

theorem State.repairLog_canon {q a1 a2 a3} {a0 : State} (h0 : Canon q a0) :
    Canon q (State.repairLog a0 a1 a2 a3) := by
  unfold State.repairLog
  try dsimp only
  repeat' with_reducible first
    | assumption | refine State.takeBeside_canon (by assumption) ?_ | apply State.modMem_canon
    | apply State.withhold_canon | apply State.report_canon | apply State.pagFault_canon | apply State.owe_canon
    | apply State.loseBoth_canon | intro _ | apply canon_ite | dsimp only | split

theorem State.repairPrefixLog_canon {q a1 a2 a3} {a0 : State} (h0 : Canon q a0) :
    Canon q (State.repairPrefixLog a0 a1 a2 a3) := by
  unfold State.repairPrefixLog
  try dsimp only
  repeat' with_reducible first
    | assumption | apply State.withhold_canon | apply State.pagFault_canon | apply State.report_canon
    | apply State.owe_canon | apply State.losePrefix_canon | apply canon_ite | dsimp only | split

theorem State.repairList_canon {q a1 a2 a3} {a0 : State} (h0 : Canon q a0) :
    Canon q (State.repairList a0 a1 a2 a3) := by
  unfold State.repairList
  try dsimp only
  repeat' with_reducible first
    | assumption | refine State.repairBlock_canon (by assumption) ?_ | apply State.modEntry_canon
    | apply State.modMem_canon | apply State.dlogAdd_canon | apply State.uncarve_canon | apply State.pagFault_canon
    | apply State.report_canon | apply State.closeCarved_canon | apply State.setBlock_canon | apply State.owe_canon
    | apply State.loseBoth_canon | apply State.keepBlock_canon | apply canon_ite | dsimp only | split

theorem State.sweepKey_canon {q a1 a2} {a0 : State} (h0 : Canon q a0) :
    Canon q (State.sweepKey a0 a1 a2) := by
  unfold State.sweepKey
  try dsimp only
  repeat' with_reducible first
    | assumption | intro _ | apply State.prefixSweep_canon | apply State.dropShared_canon
    | apply State.refundSuper_canon | apply State.refundBrood_canon | apply State.withhold_canon
    | apply State.giveFrame_canon | apply State.freeBlock_canon | apply State.dropLog_canon
    | apply State.releaseFrame_canon | apply State.setMem_canon | apply canon_ite | apply canon_foldl | dsimp only
    | split

theorem State.syncConds_canon {q a1} {a0 : State} (h0 : Canon q a0) :
    Canon q (State.syncConds a0 a1) := by
  unfold State.syncConds
  try dsimp only
  repeat' with_reducible first
    | assumption | intro _ | apply State.modCtx_canon | apply canon_ite | apply canon_foldl | dsimp only | split

theorem State.carriedOn_canon {q a1} {a0 : State} (h0 : Canon q a0) :
    Canon q (State.carriedOn a0 a1) := by
  unfold State.carriedOn
  try dsimp only
  repeat' with_reducible first
    | assumption | intro _ | apply State.modStep_canon | apply State.slotLate_canon | dsimp only | split

theorem State.beginSlice_canon {q a1 a2} {a0 : State} (h0 : Canon q a0) :
    Canon q (State.beginSlice a0 a1 a2) := by
  unfold State.beginSlice
  try dsimp only
  repeat' with_reducible first
    | assumption | intro _ | apply State.modCtx_canon | apply State.modAgentStep_canon | apply State.modPart_canon
    | apply canon_filter | apply State.carriedOn_canon | apply canon_foldl | dsimp only | split

theorem State.endSlice_canon {q a1} {a0 : State} (h0 : Canon q a0) :
    Canon q (State.endSlice a0 a1) := by
  unfold State.endSlice
  try dsimp only
  repeat' with_reducible first
    | assumption | intro _ | apply State.modPart_canon | dsimp only | split

theorem State.chooseIssue_canon {q a1} {a0 : State} (h0 : Canon q a0) :
    Canon q (State.chooseIssue a0 a1) := by
  unfold State.chooseIssue
  try dsimp only
  repeat' with_reducible first
    | assumption | apply State.syncConds_canon | apply State.beginSlice_canon | apply State.endSlice_canon
    | dsimp only | split

theorem State.preempt_canon {q a1 a2 a3} {a0 : State} (h0 : Canon q a0) :
    Canon q (State.preempt a0 a1 a2 a3) := by
  unfold State.preempt
  try dsimp only
  repeat' with_reducible first
    | assumption | intro _ | apply State.modPart_canon | apply State.emit_canon | apply canon_foldl | dsimp only
    | split

theorem State.setTable_canon {q a1 a2} {a0 : State} (h0 : Canon q a0) :
    Canon q (State.setTable a0 a1 a2) := by
  unfold State.setTable
  try dsimp only
  repeat' with_reducible first
    | assumption | apply canon_put | intro _ | dsimp only | split

theorem State.modTable_canon {q a1 a2} {a0 : State} (h0 : Canon q a0) :
    Canon q (State.modTable a0 a1 a2) := by
  unfold State.modTable
  try dsimp only
  repeat' with_reducible first
    | assumption | intro _ | apply State.setTable_canon | dsimp only | split

theorem State.modRun_canon {q a1 a2 a3} {a0 : State} (h0 : Canon q a0) :
    Canon q (State.modRun a0 a1 a2 a3) := by
  unfold State.modRun
  try dsimp only
  repeat' with_reducible first
    | assumption | intro _ | apply State.modTable_canon | dsimp only | split

theorem State.cycFault_canon {q a1 a2 a3 a4} {a0 : State} (h0 : Canon q a0) :
    Canon q (State.cycFault a0 a1 a2 a3 a4) := by
  unfold State.cycFault
  try dsimp only
  repeat' with_reducible first
    | assumption | apply State.raise_canon | apply State.setReg_canon | dsimp only | split

theorem State.cycSkip_canon {q a1 a2} {a0 : State} (h0 : Canon q a0) :
    Canon q (State.cycSkip a0 a1 a2) := by
  unfold State.cycSkip
  try dsimp only
  repeat' with_reducible first
    | assumption | apply State.cycFault_canon | apply State.modTable_canon | intro _ | dsimp only | split

theorem State.cycProgress_canon {q a1} {a0 : State} (h0 : Canon q a0) :
    Canon q (State.cycProgress a0 a1) := by
  unfold State.cycProgress
  try dsimp only
  repeat' with_reducible first
    | assumption | apply State.opProgress_canon | dsimp only | split

theorem State.dropQueued_canon {q a1 a2} {a0 : State} (h0 : Canon q a0) :
    Canon q (State.dropQueued a0 a1 a2) := by
  unfold State.dropQueued
  try dsimp only
  repeat' with_reducible first
    | assumption | apply State.modCtx_canon | intro _ | dsimp only | split

theorem State.modSlotStep_canon {q a1 a2 a3} {a0 : State} (h0 : Canon q a0) :
    Canon q (State.modSlotStep a0 a1 a2 a3) := by
  unfold State.modSlotStep
  try dsimp only
  repeat' with_reducible first
    | assumption | intro _ | apply State.modCtx_canon | apply canon_ite | dsimp only | split

theorem State.stopSlotSteps_canon {q a1} {a0 : State} (h0 : Canon q a0) :
    Canon q (State.stopSlotSteps a0 a1) := by
  unfold State.stopSlotSteps
  try dsimp only
  repeat' with_reducible first
    | assumption | intro _ | apply State.modCtx_canon | apply State.stopStep_canon | apply canon_ite
    | apply canon_foldl | dsimp only | split

theorem State.tableLoaded_canon {q a1 a2} {a0 : State} (h0 : Canon q a0) :
    Canon q (State.tableLoaded a0 a1 a2) := by
  unfold State.tableLoaded
  try dsimp only
  repeat' with_reducible first
    | assumption | apply State.setTable_canon | apply State.opEnd_canon | apply State.finishWaiting_canon | intro _
    | dsimp only | split

theorem State.tryStop_canon {q a1} {a0 : State} (h0 : Canon q a0) :
    Canon q (State.tryStop a0 a1) := by
  unfold State.tryStop
  try dsimp only
  repeat' with_reducible first
    | assumption | apply State.tableLoaded_canon | apply State.stopSlotSteps_canon | apply State.cycProgress_canon
    | apply State.modTable_canon | intro _ | apply canon_ite | dsimp only | split

theorem State.stopTable_canon {q a1 a2} {a0 : State} (h0 : Canon q a0) :
    Canon q (State.stopTable a0 a1 a2) := by
  unfold State.stopTable
  try dsimp only
  repeat' with_reducible first
    | assumption | apply State.tableLoaded_canon | apply State.stopSlotSteps_canon | apply State.modTable_canon
    | intro _ | apply canon_ite | dsimp only | split

theorem State.slotEnded_canon {q a1 a2 a3 a4} {a0 : State} (h0 : Canon q a0) :
    Canon q (State.slotEnded a0 a1 a2 a3 a4) := by
  unfold State.slotEnded
  try dsimp only
  repeat' with_reducible first
    | assumption | intro _ | apply State.modRun_canon | apply State.cycFault_canon | apply State.modSlotStep_canon
    | apply State.tryStop_canon | apply canon_getD | apply canon_filter | apply canon_ite | apply canon_foldl
    | dsimp only | split

theorem State.setBwr_canon {q a1 a2 a3 a4} {a0 : State} (h0 : Canon q a0) :
    Canon q (State.setBwr a0 a1 a2 a3 a4) := by
  unfold State.setBwr
  try dsimp only
  repeat' with_reducible first
    | assumption | intro _ | apply State.modPart_canon | apply State.busSend_canon | apply canon_ite
    | apply canon_foldl | dsimp only | split

theorem State.shareBw_canon {q a1} {a0 : State} (h0 : Canon q a0) :
    Canon q (State.shareBw a0 a1) := by
  unfold State.shareBw
  try dsimp only
  repeat' with_reducible first
    | assumption | intro _ | apply State.setBwr_canon | apply canon_filter | apply canon_ite | apply canon_foldl
    | dsimp only | split

theorem State.capRelease_canon {q a1} {a0 : State} (h0 : Canon q a0) :
    Canon q (State.capRelease a0 a1) := by
  unfold State.capRelease
  try dsimp only
  repeat' with_reducible first
    | assumption | intro _ | apply State.refundBrood_canon | apply State.giveFrame_canon
    | apply State.sendRequest_canon | apply State.opEnd_canon | apply canon_foldl | dsimp only | split

theorem State.takeRecords_canon {q a1 a2} {a0 : State} {y0 t} (e : State.takeRecords a0 a1 a2 = some (y0, t)) (h0 : Canon q a0) : Canon q t := by
  unfold State.takeRecords at e
  extract_lets dies s at e
  have hs : Canon q s := canon_ite h0 (State.reclaim_canon h0)
  clear_value s dies
  split at e
  · refine of_map e fun y hy e => ?_
    cases e
    refine State.chargeBrood_canon ?_
    refine canon_foldl_opt_snd (fun _ => rfl) ?_ hy hs
    intro s x t ht hs
    refine of_bind ht fun z hz hw => ?_
    cases hz
    refine of_map hw fun w hx e => ?_
    cases e
    exact State.takeMany_canon hx hs
  · cases e

theorem State.makeCtx_canon {q a1 a2 a3 a4 a5} {a0 : State} {y0 t} (e : State.makeCtx a0 a1 a2 a3 a4 a5 = some (y0, t)) (h0 : Canon q a0) : Canon q t := by
  unfold State.makeCtx at e
  split at e
  · refine of_map e fun y hy e => ?_
    cases e
    exact State.setCtx_canon (State.takeRecords_canon hy h0)
  · cases e

theorem State.clearSlot_canon {q a1 a2 a3 a4} {a0 : State} (h0 : Canon q a0) :
    Canon q (State.clearSlot a0 a1 a2 a3 a4) := by
  unfold State.clearSlot
  try dsimp only
  repeat' with_reducible first
    | assumption | intro _ | apply State.modCore_canon | apply State.withdrawCore_canon | apply canon_ite | dsimp only
    | split

theorem State.releaseGranules_canon {q a1} {a0 : State} (h0 : Canon q a0) :
    Canon q (State.releaseGranules a0 a1) := by
  unfold State.releaseGranules
  try dsimp only
  repeat' with_reducible first
    | assumption | intro _ | apply State.modCore_canon | apply canon_filter | apply canon_foldl | dsimp only | split

theorem State.endQueuedRuns_canon {q a1 a2} {a0 : State} (h0 : Canon q a0) :
    Canon q (State.endQueuedRuns a0 a1 a2) := by
  unfold State.endQueuedRuns
  try dsimp only
  repeat' with_reducible first
    | assumption | intro _ | apply State.opEnd_canon | apply canon_foldl | dsimp only | split

theorem State.freeCtx_canon {q a1} {a0 : State} (h0 : Canon q a0) :
    Canon q (State.freeCtx a0 a1) := by
  unfold State.freeCtx
  try dsimp only
  repeat' with_reducible first
    | assumption | intro _ | apply State.endQueuedRuns_canon | apply State.capRelease_canon
    | apply State.clearSlot_canon | apply State.releaseGranules_canon | apply State.modAgent_canon
    | apply State.giveFrame_canon | apply State.refundBrood_canon | apply State.modPart_canon
    | apply State.finishWaiting_canon | apply canon_ite | apply canon_foldl | dsimp only | split

theorem State.dropTables_canon {q a1} {a0 : State} (h0 : Canon q a0) :
    Canon q (State.dropTables a0 a1) := by
  unfold State.dropTables
  try dsimp only
  repeat' with_reducible first
    | assumption | intro _ | apply State.tableLoaded_canon | apply State.cycSkip_canon
    | apply State.stopSlotSteps_canon | apply canon_filter | apply canon_foldl | dsimp only | split

theorem State.fixPartition_canon {q a1} {a0 : State} (h0 : Canon q a0) :
    Canon q (State.fixPartition a0 a1) := by
  unfold State.fixPartition
  try dsimp only
  repeat' with_reducible first
    | assumption | intro _ | apply State.modPart_canon | apply State.raise_canon | apply State.schInfo_canon
    | apply State.dropTables_canon | apply canon_filter | apply canon_ite | apply canon_foldl | dsimp only | split

theorem State.joinRecords_canon {q a1 a2} {a0 : State} (h0 : Canon q a0) :
    Canon q (State.joinRecords a0 a1 a2) := by
  unfold State.joinRecords
  try dsimp only
  repeat' with_reducible first
    | assumption | intro _ | apply State.modCtx_canon | refine State.takeMany_canon (by assumption) ?_
    | apply State.chargeBrood_canon | apply canon_ite | apply canon_foldl | dsimp only | split

theorem State.qcReturn_canon {q a1 a2} {a0 : State} (h0 : Canon q a0) :
    Canon q (State.qcReturn a0 a1 a2) := by
  unfold State.qcReturn
  try dsimp only
  repeat' with_reducible first
    | assumption | apply State.modPart_canon | intro _ | apply State.joinRecords_canon | apply canon_ite | dsimp only
    | split

end Sys2Proof.Machine
end

