-- ==== Sys2Proof/Laws/CanonSteps.lean ====
section
/-!
SUPPORT. Laws/Canon.lean's property for steps, fences, resets, the guard, settling.
-/

namespace Sys2Proof.Machine

theorem State.tryUnbind_canon {q a1 a2} {a0 : State} (h0 : Canon q a0) :
    Canon q (State.tryUnbind a0 a1 a2) := by
  unfold State.tryUnbind
  try dsimp only
  repeat' with_reducible first
    | assumption | apply State.freeCtx_canon | apply State.setServe_canon | apply State.endDrafting_canon
    | apply canon_ite | dsimp only | split

theorem State.concludeStep_canon {q a1 a2} {a0 : State} (h0 : Canon q a0) :
    Canon q (State.concludeStep a0 a1 a2) := by
  unfold State.concludeStep
  try dsimp only
  repeat' with_reducible first
    | assumption | apply State.setServe_canon | apply State.modServe_canon | apply State.wakeForecast_canon
    | apply State.tryUnbind_canon | apply State.formGroup_canon | apply State.idleForecast_canon | apply canon_filter
    | intro _ | apply canon_ite | dsimp only | split

theorem State.memberEnded_canon {q a1 a2 a3} {a0 : State} (h0 : Canon q a0) :
    Canon q (State.memberEnded a0 a1 a2 a3) := by
  unfold State.memberEnded
  try dsimp only
  repeat' with_reducible first
    | assumption | apply State.modServe_canon | apply State.concludeStep_canon | apply State.pagerSync_canon | intro _
    | apply canon_ite | dsimp only | split

theorem State.wroteBlocks_canon {q a1 a2 a3} {a0 : State} (h0 : Canon q a0) :
    Canon q (State.wroteBlocks a0 a1 a2 a3) := by
  unfold State.wroteBlocks
  try dsimp only
  repeat' with_reducible first
    | assumption | intro _ | apply State.modMem_canon | apply State.dlogAdd_canon | apply canon_put
    | apply State.writeEntry_canon | apply canon_ite | apply canon_foldl | dsimp only | split

theorem State.readEnd_canon {q a1} {a0 : State} (h0 : Canon q a0) :
    Canon q (State.readEnd a0 a1) := by
  unfold State.readEnd
  try dsimp only
  repeat' with_reducible first
    | assumption | apply State.readRows_canon | dsimp only | split

theorem State.failMember_canon {q a1 a2 a3 a4} {a0 : State} (h0 : Canon q a0) :
    Canon q (State.failMember a0 a1 a2 a3 a4) := by
  unfold State.failMember
  try dsimp only
  repeat' with_reducible first
    | assumption | apply State.loseRound_canon | apply State.memberFailed_canon | apply State.wroteBlocks_canon
    | apply State.memberEnded_canon | apply State.readEnd_canon | apply canon_ite | dsimp only | split

theorem State.leave_canon {q a1 a2} {a0 : State} (h0 : Canon q a0) :
    Canon q (State.leave a0 a1 a2) := by
  unfold State.leave
  try dsimp only
  repeat' with_reducible first
    | assumption | apply State.retireLost_canon | apply State.applyPend_canon | apply State.retire_canon
    | apply State.park_canon | apply State.enterReady_canon | dsimp only | split

theorem State.draftEnd_canon {q a1 a2 a3 a4} {a0 : State} (h0 : Canon q a0) :
    Canon q (State.draftEnd a0 a1 a2 a3 a4) := by
  unfold State.draftEnd
  try dsimp only
  repeat' with_reducible first
    | assumption | apply State.memberEnded_canon | apply State.readEnd_canon | apply State.leave_canon
    | apply State.modEntry_canon | intro _ | apply canon_ite | dsimp only | split

theorem State.quietEnd_canon {q a1 a2 a3 a4} {a0 : State} (h0 : Canon q a0) :
    Canon q (State.quietEnd a0 a1 a2 a3 a4) := by
  unfold State.quietEnd
  try dsimp only
  repeat' with_reducible first
    | assumption | apply State.memberEnded_canon | apply State.modEntry_canon | apply State.leave_canon
    | apply State.wroteBlocks_canon | apply State.readEnd_canon | intro _ | apply canon_ite | dsimp only | split

theorem State.readSampleRows_canon {q a1 a2 a3 a4} {a0 : State} (h0 : Canon q a0) :
    Canon q (State.readSampleRows a0 a1 a2 a3 a4) := by
  unfold State.readSampleRows
  try dsimp only
  repeat' with_reducible first
    | assumption | intro _ | apply State.tagRead_canon | apply canon_foldl | dsimp only | split

theorem State.samplerStart_canon {q a1 a2 a3} {a0 : State} (h0 : Canon q a0) :
    Canon q (State.samplerStart a0 a1 a2 a3) := by
  unfold State.samplerStart
  try dsimp only
  repeat' with_reducible first
    | assumption | apply State.modServe_canon | apply canon_filter | apply State.readSampleRows_canon | intro _
    | apply canon_ite | dsimp only | split

theorem State.serveEnd_canon {q a1 a2 a3 a4} {a0 : State} (h0 : Canon q a0) :
    Canon q (State.serveEnd a0 a1 a2 a3 a4) := by
  unfold State.serveEnd
  try dsimp only
  repeat' with_reducible first
    | assumption | intro _ | apply State.samplerStart_canon | apply State.modServe_canon
    | apply State.failMember_canon | apply canon_ite | apply canon_foldl | dsimp only | split

theorem State.setStage_canon {q a1 a2} {a0 : State} (h0 : Canon q a0) :
    Canon q (State.setStage a0 a1 a2) := by
  unfold State.setStage
  try dsimp only
  repeat' with_reducible first
    | assumption | intro _ | dsimp only | split

theorem State.smpFault_canon {q a1 a2 a3} {a0 : State} (h0 : Canon q a0) :
    Canon q (State.smpFault a0 a1 a2 a3) := by
  unfold State.smpFault
  try dsimp only
  repeat' with_reducible first
    | assumption | apply State.setReg_canon | apply State.raise_canon | dsimp only | split

theorem State.writeRecord_canon {q a1 a2 a3 a4 a5} {a0 : State} (h0 : Canon q a0) :
    Canon q (State.writeRecord a0 a1 a2 a3 a4 a5) := by
  unfold State.writeRecord
  try dsimp only
  repeat' with_reducible first
    | assumption | apply State.smpFault_canon | apply State.satReg_canon | apply State.emits_canon | apply canon_ite
    | dsimp only | split

theorem State.writeRecords_canon {q a1 a2 a3 a4} {a0 : State} (h0 : Canon q a0) :
    Canon q (State.writeRecords a0 a1 a2 a3 a4) := by
  unfold State.writeRecords
  try dsimp only
  repeat' with_reducible first
    | assumption | intro _ | apply State.writeRecord_canon | apply State.raise_canon | apply State.schInfo_canon
    | apply State.modPart_canon | apply canon_getD | apply State.park_canon | apply State.retire_canon
    | apply canon_ite | apply canon_foldl | dsimp only | split

theorem State.sampleEnd_canon {q a1 a2 a3} {a0 : State} (h0 : Canon q a0) :
    Canon q (State.sampleEnd a0 a1 a2 a3) := by
  unfold State.sampleEnd
  try dsimp only
  repeat' with_reducible first
    | assumption | apply State.writeRecords_canon | apply State.modEntry_canon | apply State.wroteBlocks_canon
    | apply State.loseRound_canon | apply State.memberEnded_canon | apply State.leave_canon
    | apply State.readEnd_canon | intro _ | apply canon_ite | dsimp only | split

theorem State.readMask_canon {q a1 a2} {a0 : State} (h0 : Canon q a0) :
    Canon q (State.readMask a0 a1 a2) := by
  unfold State.readMask
  try dsimp only
  repeat' with_reducible first
    | assumption | intro _ | apply State.npQueue_canon | apply canon_ite | apply canon_foldl | dsimp only | split

theorem State.roundFault_canon {q a1 a2} {a0 : State} (h0 : Canon q a0) :
    Canon q (State.roundFault a0 a1 a2) := by
  unfold State.roundFault
  try dsimp only
  repeat' with_reducible first
    | assumption | apply State.loseRound_canon | apply State.smpFault_canon | apply canon_ite | dsimp only | split

theorem State.draftRow_canon {q a1 a2 a3 a4} {a0 : State} (h0 : Canon q a0) :
    Canon q (State.draftRow a0 a1 a2 a3 a4) := by
  unfold State.draftRow
  try dsimp only
  repeat' with_reducible first
    | assumption | apply State.writeTokens_canon | apply State.modServe_canon | apply State.memberEnded_canon
    | apply State.tagWrite_canon | apply State.draftEnd_canon | apply State.roundFault_canon | intro _
    | apply canon_ite | dsimp only | split

theorem State.countRow_canon {q a1 a2 a3} {a0 : State} (h0 : Canon q a0) :
    Canon q (State.countRow a0 a1 a2 a3) := by
  unfold State.countRow
  try dsimp only
  repeat' with_reducible first
    | assumption | apply State.incReg_canon | apply State.smpFault_canon | apply State.satReg_canon | apply canon_ite
    | dsimp only | split

theorem State.sampleRow_canon {q a1 a2 a3 a4} {a0 : State} (h0 : Canon q a0) :
    Canon q (State.sampleRow a0 a1 a2 a3 a4) := by
  unfold State.sampleRow
  try dsimp only
  repeat' with_reducible first
    | assumption | apply State.memberEnded_canon | apply State.draftRow_canon | apply State.countRow_canon
    | apply State.incReg_canon | apply State.writeTokens_canon | apply State.sampleEnd_canon
    | apply State.readMask_canon | apply State.roundFault_canon | intro _ | apply canon_ite | dsimp only | split

theorem State.rowLost_canon {q a1 a2 a3} {a0 : State} (h0 : Canon q a0) :
    Canon q (State.rowLost a0 a1 a2 a3) := by
  unfold State.rowLost
  try dsimp only
  repeat' with_reducible first
    | assumption | apply State.failMember_canon | apply State.smpFault_canon | dsimp only | split

theorem State.scanRow_canon {q a1 a2} {a0 : State} (h0 : Canon q a0) :
    Canon q (State.scanRow a0 a1 a2) := by
  unfold State.scanRow
  try dsimp only
  repeat' with_reducible first
    | assumption | apply State.emit_canon | apply State.incReg_canon | apply State.setStage_canon
    | apply State.tagRead_canon | apply canon_ite | dsimp only | split

theorem State.holdRow_canon {q a1 a2} {a0 : State} (h0 : Canon q a0) :
    Canon q (State.holdRow a0 a1 a2) := by
  unfold State.holdRow
  try dsimp only
  repeat' with_reducible first
    | assumption | intro _ | apply State.setStage_canon | apply State.smpFault_canon | apply canon_ite | dsimp only
    | split

theorem State.rowDone_canon {q a1 a2 a3} {a0 : State} (h0 : Canon q a0) :
    Canon q (State.rowDone a0 a1 a2 a3) := by
  unfold State.rowDone
  try dsimp only
  repeat' with_reducible first
    | assumption | apply State.smpFault_canon | apply State.setStage_canon | apply State.rowLost_canon
    | apply State.scanRow_canon | apply State.sampleRow_canon | apply State.holdRow_canon | apply canon_ite
    | dsimp only | split

theorem State.scanDone_canon {q a1 a2 a3} {a0 : State} (h0 : Canon q a0) :
    Canon q (State.scanDone a0 a1 a2 a3) := by
  unfold State.scanDone
  try dsimp only
  repeat' with_reducible first
    | assumption | apply State.sampleRow_canon | apply State.rowLost_canon | apply State.holdRow_canon
    | apply canon_ite | dsimp only | split

theorem State.capReplay_canon {q a1 a2} {a0 : State} (h0 : Canon q a0) :
    Canon q (State.capReplay a0 a1 a2) := by
  unfold State.capReplay
  try dsimp only
  repeat' with_reducible first
    | assumption | apply State.modCap_canon | apply State.capFault_canon | apply canon_getD | intro _
    | apply State.urgent_canon | apply canon_ite | dsimp only | split

theorem State.capEnd_canon {q a1 a2 a3} {a0 : State} (h0 : Canon q a0) :
    Canon q (State.capEnd a0 a1 a2 a3) := by
  unfold State.capEnd
  try dsimp only
  repeat' with_reducible first
    | assumption | apply State.drew_canon | apply State.modCap_canon | apply State.capStepEnd_canon
    | apply State.capReplay_canon | intro _ | dsimp only | split

theorem State.dropSets_canon {q a1} {a0 : State} (h0 : Canon q a0) :
    Canon q (State.dropSets a0 a1) := by
  unfold State.dropSets
  try dsimp only
  repeat' with_reducible first
    | assumption | intro _ | apply State.modCore_canon | apply State.modCtx_canon | apply canon_filter
    | apply canon_ite | apply canon_foldl | dsimp only | split

theorem State.stepEnd_canon {q a1} {a0 : State} (h0 : Canon q a0) :
    Canon q (State.stepEnd a0 a1) := by
  unfold State.stepEnd
  try dsimp only
  repeat' with_reducible first
    | assumption | apply State.dropSets_canon | apply State.runProgress_canon | apply State.modCtx_canon
    | apply State.opEnd_canon | apply State.modPart_canon | apply State.capEnd_canon | apply State.slotEnded_canon
    | apply State.serveEnd_canon | apply State.freeCtx_canon | apply State.fixPartition_canon | intro _
    | apply canon_ite | dsimp only | split

theorem State.endUnsent_canon {q a1 a2} {a0 : State} (h0 : Canon q a0) :
    Canon q (State.endUnsent a0 a1 a2) := by
  unfold State.endUnsent
  try dsimp only
  repeat' with_reducible first
    | assumption | apply State.modCtx_canon | apply State.opEnd_canon | apply State.slotEnded_canon
    | apply State.serveEnd_canon | intro _ | apply canon_ite | dsimp only | split

theorem State.agentDone_canon {q a1 a2} {a0 : State} (h0 : Canon q a0) :
    Canon q (State.agentDone a0 a1 a2) := by
  unfold State.agentDone
  try dsimp only
  repeat' with_reducible first
    | assumption | apply State.modStep_canon | apply State.stepEnd_canon | intro _ | apply canon_ite | dsimp only
    | split

theorem State.fenceSend_canon {q a1 a2 a3} {a0 : State} (h0 : Canon q a0) :
    Canon q (State.fenceSend a0 a1 a2 a3) := by
  unfold State.fenceSend
  try dsimp only
  repeat' with_reducible first
    | assumption | apply State.busSend_canon | dsimp only | split

theorem State.fenceSteps_canon {q a1 a2} {a0 : State} (h0 : Canon q a0) :
    Canon q (State.fenceSteps a0 a1 a2) := by
  unfold State.fenceSteps
  try dsimp only
  repeat' with_reducible first
    | assumption | intro _ | apply State.modStep_canon | apply State.stopStep_canon | apply canon_filter
    | apply canon_ite | apply canon_foldl | dsimp only | split

theorem State.emptyCore_canon {q a1} {a0 : State} (h0 : Canon q a0) :
    Canon q (State.emptyCore a0 a1) := by
  unfold State.emptyCore
  try dsimp only
  repeat' with_reducible first
    | assumption | intro _ | apply State.modCore_canon | dsimp only | split

theorem State.recheck_canon {q a1} {a0 : State} (h0 : Canon q a0) :
    Canon q (State.recheck a0 a1) := by
  unfold State.recheck
  try dsimp only
  repeat' with_reducible first
    | assumption | intro _ | apply State.checkLaunch_canon | apply canon_foldl | dsimp only | split

theorem State.dropAgent_canon {q a1} {a0 : State} (h0 : Canon q a0) :
    Canon q (State.dropAgent a0 a1) := by
  unfold State.dropAgent
  try dsimp only
  repeat' with_reducible first
    | assumption | intro _ | apply State.setAgent_canon | apply State.modPart_canon | apply State.agentDone_canon
    | apply State.modStep_canon | apply canon_filter | apply canon_ite | apply canon_foldl | dsimp only | split

theorem State.holdCore_canon {q a1} {a0 : State} (h0 : Canon q a0) :
    Canon q (State.holdCore a0 a1) := by
  unfold State.holdCore
  try dsimp only
  repeat' with_reducible first
    | assumption | apply canon_ite | dsimp only | split

theorem State.fenceEffect_canon {q a1 a2} {a0 : State} (h0 : Canon q a0) :
    Canon q (State.fenceEffect a0 a1 a2) := by
  unfold State.fenceEffect
  try dsimp only
  repeat' with_reducible first
    | assumption | apply State.setReg_canon | apply State.raise_canon | apply State.urgent_canon
    | apply State.heldPoolLost_canon | apply State.pagerSync_canon | apply State.fenceSend_canon
    | apply State.fenceSteps_canon | apply State.emptyCore_canon | apply State.recheck_canon
    | apply State.dropAgent_canon | apply State.holdCore_canon | dsimp only | split

theorem State.fenceAll_canon {q a1} {a0 : State} (h0 : Canon q a0) :
    Canon q (State.fenceAll a0 a1) := by
  unfold State.fenceAll
  try dsimp only
  repeat' with_reducible first
    | assumption | intro _ | apply State.fixPartition_canon | apply State.fenceEffect_canon | apply canon_foldl
    | dsimp only | split

theorem State.fenceAsk_canon {q a1 a2} {a0 : State} (h0 : Canon q a0) :
    Canon q (State.fenceAsk a0 a1 a2) := by
  unfold State.fenceAsk
  try dsimp only
  repeat' with_reducible first
    | assumption | dsimp only | split

theorem State.qcUnfenced_canon {q a1} {a0 : State} (h0 : Canon q a0) :
    Canon q (State.qcUnfenced a0 a1) := by
  unfold State.qcUnfenced
  try dsimp only
  repeat' with_reducible first
    | assumption | apply State.qcReturn_canon | apply canon_ite | dsimp only | split

theorem State.unfenceApply_canon {q a1 a2} {a0 : State} (h0 : Canon q a0) :
    Canon q (State.unfenceApply a0 a1 a2) := by
  unfold State.unfenceApply
  try dsimp only
  repeat' with_reducible first
    | assumption | intro _ | apply State.fenceSend_canon | apply State.modCore_canon | apply State.qcUnfenced_canon
    | apply State.setAgent_canon | apply State.modAgent_canon | apply canon_ite | apply canon_foldl | dsimp only
    | split

theorem State.unfenceSettle_canon {q} {a0 : State} (h0 : Canon q a0) :
    Canon q (State.unfenceSettle a0) := by
  unfold State.unfenceSettle
  try dsimp only
  repeat' with_reducible first
    | assumption | apply State.unfenceApply_canon | apply canon_ite | dsimp only | split

theorem State.fenceSettle_canon {q a1} {a0 : State} (h0 : Canon q a0) :
    Canon q (State.fenceSettle a0 a1) := by
  induction a1 generalizing a0 with
  | zero => exact h0
  | succ n ih =>
    unfold State.fenceSettle
    split
    · exact h0
    · exact ih (State.fenceAll_canon h0)

theorem State.noAck_canon {q a1 a2} {a0 : State} (h0 : Canon q a0) :
    Canon q (State.noAck a0 a1 a2) := by
  unfold State.noAck
  try dsimp only
  repeat' with_reducible first
    | assumption | apply State.setTarget_canon | apply State.setReg_canon | apply State.humStop_canon
    | apply State.raise_canon | apply State.fenceAsk_canon | dsimp only | split

theorem State.busRetry_canon {q a1 a2} {a0 : State} (h0 : Canon q a0) :
    Canon q (State.busRetry a0 a1 a2) := by
  unfold State.busRetry
  try dsimp only
  repeat' with_reducible first
    | assumption | apply State.setReg_canon | apply State.raise_canon | apply State.noAck_canon
    | apply State.busEmit_canon | apply State.setTarget_canon | apply canon_ite | dsimp only | split

theorem State.dropModel_canon {q a1} {a0 : State} (h0 : Canon q a0) :
    Canon q (State.dropModel a0 a1) := by
  unfold State.dropModel
  try dsimp only
  repeat' with_reducible first
    | assumption | intro _ | apply State.endUndispatched_canon | apply canon_ite | apply canon_foldl | dsimp only
    | split

theorem State.dropPartition_canon {q a1} {a0 : State} (h0 : Canon q a0) :
    Canon q (State.dropPartition a0 a1) := by
  unfold State.dropPartition
  try dsimp only
  repeat' with_reducible first
    | assumption | apply canon_filter | intro _ | apply canon_ite | dsimp only | split

theorem State.setInBusy_canon {q a1 a2} {a0 : State} (h0 : Canon q a0) :
    Canon q (State.setInBusy a0 a1 a2) := by
  unfold State.setInBusy
  try dsimp only
  repeat' with_reducible first
    | assumption | apply State.irqLevel_canon | apply State.setInst_canon | dsimp only | split

theorem State.clearMbx_canon {q a1} {a0 : State} (h0 : Canon q a0) :
    Canon q (State.clearMbx a0 a1) := by
  unfold State.clearMbx
  try dsimp only
  repeat' with_reducible first
    | assumption | apply State.setInBusy_canon | apply State.setInst_canon | dsimp only | split

theorem State.mbxShow_canon {q a1 a2} {a0 : State} (h0 : Canon q a0) :
    Canon q (State.mbxShow a0 a1 a2) := by
  unfold State.mbxShow
  try dsimp only
  repeat' with_reducible first
    | assumption | intro _ | apply State.setReg_canon | apply State.setInst_canon | apply State.msix_canon
    | apply canon_ite | apply canon_foldl | dsimp only | split

theorem State.mbxPost_canon {q a1 a2} {a0 : State} (h0 : Canon q a0) :
    Canon q (State.mbxPost a0 a1 a2) := by
  unfold State.mbxPost
  try dsimp only
  repeat' with_reducible first
    | assumption | apply State.setInst_canon | apply State.mbxShow_canon | apply canon_ite | dsimp only | split

theorem State.mbxReply_canon {q a1 a2} {a0 : State} (h0 : Canon q a0) :
    Canon q (State.mbxReply a0 a1 a2) := by
  unfold State.mbxReply
  try dsimp only
  repeat' with_reducible first
    | assumption | apply State.mbxPost_canon | dsimp only | split

theorem State.dropRuns_canon {q a1} {a0 : State} (h0 : Canon q a0) :
    Canon q (State.dropRuns a0 a1) := by
  unfold State.dropRuns
  try dsimp only
  repeat' with_reducible first
    | assumption | intro _ | apply State.modCtx_canon | apply State.opEnd_canon | apply canon_getD
    | apply canon_filter | apply canon_foldl | dsimp only | split

theorem State.squashOp_canon {q a1 a2} {a0 : State} (h0 : Canon q a0) :
    Canon q (State.squashOp a0 a1 a2) := by
  unfold State.squashOp
  try dsimp only
  repeat' with_reducible first
    | assumption | apply State.opEnd_canon | apply State.dropModel_canon | apply State.dropLog_canon | apply canon_ite
    | dsimp only | split

theorem State.haltRings_canon {q a1 a2} {a0 : State} (h0 : Canon q a0) :
    Canon q (State.haltRings a0 a1 a2) := by
  unfold State.haltRings
  try dsimp only
  repeat' with_reducible first
    | assumption | intro _ | apply State.urgent_canon | apply State.squashRing_canon | apply State.drainRing_canon
    | apply canon_ite | apply canon_foldl | dsimp only | split

theorem State.haltWork_canon {q a1 a2} {a0 : State} (h0 : Canon q a0) :
    Canon q (State.haltWork a0 a1 a2) := by
  unfold State.haltWork
  try dsimp only
  repeat' with_reducible first
    | assumption | intro _ | apply State.urgent_canon | apply State.discardForecast_canon
    | apply State.endUndispatched_canon | apply State.stopTable_canon | apply State.dropRuns_canon
    | apply State.squashOp_canon | apply canon_foldl | dsimp only | split

theorem State.advanceReset_canon {q a1} {a0 : State} (h0 : Canon q a0) :
    Canon q (State.advanceReset a0 a1) := by
  unfold State.advanceReset
  try dsimp only
  repeat' with_reducible first
    | assumption | intro _ | apply State.setInst_canon | apply State.stopStep_canon | apply State.urgent_canon
    | apply State.haltWork_canon | apply canon_ite | apply canon_foldl | dsimp only | split

theorem State.beginReset_canon {q a1 a2 a3 a4 a5} {a0 : State} (h0 : Canon q a0) :
    Canon q (State.beginReset a0 a1 a2 a3 a4 a5) := by
  unfold State.beginReset
  try dsimp only
  repeat' with_reducible first
    | assumption | apply State.setInst_canon | apply State.haltRings_canon | apply State.advanceReset_canon
    | dsimp only | split

theorem State.retireAll_canon {q a1} {a0 : State} (h0 : Canon q a0) :
    Canon q (State.retireAll a0 a1) := by
  unfold State.retireAll
  try dsimp only
  repeat' with_reducible first
    | assumption | intro _ | apply State.retire_canon | apply State.release_canon | apply canon_ite
    | apply canon_foldl | dsimp only | split

theorem State.freeObjects_canon {q a1} {a0 : State} (h0 : Canon q a0) :
    Canon q (State.freeObjects a0 a1) := by
  unfold State.freeObjects
  try dsimp only
  repeat' with_reducible first
    | assumption | intro _ | apply State.freeCtx_canon | apply State.dropPartition_canon
    | apply State.freePrefix_canon | apply State.dropModel_canon | apply State.setRing_canon
    | apply State.andNotReg_canon | apply State.setDlog_canon | apply State.setInst_canon
    | apply State.pagerSync_canon | apply canon_filter | apply State.eraseRing_canon | apply canon_ite
    | apply canon_foldl | dsimp only | split

theorem State.newKeyId_canon {q a1} {a0 : State} (h0 : Canon q a0) :
    Canon q (State.newKeyId a0 a1) := by
  unfold State.newKeyId
  try dsimp only
  repeat' with_reducible first
    | assumption | apply State.emits_canon | intro _ | apply canon_ite | dsimp only | split

theorem State.newMemKey_canon {q a1} {a0 : State} (h0 : Canon q a0) :
    Canon q (State.newMemKey a0 a1) := by
  unfold State.newMemKey
  try dsimp only
  repeat' with_reducible first
    | assumption | apply State.newKeyId_canon | dsimp only | split

theorem State.flrComplete_canon {q a1} {a0 : State} (h0 : Canon q a0) :
    Canon q (State.flrComplete a0 a1) := by
  unfold State.flrComplete
  try dsimp only
  repeat' with_reducible first
    | assumption | apply State.emit_canon | apply State.setInst_canon | apply canon_ite | dsimp only | split

theorem State.finishReset_canon {q a1} {a0 : State} (h0 : Canon q a0) :
    Canon q (State.finishReset a0 a1) := by
  unfold State.finishReset
  try dsimp only
  repeat' with_reducible first
    | assumption | apply State.clearMbx_canon | apply State.newMemKey_canon | apply State.freeObjects_canon
    | apply State.retireAll_canon | apply State.urgent_canon | apply State.setInst_canon | apply State.opEnd_canon
    | apply State.opProgress_canon | apply State.flrComplete_canon | apply canon_filter | intro _ | apply canon_ite
    | dsimp only | split

theorem State.resetsSettle_canon {q} {a0 : State} (h0 : Canon q a0) :
    Canon q (State.resetsSettle a0) := by
  unfold State.resetsSettle
  try dsimp only
  repeat' with_reducible first
    | assumption | intro _ | apply State.finishReset_canon | apply State.mbxReply_canon | apply canon_filter
    | apply State.advanceReset_canon | apply canon_ite | apply canon_foldl | dsimp only | split

theorem State.grdInfo_canon {q a1 a2 a3} {a0 : State} (h0 : Canon q a0) :
    Canon q (State.grdInfo a0 a1 a2 a3) := by
  unfold State.grdInfo
  try dsimp only
  repeat' with_reducible first
    | assumption | apply State.setReg_canon | dsimp only | split

theorem State.fwInfo_canon {q a1 a2} {a0 : State} (h0 : Canon q a0) :
    Canon q (State.fwInfo a0 a1 a2) := by
  unfold State.fwInfo
  try dsimp only
  repeat' with_reducible first
    | assumption | apply State.setReg_canon | dsimp only | split

theorem State.zeroStart_canon {q a1 a2} {a0 : State} (h0 : Canon q a0) :
    Canon q (State.zeroStart a0 a1 a2) := by
  unfold State.zeroStart
  try dsimp only
  repeat' with_reducible first
    | assumption | intro _ | apply State.emit_canon | apply canon_ite | apply canon_foldl | dsimp only | split

theorem State.stageAnswer_canon {q a1 a2} {a0 : State} (h0 : Canon q a0) :
    Canon q (State.stageAnswer a0 a1 a2) := by
  unfold State.stageAnswer
  try dsimp only
  repeat' with_reducible first
    | assumption | apply State.mbxReply_canon | dsimp only | split

theorem State.stageReject_canon {q a1 a2} {a0 : State} (h0 : Canon q a0) :
    Canon q (State.stageReject a0 a1 a2) := by
  unfold State.stageReject
  try dsimp only
  repeat' with_reducible first
    | assumption | apply State.mbxReply_canon | apply State.raise_canon | apply State.fwInfo_canon | dsimp only
    | split

theorem State.guardAbort_canon {q} {a0 : State} (h0 : Canon q a0) :
    Canon q (State.guardAbort a0) := by
  unfold State.guardAbort
  try dsimp only
  repeat' with_reducible first
    | assumption | apply State.stageReject_canon | apply State.mbxReply_canon | dsimp only | split

theorem State.markSealed_canon {q} {a0 : State} (h0 : Canon q a0) :
    Canon q (State.markSealed a0) := by
  unfold State.markSealed
  try dsimp only
  repeat' with_reducible first
    | assumption | apply State.guardAbort_canon | dsimp only | split

theorem State.sealGuard_canon {q} {a0 : State} (h0 : Canon q a0) :
    Canon q (State.sealGuard a0) := by
  unfold State.sealGuard
  try dsimp only
  repeat' with_reducible first
    | assumption | apply State.zeroStart_canon | apply State.raise_canon | apply State.fwInfo_canon
    | apply State.markSealed_canon | apply canon_ite | dsimp only | split

theorem State.zeroFull_canon {q a1 a2} {a0 : State} (h0 : Canon q a0) :
    Canon q (State.zeroFull a0 a1 a2) := by
  unfold State.zeroFull
  try dsimp only
  repeat' with_reducible first
    | assumption | apply State.zeroStart_canon | apply State.raise_canon | apply State.fwInfo_canon
    | apply State.markSealed_canon | apply canon_ite | dsimp only | split

theorem State.burnGo_canon {q a1} {a0 : State} (h0 : Canon q a0) :
    Canon q (State.burnGo a0 a1) := by
  unfold State.burnGo
  try dsimp only
  repeat' with_reducible first
    | assumption | apply State.emit_canon | dsimp only | split

theorem State.burnStart_canon {q a1} {a0 : State} (h0 : Canon q a0) :
    Canon q (State.burnStart a0 a1) := by
  unfold State.burnStart
  try dsimp only
  repeat' with_reducible first
    | assumption | apply State.emit_canon | apply State.burnGo_canon | apply canon_ite | dsimp only | split

theorem State.burnNext_canon {q} {a0 : State} (h0 : Canon q a0) :
    Canon q (State.burnNext a0) := by
  unfold State.burnNext
  try dsimp only
  repeat' with_reducible first
    | assumption | apply State.burnGo_canon | dsimp only | split

theorem State.deriveLinks_canon {q} {a0 : State} (h0 : Canon q a0) :
    Canon q (State.deriveLinks a0) := by
  unfold State.deriveLinks
  try dsimp only
  repeat' with_reducible first
    | assumption | intro _ | apply State.emit_canon | apply canon_filter | apply canon_foldl | dsimp only | split

theorem State.setStack_canon {q a1 a2} {a0 : State} (h0 : Canon q a0) :
    Canon q (State.setStack a0 a1 a2) := by
  unfold State.setStack
  try dsimp only
  repeat' with_reducible first
    | assumption | apply canon_put | intro _ | dsimp only | split

theorem State.modStack_canon {q a1 a2} {a0 : State} (h0 : Canon q a0) :
    Canon q (State.modStack a0 a1 a2) := by
  unfold State.modStack
  try dsimp only
  repeat' with_reducible first
    | assumption | intro _ | apply State.setStack_canon | dsimp only | split

theorem State.pwrInfo_canon {q a1} {a0 : State} (h0 : Canon q a0) :
    Canon q (State.pwrInfo a0 a1) := by
  unfold State.pwrInfo
  try dsimp only
  repeat' with_reducible first
    | assumption | apply State.setReg_canon | dsimp only | split

theorem State.dieSync_canon {q a1} {a0 : State} (h0 : Canon q a0) :
    Canon q (State.dieSync a0 a1) := by
  unfold State.dieSync
  try dsimp only
  repeat' with_reducible first
    | assumption | intro _ | apply State.sendSlip_canon | apply State.healthEvent_canon | apply canon_ite
    | apply canon_foldl | dsimp only | split

theorem State.thmSync_canon {q a1} {a0 : State} (h0 : Canon q a0) :
    Canon q (State.thmSync a0 a1) := by
  unfold State.thmSync
  try dsimp only
  repeat' with_reducible first
    | assumption | apply State.setStack_canon | apply State.healthEvent_canon | apply State.raise_canon
    | apply State.pwrInfo_canon | apply State.incReg_canon | apply State.dieSync_canon | apply canon_ite | dsimp only
    | split

theorem State.endDefer_canon {q a1} {a0 : State} (h0 : Canon q a0) :
    Canon q (State.endDefer a0 a1) := by
  unfold State.endDefer
  try dsimp only
  repeat' with_reducible first
    | assumption | apply State.thmSync_canon | apply State.modStack_canon | intro _ | apply canon_ite | dsimp only
    | split

theorem State.endDefers_canon {q} {a0 : State} (h0 : Canon q a0) :
    Canon q (State.endDefers a0) := by
  unfold State.endDefers
  try dsimp only
  repeat' with_reducible first
    | assumption | intro _ | apply State.endDefer_canon | apply canon_foldl | dsimp only | split

theorem State.holdFrom_canon {q a1} {a0 : State} (h0 : Canon q a0) :
    Canon q (State.holdFrom a0 a1) := by
  unfold State.holdFrom
  try dsimp only
  repeat' with_reducible first
    | assumption | apply State.modStack_canon | intro _ | apply canon_ite | dsimp only | split

theorem hotRiseEffect_canon {q a0} {a1 : State} (h1 : Canon q a1) :
    Canon q (hotRiseEffect a0 a1) := by
  unfold hotRiseEffect
  try dsimp only
  repeat' with_reducible first
    | assumption | apply State.thmSync_canon | apply State.setStack_canon | apply canon_ite | dsimp only | split

theorem hotFallEffect_canon {q a0} {a1 : State} (h1 : Canon q a1) :
    Canon q (hotFallEffect a0 a1) := by
  unfold hotFallEffect
  try dsimp only
  repeat' with_reducible first
    | assumption | apply State.setStack_canon | apply State.thmSync_canon | apply State.holdFrom_canon
    | apply canon_ite | dsimp only | split

theorem critRiseEffect_canon {q a0} {a1 : State} (h1 : Canon q a1) :
    Canon q (critRiseEffect a0 a1) := by
  unfold critRiseEffect
  try dsimp only
  repeat' with_reducible first
    | assumption | apply State.setStack_canon | apply State.raise_canon | apply State.pwrInfo_canon
    | apply State.modStack_canon | apply State.thmSync_canon | intro _ | apply canon_ite | dsimp only | split

theorem critFallEffect_canon {q a0} {a1 : State} (h1 : Canon q a1) :
    Canon q (critFallEffect a0 a1) := by
  unfold critFallEffect
  try dsimp only
  repeat' with_reducible first
    | assumption | apply State.thmSync_canon | apply State.holdFrom_canon | apply State.setStack_canon
    | apply canon_ite | dsimp only | split

theorem holdReleaseEffect_canon {q a0} {a1 : State} (h1 : Canon q a1) :
    Canon q (holdReleaseEffect a0 a1) := by
  unfold holdReleaseEffect
  try dsimp only
  repeat' with_reducible first
    | assumption | apply State.thmSync_canon | apply State.modStack_canon | intro _ | apply canon_ite | dsimp only
    | split

theorem deferExpireEffect_canon {q a0} {a1 : State} (h1 : Canon q a1) :
    Canon q (deferExpireEffect a0 a1) := by
  unfold deferExpireEffect
  try dsimp only
  repeat' with_reducible first
    | assumption | apply State.endDefer_canon | apply canon_ite | dsimp only | split

theorem State.setProc_canon {q a1 a2} {a0 : State} (h0 : Canon q a0) :
    Canon q (State.setProc a0 a1 a2) := by
  unfold State.setProc
  try dsimp only
  repeat' with_reducible first
    | assumption | dsimp only | split

theorem State.modProc_canon {q a1 a2} {a0 : State} (h0 : Canon q a0) :
    Canon q (State.modProc a0 a1 a2) := by
  unfold State.modProc
  try dsimp only
  repeat' with_reducible first
    | assumption | intro _ | apply State.setProc_canon | dsimp only | split

theorem State.procDown_canon {q a1} {a0 : State} (h0 : Canon q a0) :
    Canon q (State.procDown a0 a1) := by
  unfold State.procDown
  try dsimp only
  repeat' with_reducible first
    | assumption | apply State.modAgent_canon | apply State.endDefers_canon | apply canon_getD | intro _
    | apply canon_ite | dsimp only | split

theorem State.procRestart_canon {q a1 a2 a3} {a0 : State} (h0 : Canon q a0) :
    Canon q (State.procRestart a0 a1 a2 a3) := by
  unfold State.procRestart
  try dsimp only
  repeat' with_reducible first
    | assumption | apply State.procDown_canon | apply State.setProc_canon | dsimp only | split

theorem State.procHalt_canon {q a1} {a0 : State} (h0 : Canon q a0) :
    Canon q (State.procHalt a0 a1) := by
  unfold State.procHalt
  try dsimp only
  repeat' with_reducible first
    | assumption | apply State.sealGuard_canon | apply State.fwInfo_canon | apply State.modProc_canon
    | apply State.raise_canon | intro _ | apply canon_ite | dsimp only | split

theorem State.crash_canon {q a1 a2 a3} {a0 : State} (h0 : Canon q a0) :
    Canon q (State.crash a0 a1 a2 a3) := by
  unfold State.crash
  try dsimp only
  repeat' with_reducible first
    | assumption | apply State.fwInfo_canon | apply State.setProc_canon | apply State.raise_canon
    | apply State.procHalt_canon | apply State.procDown_canon | apply State.procRestart_canon | apply canon_filter
    | intro _ | apply canon_ite | dsimp only | split

theorem State.plannedRestart_canon {q a1 a2} {a0 : State} (h0 : Canon q a0) :
    Canon q (State.plannedRestart a0 a1 a2) := by
  unfold State.plannedRestart
  try dsimp only
  repeat' with_reducible first
    | assumption | apply State.procRestart_canon | apply canon_ite | dsimp only | split

theorem State.holdEnd_canon {q a1} {a0 : State} (h0 : Canon q a0) :
    Canon q (State.holdEnd a0 a1) := by
  unfold State.holdEnd
  try dsimp only
  repeat' with_reducible first
    | assumption | apply State.modAgent_canon | intro _ | dsimp only | split

theorem State.helloAll_canon {q} {a0 : State} (h0 : Canon q a0) :
    Canon q (State.helloAll a0) := by
  unfold State.helloAll
  try dsimp only
  repeat' with_reducible first
    | assumption | intro _ | apply State.mbxPost_canon | apply State.setInst_canon | apply canon_filter
    | apply canon_foldl | dsimp only | split

theorem State.serveNew_canon {q} {a0 : State} (h0 : Canon q a0) :
    Canon q (State.serveNew a0) := by
  unfold State.serveNew
  try dsimp only
  repeat' with_reducible first
    | assumption | apply State.helloAll_canon | apply canon_ite | dsimp only | split

theorem State.procResume_canon {q a1} {a0 : State} (h0 : Canon q a0) :
    Canon q (State.procResume a0 a1) := by
  unfold State.procResume
  try dsimp only
  repeat' with_reducible first
    | assumption | intro _ | apply State.modProc_canon | apply State.holdEnd_canon | apply State.fixPartition_canon
    | apply State.deriveLinks_canon | apply State.serveNew_canon | apply canon_ite | apply canon_foldl | dsimp only
    | split

theorem State.clearOpen_canon {q} {a0 : State} (h0 : Canon q a0) :
    Canon q (State.clearOpen a0) := by
  unfold State.clearOpen
  try dsimp only
  repeat' with_reducible first
    | assumption | dsimp only | split

theorem State.exchange_canon {q} {a0 : State} (h0 : Canon q a0) :
    Canon q (State.exchange a0) := by
  unfold State.exchange
  try dsimp only
  repeat' with_reducible first
    | assumption | apply State.helloAll_canon | apply canon_ite | dsimp only | split

theorem State.loadMicrocode_canon {q} {a0 : State} (h0 : Canon q a0) :
    Canon q (State.loadMicrocode a0) := by
  unfold State.loadMicrocode
  try dsimp only
  repeat' with_reducible first
    | assumption | apply State.raise_canon | apply State.clearOpen_canon | intro _ | apply canon_ite | dsimp only
    | split

theorem State.activationEnd_canon {q} {a0 : State} (h0 : Canon q a0) :
    Canon q (State.activationEnd a0) := by
  unfold State.activationEnd
  try dsimp only
  repeat' with_reducible first
    | assumption | apply State.mbxReply_canon | apply State.burnStart_canon | apply State.activate_canon
    | apply canon_ite | dsimp only | split

theorem State.activateNext_canon {q a1} {a0 : State} (h0 : Canon q a0) :
    Canon q (State.activateNext a0 a1) := by
  induction a1 generalizing a0 with
  | zero => exact h0
  | succ n ih =>
    unfold State.activateNext
    split
    · exact h0
    · extract_lets s
      have hs : Canon q s := canon_ite (State.loadMicrocode_canon h0) h0
      clear_value s
      split
      · exact State.activationEnd_canon hs
      · exact ih (canon_foldl (fun _ _ h => State.plannedRestart_canon h) hs)

theorem State.updateEnd_canon {q a1 a2} {a0 : State} (h0 : Canon q a0) :
    Canon q (State.updateEnd a0 a1 a2) := by
  unfold State.updateEnd
  try dsimp only
  repeat' with_reducible first
    | assumption | intro _ | apply State.mbxReply_canon | apply State.qcReturn_canon | apply canon_foldl | dsimp only
    | split

theorem State.updateSettle_canon {q} {a0 : State} (h0 : Canon q a0) :
    Canon q (State.updateSettle a0) := by
  unfold State.updateSettle
  try dsimp only
  repeat' with_reducible first
    | assumption | apply State.updateEnd_canon | apply State.plannedRestart_canon | apply canon_filter
    | apply canon_ite | dsimp only | split

theorem State.orphanStream_canon {q a1} {a0 : State} (h0 : Canon q a0) :
    Canon q (State.orphanStream a0 a1) := by
  unfold State.orphanStream
  try dsimp only
  repeat' with_reducible first
    | assumption | apply State.park_canon | apply State.modEntry_canon | apply State.dormant_canon | intro _
    | dsimp only | split

theorem State.orphanRemote_canon {q a1 a2} {a0 : State} (h0 : Canon q a0) :
    Canon q (State.orphanRemote a0 a1 a2) := by
  unfold State.orphanRemote
  try dsimp only
  repeat' with_reducible first
    | assumption | apply State.answerRemote_canon | dsimp only | split

theorem State.enterOrphan_canon {q a1} {a0 : State} (h0 : Canon q a0) :
    Canon q (State.enterOrphan a0 a1) := by
  unfold State.enterOrphan
  try dsimp only
  repeat' with_reducible first
    | assumption | intro _ | apply State.dropFetched_canon | apply State.urgent_canon
    | apply State.discardForecast_canon | apply State.orphanStream_canon | apply State.stopTable_canon
    | apply State.orphanRemote_canon | apply State.raise_canon | apply State.fwInfo_canon | apply canon_filter
    | apply State.endDrafting_canon | apply canon_ite | apply canon_foldl | dsimp only | split

theorem State.writeHeld_canon {q a1} {a0 : State} (h0 : Canon q a0) :
    Canon q (State.writeHeld a0 a1) := by
  unfold State.writeHeld
  try dsimp only
  repeat' with_reducible first
    | assumption | intro _ | apply State.writeCompl_canon | apply State.modRing_canon | apply canon_foldl | dsimp only
    | split

theorem State.refetch_canon {q a1} {a0 : State} (h0 : Canon q a0) :
    Canon q (State.refetch a0 a1) := by
  unfold State.refetch
  try dsimp only
  repeat' with_reducible first
    | assumption | apply State.modRing_canon | intro _ | apply canon_ite | dsimp only | split

theorem State.tokenReadAgain_canon {q a1} {a0 : State} (h0 : Canon q a0) :
    Canon q (State.tokenReadAgain a0 a1) := by
  unfold State.tokenReadAgain
  try dsimp only
  repeat' with_reducible first
    | assumption | apply State.emit_canon | apply State.opEnd_canon | apply canon_ite | dsimp only | split

theorem State.orphanSettle_canon {q} {a0 : State} (h0 : Canon q a0) :
    Canon q (State.orphanSettle a0) := by
  unfold State.orphanSettle
  try dsimp only
  repeat' with_reducible first
    | assumption | intro _ | apply canon_ite | dsimp only | split

theorem State.resumeOrphan_canon {q} {a0 : State} (h0 : Canon q a0) :
    Canon q (State.resumeOrphan a0) := by
  unfold State.resumeOrphan
  try dsimp only
  repeat' with_reducible first
    | assumption | intro _ | apply State.refetch_canon | apply State.writeHeld_canon | apply State.blockUpdate_canon
    | apply State.tokenReadAgain_canon | apply State.msix_canon | apply State.wakeForecast_canon | apply canon_filter
    | apply State.emits_canon | apply canon_ite | apply canon_foldl | dsimp only | split

theorem State.resetOrphan_canon {q a1} {a0 : State} (h0 : Canon q a0) :
    Canon q (State.resetOrphan a0 a1) := by
  unfold State.resetOrphan
  try dsimp only
  repeat' with_reducible first
    | assumption | intro _ | apply State.refetch_canon | apply State.modRing_canon | apply State.beginReset_canon
    | apply canon_getD | apply canon_filter | apply canon_ite | apply canon_foldl | dsimp only | split

theorem State.carryOn_canon {q} {a0 : State} (h0 : Canon q a0) :
    Canon q (State.carryOn a0) := by
  unfold State.carryOn
  try dsimp only
  repeat' with_reducible first
    | assumption | apply State.unfenceSettle_canon | apply State.fenceSettle_canon | apply State.resetsSettle_canon
    | apply State.activateNext_canon | apply State.updateSettle_canon | apply State.fetchSettle_canon
    | apply State.orphanSettle_canon | dsimp only | split

theorem State.settle_canon {q} {a0 : State} (h0 : Canon q a0) :
    Canon q (State.settle a0) := by
  unfold State.settle
  try dsimp only
  repeat' with_reducible first
    | assumption | apply State.activateNext_canon | apply State.updateSettle_canon | apply State.resetsSettle_canon
    | apply State.unfenceSettle_canon | apply State.fenceSettle_canon | apply State.sendDrain_canon
    | apply State.carryOn_canon | dsimp only | split

theorem act_canon {q a1} {a0 : State} {t : State} (e : act a0 a1 = .next t) (h0 : Canon q a0) (h1 : ∀ u, Canon q u → Canon q (a1 u)) : Canon q t := by
  unfold act at e
  cases e
  split
  · exact State.settle_canon (h1 _ h0)
  · exact h0

theorem actRef_canon {q a1} {a0 : State} {t : State} (e : actRef a0 a1 = .next t) (h0 : Canon q a0) (h1 : ∀ u, Canon q u → Canon q (a1 u)) : Canon q t := by
  unfold actRef at e
  cases e
  split
  · exact h0
  · exact State.settle_canon (h1 _ h0)

theorem State.wakeSettle_canon {q} {a0 : State} (h0 : Canon q a0) :
    Canon q (State.wakeSettle a0) := by
  unfold State.wakeSettle
  try dsimp only
  repeat' with_reducible first
    | assumption | intro _ | apply canon_ite | dsimp only | split

theorem actFw_canon {q a1} {a0 : State} {t : State} (e : actFw a0 a1 = .next t) (h0 : Canon q a0) (h1 : ∀ u, Canon q u → Canon q (a1 u)) : Canon q t := by
  unfold actFw at e
  cases e
  split
  · exact State.wakeSettle_canon (State.settle_canon (h1 _ h0))
  · exact h0

theorem State.instDrop_canon {q a1} {a0 : State} (h0 : Canon q a0) :
    Canon q (State.instDrop a0 a1) := by
  unfold State.instDrop
  try dsimp only
  repeat' with_reducible first
    | assumption | apply State.raise_canon | apply State.setReg_canon | apply State.satReg_canon | dsimp only | split

theorem State.wakeEvent_canon {q} {a0 : State} (h0 : Canon q a0) :
    Canon q (State.wakeEvent a0) := by
  unfold State.wakeEvent
  try dsimp only
  repeat' with_reducible first
    | assumption | apply State.andNotReg_canon | dsimp only | split

theorem barWrite_canon {q a1 a2} {a0 : State} {t : State} (e : barWrite a0 a1 a2 = .next t) (h0 : Canon q a0) (h2 : ∀ u, Canon q u → Canon q (a2 u)) : Canon q t := by
  unfold barWrite at e
  cases e
  repeat' first
    | with_reducible assumption
    | with_reducible apply canon_ite
    | with_reducible apply State.satReg_canon
    | with_reducible apply State.wakeEvent_canon
    | with_reducible apply State.settle_canon
    | with_reducible apply State.instDrop_canon
    | apply h2

theorem State.barReadNow_canon {q a1 a2} {a0 : State} (h0 : Canon q a0) (h2 : ∀ u, Canon q u → Canon q (a2 u)) :
    Canon q (State.barReadNow a0 a1 a2) := by
  unfold State.barReadNow
  repeat' first
    | with_reducible assumption
    | with_reducible apply canon_ite
    | with_reducible apply State.emit_canon
    | with_reducible apply State.settle_canon
    | with_reducible apply State.instDrop_canon
    | apply h2

theorem State.holdRead_canon {q a1 a2} {a0 : State} (h0 : Canon q a0) :
    Canon q (State.holdRead a0 a1 a2) := by
  unfold State.holdRead
  try dsimp only
  repeat' with_reducible first
    | assumption | dsimp only | split

theorem barRead_canon {q a1 a2 a3 a4} {a0 : State} {t : State} (e : barRead a0 a1 a2 a3 a4 = .next t) (h0 : Canon q a0) (h4 : ∀ u, Canon q u → Canon q (a4 u)) : Canon q t := by
  unfold barRead at e
  cases e
  refine canon_ite (State.holdRead_canon h0) (State.barReadNow_canon h0 fun u hu => h4 _ (State.emit_canon hu))

end Sys2Proof.Machine
end

