-- ==== Sys2Proof/Laws/CanonServing.lean ====
section
/-!
SUPPORT. Laws/Canon.lean's property for capping, Comb, composer, cyclic tables, fencing, firmware, frames.
-/

namespace Sys2Proof.Machine

theorem capBindBody_canon {q a0} {a1 : State} (h1 : Canon q a1) :
    AnsCanon q (capBindBody a0 a1) := by
  unfold capBindBody
  try dsimp only
  repeat' with_reducible first
    | assumption | exact ansCanon_refuse | apply ansCanon_done | apply ansCanon_ite | intro _
    | apply State.capSeek_canon | apply ansCanon_ends | apply ansCanon_later | apply ansCanon_long | apply canon_ite
    | dsimp only | split

theorem execCapBind_canon {q a0} {a1 : State} {t : State} (e : execCapBind a0 a1 = .next t) (h1 : Canon q a1) : Canon q t := by
  unfold execCapBind at e
  refine act_canon e h1 ?_
  intros
  repeat' with_reducible first
    | assumption | intro _ | refine act_canon (by assumption) ?_ | apply State.perform_canon | apply capBindBody_canon
    | dsimp only

theorem capUnbindBody_canon {q a0} {a1 : State} (h1 : Canon q a1) :
    AnsCanon q (capUnbindBody a0 a1) := by
  unfold capUnbindBody
  try dsimp only
  repeat' with_reducible first
    | assumption | exact ansCanon_refuse | apply ansCanon_done | apply ansCanon_ite | intro _
    | apply State.capRelease_canon | apply ansCanon_ends | apply ansCanon_later | apply ansCanon_long
    | apply canon_ite | dsimp only | split

theorem execCapUnbind_canon {q a0} {a1 : State} {t : State} (e : execCapUnbind a0 a1 = .next t) (h1 : Canon q a1) : Canon q t := by
  unfold execCapUnbind at e
  refine act_canon e h1 ?_
  intros
  repeat' with_reducible first
    | assumption | intro _ | refine act_canon (by assumption) ?_ | apply State.perform_canon | apply capUnbindBody_canon
    | dsimp only

theorem State.fillStart_canon {q a1 a2 a3 a4 a5} {a0 : State} (h0 : Canon q a0) :
    Canon q (State.fillStart a0 a1 a2 a3 a4 a5) := by
  unfold State.fillStart
  try dsimp only
  repeat' with_reducible first
    | assumption | intro _ | apply State.modCap_canon | apply State.opProgress_canon | apply State.fillGoOn_canon
    | apply State.fillDone_canon | apply State.fillRequest_canon | apply State.pendingChanged_canon | apply canon_ite
    | apply canon_foldl | dsimp only | split

theorem capFillBody_canon {q a0} {a1 : State} (h1 : Canon q a1) :
    AnsCanon q (capFillBody a0 a1) := by
  unfold capFillBody
  try dsimp only
  repeat' with_reducible first
    | assumption | exact ansCanon_refuse | apply ansCanon_long | apply ansCanon_ite | intro _
    | apply State.fillStart_canon | apply ansCanon_done | apply ansCanon_ends | apply ansCanon_later | apply canon_ite
    | dsimp only | split

theorem execCapFill_canon {q a0} {a1 : State} {t : State} (e : execCapFill a0 a1 = .next t) (h1 : Canon q a1) : Canon q t := by
  unfold execCapFill at e
  refine act_canon e h1 ?_
  intros
  repeat' with_reducible first
    | assumption | intro _ | refine act_canon (by assumption) ?_ | apply State.perform_canon | apply capFillBody_canon
    | dsimp only

theorem State.fillWrite_canon {q a1 a2 a3 a4} {a0 : State} (h0 : Canon q a0) :
    Canon q (State.fillWrite a0 a1 a2 a3 a4) := by
  unfold State.fillWrite
  try dsimp only
  repeat' with_reducible first
    | assumption | apply State.emit_canon | apply State.urgentTraffic_canon | dsimp only | split

theorem fillPageEffect_canon {q a0 a1} {a2 : State} (h0 : Canon q a2) :
    Canon q (fillPageEffect a0 a1 a2) := by
  unfold fillPageEffect
  try dsimp only
  repeat' with_reducible first
    | assumption | apply State.modCap_canon | apply State.opProgress_canon | apply State.fillDone_canon | intro _
    | apply State.fillWrite_canon | apply canon_ite | dsimp only | split

theorem execFillPageReceived_canon {q a0 a1} {a2 : State} {t : State} (e : execFillPageReceived a0 a1 a2 = .next t) (h2 : Canon q a2) : Canon q t := by
  unfold execFillPageReceived at e
  refine act_canon e h2 ?_
  intros
  repeat' with_reducible first
    | assumption | intro _ | refine act_canon (by assumption) ?_ | apply fillPageEffect_canon | dsimp only | split

theorem State.takeRequest_canon {q a1 a2 a3} {a0 : State} {y0 t} (e : State.takeRequest a0 a1 a2 a3 = some (y0, t)) (h0 : Canon q a0) : Canon q t := by
  unfold State.takeRequest at e
  exact of_map e fun y hy e => by cases e; exact h0

theorem State.acceptTaken_canon {q a1 a2 a3} {a0 : State} (h0 : Canon q a0) :
    Canon q (State.acceptTaken a0 a1 a2 a3) := by
  unfold State.acceptTaken
  try dsimp only
  repeat' with_reducible first
    | assumption | refine State.takeRequest_canon (by assumption) ?_ | apply State.capSeek_canon
    | apply State.capTake_canon | intro _ | apply canon_ite | dsimp only | split

theorem execCapAccept_canon {q a0 a1 a2 a3} {a4 : State} {t : State} (e : execCapAccept a0 a1 a2 a3 a4 = .next t) (h4 : Canon q a4) : Canon q t := by
  unfold execCapAccept at e
  refine act_canon e h4 ?_
  intros
  repeat' with_reducible first
    | assumption | intro _ | refine act_canon (by assumption) ?_ | apply State.receive_canon
    | apply State.acceptTaken_canon | dsimp only

theorem State.ackTaken_canon {q a1 a2 a3 a4} {a0 : State} (h0 : Canon q a0) :
    Canon q (State.ackTaken a0 a1 a2 a3 a4) := by
  unfold State.ackTaken
  try dsimp only
  repeat' with_reducible first
    | assumption | apply State.modCap_canon | apply State.capTryClose_canon | apply State.freeStaged_canon | intro _
    | apply canon_ite | dsimp only | split

theorem State.capAcked_canon {q a1 a2 a3 a4 a5 a6 a7} {a0 : State} (h0 : Canon q a0) :
    Canon q (State.capAcked a0 a1 a2 a3 a4 a5 a6 a7) := by
  unfold State.capAcked
  try dsimp only
  repeat' with_reducible first
    | assumption | refine State.takeRequest_canon (by assumption) ?_ | apply State.fillGoOn_canon
    | apply State.buddyLost_canon | apply State.ackTaken_canon | intro _ | apply canon_ite | dsimp only | split

theorem execCapAck_canon {q a0 a1 a2 a3 a4 a5 a6} {a7 : State} {t : State} (e : execCapAck a0 a1 a2 a3 a4 a5 a6 a7 = .next t) (h7 : Canon q a7) : Canon q t := by
  unfold execCapAck at e
  refine act_canon e h7 ?_
  intros
  repeat' with_reducible first
    | assumption | intro _ | refine act_canon (by assumption) ?_ | apply State.receive_canon | apply State.capAcked_canon
    | dsimp only

theorem State.capSend_canon {q a1 a2 a3 a4 a5} {a0 : State} (h0 : Canon q a0) :
    Canon q (State.capSend a0 a1 a2 a3 a4 a5) := by
  unfold State.capSend
  try dsimp only
  repeat' with_reducible first
    | assumption | intro _ | apply State.emit_canon | apply State.request_canon | apply State.urgentTraffic_canon
    | apply canon_ite | apply canon_foldl | dsimp only | split

theorem pageTransferEffect_canon {q a0} {a1 : State} (h1 : Canon q a1) :
    Canon q (pageTransferEffect a0 a1) := by
  unfold pageTransferEffect
  try dsimp only
  repeat' with_reducible first
    | assumption | apply State.emit_canon | apply State.modCap_canon | apply State.pendingChanged_canon
    | apply State.capSend_canon | intro _ | apply canon_ite | dsimp only | split

theorem execCapPageTransfer_canon {q a0} {a1 : State} {t : State} (e : execCapPageTransfer a0 a1 = .next t) (h1 : Canon q a1) : Canon q t := by
  unfold execCapPageTransfer at e
  refine act_canon e h1 ?_
  intros
  repeat' with_reducible first
    | assumption | intro _ | refine act_canon (by assumption) ?_ | apply pageTransferEffect_canon | dsimp only

theorem stagingEffect_canon {q a0 a1} {a2 : State} (h2 : Canon q a2) :
    Canon q (stagingEffect a0 a1 a2) := by
  unfold stagingEffect
  try dsimp only
  repeat' with_reducible first
    | assumption | apply State.modCap_canon | apply State.freeStaged_canon | apply canon_filter
    | apply State.pendingChanged_canon | intro _ | apply canon_ite | dsimp only | split

theorem execStagingCopyDone_canon {q a0 a1} {a2 : State} {t : State} (e : execStagingCopyDone a0 a1 a2 = .next t) (h2 : Canon q a2) : Canon q t := by
  unfold execStagingCopyDone at e
  refine act_canon e h2 ?_
  intros
  repeat' with_reducible first
    | assumption | intro _ | refine act_canon (by assumption) ?_ | apply stagingEffect_canon | dsimp only

theorem reseekEffect_canon {q a0} {a1 : State} (h1 : Canon q a1) :
    Canon q (reseekEffect a0 a1) := by
  unfold reseekEffect
  try dsimp only
  repeat' with_reducible first
    | assumption | apply State.capSeek_canon | apply State.modCap_canon | intro _ | apply canon_ite | dsimp only
    | split

theorem execBuddyReseek_canon {q a0} {a1 : State} {t : State} (e : execBuddyReseek a0 a1 = .next t) (h1 : Canon q a1) : Canon q t := by
  unfold execBuddyReseek at e
  refine act_canon e h1 ?_
  intros
  repeat' with_reducible first
    | assumption | intro _ | refine act_canon (by assumption) ?_ | apply reseekEffect_canon | dsimp only

theorem State.reportTaken_canon {q a1 a2 a3} {a0 : State} (h0 : Canon q a0) :
    Canon q (State.reportTaken a0 a1 a2 a3) := by
  unfold State.reportTaken
  try dsimp only
  repeat' with_reducible first
    | assumption | apply State.leaderReport_canon | apply State.setLeader_canon | apply State.urgent_canon
    | apply canon_ite | dsimp only | split

theorem execCapReport_canon {q a0 a1 a2 a3 a4 a5 a6} {a7 : State} {t : State} (e : execCapReport a0 a1 a2 a3 a4 a5 a6 a7 = .next t) (h7 : Canon q a7) : Canon q t := by
  unfold execCapReport at e
  refine act_canon e h7 ?_
  intros
  repeat' with_reducible first
    | assumption | intro _ | refine act_canon (by assumption) ?_ | apply State.receive_canon
    | apply State.reportTaken_canon | dsimp only

theorem State.planRecord_canon {q a1 a2 a3 a4 a5 a6 a7} {a0 : State} (h0 : Canon q a0) :
    Canon q (State.planRecord a0 a1 a2 a3 a4 a5 a6 a7) := by
  unfold State.planRecord
  try dsimp only
  repeat' with_reducible first
    | assumption | apply State.setLeader_canon | apply State.urgent_canon | intro _ | apply canon_ite | dsimp only
    | split

theorem execCapPlan_canon {q a0 a1 a2 a3 a4 a5 a6 a7} {a8 : State} {t : State} (e : execCapPlan a0 a1 a2 a3 a4 a5 a6 a7 a8 = .next t) (h8 : Canon q a8) : Canon q t := by
  unfold execCapPlan at e
  refine act_canon e h8 ?_
  intros
  repeat' with_reducible first
    | assumption | intro _ | refine act_canon (by assumption) ?_ | apply State.receive_canon
    | apply State.applyPlan_canon | apply State.planRecord_canon | dsimp only

theorem State.ticketDone_canon {q a1 a2 a3 a4} {a0 : State} (h0 : Canon q a0) :
    Canon q (State.ticketDone a0 a1 a2 a3 a4) := by
  unfold State.ticketDone
  try dsimp only
  repeat' with_reducible first
    | assumption | apply State.modMember_canon | intro _ | dsimp only | split

theorem State.holdCap_canon {q a1 a2 a3} {a0 : State} {t} (e : State.holdCap a0 a1 a2 a3 = some t) (h0 : Canon q a0) : Canon q t := by
  unfold State.holdCap at e
  dsimp only at e
  split at e
  · cases e
  · refine of_map e fun y hy e => ?_
    subst e
    obtain ⟨f, u⟩ := y
    exact State.takeMany_canon (t := u) hy h0

theorem State.offerTaken_canon {q a1 a2 a3 a4} {a0 : State} (h0 : Canon q a0) :
    Canon q (State.offerTaken a0 a1 a2 a3 a4) := by
  unfold State.offerTaken
  try dsimp only
  repeat' with_reducible first
    | assumption | apply State.sendPkt_canon | apply State.dropHeld_canon
    | refine State.holdCap_canon (by assumption) ?_ | apply State.ticketDone_canon | dsimp only | split

theorem execCapOffer_canon {q a0 a1 a2 a3 a4} {a5 : State} {t : State} (e : execCapOffer a0 a1 a2 a3 a4 a5 = .next t) (h5 : Canon q a5) : Canon q t := by
  unfold execCapOffer at e
  refine act_canon e h5 ?_
  intros
  repeat' with_reducible first
    | assumption | intro _ | refine act_canon (by assumption) ?_ | apply State.receive_canon
    | apply State.offerTaken_canon | dsimp only

theorem State.sendAck_canon {q a1 a2 a3 a4 a5 a6 a7} {a0 : State} (h0 : Canon q a0) :
    Canon q (State.sendAck a0 a1 a2 a3 a4 a5 a6 a7) := by
  unfold State.sendAck
  try dsimp only
  repeat' with_reducible first
    | assumption | apply State.sendPkt_canon | dsimp only | split

theorem State.ackHeld_canon {q a1 a2} {a0 : State} (h0 : Canon q a0) :
    Canon q (State.ackHeld a0 a1 a2) := by
  unfold State.ackHeld
  try dsimp only
  repeat' with_reducible first
    | assumption | apply State.sendAck_canon | apply State.complete_canon | intro _ | dsimp only | split

theorem execCapCut_canon {q a0 a1 a2 a3 a4 a5 a6} {a7 : State} {t : State} (e : execCapCut a0 a1 a2 a3 a4 a5 a6 a7 = .next t) (h7 : Canon q a7) : Canon q t := by
  unfold execCapCut at e
  refine act_canon e h7 ?_
  intros
  repeat' with_reducible first
    | assumption | intro _ | refine act_canon (by assumption) ?_ | apply State.receive_canon | apply State.modHeld_canon
    | dsimp only

theorem State.sealTaken_canon {q a1 a2 a3 a4 a5} {a0 : State} (h0 : Canon q a0) :
    Canon q (State.sealTaken a0 a1 a2 a3 a4 a5) := by
  unfold State.sealTaken
  try dsimp only
  repeat' with_reducible first
    | assumption | apply State.sendAck_canon | apply State.ackHeld_canon | apply State.modHeld_canon
    | apply State.ticketDone_canon | intro _ | apply canon_ite | dsimp only | split

theorem execCapSeal_canon {q a0 a1 a2 a3 a4} {a5 : State} {t : State} (e : execCapSeal a0 a1 a2 a3 a4 a5 = .next t) (h5 : Canon q a5) : Canon q t := by
  unfold execCapSeal at e
  refine act_canon e h5 ?_
  intros
  repeat' with_reducible first
    | assumption | intro _ | refine act_canon (by assumption) ?_ | apply State.receive_canon
    | apply State.sealTaken_canon | dsimp only

theorem capPageInEffect_canon {q a0 a1 a2 a3} {a4 : State} (h4 : Canon q a4) :
    Canon q (capPageInEffect a0 a1 a2 a3 a4) := by
  unfold capPageInEffect
  try dsimp only
  repeat' with_reducible first
    | assumption | apply State.ackHeld_canon | apply State.modHeld_canon | intro _ | apply State.emit_canon
    | apply canon_ite | dsimp only | split

theorem execCapPageReceived_canon {q a0 a1 a2 a3} {a4 : State} {t : State} (e : execCapPageReceived a0 a1 a2 a3 a4 = .next t) (h4 : Canon q a4) : Canon q t := by
  unfold execCapPageReceived at e
  refine act_canon e h4 ?_
  intros
  repeat' with_reducible first
    | assumption | intro _ | refine act_canon (by assumption) ?_ | apply capPageInEffect_canon | dsimp only

theorem State.fillTaken_canon {q a1 a2 a3 a4 a5 a6} {a0 : State} (h0 : Canon q a0) :
    Canon q (State.fillTaken a0 a1 a2 a3 a4 a5 a6) := by
  unfold State.fillTaken
  try dsimp only
  repeat' with_reducible first
    | assumption | intro _ | apply State.sendAck_canon | apply State.ticketDone_canon | apply State.emit_canon
    | apply State.dropHeld_canon | apply State.buddyLost_canon | apply canon_filter | apply canon_ite
    | apply canon_foldl | dsimp only | split

theorem execCapFillPacket_canon {q a0 a1 a2 a3 a4 a5} {a6 : State} {t : State} (e : execCapFillPacket a0 a1 a2 a3 a4 a5 a6 = .next t) (h6 : Canon q a6) : Canon q t := by
  unfold execCapFillPacket at e
  refine act_canon e h6 ?_
  intros
  repeat' with_reducible first
    | assumption | intro _ | refine act_canon (by assumption) ?_ | apply State.receive_canon
    | apply State.fillTaken_canon | dsimp only

theorem capRiskHintBody_canon {q a0} {a1 : State} (h1 : Canon q a1) :
    AnsCanon q (capRiskHintBody a0 a1) := by
  unfold capRiskHintBody
  try dsimp only
  repeat' with_reducible first
    | assumption | exact ansCanon_refuse | apply ansCanon_done | intro _ | apply ansCanon_ends | apply ansCanon_later
    | apply ansCanon_long | apply ansCanon_ite | dsimp only | split

theorem execCapRiskHint_canon {q a0} {a1 : State} {t : State} (e : execCapRiskHint a0 a1 = .next t) (h1 : Canon q a1) : Canon q t := by
  unfold execCapRiskHint at e
  refine act_canon e h1 ?_
  intros
  repeat' with_reducible first
    | assumption | intro _ | refine act_canon (by assumption) ?_ | apply State.perform_canon
    | apply capRiskHintBody_canon | dsimp only

theorem riskEffect_canon {q} {a0 : State} (h0 : Canon q a0) :
    Canon q (riskEffect a0) := by
  unfold riskEffect
  try dsimp only
  repeat' with_reducible first
    | assumption | apply canon_filter | intro _ | apply canon_ite | dsimp only | split

theorem execRiskRecompute_canon {q} {a0 : State} {t : State} (e : execRiskRecompute a0 = .next t) (h0 : Canon q a0) : Canon q t := by
  unfold execRiskRecompute at e
  refine act_canon e h0 ?_
  intros
  repeat' with_reducible first
    | assumption | intro _ | refine act_canon (by assumption) ?_ | apply riskEffect_canon | dsimp only

theorem execMcCePulse_canon {q a0 a1} {a2 : State} {t : State} (e : execMcCePulse a0 a1 a2 = .next t) (h2 : Canon q a2) : Canon q t := by
  unfold execMcCePulse at e
  refine act_canon e h2 ?_
  intros
  repeat' with_reducible first
    | assumption | intro _ | refine act_canon (by assumption) ?_ | apply State.healthEvent_canon | dsimp only

theorem State.scrubRestart_canon {q} {a0 : State} (h0 : Canon q a0) :
    Canon q (State.scrubRestart a0) := by
  unfold State.scrubRestart
  try dsimp only
  repeat' with_reducible first
    | assumption | dsimp only | split

theorem combInitEffect_canon {q} {a0 : State} (h0 : Canon q a0) :
    Canon q (combInitEffect a0) := by
  unfold combInitEffect
  try dsimp only
  repeat' with_reducible first
    | assumption | apply State.scrubRestart_canon | apply canon_ite | dsimp only | split

theorem execCombInitDone_canon {q} {a0 : State} {t : State} (e : execCombInitDone a0 = .next t) (h0 : Canon q a0) : Canon q t := by
  unfold execCombInitDone at e
  refine act_canon e h0 ?_
  intros
  repeat' with_reducible first
    | assumption | intro _ | refine act_canon (by assumption) ?_ | apply combInitEffect_canon | dsimp only

theorem State.plant_canon {q a1} {a0 : State} (h0 : Canon q a0) :
    Canon q (State.plant a0 a1) := by
  unfold State.plant
  exact State.setUpset_canon h0

theorem scrubEffect_canon {q a0} {a1 : State} (h1 : Canon q a1) :
    Canon q (scrubEffect a0 a1) := by
  unfold scrubEffect
  try dsimp only
  repeat' with_reducible first
    | assumption | intro _ | apply State.strike_canon | apply State.plant_canon | apply State.readWords_canon
    | apply State.scrubRestart_canon | apply State.pagerSync_canon | apply State.incReg_canon | apply canon_filter
    | apply canon_ite | apply canon_foldl | dsimp only | split

theorem execScrubRow_canon {q a0} {a1 : State} {t : State} (e : execScrubRow a0 a1 = .next t) (h1 : Canon q a1) : Canon q t := by
  unfold execScrubRow at e
  refine act_canon e h1 ?_
  intros
  repeat' with_reducible first
    | assumption | intro _ | refine act_canon (by assumption) ?_ | apply scrubEffect_canon | dsimp only

theorem State.inspectGo_canon {q} {a0 : State} (h0 : Canon q a0) :
    Canon q (State.inspectGo a0) := by
  unfold State.inspectGo
  try dsimp only
  repeat' with_reducible first
    | assumption | apply State.setReg_canon | apply canon_ite | dsimp only | split

theorem execInspectionSnapshot_canon {q} {a0 : State} {t : State} (e : execInspectionSnapshot a0 = .next t) (h0 : Canon q a0) : Canon q t := by
  unfold execInspectionSnapshot at e
  refine barWrite_canon e h0 ?_
  intros
  repeat' with_reducible first
    | assumption | intro _ | refine barWrite_canon (by assumption) ?_ | apply State.inspectGo_canon | dsimp only

theorem inspectEffect_canon {q} {a0 : State} (h0 : Canon q a0) :
    Canon q (inspectEffect a0) := by
  unfold inspectEffect
  try dsimp only
  repeat' with_reducible first
    | assumption | intro _ | apply State.setReg_canon | apply canon_ite | apply canon_foldl | dsimp only | split

theorem execInspectionSnapshotDone_canon {q} {a0 : State} {t : State} (e : execInspectionSnapshotDone a0 = .next t) (h0 : Canon q a0) : Canon q t := by
  unfold execInspectionSnapshotDone at e
  refine act_canon e h0 ?_
  intros
  repeat' with_reducible first
    | assumption | intro _ | refine act_canon (by assumption) ?_ | apply inspectEffect_canon | dsimp only

theorem State.holdForecast_canon {q a1 a2} {a0 : State} (h0 : Canon q a0) :
    Canon q (State.holdForecast a0 a1 a2) := by
  unfold State.holdForecast
  try dsimp only
  repeat' with_reducible first
    | assumption | intro _ | apply State.setServe_canon | apply State.pagerSync_canon | apply State.nominate_canon
    | apply canon_ite | apply canon_foldl | dsimp only | split

theorem forecastEffect_canon {q a0} {a1 : State} (h1 : Canon q a1) :
    Canon q (forecastEffect a0 a1) := by
  unfold forecastEffect
  try dsimp only
  repeat' with_reducible first
    | assumption | apply State.setServe_canon | apply State.holdForecast_canon | apply State.modServe_canon
    | apply State.readRows_canon | intro _ | apply canon_ite | dsimp only | split

theorem execForecast_canon {q a0} {a1 : State} {t : State} (e : execForecast a0 a1 = .next t) (h1 : Canon q a1) : Canon q t := by
  unfold execForecast at e
  refine act_canon e h1 ?_
  intros
  repeat' with_reducible first
    | assumption | intro _ | refine act_canon (by assumption) ?_ | apply forecastEffect_canon | dsimp only

theorem reportEffect_canon {q a0 a1} {a2 : State} (h2 : Canon q a2) :
    Canon q (reportEffect a0 a1 a2) := by
  unfold reportEffect
  try dsimp only
  repeat' with_reducible first
    | assumption | apply State.modServe_canon | apply State.pagFault_canon | apply State.satReg_canon
    | apply canon_getD | apply State.setReport_canon | apply State.reportLate_canon | intro _ | apply canon_ite
    | dsimp only | split

theorem execPagerMemberReport_canon {q a0 a1} {a2 : State} {t : State} (e : execPagerMemberReport a0 a1 a2 = .next t) (h2 : Canon q a2) : Canon q t := by
  unfold execPagerMemberReport at e
  refine act_canon e h2 ?_
  intros
  repeat' with_reducible first
    | assumption | intro _ | refine act_canon (by assumption) ?_ | apply reportEffect_canon | dsimp only

theorem commitEffect_canon {q a0} {a1 : State} (h1 : Canon q a1) :
    Canon q (commitEffect a0 a1) := by
  unfold commitEffect
  try dsimp only
  repeat' with_reducible first
    | assumption | apply State.pagerSync_canon | apply State.commitStep_canon | apply canon_getD | apply canon_ite
    | dsimp only | split

theorem execCommit_canon {q a0} {a1 : State} {t : State} (e : execCommit a0 a1 = .next t) (h1 : Canon q a1) : Canon q t := by
  unfold execCommit at e
  refine act_canon e h1 ?_
  intros
  repeat' with_reducible first
    | assumption | intro _ | refine act_canon (by assumption) ?_ | apply commitEffect_canon | dsimp only

theorem commitWaitEffect_canon {q a0} {a1 : State} (h1 : Canon q a1) :
    Canon q (commitWaitEffect a0 a1) := by
  unfold commitWaitEffect
  try dsimp only
  repeat' with_reducible first
    | assumption | apply State.pagerSync_canon | apply State.commitStep_canon | intro _ | apply canon_ite | dsimp only
    | split

theorem execCommitWaitTimeout_canon {q a0} {a1 : State} {t : State} (e : execCommitWaitTimeout a0 a1 = .next t) (h1 : Canon q a1) : Canon q t := by
  unfold execCommitWaitTimeout at e
  refine act_canon e h1 ?_
  intros
  repeat' with_reducible first
    | assumption | intro _ | refine act_canon (by assumption) ?_ | apply commitWaitEffect_canon | dsimp only

theorem State.unqueue_canon {q a1} {a0 : State} (h0 : Canon q a0) :
    Canon q (State.unqueue a0 a1) := by
  unfold State.unqueue
  try dsimp only
  repeat' with_reducible first
    | assumption | apply State.modCtx_canon | intro _ | dsimp only | split

theorem tableErrorEffect_canon {q a0 a1} {a2 : State} (h2 : Canon q a2) :
    Canon q (tableErrorEffect a0 a1 a2) := by
  unfold tableErrorEffect
  try dsimp only
  repeat' with_reducible first
    | assumption | intro _ | apply State.raise_canon | apply State.setReg_canon | apply State.loseRound_canon
    | apply State.memberFailed_canon | apply State.unqueue_canon | apply State.modServe_canon | apply canon_getD
    | apply State.tryUnbind_canon | apply canon_ite | apply canon_foldl | dsimp only | split

theorem execMemberTableWriteError_canon {q a0 a1} {a2 : State} {t : State} (e : execMemberTableWriteError a0 a1 a2 = .next t) (h2 : Canon q a2) : Canon q t := by
  unfold execMemberTableWriteError at e
  refine act_canon e h2 ?_
  intros
  repeat' with_reducible first
    | assumption | intro _ | refine act_canon (by assumption) ?_ | apply tableErrorEffect_canon | dsimp only

theorem draftEffect_canon {q a0} {a1 : State} (h1 : Canon q a1) :
    Canon q (draftEffect a0 a1) := by
  unfold draftEffect
  try dsimp only
  repeat' with_reducible first
    | assumption | apply State.composeDraft_canon | apply canon_ite | dsimp only | split

theorem execDraftStepCompose_canon {q a0} {a1 : State} {t : State} (e : execDraftStepCompose a0 a1 = .next t) (h1 : Canon q a1) : Canon q t := by
  unfold execDraftStepCompose at e
  refine act_canon e h1 ?_
  intros
  repeat' with_reducible first
    | assumption | intro _ | refine act_canon (by assumption) ?_ | apply draftEffect_canon | dsimp only

theorem State.sweepList_canon {q a1 a2} {a0 : State} (h0 : Canon q a0) :
    Canon q (State.sweepList a0 a1 a2) := by
  induction a2 generalizing a0 with
  | nil => exact h0
  | cons x l ih =>
    unfold State.sweepList
    repeat' first
    | with_reducible assumption
    | intro _
    | with_reducible apply ih
    | with_reducible apply State.dormant_canon
    | with_reducible apply canon_ite
    | with_reducible apply canon_foldl
    | dsimp only
    | split

theorem idleSweepEffect_canon {q} {a0 : State} (h0 : Canon q a0) :
    Canon q (idleSweepEffect a0) := by
  unfold idleSweepEffect
  try dsimp only
  repeat' with_reducible first
    | assumption | intro _ | apply State.pagerSync_canon | apply State.sweepList_canon | apply canon_ite
    | apply canon_foldl | dsimp only | split

theorem execIdleSweep_canon {q} {a0 : State} {t : State} (e : execIdleSweep a0 = .next t) (h0 : Canon q a0) : Canon q t := by
  unfold execIdleSweep at e
  refine act_canon e h0 ?_
  intros
  repeat' with_reducible first
    | assumption | intro _ | refine act_canon (by assumption) ?_ | apply idleSweepEffect_canon | dsimp only

theorem victimEffect_canon {q a0} {a1 : State} (h1 : Canon q a1) :
    Canon q (victimEffect a0 a1) := by
  unfold victimEffect
  try dsimp only
  repeat' with_reducible first
    | assumption | apply State.dormant_canon | apply State.pagerSync_canon | apply canon_put | intro _
    | apply canon_ite | dsimp only | split

theorem execPressureVictim_canon {q a0} {a1 : State} {t : State} (e : execPressureVictim a0 a1 = .next t) (h1 : Canon q a1) : Canon q t := by
  unfold execPressureVictim at e
  refine act_canon e h1 ?_
  intros
  repeat' with_reducible first
    | assumption | intro _ | refine act_canon (by assumption) ?_ | apply victimEffect_canon | dsimp only

theorem State.unlead_canon {q a1} {a0 : State} (h0 : Canon q a0) :
    Canon q (State.unlead a0 a1) := by
  unfold State.unlead
  try dsimp only
  repeat' with_reducible first
    | assumption | intro _ | apply State.dropQueued_canon | apply State.stopStep_canon | apply State.modRun_canon
    | apply canon_getD | apply canon_filter | apply canon_ite | apply canon_foldl | dsimp only | split

theorem State.cycStore_canon {q a1 a2 a3} {a0 : State} (h0 : Canon q a0) :
    Canon q (State.cycStore a0 a1 a2 a3) := by
  unfold State.cycStore
  try dsimp only
  repeat' with_reducible first
    | assumption | apply State.modTable_canon | apply State.unlead_canon | apply State.setTable_canon
    | apply canon_filter | intro _ | dsimp only | split

theorem cycLoadBody_canon {q a0 a1} {a2 : State} (h2 : Canon q a2) :
    AnsCanon q (cycLoadBody a0 a1 a2) := by
  unfold cycLoadBody
  try dsimp only
  repeat' with_reducible first
    | assumption | exact ansCanon_refuse | apply ansCanon_done | apply ansCanon_ite | intro _ | apply State.emit_canon
    | apply State.cycStore_canon | apply ansCanon_ends | apply ansCanon_later | apply ansCanon_long | apply canon_ite
    | dsimp only | split

theorem execCycLoad_canon {q a0 a1} {a2 : State} {t : State} (e : execCycLoad a0 a1 a2 = .next t) (h2 : Canon q a2) : Canon q t := by
  unfold execCycLoad at e
  refine act_canon e h2 ?_
  intros
  repeat' with_reducible first
    | assumption | intro _ | refine act_canon (by assumption) ?_ | apply State.perform_canon | apply cycLoadBody_canon
    | dsimp only

theorem cycStartBody_canon {q a0} {a1 : State} (h1 : Canon q a1) :
    AnsCanon q (cycStartBody a0 a1) := by
  unfold cycStartBody
  try dsimp only
  repeat' with_reducible first
    | assumption | exact ansCanon_refuse | apply ansCanon_long | apply ansCanon_ite | intro _
    | apply State.setTable_canon | apply ansCanon_done | apply ansCanon_ends | apply ansCanon_later | apply canon_ite
    | dsimp only | split

theorem execCycStart_canon {q a0} {a1 : State} {t : State} (e : execCycStart a0 a1 = .next t) (h1 : Canon q a1) : Canon q t := by
  unfold execCycStart at e
  refine act_canon e h1 ?_
  intros
  repeat' with_reducible first
    | assumption | intro _ | refine act_canon (by assumption) ?_ | apply State.perform_canon | apply cycStartBody_canon
    | dsimp only

theorem cycStopBody_canon {q a0} {a1 : State} (h1 : Canon q a1) :
    AnsCanon q (cycStopBody a0 a1) := by
  unfold cycStopBody
  try dsimp only
  repeat' with_reducible first
    | assumption | exact ansCanon_refuse | apply ansCanon_done | apply ansCanon_later | apply ansCanon_ite | intro _
    | apply State.stopTable_canon | apply ansCanon_ends | apply ansCanon_long | apply canon_ite | dsimp only | split

theorem execCycStop_canon {q a0} {a1 : State} {t : State} (e : execCycStop a0 a1 = .next t) (h1 : Canon q a1) : Canon q t := by
  unfold execCycStop at e
  refine act_canon e h1 ?_
  intros
  repeat' with_reducible first
    | assumption | intro _ | refine act_canon (by assumption) ?_ | apply State.perform_canon | apply cycStopBody_canon
    | dsimp only

theorem cycFreeBody_canon {q a0} {a1 : State} (h1 : Canon q a1) :
    AnsCanon q (cycFreeBody a0 a1) := by
  unfold cycFreeBody
  try dsimp only
  repeat' with_reducible first
    | assumption | exact ansCanon_refuse | apply ansCanon_done | apply ansCanon_ite | intro _ | apply ansCanon_ends
    | apply ansCanon_later | apply ansCanon_long | apply canon_ite | dsimp only | split

theorem execCycFree_canon {q a0} {a1 : State} {t : State} (e : execCycFree a0 a1 = .next t) (h1 : Canon q a1) : Canon q t := by
  unfold execCycFree at e
  refine act_canon e h1 ?_
  intros
  repeat' with_reducible first
    | assumption | intro _ | refine act_canon (by assumption) ?_ | apply State.perform_canon | apply cycFreeBody_canon
    | dsimp only

theorem State.bandEight_canon {q a1} {a0 : State} (h0 : Canon q a0) :
    Canon q (State.bandEight a0 a1) := by
  unfold State.bandEight
  try dsimp only
  repeat' with_reducible first
    | assumption | apply State.syncConds_canon | apply State.chooseIssue_canon | apply State.preempt_canon
    | apply canon_ite | dsimp only | split

theorem timedStartEffect_canon {q a0 a1} {a2 : State} (h2 : Canon q a2) :
    Canon q (timedStartEffect a0 a1 a2) := by
  unfold timedStartEffect
  try dsimp only
  repeat' with_reducible first
    | assumption | apply State.bandEight_canon | apply State.modStep_canon | intro _ | apply canon_ite | dsimp only
    | split

theorem execTimedStart_canon {q a0 a1} {a2 : State} {t : State} (e : execTimedStart a0 a1 a2 = .next t) (h2 : Canon q a2) : Canon q t := by
  unfold execTimedStart at e
  refine act_canon e h2 ?_
  intros
  repeat' with_reducible first
    | assumption | intro _ | refine act_canon (by assumption) ?_ | apply timedStartEffect_canon | dsimp only

theorem State.dropLed_canon {q a1 a2} {a0 : State} (h0 : Canon q a0) :
    Canon q (State.dropLed a0 a1 a2) := by
  unfold State.dropLed
  try dsimp only
  repeat' with_reducible first
    | assumption | intro _ | apply State.modStep_canon | apply State.stopStep_canon | apply State.dropQueued_canon
    | apply canon_ite | dsimp only | split

theorem State.skipUnbegun_canon {q a1} {a0 : State} (h0 : Canon q a0) :
    Canon q (State.skipUnbegun a0 a1) := by
  unfold State.skipUnbegun
  try dsimp only
  repeat' with_reducible first
    | assumption | intro _ | apply State.dropQueued_canon | apply State.cycSkip_canon | apply State.modRun_canon
    | apply canon_filter | apply State.dropLed_canon | apply canon_foldl | dsimp only | split

theorem cycleBoundaryEffect_canon {q a0} {a1 : State} (h1 : Canon q a1) :
    Canon q (cycleBoundaryEffect a0 a1) := by
  unfold cycleBoundaryEffect
  try dsimp only
  repeat' with_reducible first
    | assumption | apply State.modTable_canon | apply State.skipUnbegun_canon | apply State.cycProgress_canon
    | apply State.tryStop_canon | intro _ | apply canon_ite | dsimp only | split

theorem execCycleBoundary_canon {q a0} {a1 : State} {t : State} (e : execCycleBoundary a0 a1 = .next t) (h1 : Canon q a1) : Canon q t := by
  unfold execCycleBoundary at e
  refine act_canon e h1 ?_
  intros
  repeat' with_reducible first
    | assumption | intro _ | refine act_canon (by assumption) ?_ | apply cycleBoundaryEffect_canon | dsimp only

theorem slotLeadEffect_canon {q a0 a1} {a2 : State} (h2 : Canon q a2) :
    Canon q (slotLeadEffect a0 a1 a2) := by
  unfold slotLeadEffect
  try dsimp only
  repeat' with_reducible first
    | assumption | apply State.modRun_canon | apply State.takeSeq_canon
    | refine State.takeSeq_canon' (by assumption) ?_ | apply State.queueStep_canon | apply State.modSlotStep_canon
    | intro _ | apply canon_ite | dsimp only | split

theorem execSlotLead_canon {q a0 a1} {a2 : State} {t : State} (e : execSlotLead a0 a1 a2 = .next t) (h2 : Canon q a2) : Canon q t := by
  unfold execSlotLead at e
  refine act_canon e h2 ?_
  intros
  repeat' with_reducible first
    | assumption | intro _ | refine act_canon (by assumption) ?_ | apply slotLeadEffect_canon | dsimp only

theorem State.slotBegin_canon {q a1 a2 a3 a4} {a0 : State} (h0 : Canon q a0) :
    Canon q (State.slotBegin a0 a1 a2 a3 a4) := by
  unfold State.slotBegin
  try dsimp only
  repeat' with_reducible first
    | assumption | apply State.modRun_canon | apply State.dropQueued_canon | apply State.modSlotStep_canon
    | apply State.bandEight_canon | apply State.cycSkip_canon | intro _ | apply State.dropLed_canon | apply canon_ite
    | dsimp only | split

theorem slotStartEffect_canon {q a0 a1} {a2 : State} (h2 : Canon q a2) :
    Canon q (slotStartEffect a0 a1 a2) := by
  unfold slotStartEffect
  try dsimp only
  repeat' with_reducible first
    | assumption | apply State.slotBegin_canon | apply canon_ite | dsimp only | split

theorem execSlotStart_canon {q a0 a1} {a2 : State} {t : State} (e : execSlotStart a0 a1 a2 = .next t) (h2 : Canon q a2) : Canon q t := by
  unfold execSlotStart at e
  refine act_canon e h2 ?_
  intros
  repeat' with_reducible first
    | assumption | intro _ | refine act_canon (by assumption) ?_ | apply slotStartEffect_canon | dsimp only

theorem State.overrun_canon {q a1 a2 a3 a4} {a0 : State} (h0 : Canon q a0) :
    Canon q (State.overrun a0 a1 a2 a3 a4) := by
  unfold State.overrun
  try dsimp only
  repeat' with_reducible first
    | assumption | apply State.modRun_canon | apply State.modSlotStep_canon | apply State.preempt_canon
    | apply State.stopWith_canon | apply State.slotEnded_canon | apply State.dropQueued_canon | intro _
    | apply canon_ite | dsimp only | split

theorem slotDeadlineEffect_canon {q a0 a1} {a2 : State} (h2 : Canon q a2) :
    Canon q (slotDeadlineEffect a0 a1 a2) := by
  unfold slotDeadlineEffect
  try dsimp only
  repeat' with_reducible first
    | assumption | apply State.modTable_canon | apply State.overrun_canon | apply State.cycFault_canon
    | apply State.cycProgress_canon | apply State.modRun_canon | intro _ | apply canon_ite | dsimp only | split

theorem execSlotDeadline_canon {q a0 a1} {a2 : State} {t : State} (e : execSlotDeadline a0 a1 a2 = .next t) (h2 : Canon q a2) : Canon q t := by
  unfold execSlotDeadline at e
  refine act_canon e h2 ?_
  intros
  repeat' with_reducible first
    | assumption | intro _ | refine act_canon (by assumption) ?_ | apply slotDeadlineEffect_canon | dsimp only

theorem State.fenceResult_canon {q a1} {a0 : State} (h0 : Canon q a0) :
    Canon q (State.fenceResult a0 a1) := by
  unfold State.fenceResult
  try dsimp only
  repeat' with_reducible first
    | assumption | dsimp only | split

theorem fenceCmdEffect_canon {q a0 a1} {a2 : State} (h2 : Canon q a2) :
    Canon q (fenceCmdEffect a0 a1 a2) := by
  unfold fenceCmdEffect
  try dsimp only
  repeat' with_reducible first
    | assumption | apply State.fenceResult_canon | apply State.fenceAsk_canon | apply canon_ite | dsimp only | split

theorem execFenceCmd_canon {q a0 a1} {a2 : State} {t : State} (e : execFenceCmd a0 a1 a2 = .next t) (h2 : Canon q a2) : Canon q t := by
  unfold execFenceCmd at e
  refine barWrite_canon e h2 ?_
  intros
  repeat' with_reducible first
    | assumption | intro _ | refine barWrite_canon (by assumption) ?_ | apply fenceCmdEffect_canon | dsimp only

theorem unfenceCmdEffect_canon {q a0 a1} {a2 : State} (h2 : Canon q a2) :
    Canon q (unfenceCmdEffect a0 a1 a2) := by
  unfold unfenceCmdEffect
  try dsimp only
  repeat' with_reducible first
    | assumption | apply State.fenceResult_canon | apply canon_ite | dsimp only | split

theorem execUnfenceCmd_canon {q a0 a1} {a2 : State} {t : State} (e : execUnfenceCmd a0 a1 a2 = .next t) (h2 : Canon q a2) : Canon q t := by
  unfold execUnfenceCmd at e
  refine barWrite_canon e h2 ?_
  intros
  repeat' with_reducible first
    | assumption | intro _ | refine barWrite_canon (by assumption) ?_ | apply unfenceCmdEffect_canon | dsimp only

theorem State.busAnswer_canon {q a1 a2 a3 a4} {a0 : State} (h0 : Canon q a0) :
    Canon q (State.busAnswer a0 a1 a2 a3 a4) := by
  unfold State.busAnswer
  try dsimp only
  repeat' with_reducible first
    | assumption | apply State.emit_canon | dsimp only | split

theorem State.busTake_canon {q a1 a2 a3 a4 a5} {a0 : State} (h0 : Canon q a0) (h5 : ∀ x0 u, Canon q u → Canon q (a5 x0 u)) :
    Canon q (State.busTake a0 a1 a2 a3 a4 a5) := by
  unfold State.busTake
  try dsimp only
  repeat' with_reducible first
    | assumption | intro _ | apply h5 | apply State.busAnswer_canon | apply State.setTarget_canon | apply canon_ite
    | dsimp only | split

theorem execFenceBusFence_canon {q a0 a1 a2} {a3 : State} {t : State} (e : execFenceBusFence a0 a1 a2 a3 = .next t) (h3 : Canon q a3) : Canon q t := by
  unfold execFenceBusFence at e
  refine act_canon e h3 ?_
  intros
  repeat' with_reducible first
    | assumption | intro _ | refine act_canon (by assumption) ?_ | apply State.busTake_canon | dsimp only

theorem execFenceBusUnfence_canon {q a0 a1 a2} {a3 : State} {t : State} (e : execFenceBusUnfence a0 a1 a2 a3 = .next t) (h3 : Canon q a3) : Canon q t := by
  unfold execFenceBusUnfence at e
  refine act_canon e h3 ?_
  intros
  repeat' with_reducible first
    | assumption | intro _ | refine act_canon (by assumption) ?_ | apply State.busTake_canon | dsimp only

theorem applyReg_canon {q a0 a1 a2} {a3 : State} (h3 : Canon q a3) :
    Canon q (applyReg a0 a1 a2 a3) := by
  unfold applyReg
  try dsimp only
  repeat' with_reducible first
    | assumption | apply canon_put | intro _ | apply canon_ite | dsimp only | split

theorem execFenceBusReg_canon {q a0 a1 a2} {a3 : State} {t : State} (e : execFenceBusReg a0 a1 a2 a3 = .next t) (h3 : Canon q a3) : Canon q t := by
  unfold execFenceBusReg at e
  refine act_canon e h3 ?_
  intros
  repeat' with_reducible first
    | assumption | intro _ | refine act_canon (by assumption) ?_ | apply State.busTake_canon | apply applyReg_canon
    | dsimp only

theorem busIrqEffect_canon {q a0 a1} {a2 : State} (h2 : Canon q a2) :
    Canon q (busIrqEffect a0 a1 a2) := by
  unfold busIrqEffect
  try dsimp only
  repeat' with_reducible first
    | assumption | apply State.setTarget_canon | apply State.busPump_canon | apply State.busAnswer_canon
    | apply canon_ite | dsimp only | split

theorem execFenceBusIrq_canon {q a0 a1} {a2 : State} {t : State} (e : execFenceBusIrq a0 a1 a2 = .next t) (h2 : Canon q a2) : Canon q t := by
  unfold execFenceBusIrq at e
  refine act_canon e h2 ?_
  intros
  repeat' with_reducible first
    | assumption | intro _ | refine act_canon (by assumption) ?_ | apply busIrqEffect_canon | dsimp only

theorem busAckEffect_canon {q a0 a1 a2} {a3 : State} (h3 : Canon q a3) :
    Canon q (busAckEffect a0 a1 a2 a3) := by
  unfold busAckEffect
  try dsimp only
  repeat' with_reducible first
    | assumption | apply State.busPump_canon | apply State.setTarget_canon | intro _ | apply canon_ite | dsimp only
    | split

theorem execFenceBusAck_canon {q a0 a1 a2} {a3 : State} {t : State} (e : execFenceBusAck a0 a1 a2 a3 = .next t) (h3 : Canon q a3) : Canon q t := by
  unfold execFenceBusAck at e
  refine act_canon e h3 ?_
  intros
  repeat' with_reducible first
    | assumption | intro _ | refine act_canon (by assumption) ?_ | apply busAckEffect_canon | dsimp only

theorem busNakEffect_canon {q a0 a1 a2} {a3 : State} (h3 : Canon q a3) :
    Canon q (busNakEffect a0 a1 a2 a3) := by
  unfold busNakEffect
  try dsimp only
  repeat' with_reducible first
    | assumption | apply State.busRetry_canon | intro _ | apply canon_ite | dsimp only | split

theorem execFenceBusNak_canon {q a0 a1 a2} {a3 : State} {t : State} (e : execFenceBusNak a0 a1 a2 a3 = .next t) (h3 : Canon q a3) : Canon q t := by
  unfold execFenceBusNak at e
  refine act_canon e h3 ?_
  intros
  repeat' with_reducible first
    | assumption | intro _ | refine act_canon (by assumption) ?_ | apply busNakEffect_canon | dsimp only

theorem ackTimeoutEffect_canon {q a0 a1} {a2 : State} (h2 : Canon q a2) :
    Canon q (ackTimeoutEffect a0 a1 a2) := by
  unfold ackTimeoutEffect
  try dsimp only
  repeat' with_reducible first
    | assumption | apply State.busRetry_canon | intro _ | apply canon_ite | dsimp only | split

theorem execFenceAckTimeout_canon {q a0 a1} {a2 : State} {t : State} (e : execFenceAckTimeout a0 a1 a2 = .next t) (h2 : Canon q a2) : Canon q t := by
  unfold execFenceAckTimeout at e
  refine act_canon e h2 ?_
  intros
  repeat' with_reducible first
    | assumption | intro _ | refine act_canon (by assumption) ?_ | apply ackTimeoutEffect_canon | dsimp only

theorem mbxMessage_canon {q a0 a1 a2} {a3 : State} {t : State} (e : mbxMessage a0 a1 a2 a3 = .next t) (h2 : ∀ x0 u, Canon q u → Canon q (a2 x0 u)) (h3 : Canon q a3) : Canon q t := by
  unfold mbxMessage at e
  split at e
  · cases e; exact h3
  · split at e
    · cases e
    · cases e
      have hb := State.setInBusy_canon (a1 := a0) (a2 := false) h3
      refine State.settle_canon (canon_ite (State.mbxReply_canon hb) (canon_ite (State.mbxReply_canon hb) (h2 _ _ hb)))


theorem State.helloAnswer_canon {q a1} {a0 : State} (h0 : Canon q a0) :
    Canon q (State.helloAnswer a0 a1) := by
  unfold State.helloAnswer
  try dsimp only
  repeat' with_reducible first
    | assumption | apply State.setInBusy_canon | apply State.setInst_canon | apply State.mbxReply_canon
    | apply canon_ite | dsimp only | split

theorem execHello_canon {q a0} {a1 : State} {t : State} (e : execHello a0 a1 = .next t) (h1 : Canon q a1) : Canon q t := by
  unfold execHello at e
  split at e
  · cases e
    exact canon_ite (State.settle_canon (State.helloAnswer_canon h1)) h1
  · exact mbxMessage_canon e (fun _ _ h => State.mbxReply_canon h) h1

theorem State.sigReject_canon {q a1} {a0 : State} (h0 : Canon q a0) :
    Canon q (State.sigReject a0 a1) := by
  unfold State.sigReject
  try dsimp only
  repeat' with_reducible first
    | assumption | apply State.raise_canon | apply State.grdInfo_canon | dsimp only | split

theorem State.fwStage_canon {q a1 a2} {a0 : State} (h0 : Canon q a0) :
    Canon q (State.fwStage a0 a1 a2) := by
  unfold State.fwStage
  try dsimp only
  repeat' with_reducible first
    | assumption | apply State.mbxReply_canon | apply State.stageReject_canon | apply State.emit_canon
    | apply State.sigReject_canon | apply State.stageAnswer_canon | apply canon_ite | dsimp only | split

theorem execFwStage_canon {q a0 a1} {a2 : State} {t : State} (e : execFwStage a0 a1 a2 = .next t) (h2 : Canon q a2) : Canon q t := by
  unfold execFwStage at e
  refine mbxMessage_canon e ?_ h2
  intros
  repeat' with_reducible first
    | assumption | intro _ | refine mbxMessage_canon (by assumption) ?_ | apply State.fwStage_canon | dsimp only

theorem State.fwActivate_canon {q a1} {a0 : State} (h0 : Canon q a0) :
    Canon q (State.fwActivate a0 a1) := by
  unfold State.fwActivate
  try dsimp only
  repeat' with_reducible first
    | assumption | apply State.mbxReply_canon | apply State.exchange_canon | apply State.activate_canon
    | apply canon_ite | dsimp only | split

theorem execFwActivate_canon {q a0} {a1 : State} {t : State} (e : execFwActivate a0 a1 = .next t) (h1 : Canon q a1) : Canon q t := by
  unfold execFwActivate at e
  refine mbxMessage_canon e ?_ h1
  intros
  repeat' with_reducible first
    | assumption | intro _ | refine mbxMessage_canon (by assumption) ?_ | apply State.fwActivate_canon | dsimp only

theorem processorLoadedEffect_canon {q a0 a1} {a2 : State} (h2 : Canon q a2) :
    Canon q (processorLoadedEffect a0 a1 a2) := by
  unfold processorLoadedEffect
  try dsimp only
  repeat' with_reducible first
    | assumption | apply State.modProc_canon | apply State.loadMicrocode_canon | intro _ | apply State.serveNew_canon
    | apply canon_ite | dsimp only | split

theorem execProcessorLoaded_canon {q a0 a1} {a2 : State} {t : State} (e : execProcessorLoaded a0 a1 a2 = .next t) (h2 : Canon q a2) : Canon q t := by
  unfold execProcessorLoaded at e
  refine act_canon e h2 ?_
  intros
  repeat' with_reducible first
    | assumption | intro _ | refine act_canon (by assumption) ?_ | apply processorLoadedEffect_canon | dsimp only

theorem bootTimeoutEffect_canon {q} {a0 : State} (h0 : Canon q a0) :
    Canon q (bootTimeoutEffect a0) := by
  unfold bootTimeoutEffect
  try dsimp only
  repeat' with_reducible first
    | assumption | apply State.raise_canon | apply State.fwInfo_canon | apply canon_ite | dsimp only | split

theorem execBootLoadTimeout_canon {q} {a0 : State} {t : State} (e : execBootLoadTimeout a0 = .next t) (h0 : Canon q a0) : Canon q t := by
  unfold execBootLoadTimeout at e
  refine act_canon e h0 ?_
  intros
  repeat' with_reducible first
    | assumption | intro _ | refine act_canon (by assumption) ?_ | apply bootTimeoutEffect_canon | dsimp only

theorem State.fwCoreUpdate_canon {q a1} {a0 : State} (h0 : Canon q a0) :
    Canon q (State.fwCoreUpdate a0 a1) := by
  unfold State.fwCoreUpdate
  try dsimp only
  repeat' with_reducible first
    | assumption | intro _ | apply State.mbxReply_canon | apply State.fixPartition_canon | apply canon_filter
    | apply canon_ite | apply canon_foldl | dsimp only | split

theorem execFwCoreUpdate_canon {q a0} {a1 : State} {t : State} (e : execFwCoreUpdate a0 a1 = .next t) (h1 : Canon q a1) : Canon q t := by
  unfold execFwCoreUpdate at e
  refine mbxMessage_canon e ?_ h1
  intros
  repeat' with_reducible first
    | assumption | intro _ | refine mbxMessage_canon (by assumption) ?_ | apply State.fwCoreUpdate_canon | dsimp only

theorem watchdogEffect_canon {q a0} {a1 : State} (h1 : Canon q a1) :
    Canon q (watchdogEffect a0 a1) := by
  unfold watchdogEffect
  try dsimp only
  repeat' with_reducible first
    | assumption | apply State.crash_canon | apply State.drew_canon | apply canon_ite | dsimp only | split

theorem execWatchdogExpiry_canon {q a0} {a1 : State} {t : State} (e : execWatchdogExpiry a0 a1 = .next t) (h1 : Canon q a1) : Canon q t := by
  unfold execWatchdogExpiry at e
  refine actFw_canon e h1 ?_
  intros
  repeat' with_reducible first
    | assumption | intro _ | refine actFw_canon (by assumption) ?_ | apply watchdogEffect_canon | dsimp only

theorem trapFaultEffect_canon {q a0 a1 a2} {a3 : State} (h3 : Canon q a3) :
    Canon q (trapFaultEffect a0 a1 a2 a3) := by
  unfold trapFaultEffect
  try dsimp only
  repeat' with_reducible first
    | assumption | apply State.crash_canon | apply canon_ite | dsimp only | split

theorem execProcessorTrapFault_canon {q a0 a1 a2} {a3 : State} {t : State} (e : execProcessorTrapFault a0 a1 a2 a3 = .next t) (h3 : Canon q a3) : Canon q t := by
  unfold execProcessorTrapFault at e
  refine actFw_canon e h3 ?_
  intros
  repeat' with_reducible first
    | assumption | intro _ | refine actFw_canon (by assumption) ?_ | apply trapFaultEffect_canon | dsimp only

theorem restartLimitEffect_canon {q a0} {a1 : State} (h1 : Canon q a1) :
    Canon q (restartLimitEffect a0 a1) := by
  unfold restartLimitEffect
  try dsimp only
  repeat' with_reducible first
    | assumption | apply State.crash_canon | apply canon_ite | dsimp only | split

theorem execRestartLimitExpiry_canon {q a0} {a1 : State} {t : State} (e : execRestartLimitExpiry a0 a1 = .next t) (h1 : Canon q a1) : Canon q t := by
  unfold execRestartLimitExpiry at e
  refine actFw_canon e h1 ?_
  intros
  repeat' with_reducible first
    | assumption | intro _ | refine actFw_canon (by assumption) ?_ | apply restartLimitEffect_canon | dsimp only

theorem rebuildEffect_canon {q a0} {a1 : State} (h1 : Canon q a1) :
    Canon q (rebuildEffect a0 a1) := by
  unfold rebuildEffect
  try dsimp only
  repeat' with_reducible first
    | assumption | apply State.procResume_canon | apply canon_ite | dsimp only | split

theorem execRebuildComplete_canon {q a0} {a1 : State} {t : State} (e : execRebuildComplete a0 a1 = .next t) (h1 : Canon q a1) : Canon q t := by
  unfold execRebuildComplete at e
  refine actFw_canon e h1 ?_
  intros
  repeat' with_reducible first
    | assumption | intro _ | refine actFw_canon (by assumption) ?_ | apply rebuildEffect_canon | dsimp only

theorem fwForceEffect_canon {q a0} {a1 : State} (h1 : Canon q a1) :
    Canon q (fwForceEffect a0 a1) := by
  unfold fwForceEffect
  try dsimp only
  repeat' with_reducible first
    | assumption | apply State.plannedRestart_canon | apply canon_ite | dsimp only | split

theorem execFwRestartForce_canon {q a0} {a1 : State} {t : State} (e : execFwRestartForce a0 a1 = .next t) (h1 : Canon q a1) : Canon q t := by
  unfold execFwRestartForce at e
  refine barWrite_canon e h1 ?_
  intros
  repeat' with_reducible first
    | assumption | intro _ | refine barWrite_canon (by assumption) ?_ | apply fwForceEffect_canon | dsimp only

theorem leaseRenewBody_canon {q a0} {a1 : State} (h1 : Canon q a1) :
    AnsCanon q (leaseRenewBody a0 a1) := by
  unfold leaseRenewBody
  try dsimp only
  repeat' with_reducible first
    | assumption | exact ansCanon_refuse | apply ansCanon_done | apply ansCanon_ite | intro _ | apply ansCanon_ends
    | apply ansCanon_later | apply ansCanon_long | apply canon_ite | dsimp only | split

theorem execLeaseRenew_canon {q a0} {a1 : State} {t : State} (e : execLeaseRenew a0 a1 = .next t) (h1 : Canon q a1) : Canon q t := by
  unfold execLeaseRenew at e
  refine act_canon e h1 ?_
  intros
  repeat' with_reducible first
    | assumption | intro _ | refine act_canon (by assumption) ?_ | apply State.perform_canon | apply leaseRenewBody_canon
    | dsimp only

theorem leaseExpiryEffect_canon {q} {a0 : State} (h0 : Canon q a0) :
    Canon q (leaseExpiryEffect a0) := by
  unfold leaseExpiryEffect
  try dsimp only
  repeat' with_reducible first
    | assumption | apply State.enterOrphan_canon | apply canon_ite | dsimp only | split

theorem execLeaseExpiry_canon {q} {a0 : State} {t : State} (e : execLeaseExpiry a0 = .next t) (h0 : Canon q a0) : Canon q t := by
  unfold execLeaseExpiry at e
  refine act_canon e h0 ?_
  intros
  repeat' with_reducible first
    | assumption | intro _ | refine act_canon (by assumption) ?_ | apply leaseExpiryEffect_canon | dsimp only

theorem execLinkDown_canon {q} {a0 : State} {t : State} (e : execLinkDown a0 = .next t) (h0 : Canon q a0) : Canon q t := by
  unfold execLinkDown at e
  refine act_canon e h0 ?_
  intros
  repeat' with_reducible first
    | assumption | intro _ | refine act_canon (by assumption) ?_ | apply State.enterOrphan_canon | dsimp only

theorem execPfFlr_canon {q} {a0 : State} {t : State} (e : execPfFlr a0 = .next t) (h0 : Canon q a0) : Canon q t := by
  unfold execPfFlr at e
  refine act_canon e h0 ?_
  intros
  repeat' with_reducible first
    | assumption | intro _ | refine act_canon (by assumption) ?_ | apply State.enterOrphan_canon | dsimp only

theorem execOrphanResume_canon {q a0} {a1 : State} {t : State} (e : execOrphanResume a0 a1 = .next t) (h1 : Canon q a1) : Canon q t := by
  unfold execOrphanResume at e
  refine mbxMessage_canon e ?_ h1
  intros
  repeat' with_reducible first
    | assumption | intro _ | refine mbxMessage_canon (by assumption) ?_ | apply State.mbxReply_canon
    | apply State.resumeOrphan_canon | apply canon_ite | dsimp only | split

theorem execOrphanReset_canon {q a0} {a1 : State} {t : State} (e : execOrphanReset a0 a1 = .next t) (h1 : Canon q a1) : Canon q t := by
  unfold execOrphanReset at e
  refine mbxMessage_canon e ?_ h1
  intros
  repeat' with_reducible first
    | assumption | intro _ | refine mbxMessage_canon (by assumption) ?_ | apply State.resetOrphan_canon
    | apply State.mbxReply_canon | apply canon_ite | dsimp only | split

theorem dispatchRecordEffect_canon {q a0 a1 a2} {a3 : State} (h3 : Canon q a3) :
    Canon q (dispatchRecordEffect a0 a1 a2 a3) := by
  unfold dispatchRecordEffect
  try dsimp only
  repeat' with_reducible first
    | assumption | apply State.emit_canon | apply State.modAgent_canon | intro _ | apply canon_ite | dsimp only
    | split

theorem State.readForCrc_canon {q a1 a2} {a0 : State} (h0 : Canon q a0) :
    Canon q (State.readForCrc a0 a1 a2) := by
  unfold State.readForCrc
  try dsimp only
  repeat' with_reducible first
    | assumption | apply State.emit_canon | apply canon_ite | dsimp only | split

theorem execDispatchRecord_canon {q a0 a1 a2} {a3 : State} {t : State} (e : execDispatchRecord a0 a1 a2 a3 = .next t) (h3 : Canon q a3) : Canon q t := by
  unfold execDispatchRecord at e
  refine act_canon e h3 ?_
  intros
  repeat' with_reducible first
    | assumption | intro _ | refine act_canon (by assumption) ?_ | apply dispatchRecordEffect_canon | dsimp only

theorem State.programFail_canon {q a1 a2 a3 a4 a5} {a0 : State} (h0 : Canon q a0) :
    Canon q (State.programFail a0 a1 a2 a3 a4 a5) := by
  unfold State.programFail
  try dsimp only
  repeat' with_reducible first
    | assumption | apply State.modAgentStep_canon | apply State.modStep_canon | apply State.frmFault_canon
    | apply canon_getD | intro _ | apply canon_ite | dsimp only | split

theorem State.fetchDescs_canon {q a1 a2 a3} {a0 : State} (h0 : Canon q a0) :
    Canon q (State.fetchDescs a0 a1 a2 a3) := by
  unfold State.fetchDescs
  try dsimp only
  repeat' with_reducible first
    | assumption | apply State.emits_canon | intro _ | dsimp only | split

theorem programCheckEffect_canon {q a0 a1 a2 a3 a4} {a5 : State} (h5 : Canon q a5) :
    Canon q (programCheckEffect a0 a1 a2 a3 a4 a5) := by
  unfold programCheckEffect
  try dsimp only
  repeat' with_reducible first
    | assumption | apply State.programFail_canon | apply State.modStep_canon | apply State.modAgentStep_canon
    | apply State.fetchDescs_canon | apply State.readForCrc_canon | intro _ | apply canon_ite | dsimp only | split

theorem execProgramCheckDone_canon {q a0 a1 a2 a3 a4} {a5 : State} {t : State} (e : execProgramCheckDone a0 a1 a2 a3 a4 a5 = .next t) (h5 : Canon q a5) : Canon q t := by
  unfold execProgramCheckDone at e
  refine act_canon e h5 ?_
  intros
  repeat' with_reducible first
    | assumption | intro _ | refine act_canon (by assumption) ?_ | apply programCheckEffect_canon | dsimp only

theorem State.refuseLaunch_canon {q a1 a2 a3 a4 a5 a6} {a0 : State} (h0 : Canon q a0) :
    Canon q (State.refuseLaunch a0 a1 a2 a3 a4 a5 a6) := by
  unfold State.refuseLaunch
  try dsimp only
  repeat' with_reducible first
    | assumption | intro _ | apply State.modLaunch_canon | apply State.satReg_canon | apply State.frmFault_canon
    | apply canon_ite | dsimp only | split

theorem State.beginLaunch_canon {q a1 a2 a3 a4 a5} {a0 : State} (h0 : Canon q a0) :
    Canon q (State.beginLaunch a0 a1 a2 a3 a4 a5) := by
  unfold State.beginLaunch
  try dsimp only
  repeat' with_reducible first
    | assumption | intro _ | apply State.checkLaunch_canon | apply State.modLaunch_canon | dsimp only | split

theorem expandEffect_canon {q a0 a1 a2} {a3 : State} (h3 : Canon q a3) :
    Canon q (expandEffect a0 a1 a2 a3) := by
  unfold expandEffect
  try dsimp only
  repeat' with_reducible first
    | assumption | apply State.modAgent_canon | apply State.modAgentStep_canon | apply State.fetchDescs_canon
    | apply State.refuseLaunch_canon | apply State.beginLaunch_canon | intro _ | apply canon_ite | dsimp only | split

theorem execLaunchExpand_canon {q a0 a1 a2} {a3 : State} {t : State} (e : execLaunchExpand a0 a1 a2 a3 = .next t) (h3 : Canon q a3) : Canon q t := by
  unfold execLaunchExpand at e
  refine act_canon e h3 ?_
  intros
  repeat' with_reducible first
    | assumption | intro _ | refine act_canon (by assumption) ?_ | apply expandEffect_canon | dsimp only

theorem execEngineCommandIssue_canon {q a0 a1 a2} {a3 : State} {t : State} (e : execEngineCommandIssue a0 a1 a2 a3 = .next t) (h3 : Canon q a3) : Canon q t := by
  unfold execEngineCommandIssue at e
  refine act_canon e h3 ?_
  intros
  repeat' with_reducible first
    | assumption | intro _ | refine act_canon (by assumption) ?_ | apply State.issue_canon | dsimp only

theorem creditEffect_canon {q a0 a1 a2} {a3 : State} (h3 : Canon q a3) :
    Canon q (creditEffect a0 a1 a2 a3) := by
  unfold creditEffect
  try dsimp only
  repeat' with_reducible first
    | assumption | intro _ | apply State.modCore_canon | apply canon_ite | dsimp only | split

theorem execQueueCredit_canon {q a0 a1 a2} {a3 : State} {t : State} (e : execQueueCredit a0 a1 a2 a3 = .next t) (h3 : Canon q a3) : Canon q t := by
  unfold execQueueCredit at e
  refine act_canon e h3 ?_
  intros
  repeat' with_reducible first
    | assumption | intro _ | refine act_canon (by assumption) ?_ | apply creditEffect_canon | dsimp only

theorem headIssueEffect_canon {q a0 a1 a2} {a3 : State} (h3 : Canon q a3) :
    Canon q (headIssueEffect a0 a1 a2 a3) := by
  unfold headIssueEffect
  try dsimp only
  repeat' with_reducible first
    | assumption | intro _ | apply State.syncCore_canon | apply State.modCore_canon | dsimp only | split

theorem execHeadIssue_canon {q a0 a1 a2} {a3 : State} {t : State} (e : execHeadIssue a0 a1 a2 a3 = .next t) (h3 : Canon q a3) : Canon q t := by
  unfold execHeadIssue at e
  refine act_canon e h3 ?_
  intros
  repeat' with_reducible first
    | assumption | intro _ | refine act_canon (by assumption) ?_ | apply headIssueEffect_canon | dsimp only

theorem State.evictTraffic_canon {q a1 a2 a3} {a0 : State} (h0 : Canon q a0) :
    Canon q (State.evictTraffic a0 a1 a2 a3) := by
  unfold State.evictTraffic
  try dsimp only
  repeat' with_reducible first
    | assumption | apply State.urgentTraffic_canon | dsimp only | split

theorem State.setTraffic_canon {q a1 a2 a3 a4} {a0 : State} (h0 : Canon q a0) :
    Canon q (State.setTraffic a0 a1 a2 a3 a4) := by
  unfold State.setTraffic
  try dsimp only
  repeat' with_reducible first
    | assumption | intro _ | apply State.urgentTraffic_canon | dsimp only | split

theorem State.rsvDone_canon {q a1 a2 a3 a4 a5} {a0 : State} (h0 : Canon q a0) :
    Canon q (State.rsvDone a0 a1 a2 a3 a4 a5) := by
  unfold State.rsvDone
  try dsimp only
  repeat' with_reducible first
    | assumption | intro _ | apply State.modCore_canon | apply State.evictFree_canon | apply State.modRec_canon
    | apply State.evictTraffic_canon | apply State.setTraffic_canon | apply canon_ite | dsimp only | split

theorem State.partDone_canon {q a1 a2 a3 a4 a5 a6} {a0 : State} (h0 : Canon q a0) :
    Canon q (State.partDone a0 a1 a2 a3 a4 a5 a6) := by
  unfold State.partDone
  try dsimp only
  repeat' with_reducible first
    | assumption | intro _ | apply State.modCore_canon | apply State.execFault_canon | apply State.raise_canon
    | apply canon_ite | dsimp only | split

theorem State.partFault_canon {q a1 a2 a3 a4 a5 a6 a7 a8} {a0 : State} (h0 : Canon q a0) :
    Canon q (State.partFault a0 a1 a2 a3 a4 a5 a6 a7 a8) := by
  unfold State.partFault
  try dsimp only
  repeat' with_reducible first
    | assumption | intro _ | apply State.modLaunch_canon | apply State.frmFault_canon | apply State.satReg_canon
    | apply State.execFault_canon | apply canon_ite | dsimp only | split

theorem State.markLaunch_canon {q a1 a2 a3 a4} {a0 : State} (h0 : Canon q a0) :
    Canon q (State.markLaunch a0 a1 a2 a3 a4) := by
  unfold State.markLaunch
  try dsimp only
  repeat' with_reducible first
    | assumption | intro _ | apply State.capMark_canon | apply canon_ite | apply canon_foldl | dsimp only | split

theorem State.rsvFault_canon {q a1 a2 a3 a4 a5 a6} {a0 : State} (h0 : Canon q a0) :
    Canon q (State.rsvFault a0 a1 a2 a3 a4 a5 a6) := by
  unfold State.rsvFault
  try dsimp only
  repeat' with_reducible first
    | assumption | intro _ | apply State.modStep_canon | apply State.modAgentStep_canon | apply State.frmFault_canon
    | dsimp only | split

theorem completeEffect_canon {q a0 a1 a2 a3 a4 a5 a6 a7} {a8 : State} (h8 : Canon q a8) :
    Canon q (completeEffect a0 a1 a2 a3 a4 a5 a6 a7 a8) := by
  unfold completeEffect
  try dsimp only
  repeat' with_reducible first
    | assumption | intro _ | apply State.modCore_canon | apply State.partDone_canon | apply State.rsvDone_canon
    | apply State.partFault_canon | apply State.frmFault_canon | apply State.syncCore_canon
    | apply State.checkLaunch_canon | apply State.markLaunch_canon | apply State.drew_canon | apply State.leave_canon
    | apply State.rsvFault_canon | apply canon_ite | apply canon_foldl | dsimp only | split

theorem execCommandComplete_canon {q a0 a1 a2 a3 a4 a5 a6 a7} {a8 : State} {t : State} (e : execCommandComplete a0 a1 a2 a3 a4 a5 a6 a7 a8 = .next t) (h8 : Canon q a8) : Canon q t := by
  unfold execCommandComplete at e
  refine act_canon e h8 ?_
  intros
  repeat' with_reducible first
    | assumption | intro _ | refine act_canon (by assumption) ?_ | apply completeEffect_canon | dsimp only

theorem State.waitDiag_canon {q a1 a2 a3 a4 a5 a6 a7} {a0 : State} (h0 : Canon q a0) :
    Canon q (State.waitDiag a0 a1 a2 a3 a4 a5 a6 a7) := by
  unfold State.waitDiag
  try dsimp only
  repeat' with_reducible first
    | assumption | apply State.setReg_canon | intro _ | apply canon_ite | dsimp only | split

theorem waitTimeoutEffect_canon {q a0 a1 a2} {a3 : State} (h3 : Canon q a3) :
    Canon q (waitTimeoutEffect a0 a1 a2 a3) := by
  unfold waitTimeoutEffect
  try dsimp only
  repeat' with_reducible first
    | assumption | intro _ | apply State.modCore_canon | apply State.waitDiag_canon | apply State.execFault_canon
    | apply State.satReg_canon | apply State.raise_canon | dsimp only | split

theorem execWaitTimeout_canon {q a0 a1 a2} {a3 : State} {t : State} (e : execWaitTimeout a0 a1 a2 a3 = .next t) (h3 : Canon q a3) : Canon q t := by
  unfold execWaitTimeout at e
  refine act_canon e h3 ?_
  intros
  repeat' with_reducible first
    | assumption | intro _ | refine act_canon (by assumption) ?_ | apply waitTimeoutEffect_canon | dsimp only

theorem gateTimeoutEffect_canon {q a0 a1 a2} {a3 : State} (h3 : Canon q a3) :
    Canon q (gateTimeoutEffect a0 a1 a2 a3) := by
  unfold gateTimeoutEffect
  try dsimp only
  repeat' with_reducible first
    | assumption | intro _ | apply State.modCore_canon | apply State.setReg_canon | apply State.execFault_canon
    | apply State.frmFault_canon | apply canon_getD | dsimp only | split

theorem execGateTimeout_canon {q a0 a1 a2} {a3 : State} {t : State} (e : execGateTimeout a0 a1 a2 a3 = .next t) (h3 : Canon q a3) : Canon q t := by
  unfold execGateTimeout at e
  refine act_canon e h3 ?_
  intros
  repeat' with_reducible first
    | assumption | intro _ | refine act_canon (by assumption) ?_ | apply gateTimeoutEffect_canon | dsimp only

theorem completionRecordEffect_canon {q a0 a1 a2 a3} {a4 : State} (h4 : Canon q a4) :
    Canon q (completionRecordEffect a0 a1 a2 a3 a4) := by
  unfold completionRecordEffect
  try dsimp only
  repeat' with_reducible first
    | assumption | intro _ | apply State.modLaunch_canon | apply State.modStep_canon | apply State.runProgress_canon
    | apply State.emit_canon | apply canon_ite | dsimp only | split

theorem execCompletionRecord_canon {q a0 a1 a2 a3} {a4 : State} {t : State} (e : execCompletionRecord a0 a1 a2 a3 a4 = .next t) (h4 : Canon q a4) : Canon q t := by
  unfold execCompletionRecord at e
  refine act_canon e h4 ?_
  intros
  repeat' with_reducible first
    | assumption | intro _ | refine act_canon (by assumption) ?_ | apply completionRecordEffect_canon | dsimp only

theorem faultReportEffect_canon {q a0 a1 a2} {a3 : State} (h3 : Canon q a3) :
    Canon q (faultReportEffect a0 a1 a2 a3) := by
  unfold faultReportEffect
  try dsimp only
  repeat' with_reducible first
    | assumption | apply State.stopStep_canon | apply State.modAgentStep_canon | intro _ | apply canon_ite
    | dsimp only | split

theorem execExecutionFaultReport_canon {q a0 a1 a2} {a3 : State} {t : State} (e : execExecutionFaultReport a0 a1 a2 a3 = .next t) (h3 : Canon q a3) : Canon q t := by
  unfold execExecutionFaultReport at e
  refine act_canon e h3 ?_
  intros
  repeat' with_reducible first
    | assumption | intro _ | refine act_canon (by assumption) ?_ | apply faultReportEffect_canon | dsimp only

theorem State.stopAgentStep_canon {q a1 a2 a3 a4} {a0 : State} (h0 : Canon q a0) :
    Canon q (State.stopAgentStep a0 a1 a2 a3 a4) := by
  unfold State.stopAgentStep
  try dsimp only
  repeat' with_reducible first
    | assumption | intro _ | apply State.modAgentStep_canon | apply State.modCore_canon
    | apply State.withdrawCore_canon | apply State.syncCore_canon | apply State.capMark_canon
    | apply State.checkLaunch_canon | apply canon_filter | apply State.dropSets_canon | apply canon_ite
    | apply canon_foldl | dsimp only | split

theorem stepStopEffect_canon {q a0 a1 a2} {a3 : State} (h3 : Canon q a3) :
    Canon q (stepStopEffect a0 a1 a2 a3) := by
  unfold stepStopEffect
  try dsimp only
  repeat' with_reducible first
    | assumption | apply State.stopAgentStep_canon | intro _ | apply canon_ite | dsimp only | split

theorem execStepStop_canon {q a0 a1 a2} {a3 : State} {t : State} (e : execStepStop a0 a1 a2 a3 = .next t) (h3 : Canon q a3) : Canon q t := by
  unfold execStepStop at e
  refine act_canon e h3 ?_
  intros
  repeat' with_reducible first
    | assumption | intro _ | refine act_canon (by assumption) ?_ | apply stepStopEffect_canon | dsimp only

end Sys2Proof.Machine
end

