-- ==== Sys2Proof/Laws/CanonGuard.lean ====
section
/-!
SUPPORT. Laws/Canon.lean's property for the guard, sampler, streams, scheduler, instances.
-/

namespace Sys2Proof.Machine

theorem State.guardMessage_canon {q a1 a2 a3} {a0 : State} (h0 : Canon q a0) (h3 : ∀ u, Canon q u → Canon q (a3 u)) :
    Canon q (State.guardMessage a0 a1 a2 a3) := by
  unfold State.guardMessage
  try dsimp only
  repeat' with_reducible first
    | assumption | intro _ | apply h3 | apply State.mbxReply_canon | apply State.grdInfo_canon | dsimp only | split

theorem execZeroize_canon {q a0} {a1 : State} {t : State} (e : execZeroize a0 a1 = .next t) (h1 : Canon q a1) : Canon q t := by
  unfold execZeroize at e
  refine mbxMessage_canon e ?_ h1
  intros
  repeat' with_reducible first
    | assumption | intro _ | refine mbxMessage_canon (by assumption) ?_ | apply State.guardMessage_canon
    | apply State.zeroFull_canon | dsimp only

theorem State.lifecycleAdvance_canon {q a1 a2 a3} {a0 : State} (h0 : Canon q a0) :
    Canon q (State.lifecycleAdvance a0 a1 a2 a3) := by
  unfold State.lifecycleAdvance
  try dsimp only
  repeat' with_reducible first
    | assumption | apply State.mbxReply_canon | apply State.emit_canon | apply State.burnStart_canon
    | apply State.zeroFull_canon | apply State.sigReject_canon | apply canon_ite | dsimp only | split

theorem execLifecycleAdvance_canon {q a0 a1 a2} {a3 : State} {t : State} (e : execLifecycleAdvance a0 a1 a2 a3 = .next t) (h3 : Canon q a3) : Canon q t := by
  unfold execLifecycleAdvance at e
  refine mbxMessage_canon e ?_ h3
  intros
  repeat' with_reducible first
    | assumption | intro _ | refine mbxMessage_canon (by assumption) ?_ | apply State.guardMessage_canon
    | apply State.lifecycleAdvance_canon | dsimp only

theorem State.openKeySet_canon {q a1} {a0 : State} (h0 : Canon q a0) :
    Canon q (State.openKeySet a0 a1) := by
  unfold State.openKeySet
  try dsimp only
  repeat' with_reducible first
    | assumption | apply State.mbxReply_canon | intro _ | apply canon_ite | dsimp only | split

theorem execOpenKeySet_canon {q a0} {a1 : State} {t : State} (e : execOpenKeySet a0 a1 = .next t) (h1 : Canon q a1) : Canon q t := by
  unfold execOpenKeySet at e
  refine mbxMessage_canon e ?_ h1
  intros
  repeat' with_reducible first
    | assumption | intro _ | refine mbxMessage_canon (by assumption) ?_ | apply State.guardMessage_canon
    | apply State.openKeySet_canon | dsimp only

theorem execSelfTest_canon {q a0} {a1 : State} {t : State} (e : execSelfTest a0 a1 = .next t) (h1 : Canon q a1) : Canon q t := by
  unfold execSelfTest at e
  refine mbxMessage_canon e ?_ h1
  intros
  repeat' with_reducible first
    | assumption | intro _ | refine mbxMessage_canon (by assumption) ?_ | apply State.guardMessage_canon | dsimp only

theorem State.postPassed_canon {q} {a0 : State} (h0 : Canon q a0) :
    Canon q (State.postPassed a0) := by
  unfold State.postPassed
  try dsimp only
  repeat' with_reducible first
    | assumption | apply State.mbxReply_canon | apply State.newKeyId_canon | apply canon_ite | dsimp only | split

theorem State.postFailed_canon {q} {a0 : State} (h0 : Canon q a0) :
    Canon q (State.postFailed a0) := by
  unfold State.postFailed
  try dsimp only
  repeat' with_reducible first
    | assumption | apply State.sealGuard_canon | apply State.raise_canon | apply State.grdInfo_canon | apply canon_ite
    | dsimp only | split

theorem postDoneEffect_canon {q a0} {a1 : State} (h1 : Canon q a1) :
    Canon q (postDoneEffect a0 a1) := by
  unfold postDoneEffect
  try dsimp only
  repeat' with_reducible first
    | assumption | apply State.postPassed_canon | apply State.postFailed_canon | apply canon_ite | dsimp only | split

theorem execGuardPostDone_canon {q a0} {a1 : State} {t : State} (e : execGuardPostDone a0 a1 = .next t) (h1 : Canon q a1) : Canon q t := by
  unfold execGuardPostDone at e
  refine actFw_canon e h1 ?_
  intros
  repeat' with_reducible first
    | assumption | intro _ | refine actFw_canon (by assumption) ?_ | apply postDoneEffect_canon | dsimp only

theorem retestEffect_canon {q a0} {a1 : State} (h1 : Canon q a1) :
    Canon q (retestEffect a0 a1) := by
  unfold retestEffect
  try dsimp only
  repeat' with_reducible first
    | assumption | apply State.postFailed_canon | apply canon_ite | dsimp only | split

theorem execEntropyRetest_canon {q a0} {a1 : State} {t : State} (e : execEntropyRetest a0 a1 = .next t) (h1 : Canon q a1) : Canon q t := by
  unfold execEntropyRetest at e
  refine act_canon e h1 ?_
  intros
  repeat' with_reducible first
    | assumption | intro _ | refine act_canon (by assumption) ?_ | apply retestEffect_canon | dsimp only

theorem State.captureFreeze_canon {q} {a0 : State} (h0 : Canon q a0) :
    Canon q (State.captureFreeze a0) := by
  unfold State.captureFreeze
  try dsimp only
  repeat' with_reducible first
    | assumption | intro _ | dsimp only | split

theorem zeroizeDoneEffect_canon {q a0} {a1 : State} (h1 : Canon q a1) :
    Canon q (zeroizeDoneEffect a0 a1) := by
  unfold zeroizeDoneEffect
  try dsimp only
  repeat' with_reducible first
    | assumption | apply State.grdInfo_canon | apply State.raise_canon | apply State.mbxReply_canon
    | apply State.captureFreeze_canon | apply canon_ite | dsimp only | split

theorem execZeroizeDone_canon {q a0} {a1 : State} {t : State} (e : execZeroizeDone a0 a1 = .next t) (h1 : Canon q a1) : Canon q t := by
  unfold execZeroizeDone at e
  try dsimp only at e
  (repeat' split at e)
  all_goals first | cases e | skip
  repeat' with_reducible first
    | assumption | intro _ | apply State.settle_canon | apply zeroizeDoneEffect_canon | apply canon_ite | dsimp only
    | split

theorem fuseAckEffect_canon {q a0} {a1 : State} (h1 : Canon q a1) :
    Canon q (fuseAckEffect a0 a1) := by
  unfold fuseAckEffect
  try dsimp only
  repeat' with_reducible first
    | assumption | apply State.burnStart_canon | apply State.mbxReply_canon | apply State.burnGo_canon
    | apply State.burnNext_canon | apply canon_ite | dsimp only | split

theorem execFuseProgramAck_canon {q a0} {a1 : State} {t : State} (e : execFuseProgramAck a0 a1 = .next t) (h1 : Canon q a1) : Canon q t := by
  unfold execFuseProgramAck at e
  refine act_canon e h1 ?_
  intros
  repeat' with_reducible first
    | assumption | intro _ | refine act_canon (by assumption) ?_ | apply fuseAckEffect_canon | dsimp only

theorem State.doeError_canon {q a1 a2 a3} {a0 : State} (h0 : Canon q a0) :
    Canon q (State.doeError a0 a1 a2 a3) := by
  unfold State.doeError
  try dsimp only
  repeat' with_reducible first
    | assumption | apply State.emit_canon | dsimp only | split

theorem State.doeTell_canon {q a1 a2 a3} {a0 : State} (h0 : Canon q a0) :
    Canon q (State.doeTell a0 a1 a2 a3) := by
  unfold State.doeTell
  try dsimp only
  repeat' with_reducible first
    | assumption | apply State.emit_canon | dsimp only | split

theorem State.doeAnswer_canon {q a1 a2} {a0 : State} (h0 : Canon q a0) :
    Canon q (State.doeAnswer a0 a1 a2) := by
  unfold State.doeAnswer
  try dsimp only
  repeat' with_reducible first
    | assumption | apply State.emit_canon | apply State.doeTell_canon | dsimp only | split

theorem State.doeMalformed_canon {q a1 a2} {a0 : State} (h0 : Canon q a0) :
    Canon q (State.doeMalformed a0 a1 a2) := by
  unfold State.doeMalformed
  try dsimp only
  repeat' with_reducible first
    | assumption | apply State.doeError_canon | apply State.raise_canon | apply State.grdInfo_canon | dsimp only
    | split

theorem State.condFail_canon {q a1 a2 a3} {a0 : State} (h0 : Canon q a0) :
    Canon q (State.condFail a0 a1 a2 a3) := by
  unfold State.condFail
  try dsimp only
  repeat' with_reducible first
    | assumption | apply State.raise_canon | apply State.grdInfo_canon | dsimp only | split

theorem State.doeDraw_canon {q a1 a2 a3} {a0 : State} (h0 : Canon q a0) (h3 : ∀ u, Canon q u → Canon q (a3 u)) :
    Canon q (State.doeDraw a0 a1 a2 a3) := by
  unfold State.doeDraw
  exact canon_ite (State.doeError_canon (State.condFail_canon h0)) (h3 _ h0)

theorem State.doe_canon {q a1 a2 a3 a4} {a0 : State} (h0 : Canon q a0) (h4 : ∀ u, Canon q u → Canon q (a4 u)) :
    Canon q (State.doe a0 a1 a2 a3 a4) := by
  unfold State.doe
  repeat' with_reducible first
    | assumption | apply State.doeError_canon | apply State.doeMalformed_canon | apply State.doeDraw_canon
    | apply canon_ite | apply h4

theorem execGetVersion_canon {q a0} {a1 : State} {t : State} (e : execGetVersion a0 a1 = .next t) (h1 : Canon q a1) : Canon q t := by
  unfold execGetVersion at e
  refine act_canon e h1 ?_
  intros
  repeat' with_reducible first
    | assumption | intro _ | apply State.doe_canon | apply State.doeTell_canon | dsimp only

theorem execGetCapabilities_canon {q a0} {a1 : State} {t : State} (e : execGetCapabilities a0 a1 = .next t) (h1 : Canon q a1) : Canon q t := by
  unfold execGetCapabilities at e
  refine act_canon e h1 ?_
  intros
  repeat' with_reducible first
    | assumption | intro _ | refine act_canon (by assumption) ?_ | apply State.doe_canon | apply State.doeAnswer_canon
    | dsimp only

theorem execNegotiateAlgorithms_canon {q a0 a1} {a2 : State} {t : State} (e : execNegotiateAlgorithms a0 a1 a2 = .next t) (h2 : Canon q a2) : Canon q t := by
  unfold execNegotiateAlgorithms at e
  refine act_canon e h2 ?_
  intros
  repeat' with_reducible first
    | assumption | intro _ | apply State.doe_canon | apply State.doeTell_canon | dsimp only

theorem execGetDigests_canon {q a0} {a1 : State} {t : State} (e : execGetDigests a0 a1 = .next t) (h1 : Canon q a1) : Canon q t := by
  unfold execGetDigests at e
  refine act_canon e h1 ?_
  intros
  repeat' with_reducible first
    | assumption | intro _ | apply State.doe_canon | apply State.doeTell_canon | dsimp only


theorem State.doeSlot_canon {q a1 a2 a3} {a0 : State} (h0 : Canon q a0) :
    Canon q (State.doeSlot a0 a1 a2 a3) := by
  unfold State.doeSlot
  try dsimp only
  repeat' with_reducible first
    | assumption | apply State.doeAnswer_canon | apply State.doeError_canon | apply canon_ite | dsimp only | split

theorem execGetCertificate_canon {q a0 a1} {a2 : State} {t : State} (e : execGetCertificate a0 a1 a2 = .next t) (h2 : Canon q a2) : Canon q t := by
  unfold execGetCertificate at e
  refine act_canon e h2 ?_
  intros
  repeat' with_reducible first
    | assumption | intro _ | refine act_canon (by assumption) ?_ | apply State.doe_canon | apply State.doeSlot_canon
    | dsimp only

theorem execChallenge_canon {q a0 a1} {a2 : State} {t : State} (e : execChallenge a0 a1 a2 = .next t) (h2 : Canon q a2) : Canon q t := by
  unfold execChallenge at e
  refine act_canon e h2 ?_
  intros
  repeat' with_reducible first
    | assumption | intro _ | refine act_canon (by assumption) ?_ | apply State.doe_canon | apply State.doeSlot_canon
    | dsimp only

theorem State.doeMeasure_canon {q a1 a2} {a0 : State} (h0 : Canon q a0) :
    Canon q (State.doeMeasure a0 a1 a2) := by
  unfold State.doeMeasure
  try dsimp only
  repeat' with_reducible first
    | assumption | apply State.doeAnswer_canon | apply State.doeError_canon | apply State.doeTell_canon | intro _
    | apply canon_ite | dsimp only | split

theorem execGetMeasurements_canon {q a0 a1} {a2 : State} {t : State} (e : execGetMeasurements a0 a1 a2 = .next t) (h2 : Canon q a2) : Canon q t := by
  unfold execGetMeasurements at e
  refine act_canon e h2 ?_
  intros
  repeat' with_reducible first
    | assumption | intro _ | refine act_canon (by assumption) ?_ | apply State.doe_canon | apply State.doeMeasure_canon
    | dsimp only

theorem State.doeOpen_canon {q a1 a2} {a0 : State} (h0 : Canon q a0) :
    Canon q (State.doeOpen a0 a1 a2) := by
  unfold State.doeOpen
  try dsimp only
  repeat' with_reducible first
    | assumption | apply State.doeError_canon | apply State.doeAnswer_canon | apply State.condFail_canon
    | apply canon_ite | dsimp only | split

theorem execKeyExchange_canon {q a0 a1} {a2 : State} {t : State} (e : execKeyExchange a0 a1 a2 = .next t) (h2 : Canon q a2) : Canon q t := by
  unfold execKeyExchange at e
  refine act_canon e h2 ?_
  intros
  repeat' with_reducible first
    | assumption | intro _ | refine act_canon (by assumption) ?_ | apply State.doe_canon | apply State.doeOpen_canon
    | dsimp only

theorem State.doeFinish_canon {q a1 a2} {a0 : State} (h0 : Canon q a0) :
    Canon q (State.doeFinish a0 a1 a2) := by
  unfold State.doeFinish
  try dsimp only
  repeat' with_reducible first
    | assumption | apply State.doeError_canon | apply State.doeMalformed_canon | apply State.doeAnswer_canon | intro _
    | apply canon_ite | dsimp only | split

theorem execFinish_canon {q a0 a1} {a2 : State} {t : State} (e : execFinish a0 a1 a2 = .next t) (h2 : Canon q a2) : Canon q t := by
  unfold execFinish at e
  refine act_canon e h2 ?_
  intros
  repeat' with_reducible first
    | assumption | intro _ | refine act_canon (by assumption) ?_ | apply State.doe_canon | apply State.doeFinish_canon
    | dsimp only

theorem State.doeSecured_canon {q a1 a2 a3} {a0 : State} (h0 : Canon q a0) (h3 : ∀ u, Canon q u → Canon q (a3 u)) :
    Canon q (State.doeSecured a0 a1 a2 a3) := by
  unfold State.doeSecured
  try dsimp only
  repeat' with_reducible first
    | assumption | intro _ | apply h3 | apply State.doeError_canon | apply canon_ite | dsimp only | split

theorem execKeyUpdate_canon {q a0} {a1 : State} {t : State} (e : execKeyUpdate a0 a1 = .next t) (h1 : Canon q a1) : Canon q t := by
  unfold execKeyUpdate at e
  refine act_canon e h1 ?_
  intros
  repeat' with_reducible first
    | assumption | intro _ | refine act_canon (by assumption) ?_ | apply State.doe_canon | apply State.doeSecured_canon
    | apply State.doeAnswer_canon | dsimp only

theorem execSpdmHeartbeat_canon {q a0} {a1 : State} {t : State} (e : execSpdmHeartbeat a0 a1 = .next t) (h1 : Canon q a1) : Canon q t := by
  unfold execSpdmHeartbeat at e
  refine act_canon e h1 ?_
  intros
  repeat' with_reducible first
    | assumption | intro _ | refine act_canon (by assumption) ?_ | apply State.doe_canon | apply State.doeSecured_canon
    | apply State.doeAnswer_canon | dsimp only

theorem State.doeEnd_canon {q a1} {a0 : State} (h0 : Canon q a0) :
    Canon q (State.doeEnd a0 a1) := by
  unfold State.doeEnd
  try dsimp only
  repeat' with_reducible first
    | assumption | apply State.doeAnswer_canon | dsimp only | split

theorem execEndSession_canon {q a0} {a1 : State} {t : State} (e : execEndSession a0 a1 = .next t) (h1 : Canon q a1) : Canon q t := by
  unfold execEndSession at e
  refine act_canon e h1 ?_
  intros
  repeat' with_reducible first
    | assumption | intro _ | refine act_canon (by assumption) ?_ | apply State.doe_canon | apply State.doeSecured_canon
    | apply State.doeEnd_canon | dsimp only

theorem State.swarmKeyLoad_canon {q a1 a2 a3 a4} {a0 : State} (h0 : Canon q a0) :
    Canon q (State.swarmKeyLoad a0 a1 a2 a3 a4) := by
  unfold State.swarmKeyLoad
  try dsimp only
  repeat' with_reducible first
    | assumption | apply State.doeAnswer_canon | apply State.doeError_canon | apply canon_ite | dsimp only | split

theorem execSwarmKeyLoad_canon {q a0 a1 a2 a3} {a4 : State} {t : State} (e : execSwarmKeyLoad a0 a1 a2 a3 a4 = .next t) (h4 : Canon q a4) : Canon q t := by
  unfold execSwarmKeyLoad at e
  refine act_canon e h4 ?_
  intros
  repeat' with_reducible first
    | assumption | intro _ | refine act_canon (by assumption) ?_ | apply State.doe_canon | apply State.doeSecured_canon
    | apply State.swarmKeyLoad_canon | dsimp only

theorem keyActivateEffect_canon {q} {a0 : State} (h0 : Canon q a0) :
    Canon q (keyActivateEffect a0) := by
  unfold keyActivateEffect
  try dsimp only
  repeat' with_reducible first
    | assumption | apply State.deriveLinks_canon | apply canon_ite | dsimp only | split

theorem execKeyActivate_canon {q} {a0 : State} {t : State} (e : execKeyActivate a0 = .next t) (h0 : Canon q a0) : Canon q t := by
  unfold execKeyActivate at e
  refine act_canon e h0 ?_
  intros
  repeat' with_reducible first
    | assumption | intro _ | refine act_canon (by assumption) ?_ | apply keyActivateEffect_canon | dsimp only

theorem State.ideKm_canon {q a1 a2 a3 a4} {a0 : State} (h0 : Canon q a0) (h4 : ∀ u, Canon q u → Canon q (a4 u)) :
    Canon q (State.ideKm a0 a1 a2 a3 a4) := by
  unfold State.ideKm
  try dsimp only
  repeat' with_reducible first
    | assumption | intro _ | apply h4 | apply State.doe_canon | apply State.doeError_canon
    | apply State.doeSecured_canon | apply canon_ite | dsimp only | split

theorem execIdeKmQuery_canon {q a0} {a1 : State} {t : State} (e : execIdeKmQuery a0 a1 = .next t) (h1 : Canon q a1) : Canon q t := by
  unfold execIdeKmQuery at e
  refine act_canon e h1 ?_
  intros
  repeat' with_reducible first
    | assumption | intro _ | refine act_canon (by assumption) ?_ | apply State.ideKm_canon | apply State.doeAnswer_canon
    | dsimp only

theorem State.ideProg_canon {q a1 a2 a3 a4} {a0 : State} (h0 : Canon q a0) :
    Canon q (State.ideProg a0 a1 a2 a3 a4) := by
  unfold State.ideProg
  try dsimp only
  repeat' with_reducible first
    | assumption | apply State.doeAnswer_canon | apply State.emit_canon | intro _ | dsimp only | split

theorem execIdeKmKeyProg_canon {q a0 a1 a2 a3} {a4 : State} {t : State} (e : execIdeKmKeyProg a0 a1 a2 a3 a4 = .next t) (h4 : Canon q a4) : Canon q t := by
  unfold execIdeKmKeyProg at e
  refine act_canon e h4 ?_
  intros
  repeat' with_reducible first
    | assumption | intro _ | refine act_canon (by assumption) ?_ | apply State.ideKm_canon | apply State.ideProg_canon
    | dsimp only

theorem State.ideUse_canon {q a1 a2 a3 a4 a5} {a0 : State} (h0 : Canon q a0) :
    Canon q (State.ideUse a0 a1 a2 a3 a4 a5) := by
  unfold State.ideUse
  try dsimp only
  repeat' with_reducible first
    | assumption | apply State.doeAnswer_canon | apply State.doeError_canon | apply canon_ite | dsimp only | split

theorem execIdeKmKSetGo_canon {q a0 a1 a2 a3} {a4 : State} {t : State} (e : execIdeKmKSetGo a0 a1 a2 a3 a4 = .next t) (h4 : Canon q a4) : Canon q t := by
  unfold execIdeKmKSetGo at e
  refine act_canon e h4 ?_
  intros
  repeat' with_reducible first
    | assumption | intro _ | refine act_canon (by assumption) ?_ | apply State.ideKm_canon | apply State.ideUse_canon
    | dsimp only

theorem execIdeKmKSetStop_canon {q a0 a1 a2 a3} {a4 : State} {t : State} (e : execIdeKmKSetStop a0 a1 a2 a3 a4 = .next t) (h4 : Canon q a4) : Canon q t := by
  unfold execIdeKmKSetStop at e
  refine act_canon e h4 ?_
  intros
  repeat' with_reducible first
    | assumption | intro _ | refine act_canon (by assumption) ?_ | apply State.ideKm_canon | apply State.ideUse_canon
    | dsimp only

theorem sampleBindBody_canon {q a0} {a1 : State} (h1 : Canon q a1) :
    AnsCanon q (sampleBindBody a0 a1) := by
  unfold sampleBindBody
  try dsimp only
  repeat' with_reducible first
    | assumption | exact ansCanon_refuse | apply ansCanon_done | apply ansCanon_ite | intro _ | apply ansCanon_ends
    | apply ansCanon_later | apply ansCanon_long | apply canon_ite | dsimp only | split

theorem execSampleBind_canon {q a0} {a1 : State} {t : State} (e : execSampleBind a0 a1 = .next t) (h1 : Canon q a1) : Canon q t := by
  unfold execSampleBind at e
  refine act_canon e h1 ?_
  intros
  repeat' with_reducible first
    | assumption | intro _ | refine act_canon (by assumption) ?_ | apply State.perform_canon | apply sampleBindBody_canon
    | dsimp only

theorem State.needArena_canon {q a1 a2 a3} {a0 : State} (h0 : Canon q a0) :
    Canon q (State.needArena a0 a1 a2 a3) := by
  unfold State.needArena
  try dsimp only
  repeat' with_reducible first
    | assumption | intro _ | apply canon_ite | dsimp only | split

theorem State.writeArena_canon {q a1 a2 a3} {a0 : State} (h0 : Canon q a0) :
    Canon q (State.writeArena a0 a1 a2 a3) := by
  unfold State.writeArena
  try dsimp only
  repeat' with_reducible first
    | assumption | intro _ | apply State.writeRegion_canon | dsimp only | split

theorem tableLoadBody_canon {q a0 a1} {a2 : State} (h2 : Canon q a2) :
    AnsCanon q (tableLoadBody a0 a1 a2) := by
  unfold tableLoadBody
  try dsimp only
  repeat' with_reducible first
    | assumption | exact ansCanon_refuse | apply ansCanon_done | apply ansCanon_ite | intro _
    | apply State.needArena_canon | apply ansCanon_ends | apply ansCanon_later | apply ansCanon_long
    | apply State.writeArena_canon | apply canon_ite | dsimp only | split

theorem execSampleTableLoad_canon {q a0 a1} {a2 : State} {t : State} (e : execSampleTableLoad a0 a1 a2 = .next t) (h2 : Canon q a2) : Canon q t := by
  unfold execSampleTableLoad at e
  refine act_canon e h2 ?_
  intros
  repeat' with_reducible first
    | assumption | intro _ | refine act_canon (by assumption) ?_ | apply State.perform_canon | apply tableLoadBody_canon
    | dsimp only

theorem tableFreeBody_canon {q a0} {a1 : State} (h1 : Canon q a1) :
    AnsCanon q (tableFreeBody a0 a1) := by
  unfold tableFreeBody
  try dsimp only
  repeat' with_reducible first
    | assumption | exact ansCanon_refuse | apply ansCanon_done | apply ansCanon_ite | intro _ | apply ansCanon_ends
    | apply ansCanon_later | apply ansCanon_long | apply canon_ite | dsimp only | split

theorem execSampleTableFree_canon {q a0} {a1 : State} {t : State} (e : execSampleTableFree a0 a1 = .next t) (h1 : Canon q a1) : Canon q t := by
  unfold execSampleTableFree at e
  refine act_canon e h1 ?_
  intros
  repeat' with_reducible first
    | assumption | intro _ | refine act_canon (by assumption) ?_ | apply State.perform_canon | apply tableFreeBody_canon
    | dsimp only

theorem automatonLoadBody_canon {q a0 a1} {a2 : State} (h2 : Canon q a2) :
    AnsCanon q (automatonLoadBody a0 a1 a2) := by
  unfold automatonLoadBody
  try dsimp only
  repeat' with_reducible first
    | assumption | exact ansCanon_refuse | apply ansCanon_long | apply ansCanon_ite | intro _
    | apply State.opProgress_canon | apply State.needArena_canon | apply State.opEnd_canon | apply ansCanon_done
    | apply ansCanon_ends | apply ansCanon_later | apply State.writeArena_canon | apply canon_ite | dsimp only | split

theorem execAutomatonLoad_canon {q a0 a1} {a2 : State} {t : State} (e : execAutomatonLoad a0 a1 a2 = .next t) (h2 : Canon q a2) : Canon q t := by
  unfold execAutomatonLoad at e
  refine act_canon e h2 ?_
  intros
  repeat' with_reducible first
    | assumption | intro _ | refine act_canon (by assumption) ?_ | apply State.perform_canon
    | apply automatonLoadBody_canon | dsimp only

theorem automatonFreeBody_canon {q a0} {a1 : State} (h1 : Canon q a1) :
    AnsCanon q (automatonFreeBody a0 a1) := by
  unfold automatonFreeBody
  try dsimp only
  repeat' with_reducible first
    | assumption | exact ansCanon_refuse | apply ansCanon_done | apply ansCanon_ite | intro _ | apply ansCanon_ends
    | apply ansCanon_later | apply ansCanon_long | apply canon_ite | dsimp only | split

theorem execAutomatonFree_canon {q a0} {a1 : State} {t : State} (e : execAutomatonFree a0 a1 = .next t) (h1 : Canon q a1) : Canon q t := by
  unfold execAutomatonFree at e
  refine act_canon e h1 ?_
  intros
  repeat' with_reducible first
    | assumption | intro _ | refine act_canon (by assumption) ?_ | apply State.perform_canon
    | apply automatonFreeBody_canon | dsimp only

theorem execSampleRowDone_canon {q a0 a1 a2 a3 a4} {a5 : State} {t : State} (e : execSampleRowDone a0 a1 a2 a3 a4 a5 = .next t) (h5 : Canon q a5) : Canon q t := by
  unfold execSampleRowDone at e
  refine act_canon e h5 ?_
  intros
  repeat' with_reducible first
    | assumption | intro _ | refine act_canon (by assumption) ?_ | apply State.rowDone_canon | dsimp only | split

theorem execFullScanDone_canon {q a0 a1 a2 a3 a4} {a5 : State} {t : State} (e : execFullScanDone a0 a1 a2 a3 a4 a5 = .next t) (h5 : Canon q a5) : Canon q t := by
  unfold execFullScanDone at e
  refine act_canon e h5 ?_
  intros
  repeat' with_reducible first
    | assumption | intro _ | refine act_canon (by assumption) ?_ | apply State.scanDone_canon | dsimp only | split

theorem memberStepEndEffect_canon {q a0 a1 a2} {a3 : State} (h3 : Canon q a3) :
    Canon q (memberStepEndEffect a0 a1 a2 a3) := by
  unfold memberStepEndEffect
  try dsimp only
  repeat' with_reducible first
    | assumption | apply State.quietEnd_canon | intro _ | apply canon_ite | dsimp only | split

theorem execMemberStepEnd_canon {q a0 a1 a2} {a3 : State} {t : State} (e : execMemberStepEnd a0 a1 a2 a3 = .next t) (h3 : Canon q a3) : Canon q t := by
  unfold execMemberStepEnd at e
  refine act_canon e h3 ?_
  intros
  repeat' with_reducible first
    | assumption | intro _ | refine act_canon (by assumption) ?_ | apply memberStepEndEffect_canon | dsimp only

theorem State.takeLists_canon {q a1 a2} {a0 : State} {y0 y1 t} (e : State.takeLists a0 a1 a2 = some (y0, y1, t)) (h0 : Canon q a0) : Canon q t := by
  unfold State.takeLists at e
  split at e
  · cases e
  · refine of_bind e fun x hx e => ?_
    refine of_map e fun y hy e => ?_
    cases e
    exact State.chargeBrood_canon (State.takeBlock_canon hy (State.takeBlock_canon hx h0))

theorem State.admitLists_canon {q a1 a2} {a0 : State} {y0 y1 t} (e : State.admitLists a0 a1 a2 = some (y0, y1, t)) (h0 : Canon q a0) : Canon q t :=
  State.takeLists_canon e (State.reclaimTo_canon h0)

theorem State.admitMem_canon {q a1 a2 a3 a4} {a0 : State} {y0 t} (e : State.admitMem a0 a1 a2 a3 a4 = some (y0, t)) (h0 : Canon q a0) : Canon q t := by
  unfold State.admitMem at e
  refine of_bind e fun x hx e => ?_
  refine of_map e fun y hy e => ?_
  cases e
  exact State.takePairs_canon hy (State.admitLists_canon hx h0)

theorem admitBody_canon {q a0} {a1 : State} (h1 : Canon q a1) :
    AnsCanon q (admitBody a0 a1) := by
  unfold admitBody
  try dsimp only
  repeat' with_reducible first
    | assumption | exact ansCanon_refuse | apply ansCanon_done | apply ansCanon_ends | apply ansCanon_ite | intro _
    | refine State.admitMem_canon (by assumption) ?_ | apply State.pagFault_canon | apply State.syncPressure_canon
    | apply State.setMem_canon | apply State.setEntry_canon | apply State.combPop_canon | apply State.emit_canon
    | apply State.madeBlock_canon | refine State.admitLists_canon (by assumption) ?_ | apply ansCanon_later
    | apply ansCanon_long | apply canon_ite | dsimp only | split

theorem execAdmitStream_canon {q a0} {a1 : State} {t : State} (e : execAdmitStream a0 a1 = .next t) (h1 : Canon q a1) : Canon q t := by
  unfold execAdmitStream at e
  refine act_canon e h1 ?_
  intros
  repeat' with_reducible first
    | assumption | intro _ | refine act_canon (by assumption) ?_ | apply State.perform_canon | apply admitBody_canon
    | dsimp only

theorem State.onEntry_canon {q a1 a2} {a0 : State} {f : State → Answer} (h0 : Canon q a0) (h : ∀ u, Canon q u → AnsCanon q (f u)) :
    AnsCanon q (State.onEntry a0 a1 a2 f) := by
  unfold State.onEntry
  try dsimp only
  repeat' with_reducible first
    | assumption | exact ansCanon_refuse | apply ansCanon_ends | apply ansCanon_ite | apply h
    | apply State.readWords_canon | dsimp only | split

theorem streamSetGo_canon {q a0} {a1 : State} (h0 : Canon q a1) :
    AnsCanon q (streamSetGo a0 a1) := by
  unfold streamSetGo
  try dsimp only
  repeat' with_reducible first
    | assumption | exact ansCanon_refuse | apply ansCanon_done | apply ansCanon_ends | apply ansCanon_later
    | apply ansCanon_long | apply ansCanon_ite | intro _ | apply State.applySet_canon | apply State.defer_canon
    | apply canon_ite | dsimp only | split

theorem streamSetBody_canon {q a0} {a1 : State} (h1 : Canon q a1) :
    AnsCanon q (streamSetBody a0 a1) := by
  unfold streamSetBody
  try dsimp only
  repeat' with_reducible first
    | assumption | exact ansCanon_refuse | apply ansCanon_done | apply ansCanon_ite | intro _
    | apply State.defer_canon | apply State.applySet_canon | apply State.onEntry_canon | apply streamSetGo_canon
    | apply ansCanon_ends | apply ansCanon_later | apply ansCanon_long | apply canon_ite | dsimp only | split

theorem execStreamSet_canon {q a0} {a1 : State} {t : State} (e : execStreamSet a0 a1 = .next t) (h1 : Canon q a1) : Canon q t := by
  unfold execStreamSet at e
  refine act_canon e h1 ?_
  intros
  repeat' with_reducible first
    | assumption | intro _ | refine act_canon (by assumption) ?_ | apply State.perform_canon | apply streamSetBody_canon
    | dsimp only

theorem streamQueryBody_canon {q a0 a1} {a2 : State} (h2 : Canon q a2) :
    AnsCanon q (streamQueryBody a0 a1 a2) := by
  unfold streamQueryBody
  try dsimp only
  repeat' with_reducible first
    | assumption | exact ansCanon_refuse | apply ansCanon_done | apply ansCanon_ends | apply State.readWords_canon
    | apply ansCanon_ite | intro _ | apply State.emit_canon | apply State.onEntry_canon | apply ansCanon_later
    | apply ansCanon_long | apply canon_ite | dsimp only | split

theorem execStreamQuery_canon {q a0 a1} {a2 : State} {t : State} (e : execStreamQuery a0 a1 a2 = .next t) (h2 : Canon q a2) : Canon q t := by
  unfold execStreamQuery at e
  refine act_canon e h2 ?_
  intros
  repeat' with_reducible first
    | assumption | intro _ | refine act_canon (by assumption) ?_ | apply State.perform_canon
    | apply streamQueryBody_canon | dsimp only

theorem streamParkBody_canon {q a0} {a1 : State} (h1 : Canon q a1) :
    AnsCanon q (streamParkBody a0 a1) := by
  unfold streamParkBody
  try dsimp only
  repeat' with_reducible first
    | assumption | exact ansCanon_refuse | apply ansCanon_done | apply ansCanon_ite | intro _
    | apply State.modEntry_canon | apply State.park_canon | apply State.dormant_canon | apply State.onEntry_canon
    | apply ansCanon_ends | apply ansCanon_later | apply ansCanon_long | apply canon_ite | dsimp only | split

theorem execStreamPark_canon {q a0} {a1 : State} {t : State} (e : execStreamPark a0 a1 = .next t) (h1 : Canon q a1) : Canon q t := by
  unfold execStreamPark at e
  refine act_canon e h1 ?_
  intros
  repeat' with_reducible first
    | assumption | intro _ | refine act_canon (by assumption) ?_ | apply State.perform_canon | apply streamParkBody_canon
    | dsimp only

theorem State.resume_canon {q a1} {a0 : State} (h0 : Canon q a0) :
    Canon q (State.resume a0 a1) := by
  unfold State.resume
  try dsimp only
  repeat' with_reducible first
    | assumption | apply State.enterReady_canon | apply State.modEntry_canon | apply State.dormant_canon | intro _
    | apply canon_ite | dsimp only | split

theorem streamResumeBody_canon {q a0} {a1 : State} (h1 : Canon q a1) :
    AnsCanon q (streamResumeBody a0 a1) := by
  unfold streamResumeBody
  try dsimp only
  repeat' with_reducible first
    | assumption | exact ansCanon_refuse | apply ansCanon_done | apply ansCanon_ite | intro _
    | apply State.resume_canon | apply State.dormant_canon | apply State.onEntry_canon | apply ansCanon_ends
    | apply ansCanon_later | apply ansCanon_long | apply canon_ite | dsimp only | split

theorem execStreamResume_canon {q a0} {a1 : State} {t : State} (e : execStreamResume a0 a1 = .next t) (h1 : Canon q a1) : Canon q t := by
  unfold execStreamResume at e
  refine act_canon e h1 ?_
  intros
  repeat' with_reducible first
    | assumption | intro _ | refine act_canon (by assumption) ?_ | apply State.perform_canon
    | apply streamResumeBody_canon | dsimp only

theorem streamAppendBody_canon {q a0 a1} {a2 : State} (h2 : Canon q a2) :
    AnsCanon q (streamAppendBody a0 a1 a2) := by
  unfold streamAppendBody
  try dsimp only
  repeat' with_reducible first
    | assumption | exact ansCanon_refuse | apply ansCanon_done | apply ansCanon_ends | apply ansCanon_ite | intro _
    | refine State.extendLog_canon (by assumption) ?_ | apply State.pagFault_canon | apply State.modEntry_canon
    | apply State.writeTokens_canon | apply State.resume_canon | apply State.dormant_canon | apply State.onEntry_canon
    | apply ansCanon_later | apply ansCanon_long | apply canon_ite | dsimp only | split

theorem execStreamAppend_canon {q a0 a1} {a2 : State} {t : State} (e : execStreamAppend a0 a1 a2 = .next t) (h2 : Canon q a2) : Canon q t := by
  unfold execStreamAppend at e
  refine act_canon e h2 ?_
  intros
  repeat' with_reducible first
    | assumption | intro _ | refine act_canon (by assumption) ?_ | apply State.perform_canon
    | apply streamAppendBody_canon | dsimp only

theorem streamRetireBody_canon {q a0} {a1 : State} (h1 : Canon q a1) :
    AnsCanon q (streamRetireBody a0 a1) := by
  unfold streamRetireBody
  try dsimp only
  repeat' with_reducible first
    | assumption | exact ansCanon_refuse | apply ansCanon_done | apply ansCanon_ite | intro _
    | apply State.pagerSync_canon | apply State.retire_canon | apply State.modEntry_canon | apply State.dormant_canon
    | apply State.onEntry_canon | apply ansCanon_ends | apply ansCanon_later | apply ansCanon_long | apply canon_ite
    | dsimp only | split

theorem execStreamRetire_canon {q a0} {a1 : State} {t : State} (e : execStreamRetire a0 a1 = .next t) (h1 : Canon q a1) : Canon q t := by
  unfold execStreamRetire at e
  refine act_canon e h1 ?_
  intros
  repeat' with_reducible first
    | assumption | intro _ | refine act_canon (by assumption) ?_ | apply State.perform_canon
    | apply streamRetireBody_canon | dsimp only

theorem streamReleaseBody_canon {q a0} {a1 : State} (h1 : Canon q a1) :
    AnsCanon q (streamReleaseBody a0 a1) := by
  unfold streamReleaseBody
  try dsimp only
  repeat' with_reducible first
    | assumption | exact ansCanon_refuse | apply ansCanon_done | apply ansCanon_ends | apply State.readWords_canon
    | apply ansCanon_ite | intro _ | apply State.release_canon | apply ansCanon_later | apply ansCanon_long
    | apply canon_ite | dsimp only | split

theorem execStreamRelease_canon {q a0} {a1 : State} {t : State} (e : execStreamRelease a0 a1 = .next t) (h1 : Canon q a1) : Canon q t := by
  unfold execStreamRelease at e
  refine act_canon e h1 ?_
  intros
  repeat' with_reducible first
    | assumption | intro _ | refine act_canon (by assumption) ?_ | apply State.perform_canon
    | apply streamReleaseBody_canon | dsimp only

theorem tokenLogReadBody_canon {q a0} {a1 : State} (h1 : Canon q a1) :
    AnsCanon q (tokenLogReadBody a0 a1) := by
  unfold tokenLogReadBody
  try dsimp only
  repeat' with_reducible first
    | assumption | exact ansCanon_refuse | apply ansCanon_long | apply ansCanon_ite | intro _
    | apply State.tokenReadAgain_canon | apply State.dormant_canon | apply State.onEntry_canon | apply ansCanon_done
    | apply ansCanon_ends | apply ansCanon_later | apply canon_ite | dsimp only | split

theorem execTokenLogRead_canon {q a0} {a1 : State} {t : State} (e : execTokenLogRead a0 a1 = .next t) (h1 : Canon q a1) : Canon q t := by
  unfold execTokenLogRead at e
  refine act_canon e h1 ?_
  intros
  repeat' with_reducible first
    | assumption | intro _ | refine act_canon (by assumption) ?_ | apply State.perform_canon
    | apply tokenLogReadBody_canon | dsimp only

theorem prefixCreateBody_canon {q a0} {a1 : State} (h1 : Canon q a1) :
    AnsCanon q (prefixCreateBody a0 a1) := by
  unfold prefixCreateBody
  dsimp only
  repeat' with_reducible first
    | exact ansCanon_refuse | apply ansCanon_ite
  refine State.onEntry_canon h1 fun u hu => ?_
  repeat' with_reducible first
    | exact ansCanon_refuse | apply ansCanon_ite
  split
  · exact State.pagFault_canon hu
  · rename_i s e
    have hs : Canon q s := State.takePairs_canon e hu
    apply ansCanon_done
    apply State.pagerSync_canon
    split
    · exact State.defer_canon hs
    · exact State.makePrefix_canon hs

theorem execPrefixCreate_canon {q a0} {a1 : State} {t : State} (e : execPrefixCreate a0 a1 = .next t) (h1 : Canon q a1) : Canon q t := by
  unfold execPrefixCreate at e
  refine act_canon e h1 ?_
  intros
  repeat' with_reducible first
    | assumption | intro _ | refine act_canon (by assumption) ?_ | apply State.perform_canon
    | apply prefixCreateBody_canon | dsimp only

theorem prefixFreeBody_canon {q a0} {a1 : State} (h1 : Canon q a1) :
    AnsCanon q (prefixFreeBody a0 a1) := by
  unfold prefixFreeBody
  try dsimp only
  repeat' with_reducible first
    | assumption | exact ansCanon_refuse | apply ansCanon_done | apply ansCanon_ite | intro _
    | apply State.pagerSync_canon | apply State.freePrefix_canon | apply ansCanon_ends | apply ansCanon_later
    | apply ansCanon_long | apply canon_ite | dsimp only | split

theorem execPrefixFree_canon {q a0} {a1 : State} {t : State} (e : execPrefixFree a0 a1 = .next t) (h1 : Canon q a1) : Canon q t := by
  unfold execPrefixFree at e
  refine act_canon e h1 ?_
  intros
  repeat' with_reducible first
    | assumption | intro _ | refine act_canon (by assumption) ?_ | apply State.perform_canon | apply prefixFreeBody_canon
    | dsimp only

theorem pageGeomBody_canon {q a0} {a1 : State} (h1 : Canon q a1) :
    AnsCanon q (pageGeomBody a0 a1) := by
  unfold pageGeomBody
  try dsimp only
  repeat' with_reducible first
    | assumption | exact ansCanon_refuse | apply ansCanon_done | apply ansCanon_ite | intro _
    | apply State.modServe_canon | apply ansCanon_ends | apply ansCanon_later | apply ansCanon_long | apply canon_ite
    | dsimp only | split

theorem execPageGeom_canon {q a0} {a1 : State} {t : State} (e : execPageGeom a0 a1 = .next t) (h1 : Canon q a1) : Canon q t := by
  unfold execPageGeom at e
  refine act_canon e h1 ?_
  intros
  repeat' with_reducible first
    | assumption | intro _ | refine act_canon (by assumption) ?_ | apply State.perform_canon | apply pageGeomBody_canon
    | dsimp only

theorem State.sendAnnounce_canon {q a1} {a0 : State} (h0 : Canon q a0) :
    Canon q (State.sendAnnounce a0 a1) := by
  unfold State.sendAnnounce
  try dsimp only
  repeat' with_reducible first
    | assumption | apply State.sendAll_canon | dsimp only | split

theorem State.stepMismatch_canon {q a1 a2} {a0 : State} (h0 : Canon q a0) :
    Canon q (State.stepMismatch a0 a1 a2) := by
  unfold State.stepMismatch
  try dsimp only
  repeat' with_reducible first
    | assumption | apply State.sendAbandon_canon | apply State.stopWith_canon | apply State.raise_canon
    | apply State.swmInfo_canon | apply State.swmStepInfo_canon | apply canon_ite | dsimp only | split

theorem State.stepAbandoned_canon {q a1} {a0 : State} (h0 : Canon q a0) :
    Canon q (State.stepAbandoned a0 a1) := by
  unfold State.stepAbandoned
  try dsimp only
  repeat' with_reducible first
    | assumption | apply State.stopWith_canon | apply canon_ite | dsimp only | split

theorem State.keptApply_canon {q a1 a2} {a0 : State} (h0 : Canon q a0) :
    Canon q (State.keptApply a0 a1 a2) := by
  unfold State.keptApply
  try dsimp only
  repeat' with_reducible first
    | assumption | apply State.stepMismatch_canon | apply State.stepAbandoned_canon | apply canon_ite | dsimp only
    | split

theorem State.keptTake_canon {q a1} {a0 : State} (h0 : Canon q a0) :
    Canon q (State.keptTake a0 a1) := by
  unfold State.keptTake
  try dsimp only
  repeat' with_reducible first
    | assumption | intro _ | apply State.keptApply_canon | apply canon_filter | apply State.overrun_canon
    | apply canon_ite | apply canon_foldl | dsimp only | split

theorem endRecordEffect_canon {q a0 a1 a2} {a3 : State} (h3 : Canon q a3) :
    Canon q (endRecordEffect a0 a1 a2 a3) := by
  unfold endRecordEffect
  try dsimp only
  repeat' with_reducible first
    | assumption | apply State.agentDone_canon | apply State.modAgent_canon | intro _ | apply canon_ite | dsimp only
    | split

theorem execEndOfStepRecord_canon {q a0 a1 a2} {a3 : State} {t : State} (e : execEndOfStepRecord a0 a1 a2 a3 = .next t) (h3 : Canon q a3) : Canon q t := by
  unfold execEndOfStepRecord at e
  refine act_canon e h3 ?_
  intros
  repeat' with_reducible first
    | assumption | intro _ | refine act_canon (by assumption) ?_ | apply endRecordEffect_canon | dsimp only

theorem State.lossHold_canon {q a1} {a0 : State} (h0 : Canon q a0) :
    Canon q (State.lossHold a0 a1) := by
  unfold State.lossHold
  try dsimp only
  repeat' with_reducible first
    | assumption | apply State.capFault_canon | apply State.modCap_canon | intro _ | apply canon_ite | dsimp only
    | split

theorem State.setOrdered_canon {q a1 a2} {a0 : State} (h0 : Canon q a0) :
    Canon q (State.setOrdered a0 a1 a2) := by
  unfold State.setOrdered
  try dsimp only
  repeat' with_reducible first
    | assumption | intro _ | apply State.emit_canon | apply State.modCap_canon | apply canon_ite | dsimp only | split

theorem State.dispatch_canon {q a1 a2 a3} {a0 : State} (h0 : Canon q a0) :
    Canon q (State.dispatch a0 a1 a2 a3) := by
  unfold State.dispatch
  try dsimp only
  repeat' with_reducible first
    | assumption | intro _ | apply State.takeSeq_canon | refine State.takeSeq_canon' (by assumption) ?_
    | apply State.setCtx_canon | apply State.modCap_canon | apply State.runProgress_canon | apply State.emit_canon
    | apply State.keptTake_canon | apply State.sendAnnounce_canon | apply State.lossHold_canon
    | apply State.setOrdered_canon | apply canon_ite | apply canon_foldl | dsimp only | split

theorem stepDispatchEffect_canon {q a0} {a1 : State} (h1 : Canon q a1) :
    Canon q (stepDispatchEffect a0 a1) := by
  unfold stepDispatchEffect
  try dsimp only
  repeat' with_reducible first
    | assumption | apply State.endUnsent_canon | apply State.lossHold_canon | apply State.dispatch_canon
    | apply canon_ite | dsimp only | split

theorem execStepDispatch_canon {q a0} {a1 : State} {t : State} (e : execStepDispatch a0 a1 = .next t) (h1 : Canon q a1) : Canon q t := by
  unfold execStepDispatch at e
  refine act_canon e h1 ?_
  intros
  repeat' with_reducible first
    | assumption | intro _ | refine act_canon (by assumption) ?_ | apply stepDispatchEffect_canon | dsimp only

theorem sliceEndEffect_canon {q a0} {a1 : State} (h1 : Canon q a1) :
    Canon q (sliceEndEffect a0 a1) := by
  unfold sliceEndEffect
  try dsimp only
  repeat' with_reducible first
    | assumption | apply State.syncConds_canon | apply State.chooseIssue_canon | apply canon_ite | dsimp only | split

theorem execSliceEnd_canon {q a0} {a1 : State} {t : State} (e : execSliceEnd a0 a1 = .next t) (h1 : Canon q a1) : Canon q t := by
  unfold execSliceEnd at e
  refine act_canon e h1 ?_
  intros
  repeat' with_reducible first
    | assumption | intro _ | refine act_canon (by assumption) ?_ | apply sliceEndEffect_canon | dsimp only

theorem drainTimeoutEffect_canon {q a0} {a1 : State} (h1 : Canon q a1) :
    Canon q (drainTimeoutEffect a0 a1) := by
  unfold drainTimeoutEffect
  try dsimp only
  repeat' with_reducible first
    | assumption | apply State.raise_canon | apply State.schInfo_canon | apply State.preempt_canon | apply canon_getD
    | intro _ | apply canon_ite | dsimp only | split

theorem execSliceDrainTimeout_canon {q a0} {a1 : State} {t : State} (e : execSliceDrainTimeout a0 a1 = .next t) (h1 : Canon q a1) : Canon q t := by
  unfold execSliceDrainTimeout at e
  refine act_canon e h1 ?_
  intros
  repeat' with_reducible first
    | assumption | intro _ | refine act_canon (by assumption) ?_ | apply drainTimeoutEffect_canon | dsimp only

theorem State.boundary_canon {q a1 a2 a3 a4} {a0 : State} (h0 : Canon q a0) :
    Canon q (State.boundary a0 a1 a2 a3 a4) := by
  unfold State.boundary
  try dsimp only
  repeat' with_reducible first
    | assumption | apply State.preempt_canon | apply State.modPart_canon | intro _ | apply canon_ite | dsimp only
    | split

theorem boundaryTestEffect_canon {q a0} {a1 : State} (h1 : Canon q a1) :
    Canon q (boundaryTestEffect a0 a1) := by
  unfold boundaryTestEffect
  try dsimp only
  repeat' with_reducible first
    | assumption | apply State.syncConds_canon | apply State.boundary_canon | intro _ | apply canon_ite | dsimp only
    | split

theorem execBoundaryTest_canon {q a0} {a1 : State} {t : State} (e : execBoundaryTest a0 a1 = .next t) (h1 : Canon q a1) : Canon q t := by
  unfold execBoundaryTest at e
  refine act_canon e h1 ?_
  intros
  repeat' with_reducible first
    | assumption | intro _ | refine act_canon (by assumption) ?_ | apply boundaryTestEffect_canon | dsimp only

theorem boundaryRetestEffect_canon {q a0} {a1 : State} (h1 : Canon q a1) :
    Canon q (boundaryRetestEffect a0 a1) := by
  unfold boundaryRetestEffect
  try dsimp only
  repeat' with_reducible first
    | assumption | apply State.syncConds_canon | apply State.boundary_canon | apply State.modPart_canon | intro _
    | apply canon_ite | dsimp only | split

theorem execBoundaryRetest_canon {q a0} {a1 : State} {t : State} (e : execBoundaryRetest a0 a1 = .next t) (h1 : Canon q a1) : Canon q t := by
  unfold execBoundaryRetest at e
  refine act_canon e h1 ?_
  intros
  repeat' with_reducible first
    | assumption | intro _ | refine act_canon (by assumption) ?_ | apply boundaryRetestEffect_canon | dsimp only

theorem State.disposePass_canon {q a1 a2 a3 a4 a5} {a0 : State} (h0 : Canon q a0) :
    Canon q (State.disposePass a0 a1 a2 a3 a4 a5) := by
  unfold State.disposePass
  try dsimp only
  repeat' with_reducible first
    | assumption | intro _ | apply State.modCore_canon | apply State.offer_canon | apply State.offerSave_canon
    | apply canon_ite | apply canon_foldl | dsimp only | split

theorem State.noteCursors_canon {q a1 a2 a3 a4 a5} {a0 : State} (h0 : Canon q a0) :
    Canon q (State.noteCursors a0 a1 a2 a3 a4 a5) := by
  unfold State.noteCursors
  try dsimp only
  repeat' with_reducible first
    | assumption | intro _ | apply State.modRec_canon | dsimp only | split

theorem State.withdrawFor_canon {q a1 a2 a3 a4 a5} {a0 : State} (h0 : Canon q a0) :
    Canon q (State.withdrawFor a0 a1 a2 a3 a4 a5) := by
  unfold State.withdrawFor
  try dsimp only
  repeat' with_reducible first
    | assumption | apply State.modRec_canon | apply State.withdrawCore_canon | intro _ | apply State.noteCursors_canon
    | apply canon_ite | dsimp only | split

theorem preemptionEffect_canon {q a0 a1 a2} {a3 : State} (h3 : Canon q a3) :
    Canon q (preemptionEffect a0 a1 a2 a3) := by
  unfold preemptionEffect
  try dsimp only
  repeat' with_reducible first
    | assumption | intro _ | apply State.disposePass_canon | apply State.withdrawFor_canon
    | apply State.modAgentStep_canon | apply State.syncCore_canon | apply canon_ite | apply canon_foldl | dsimp only
    | split

theorem execPreemption_canon {q a0 a1 a2} {a3 : State} {t : State} (e : execPreemption a0 a1 a2 a3 = .next t) (h3 : Canon q a3) : Canon q t := by
  unfold execPreemption at e
  refine act_canon e h3 ?_
  intros
  repeat' with_reducible first
    | assumption | intro _ | refine act_canon (by assumption) ?_ | apply preemptionEffect_canon | dsimp only

theorem State.takeOver_canon {q a1} {a0 : State} (h0 : Canon q a0) :
    Canon q (State.takeOver a0 a1) := by
  unfold State.takeOver
  try dsimp only
  repeat' with_reducible first
    | assumption | apply State.syncConds_canon | apply State.modPart_canon | apply State.beginSlice_canon
    | apply State.chooseIssue_canon | intro _ | apply canon_ite | dsimp only | split

theorem slotStoppedEffect_canon {q a0 a1 a2} {a3 : State} (h3 : Canon q a3) :
    Canon q (slotStoppedEffect a0 a1 a2 a3) := by
  unfold slotStoppedEffect
  try dsimp only
  repeat' with_reducible first
    | assumption | apply State.modPart_canon | apply State.takeOver_canon | intro _ | apply canon_ite | dsimp only
    | split

theorem execSlotStopped_canon {q a0 a1 a2} {a3 : State} {t : State} (e : execSlotStopped a0 a1 a2 a3 = .next t) (h3 : Canon q a3) : Canon q t := by
  unfold execSlotStopped at e
  refine act_canon e h3 ?_
  intros
  repeat' with_reducible first
    | assumption | intro _ | refine act_canon (by assumption) ?_ | apply slotStoppedEffect_canon | dsimp only

theorem State.placeSteps_canon {q a1 a2} {a0 : State} (h0 : Canon q a0) :
    Canon q (State.placeSteps a0 a1 a2) := by
  unfold State.placeSteps
  try dsimp only
  repeat' with_reducible first
    | assumption | intro _ | apply State.modAgent_canon | apply canon_ite | apply canon_foldl | dsimp only | split

theorem State.leaveSlot_canon {q a1 a2} {a0 : State} (h0 : Canon q a0) :
    Canon q (State.leaveSlot a0 a1 a2) := by
  unfold State.leaveSlot
  try dsimp only
  repeat' with_reducible first
    | assumption | apply State.modPart_canon | apply State.chooseIssue_canon | intro _ | apply canon_ite | dsimp only
    | split

theorem swapOutEffect_canon {q a0} {a1 : State} (h1 : Canon q a1) :
    Canon q (swapOutEffect a0 a1) := by
  unfold swapOutEffect
  try dsimp only
  repeat' with_reducible first
    | assumption | intro _ | apply State.syncConds_canon | apply State.setCtx_canon | apply State.modPart_canon
    | apply State.withdrawFor_canon | apply State.emit_canon | apply State.modAgentStep_canon
    | apply State.syncCore_canon | apply State.leaveSlot_canon | apply canon_ite | apply canon_foldl | dsimp only
    | split

theorem execContextSwapOut_canon {q a0} {a1 : State} {t : State} (e : execContextSwapOut a0 a1 = .next t) (h1 : Canon q a1) : Canon q t := by
  unfold execContextSwapOut at e
  refine act_canon e h1 ?_
  intros
  repeat' with_reducible first
    | assumption | intro _ | refine act_canon (by assumption) ?_ | apply swapOutEffect_canon | dsimp only

theorem State.saveCore_canon {q a1 a2 a3 a4} {a0 : State} (h0 : Canon q a0) :
    Canon q (State.saveCore a0 a1 a2 a3 a4) := by
  unfold State.saveCore
  try dsimp only
  repeat' with_reducible first
    | assumption | apply State.modRec_canon | apply canon_getD | apply State.emit_canon
    | apply State.urgentTraffic_canon | intro _ | apply State.noteCursors_canon | apply canon_ite | apply canon_foldl
    | dsimp only | split

theorem State.ctxFaulted_canon {q a1} {a0 : State} (h0 : Canon q a0) :
    Canon q (State.ctxFaulted a0 a1) := by
  unfold State.ctxFaulted
  try dsimp only
  repeat' with_reducible first
    | assumption | intro _ | apply State.clearSlot_canon | apply State.modPart_canon | apply State.setCtx_canon
    | apply State.modAgent_canon | apply State.raise_canon | apply State.schInfo_canon | apply State.modStep_canon
    | apply State.stepEnd_canon | apply canon_getD | apply canon_ite | apply canon_foldl | dsimp only | split

theorem State.destroyDue_canon {q a1} {a0 : State} (h0 : Canon q a0) :
    Canon q (State.destroyDue a0 a1) := by
  unfold State.destroyDue
  try dsimp only
  repeat' with_reducible first
    | assumption | apply State.stopStep_canon | apply State.freeCtx_canon | apply canon_ite | dsimp only | split

theorem saveDoneEffect_canon {q a0 a1} {a2 : State} (h2 : Canon q a2) :
    Canon q (saveDoneEffect a0 a1 a2) := by
  unfold saveDoneEffect
  try dsimp only
  repeat' with_reducible first
    | assumption | intro _ | apply State.destroyDue_canon | apply State.ctxFaulted_canon | apply State.clearSlot_canon
    | apply State.saveCore_canon | apply State.placeSteps_canon | apply State.modCtx_canon | apply State.modPart_canon
    | apply canon_ite | apply canon_foldl | dsimp only | split

theorem execContextSaveDone_canon {q a0 a1} {a2 : State} {t : State} (e : execContextSaveDone a0 a1 a2 = .next t) (h2 : Canon q a2) : Canon q t := by
  unfold execContextSaveDone at e
  refine act_canon e h2 ?_
  intros
  repeat' with_reducible first
    | assumption | intro _ | refine act_canon (by assumption) ?_ | apply saveDoneEffect_canon | dsimp only

theorem State.readRecord_canon {q a1 a2 a3} {a0 : State} (h0 : Canon q a0) :
    Canon q (State.readRecord a0 a1 a2 a3) := by
  unfold State.readRecord
  try dsimp only
  repeat' with_reducible first
    | assumption | intro _ | apply State.emit_canon | apply State.urgentTraffic_canon | dsimp only | split

theorem contextLoadEffect_canon {q a0} {a1 : State} (h1 : Canon q a1) :
    Canon q (contextLoadEffect a0 a1) := by
  unfold contextLoadEffect
  try dsimp only
  repeat' with_reducible first
    | assumption | intro _ | apply State.modCtx_canon | apply State.modPart_canon | apply State.emit_canon
    | apply State.readRecord_canon | apply canon_ite | apply canon_foldl | dsimp only | split

theorem execContextLoad_canon {q a0} {a1 : State} {t : State} (e : execContextLoad a0 a1 = .next t) (h1 : Canon q a1) : Canon q t := by
  unfold execContextLoad at e
  refine act_canon e h1 ?_
  intros
  repeat' with_reducible first
    | assumption | intro _ | refine act_canon (by assumption) ?_ | apply contextLoadEffect_canon | dsimp only

theorem State.loadCore_canon {q a1 a2 a3 a4 a5} {a0 : State} (h0 : Canon q a0) :
    Canon q (State.loadCore a0 a1 a2 a3 a4 a5) := by
  unfold State.loadCore
  try dsimp only
  repeat' with_reducible first
    | assumption | intro _ | apply State.modCore_canon | apply canon_ite | dsimp only | split

theorem loadDoneEffect_canon {q a0 a1} {a2 : State} (h2 : Canon q a2) :
    Canon q (loadDoneEffect a0 a1 a2) := by
  unfold loadDoneEffect
  try dsimp only
  repeat' with_reducible first
    | assumption | intro _ | apply State.destroyDue_canon | apply State.ctxFaulted_canon
    | apply State.releaseGranules_canon | apply State.loadCore_canon | apply State.placeSteps_canon
    | apply State.modCtx_canon | apply State.modPart_canon | apply State.syncConds_canon | apply canon_ite
    | apply canon_foldl | dsimp only | split

theorem execContextLoadDone_canon {q a0 a1} {a2 : State} {t : State} (e : execContextLoadDone a0 a1 a2 = .next t) (h2 : Canon q a2) : Canon q t := by
  unfold execContextLoadDone at e
  refine act_canon e h2 ?_
  intros
  repeat' with_reducible first
    | assumption | intro _ | refine act_canon (by assumption) ?_ | apply loadDoneEffect_canon | dsimp only

theorem refillEffect_canon {q a0 a1} {a2 : State} (h2 : Canon q a2) :
    Canon q (refillEffect a0 a1 a2) := by
  unfold refillEffect
  try dsimp only
  repeat' with_reducible first
    | assumption | intro _ | apply canon_put | apply canon_filter | apply State.admitHeld_canon | apply canon_ite
    | apply canon_foldl | dsimp only | split

theorem execRegulatorRefill_canon {q a0 a1} {a2 : State} {t : State} (e : execRegulatorRefill a0 a1 a2 = .next t) (h2 : Canon q a2) : Canon q t := by
  unfold execRegulatorRefill at e
  refine act_canon e h2 ?_
  intros
  repeat' with_reducible first
    | assumption | intro _ | refine act_canon (by assumption) ?_ | apply refillEffect_canon | dsimp only

theorem partitionCreateBody_canon {q a0} {a1 : State} (h1 : Canon q a1) :
    AnsCanon q (partitionCreateBody a0 a1) := by
  unfold partitionCreateBody
  try dsimp only
  repeat' with_reducible first
    | assumption | exact ansCanon_refuse | apply ansCanon_done | apply ansCanon_ite | intro _
    | apply State.shareBw_canon | apply ansCanon_ends | apply ansCanon_later | apply ansCanon_long | apply canon_ite
    | dsimp only | split

theorem execPartitionCreate_canon {q a0} {a1 : State} {t : State} (e : execPartitionCreate a0 a1 = .next t) (h1 : Canon q a1) : Canon q t := by
  unfold execPartitionCreate at e
  refine act_canon e h1 ?_
  intros
  repeat' with_reducible first
    | assumption | intro _ | refine act_canon (by assumption) ?_ | apply State.perform_canon
    | apply partitionCreateBody_canon | dsimp only

theorem partitionDestroyBody_canon {q a0} {a1 : State} (h1 : Canon q a1) :
    AnsCanon q (partitionDestroyBody a0 a1) := by
  unfold partitionDestroyBody
  try dsimp only
  repeat' with_reducible first
    | assumption | exact ansCanon_refuse | apply ansCanon_done | apply ansCanon_ite | intro _
    | apply State.shareBw_canon | apply State.dropPartition_canon | apply ansCanon_ends | apply ansCanon_later
    | apply ansCanon_long | apply canon_ite | dsimp only | split

theorem execPartitionDestroy_canon {q a0} {a1 : State} {t : State} (e : execPartitionDestroy a0 a1 = .next t) (h1 : Canon q a1) : Canon q t := by
  unfold execPartitionDestroy at e
  refine act_canon e h1 ?_
  intros
  repeat' with_reducible first
    | assumption | intro _ | refine act_canon (by assumption) ?_ | apply State.perform_canon
    | apply partitionDestroyBody_canon | dsimp only

theorem contextCreateBody_canon {q a0} {a1 : State} (h1 : Canon q a1) :
    AnsCanon q (contextCreateBody a0 a1) := by
  unfold contextCreateBody
  try dsimp only
  repeat' with_reducible first
    | assumption | exact ansCanon_refuse | apply ansCanon_done | apply ansCanon_ite | intro _
    | refine State.makeCtx_canon (by assumption) ?_ | apply ansCanon_ends | apply ansCanon_later | apply ansCanon_long
    | apply canon_ite | dsimp only | split

theorem execContextCreate_canon {q a0} {a1 : State} {t : State} (e : execContextCreate a0 a1 = .next t) (h1 : Canon q a1) : Canon q t := by
  unfold execContextCreate at e
  refine act_canon e h1 ?_
  intros
  repeat' with_reducible first
    | assumption | intro _ | refine act_canon (by assumption) ?_ | apply State.perform_canon
    | apply contextCreateBody_canon | dsimp only

theorem contextSetBody_canon {q a0} {a1 : State} (h1 : Canon q a1) :
    AnsCanon q (contextSetBody a0 a1) := by
  unfold contextSetBody
  try dsimp only
  repeat' with_reducible first
    | assumption | exact ansCanon_refuse | apply ansCanon_done | apply ansCanon_ite | intro _
    | apply State.modCtx_canon | apply ansCanon_ends | apply ansCanon_later | apply ansCanon_long | apply canon_ite
    | dsimp only | split

theorem execContextSet_canon {q a0} {a1 : State} {t : State} (e : execContextSet a0 a1 = .next t) (h1 : Canon q a1) : Canon q t := by
  unfold execContextSet at e
  refine act_canon e h1 ?_
  intros
  repeat' with_reducible first
    | assumption | intro _ | refine act_canon (by assumption) ?_ | apply State.perform_canon | apply contextSetBody_canon
    | dsimp only

theorem contextDestroyBody_canon {q a0} {a1 : State} (h1 : Canon q a1) :
    AnsCanon q (contextDestroyBody a0 a1) := by
  unfold contextDestroyBody
  try dsimp only
  repeat' with_reducible first
    | assumption | exact ansCanon_refuse | apply ansCanon_done | apply ansCanon_later | apply ansCanon_ite | intro _
    | apply State.setCtx_canon | apply State.stopStep_canon | apply State.freeCtx_canon | apply ansCanon_ends
    | apply ansCanon_long | apply canon_ite | dsimp only | split

theorem execContextDestroy_canon {q a0} {a1 : State} {t : State} (e : execContextDestroy a0 a1 = .next t) (h1 : Canon q a1) : Canon q t := by
  unfold execContextDestroy at e
  refine act_canon e h1 ?_
  intros
  repeat' with_reducible first
    | assumption | intro _ | refine act_canon (by assumption) ?_ | apply State.perform_canon
    | apply contextDestroyBody_canon | dsimp only

theorem bwrSetBody_canon {q a0} {a1 : State} (h1 : Canon q a1) :
    AnsCanon q (bwrSetBody a0 a1) := by
  unfold bwrSetBody
  try dsimp only
  repeat' with_reducible first
    | assumption | exact ansCanon_refuse | apply ansCanon_done | apply ansCanon_ite | intro _
    | apply State.setBwr_canon | apply canon_filter | apply ansCanon_ends | apply ansCanon_later | apply ansCanon_long
    | apply canon_ite | dsimp only | split

theorem execBwrSet_canon {q a0} {a1 : State} {t : State} (e : execBwrSet a0 a1 = .next t) (h1 : Canon q a1) : Canon q t := by
  unfold execBwrSet at e
  refine act_canon e h1 ?_
  intros
  repeat' with_reducible first
    | assumption | intro _ | refine act_canon (by assumption) ?_ | apply State.perform_canon | apply bwrSetBody_canon
    | dsimp only

theorem State.bindRole_canon {q a1 a2 a3 a4} {a0 : State} {y0 t} (e : State.bindRole a0 a1 a2 a3 a4 = some (y0, t)) (h0 : Canon q a0) : Canon q t := by
  unfold State.bindRole at e
  extract_lets put us at e
  have hp : ∀ k (s : State), Canon q s → Canon q (put k s) := by
    intro k s h
    refine State.wakeForecast_canon (canon_ite (State.modPart_canon (State.modServe_canon (State.discardForecast_canon h)))
      (State.modServe_canon (State.discardForecast_canon h)))
  clear_value put us
  split at e
  · cases e; exact hp _ _ h0
  · split at e
    · cases e
    · exact of_map e fun y hy e => by cases e; exact hp _ _ (State.makeCtx_canon hy h0)

theorem serveBindBody_canon {q a0} {a1 : State} (h1 : Canon q a1) :
    AnsCanon q (serveBindBody a0 a1) := by
  unfold serveBindBody
  try dsimp only
  repeat' with_reducible first
    | assumption | exact ansCanon_refuse | apply ansCanon_done | apply ansCanon_ite | intro _
    | refine State.bindRole_canon (by assumption) ?_ | apply ansCanon_ends | apply ansCanon_later
    | apply ansCanon_long | apply canon_ite | dsimp only | split

theorem execServeBind_canon {q a0} {a1 : State} {t : State} (e : execServeBind a0 a1 = .next t) (h1 : Canon q a1) : Canon q t := by
  unfold execServeBind at e
  refine act_canon e h1 ?_
  intros
  repeat' with_reducible first
    | assumption | intro _ | refine act_canon (by assumption) ?_ | apply State.perform_canon | apply serveBindBody_canon
    | dsimp only

theorem serveUnbindBody_canon {q a0} {a1 : State} (h1 : Canon q a1) :
    AnsCanon q (serveUnbindBody a0 a1) := by
  unfold serveUnbindBody
  try dsimp only
  repeat' with_reducible first
    | assumption | exact ansCanon_refuse | apply ansCanon_done | apply ansCanon_ite | intro _
    | apply State.modServe_canon | apply State.tryUnbind_canon | apply State.discardForecast_canon
    | apply ansCanon_ends | apply ansCanon_later | apply ansCanon_long | apply canon_ite | dsimp only | split

theorem execServeUnbind_canon {q a0} {a1 : State} {t : State} (e : execServeUnbind a0 a1 = .next t) (h1 : Canon q a1) : Canon q t := by
  unfold execServeUnbind at e
  refine act_canon e h1 ?_
  intros
  repeat' with_reducible first
    | assumption | intro _ | refine act_canon (by assumption) ?_ | apply State.perform_canon
    | apply serveUnbindBody_canon | dsimp only

theorem State.acceptStep_canon {q a1 a2} {a0 : State} (h0 : Canon q a0) :
    AnsCanon q (State.acceptStep a0 a1 a2) := by
  unfold State.acceptStep
  try dsimp only
  repeat' with_reducible first
    | assumption | exact ansCanon_refuse | apply ansCanon_long | intro _ | apply State.setCtx_canon
    | apply State.queueStep_canon | apply ansCanon_done | apply ansCanon_ends | apply ansCanon_later
    | apply ansCanon_ite | dsimp only | split

theorem Answer.unless_canon {q a0 a1} (h1 : AnsCanon q a1) :
    AnsCanon q (Answer.unless a0 a1) := by
  unfold Answer.unless
  try dsimp only
  repeat' with_reducible first
    | assumption | exact ansCanon_refuse | intro _ | dsimp only | split

theorem runStepBody_canon {q a0} {a1 : State} (h1 : Canon q a1) :
    AnsCanon q (runStepBody a0 a1) := by
  unfold runStepBody
  try dsimp only
  repeat' with_reducible first
    | assumption | exact ansCanon_refuse | intro _ | apply Answer.unless_canon | apply State.acceptStep_canon
    | apply ansCanon_done | apply ansCanon_ends | apply ansCanon_later | apply ansCanon_long | apply ansCanon_ite
    | dsimp only | split

theorem execRunStep_canon {q a0} {a1 : State} {t : State} (e : execRunStep a0 a1 = .next t) (h1 : Canon q a1) : Canon q t := by
  unfold execRunStep at e
  refine act_canon e h1 ?_
  intros
  repeat' with_reducible first
    | assumption | intro _ | refine act_canon (by assumption) ?_ | apply State.perform_canon | apply runStepBody_canon
    | dsimp only

theorem hostCopyEffect_canon {q a0 a1} {a2 : State} (h2 : Canon q a2) :
    Canon q (hostCopyEffect a0 a1 a2) := by
  unfold hostCopyEffect
  try dsimp only
  repeat' with_reducible first
    | assumption | apply State.modStep_canon | apply State.capMark_canon | apply State.stopStep_canon
    | apply canon_getD | apply State.capMarkAll_canon | intro _ | apply canon_ite | dsimp only | split

theorem execHostCopyDone_canon {q a0 a1} {a2 : State} {t : State} (e : execHostCopyDone a0 a1 a2 = .next t) (h2 : Canon q a2) : Canon q t := by
  unfold execHostCopyDone at e
  refine act_canon e h2 ?_
  intros
  repeat' with_reducible first
    | assumption | intro _ | refine act_canon (by assumption) ?_ | apply hostCopyEffect_canon | dsimp only

theorem instanceCreateBody_canon {q a0 a1} {a2 : State} (h2 : Canon q a2) :
    AnsCanon q (instanceCreateBody a0 a1 a2) := by
  unfold instanceCreateBody
  try dsimp only
  repeat' with_reducible first
    | assumption | exact ansCanon_refuse | apply ansCanon_done | apply ansCanon_ite | intro _
    | apply State.setInst_canon | apply State.newMemKey_canon | apply State.setRing_canon | apply ansCanon_ends
    | apply ansCanon_later | apply ansCanon_long | apply canon_ite | dsimp only | split

theorem execInstanceCreate_canon {q a0 a1} {a2 : State} {t : State} (e : execInstanceCreate a0 a1 a2 = .next t) (h2 : Canon q a2) : Canon q t := by
  unfold execInstanceCreate at e
  refine act_canon e h2 ?_
  intros
  repeat' with_reducible first
    | assumption | intro _ | refine act_canon (by assumption) ?_ | apply State.perform_canon
    | apply instanceCreateBody_canon | dsimp only

theorem instanceResizeBody_canon {q a0} {a1 : State} (h1 : Canon q a1) :
    AnsCanon q (instanceResizeBody a0 a1) := by
  unfold instanceResizeBody
  try dsimp only
  repeat' with_reducible first
    | assumption | exact ansCanon_refuse | apply ansCanon_done | apply ansCanon_ite | intro _
    | apply State.shareBw_canon | apply State.setInst_canon | apply ansCanon_ends | apply ansCanon_later
    | apply ansCanon_long | apply canon_ite | dsimp only | split

theorem execInstanceResize_canon {q a0} {a1 : State} {t : State} (e : execInstanceResize a0 a1 = .next t) (h1 : Canon q a1) : Canon q t := by
  unfold execInstanceResize at e
  refine act_canon e h1 ?_
  intros
  repeat' with_reducible first
    | assumption | intro _ | refine act_canon (by assumption) ?_ | apply State.perform_canon
    | apply instanceResizeBody_canon | dsimp only

theorem instanceResetBody_canon {q a0} {a1 : State} (h1 : Canon q a1) :
    AnsCanon q (instanceResetBody a0 a1) := by
  unfold instanceResetBody
  try dsimp only
  repeat' with_reducible first
    | assumption | exact ansCanon_refuse | apply ansCanon_long | apply ansCanon_ite | intro _
    | apply State.beginReset_canon | apply ansCanon_done | apply ansCanon_ends | apply ansCanon_later
    | apply canon_ite | dsimp only | split

theorem execInstanceReset_canon {q a0} {a1 : State} {t : State} (e : execInstanceReset a0 a1 = .next t) (h1 : Canon q a1) : Canon q t := by
  unfold execInstanceReset at e
  refine act_canon e h1 ?_
  intros
  repeat' with_reducible first
    | assumption | intro _ | refine act_canon (by assumption) ?_ | apply State.perform_canon
    | apply instanceResetBody_canon | dsimp only

theorem instanceDestroyBody_canon {q a0} {a1 : State} (h1 : Canon q a1) :
    AnsCanon q (instanceDestroyBody a0 a1) := by
  unfold instanceDestroyBody
  try dsimp only
  repeat' with_reducible first
    | assumption | exact ansCanon_refuse | apply ansCanon_done | apply ansCanon_ite | intro _
    | apply State.setInst_canon | apply State.clearMbx_canon | apply State.setRing_canon | apply ansCanon_ends
    | apply ansCanon_later | apply ansCanon_long | apply State.eraseRing_canon | apply canon_ite | dsimp only | split

theorem execInstanceDestroy_canon {q a0} {a1 : State} {t : State} (e : execInstanceDestroy a0 a1 = .next t) (h1 : Canon q a1) : Canon q t := by
  unfold execInstanceDestroy at e
  refine act_canon e h1 ?_
  intros
  repeat' with_reducible first
    | assumption | intro _ | refine act_canon (by assumption) ?_ | apply State.perform_canon
    | apply instanceDestroyBody_canon | dsimp only

theorem vfFlrEffect_canon {q a0} {a1 : State} (h1 : Canon q a1) :
    Canon q (vfFlrEffect a0 a1) := by
  unfold vfFlrEffect
  try dsimp only
  repeat' with_reducible first
    | assumption | apply State.setInst_canon | apply State.raise_canon | apply State.setReg_canon
    | apply State.beginReset_canon | apply State.flrComplete_canon | intro _ | apply canon_ite | dsimp only | split

theorem execVfFlr_canon {q a0} {a1 : State} {t : State} (e : execVfFlr a0 a1 = .next t) (h1 : Canon q a1) : Canon q t := by
  unfold execVfFlr at e
  refine act_canon e h1 ?_
  intros
  repeat' with_reducible first
    | assumption | intro _ | refine act_canon (by assumption) ?_ | apply vfFlrEffect_canon | dsimp only

theorem flrTimeoutEffect_canon {q a0} {a1 : State} (h1 : Canon q a1) :
    Canon q (flrTimeoutEffect a0 a1) := by
  unfold flrTimeoutEffect
  try dsimp only
  repeat' with_reducible first
    | assumption | apply State.flrComplete_canon | apply canon_ite | dsimp only | split

theorem execFlrTimeout_canon {q a0} {a1 : State} {t : State} (e : execFlrTimeout a0 a1 = .next t) (h1 : Canon q a1) : Canon q t := by
  unfold execFlrTimeout at e
  refine act_canon e h1 ?_
  intros
  repeat' with_reducible first
    | assumption | intro _ | refine act_canon (by assumption) ?_ | apply flrTimeoutEffect_canon | dsimp only

theorem instanceFreezeBody_canon {q a0} {a1 : State} (h1 : Canon q a1) :
    AnsCanon q (instanceFreezeBody a0 a1) := by
  unfold instanceFreezeBody
  try dsimp only
  repeat' with_reducible first
    | assumption | exact ansCanon_refuse | apply ansCanon_done | apply ansCanon_ite | intro _
    | apply State.setInst_canon | apply State.dropFetched_canon | apply State.dropRuns_canon
    | apply State.endUndispatched_canon | apply State.discardForecast_canon | apply State.stopTable_canon
    | apply ansCanon_ends | apply ansCanon_later | apply ansCanon_long | apply canon_ite | apply canon_foldl
    | dsimp only | split

theorem execInstanceFreeze_canon {q a0} {a1 : State} {t : State} (e : execInstanceFreeze a0 a1 = .next t) (h1 : Canon q a1) : Canon q t := by
  unfold execInstanceFreeze at e
  refine act_canon e h1 ?_
  intros
  repeat' with_reducible first
    | assumption | intro _ | refine act_canon (by assumption) ?_ | apply State.perform_canon
    | apply instanceFreezeBody_canon | dsimp only

theorem instanceThawBody_canon {q a0} {a1 : State} (h1 : Canon q a1) :
    AnsCanon q (instanceThawBody a0 a1) := by
  unfold instanceThawBody
  try dsimp only
  repeat' with_reducible first
    | assumption | exact ansCanon_refuse | apply ansCanon_done | apply ansCanon_ite | intro _
    | apply State.setInst_canon | apply State.fetchIssue_canon | apply State.modRing_canon
    | apply State.wakeForecast_canon | apply ansCanon_ends | apply ansCanon_later | apply ansCanon_long
    | apply canon_ite | apply canon_foldl | dsimp only | split

theorem execInstanceThaw_canon {q a0} {a1 : State} {t : State} (e : execInstanceThaw a0 a1 = .next t) (h1 : Canon q a1) : Canon q t := by
  unfold execInstanceThaw at e
  refine act_canon e h1 ?_
  intros
  repeat' with_reducible first
    | assumption | intro _ | refine act_canon (by assumption) ?_ | apply State.perform_canon
    | apply instanceThawBody_canon | dsimp only

theorem mbxGoEffect_canon {q a0} {a1 : State} (h1 : Canon q a1) :
    Canon q (mbxGoEffect a0 a1) := by
  unfold mbxGoEffect
  try dsimp only
  repeat' with_reducible first
    | assumption | apply State.raise_canon | apply State.setReg_canon | apply State.satReg_canon
    | apply State.setInBusy_canon | apply canon_ite | dsimp only | split

theorem execMbxInGo_canon {q a0} {a1 : State} {t : State} (e : execMbxInGo a0 a1 = .next t) (h1 : Canon q a1) : Canon q t := by
  unfold execMbxInGo at e
  refine barWrite_canon e h1 ?_
  intros
  repeat' with_reducible first
    | assumption | intro _ | refine barWrite_canon (by assumption) ?_ | apply mbxGoEffect_canon | dsimp only

theorem mbxAckEffect_canon {q a0} {a1 : State} (h1 : Canon q a1) :
    Canon q (mbxAckEffect a0 a1) := by
  unfold mbxAckEffect
  try dsimp only
  repeat' with_reducible first
    | assumption | apply State.setInst_canon | apply State.mbxShow_canon | dsimp only | split

theorem execMbxOutAck_canon {q a0} {a1 : State} {t : State} (e : execMbxOutAck a0 a1 = .next t) (h1 : Canon q a1) : Canon q t := by
  unfold execMbxOutAck at e
  refine barWrite_canon e h1 ?_
  intros
  repeat' with_reducible first
    | assumption | intro _ | refine barWrite_canon (by assumption) ?_ | apply mbxAckEffect_canon | dsimp only

theorem mbxOutEffect_canon {q a0 a1} {a2 : State} (h2 : Canon q a2) :
    Canon q (mbxOutEffect a0 a1 a2) := by
  unfold mbxOutEffect
  try dsimp only
  repeat' with_reducible first
    | assumption | apply State.mbxPost_canon | apply canon_ite | dsimp only | split

theorem execMbxOutPost_canon {q a0 a1} {a2 : State} {t : State} (e : execMbxOutPost a0 a1 a2 = .next t) (h2 : Canon q a2) : Canon q t := by
  unfold execMbxOutPost at e
  refine act_canon e h2 ?_
  intros
  repeat' with_reducible first
    | assumption | intro _ | refine act_canon (by assumption) ?_ | apply mbxOutEffect_canon | dsimp only

end Sys2Proof.Machine
end

