-- ==== Sys2Proof/Laws/CanonRings.lean ====
section
/-!
SUPPORT. Laws/Canon.lean's property for interrupts, rings, pager, migration, power, swarm.
-/

namespace Sys2Proof.Machine

theorem State.modTb_canon {q a1} {a0 : State} (h0 : Canon q a0) :
    Canon q (State.modTb a0 a1) := by
  unfold State.modTb
  try dsimp only
  repeat' with_reducible first
    | assumption | intro _ | dsimp only | split

theorem State.tbFault_canon {q a1 a2} {a0 : State} (h0 : Canon q a0) :
    Canon q (State.tbFault a0 a1 a2) := by
  unfold State.tbFault
  try dsimp only
  repeat' with_reducible first
    | assumption | apply State.raise_canon | apply State.setReg_canon | dsimp only | split

theorem State.setLock_canon {q a1} {a0 : State} (h0 : Canon q a0) :
    Canon q (State.setLock a0 a1) := by
  unfold State.setLock
  try dsimp only
  repeat' with_reducible first
    | assumption | apply State.modTb_canon | apply State.sendAll_canon | intro _ | apply canon_ite | dsimp only
    | split

theorem State.enterHoldover_canon {q} {a0 : State} (h0 : Canon q a0) :
    Canon q (State.enterHoldover a0) := by
  unfold State.enterHoldover
  try dsimp only
  repeat' with_reducible first
    | assumption | apply State.modTb_canon | apply State.tbFault_canon | apply State.setLock_canon | intro _
    | dsimp only | split

theorem State.ppsCheck_canon {q} {a0 : State} (h0 : Canon q a0) :
    Canon q (State.ppsCheck a0) := by
  unfold State.ppsCheck
  try dsimp only
  repeat' with_reducible first
    | assumption | apply State.setLock_canon | apply State.enterHoldover_canon | apply canon_ite | dsimp only | split

theorem State.countExtra_canon {q a1} {a0 : State} (h0 : Canon q a0) :
    Canon q (State.countExtra a0 a1) := by
  unfold State.countExtra
  try dsimp only
  repeat' with_reducible first
    | assumption | apply State.ppsCheck_canon | apply State.tbFault_canon | apply State.satReg_canon | dsimp only
    | split

theorem State.discipline_canon {q a1} {a0 : State} (h0 : Canon q a0) :
    Canon q (State.discipline a0 a1) := by
  unfold State.discipline
  try dsimp only
  repeat' with_reducible first
    | assumption | apply State.modTb_canon | intro _ | dsimp only | split

theorem State.applyTod_canon {q a1} {a0 : State} (h0 : Canon q a0) :
    Canon q (State.applyTod a0 a1) := by
  unfold State.applyTod
  try dsimp only
  repeat' with_reducible first
    | assumption | apply State.andNotReg_canon | apply State.orReg_canon | apply State.modTb_canon | intro _
    | apply canon_ite | dsimp only | split

theorem State.accepted_canon {q a1 a2} {a0 : State} (h0 : Canon q a0) :
    Canon q (State.accepted a0 a1 a2) := by
  unfold State.accepted
  try dsimp only
  repeat' with_reducible first
    | assumption | apply State.modTb_canon | apply State.applyTod_canon | apply State.incReg_canon | intro _
    | dsimp only | split

theorem State.countLock_canon {q a1 a2} {a0 : State} (h0 : Canon q a0) :
    Canon q (State.countLock a0 a1 a2) := by
  unfold State.countLock
  try dsimp only
  repeat' with_reducible first
    | assumption | apply State.modTb_canon | apply State.setLock_canon | intro _ | apply canon_ite | dsimp only
    | split

theorem State.acquireEdge_canon {q a1} {a0 : State} (h0 : Canon q a0) :
    Canon q (State.acquireEdge a0 a1) := by
  unfold State.acquireEdge
  try dsimp only
  repeat' with_reducible first
    | assumption | apply State.modTb_canon | apply State.countExtra_canon | apply State.countLock_canon
    | apply State.accepted_canon | apply State.discipline_canon | intro _ | apply canon_ite | dsimp only | split

theorem State.extraEdge_canon {q a1} {a0 : State} (h0 : Canon q a0) :
    Canon q (State.extraEdge a0 a1) := by
  unfold State.extraEdge
  try dsimp only
  repeat' with_reducible first
    | assumption | apply State.modTb_canon | apply State.countExtra_canon | apply State.tbFault_canon
    | apply State.setLock_canon | intro _ | apply canon_ite | dsimp only | split

theorem State.ppsEdge_canon {q a1} {a0 : State} (h0 : Canon q a0) :
    Canon q (State.ppsEdge a0 a1) := by
  unfold State.ppsEdge
  try dsimp only
  repeat' with_reducible first
    | assumption | apply State.setLock_canon | apply State.modTb_canon | apply State.acquireEdge_canon
    | apply State.accepted_canon | apply State.discipline_canon | apply State.extraEdge_canon
    | apply State.countLock_canon | intro _ | apply canon_ite | dsimp only | split

theorem State.missSecond_canon {q} {a0 : State} (h0 : Canon q a0) :
    Canon q (State.missSecond a0) := by
  unfold State.missSecond
  try dsimp only
  repeat' with_reducible first
    | assumption | apply State.tbFault_canon | apply State.modTb_canon | apply State.enterHoldover_canon | intro _
    | apply canon_ite | dsimp only | split

theorem State.forceOne_canon {q a1} {a0 : State} (h0 : Canon q a0) :
    Canon q (State.forceOne a0 a1) := by
  unfold State.forceOne
  try dsimp only
  repeat' with_reducible first
    | assumption | apply State.ppsCheck_canon | apply State.raise_canon | apply canon_ite | dsimp only | split

theorem faultForceEffect_canon {q a0 a1 a2} {a3 : State} (h3 : Canon q a3) :
    Canon q (faultForceEffect a0 a1 a2 a3) := by
  unfold faultForceEffect
  try dsimp only
  repeat' with_reducible first
    | assumption | intro _ | apply State.forceOne_canon | apply canon_ite | apply canon_foldl | dsimp only | split

theorem execFaultForce_canon {q a0 a1 a2} {a3 : State} {t : State} (e : execFaultForce a0 a1 a2 a3 = .next t) (h3 : Canon q a3) : Canon q t := by
  unfold execFaultForce at e
  refine barWrite_canon e h3 ?_
  intros
  repeat' with_reducible first
    | assumption | intro _ | refine barWrite_canon (by assumption) ?_ | apply faultForceEffect_canon | dsimp only

theorem severeClearEffect_canon {q a0 a1 a2} {a3 : State} (h3 : Canon q a3) :
    Canon q (severeClearEffect a0 a1 a2 a3) := by
  unfold severeClearEffect
  try dsimp only
  repeat' with_reducible first
    | assumption | apply State.andNotReg_canon | apply State.syncLine_canon | intro _ | apply canon_ite | dsimp only
    | split

theorem execSevereClear_canon {q a0 a1 a2} {a3 : State} {t : State} (e : execSevereClear a0 a1 a2 a3 = .next t) (h3 : Canon q a3) : Canon q t := by
  unfold execSevereClear at e
  refine barWrite_canon e h3 ?_
  intros
  repeat' with_reducible first
    | assumption | intro _ | refine barWrite_canon (by assumption) ?_ | apply severeClearEffect_canon | dsimp only

theorem humToggleEffect_canon {q} {a0 : State} (h0 : Canon q a0) :
    Canon q (humToggleEffect a0) := by
  unfold humToggleEffect
  try dsimp only
  repeat' with_reducible first
    | assumption | apply canon_ite | dsimp only | split

theorem execHumToggle_canon {q} {a0 : State} {t : State} (e : execHumToggle a0 = .next t) (h0 : Canon q a0) : Canon q t := by
  unfold execHumToggle at e
  refine actRef_canon e h0 ?_
  intros
  repeat' with_reducible first
    | assumption | intro _ | refine actRef_canon (by assumption) ?_ | apply humToggleEffect_canon | dsimp only

theorem irqChangeEffect_canon {q a0 a1} {a2 : State} (h2 : Canon q a2) :
    Canon q (irqChangeEffect a0 a1 a2) := by
  unfold irqChangeEffect
  try dsimp only
  repeat' with_reducible first
    | assumption | apply State.settle_canon | apply State.irqLevel_canon | apply State.setIrq_canon
    | apply State.wakeEvent_canon | apply canon_ite | dsimp only | split

theorem execIrqLevelChange_canon {q a0 a1} {a2 : State} {t : State} (e : execIrqLevelChange a0 a1 a2 = .next t) (h2 : Canon q a2) : Canon q t := by
  unfold execIrqLevelChange at e
  try dsimp only at e
  (repeat' split at e)
  all_goals first | cases e | skip
  repeat' with_reducible first
    | assumption | intro _ | apply irqChangeEffect_canon | dsimp only

theorem State.claimed_canon {q a1 a2} {a0 : State} (h0 : Canon q a0) :
    Canon q (State.claimed a0 a1 a2) := by
  unfold State.claimed
  try dsimp only
  repeat' with_reducible first
    | assumption | intro _ | apply State.setIrq_canon | apply State.icSync_canon | apply canon_ite | dsimp only
    | split

theorem icClaimEffect_canon {q a0 a1} {a2 : State} (h2 : Canon q a2) :
    Canon q (icClaimEffect a0 a1 a2) := by
  unfold icClaimEffect
  try dsimp only
  repeat' with_reducible first
    | assumption | apply State.emit_canon | apply State.setIrq_canon | apply State.icSync_canon | intro _
    | apply State.claimed_canon | apply canon_ite | dsimp only | split

theorem execIcClaim_canon {q a0 a1} {a2 : State} {t : State} (e : execIcClaim a0 a1 a2 = .next t) (h2 : Canon q a2) : Canon q t := by
  unfold execIcClaim at e
  refine act_canon e h2 ?_
  intros
  repeat' with_reducible first
    | assumption | intro _ | refine act_canon (by assumption) ?_ | apply icClaimEffect_canon | dsimp only

theorem icCompleteEffect_canon {q a0 a1 a2} {a3 : State} (h3 : Canon q a3) :
    Canon q (icCompleteEffect a0 a1 a2 a3) := by
  unfold icCompleteEffect
  try dsimp only
  repeat' with_reducible first
    | assumption | apply State.icSync_canon | apply State.setIrq_canon | apply State.raise_canon
    | apply State.setReg_canon | apply canon_ite | dsimp only | split

theorem execIcComplete_canon {q a0 a1 a2} {a3 : State} {t : State} (e : execIcComplete a0 a1 a2 a3 = .next t) (h3 : Canon q a3) : Canon q t := by
  unfold execIcComplete at e
  refine act_canon e h3 ?_
  intros
  repeat' with_reducible first
    | assumption | intro _ | refine act_canon (by assumption) ?_ | apply icCompleteEffect_canon | dsimp only

theorem stormUnmaskEffect_canon {q a0 a1} {a2 : State} (h2 : Canon q a2) :
    Canon q (stormUnmaskEffect a0 a1 a2) := by
  unfold stormUnmaskEffect
  try dsimp only
  repeat' with_reducible first
    | assumption | apply State.icSync_canon | apply State.setIrq_canon | apply canon_ite | dsimp only | split

theorem execStormUnmask_canon {q a0 a1} {a2 : State} {t : State} (e : execStormUnmask a0 a1 a2 = .next t) (h2 : Canon q a2) : Canon q t := by
  unfold execStormUnmask at e
  refine barWrite_canon e h2 ?_
  intros
  repeat' with_reducible first
    | assumption | intro _ | refine barWrite_canon (by assumption) ?_ | apply stormUnmaskEffect_canon | dsimp only

theorem holdoffEffect_canon {q a0} {a1 : State} (h1 : Canon q a1) :
    Canon q (holdoffEffect a0 a1) := by
  unfold holdoffEffect
  try dsimp only
  repeat' with_reducible first
    | assumption | apply State.icSync_canon | apply canon_ite | dsimp only | split

theorem execHoldoffExpiry_canon {q a0} {a1 : State} {t : State} (e : execHoldoffExpiry a0 a1 = .next t) (h1 : Canon q a1) : Canon q t := by
  unfold execHoldoffExpiry at e
  refine act_canon e h1 ?_
  intros
  repeat' with_reducible first
    | assumption | intro _ | refine act_canon (by assumption) ?_ | apply holdoffEffect_canon | dsimp only

theorem nopBody_canon {q a0} {a1 : State} (h1 : Canon q a1) :
    AnsCanon q (nopBody a0 a1) := by
  unfold nopBody
  try dsimp only
  repeat' with_reducible first
    | assumption | exact ansCanon_refuse | apply ansCanon_done | intro _ | apply ansCanon_ends | apply ansCanon_later
    | apply ansCanon_long | apply ansCanon_ite | dsimp only | split

theorem execNop_canon {q a0} {a1 : State} {t : State} (e : execNop a0 a1 = .next t) (h1 : Canon q a1) : Canon q t := by
  unfold execNop at e
  refine act_canon e h1 ?_
  intros
  repeat' with_reducible first
    | assumption | intro _ | refine act_canon (by assumption) ?_ | apply State.perform_canon | apply nopBody_canon
    | dsimp only

theorem ringCreateBody_canon {q a0} {a1 : State} (h1 : Canon q a1) :
    AnsCanon q (ringCreateBody a0 a1) := by
  unfold ringCreateBody
  try dsimp only
  repeat' with_reducible first
    | assumption | exact ansCanon_refuse | apply ansCanon_done | apply ansCanon_ite | intro _
    | apply State.setRing_canon | apply ansCanon_ends | apply ansCanon_later | apply ansCanon_long | apply canon_ite
    | dsimp only | split

theorem execRingCreate_canon {q a0} {a1 : State} {t : State} (e : execRingCreate a0 a1 = .next t) (h1 : Canon q a1) : Canon q t := by
  unfold execRingCreate at e
  refine act_canon e h1 ?_
  intros
  repeat' with_reducible first
    | assumption | intro _ | refine act_canon (by assumption) ?_ | apply State.perform_canon | apply ringCreateBody_canon
    | dsimp only

theorem ringEnableBody_canon {q a0} {a1 : State} (h1 : Canon q a1) :
    AnsCanon q (ringEnableBody a0 a1) := by
  unfold ringEnableBody
  try dsimp only
  repeat' with_reducible first
    | assumption | exact ansCanon_refuse | apply ansCanon_done | apply ansCanon_ite | intro _
    | apply State.enableRing_canon | apply ansCanon_ends | apply ansCanon_later | apply ansCanon_long
    | apply canon_ite | dsimp only | split

theorem execRingEnable_canon {q a0} {a1 : State} {t : State} (e : execRingEnable a0 a1 = .next t) (h1 : Canon q a1) : Canon q t := by
  unfold execRingEnable at e
  refine act_canon e h1 ?_
  intros
  repeat' with_reducible first
    | assumption | intro _ | refine act_canon (by assumption) ?_ | apply State.perform_canon | apply ringEnableBody_canon
    | dsimp only

theorem ringDisableBody_canon {q a0} {a1 : State} (h1 : Canon q a1) :
    AnsCanon q (ringDisableBody a0 a1) := by
  unfold ringDisableBody
  try dsimp only
  repeat' with_reducible first
    | assumption | exact ansCanon_refuse | apply ansCanon_done | apply ansCanon_ite | intro _
    | apply State.drainRing_canon | apply ansCanon_ends | apply ansCanon_later | apply ansCanon_long | apply canon_ite
    | dsimp only | split

theorem execRingDisable_canon {q a0} {a1 : State} {t : State} (e : execRingDisable a0 a1 = .next t) (h1 : Canon q a1) : Canon q t := by
  unfold execRingDisable at e
  refine act_canon e h1 ?_
  intros
  repeat' with_reducible first
    | assumption | intro _ | refine act_canon (by assumption) ?_ | apply State.perform_canon
    | apply ringDisableBody_canon | dsimp only

theorem ringDestroyBody_canon {q a0} {a1 : State} (h1 : Canon q a1) :
    AnsCanon q (ringDestroyBody a0 a1) := by
  unfold ringDestroyBody
  try dsimp only
  repeat' with_reducible first
    | assumption | exact ansCanon_refuse | apply ansCanon_done | apply ansCanon_ite | intro _ | apply ansCanon_ends
    | apply ansCanon_later | apply ansCanon_long | apply State.eraseRing_canon | apply canon_ite | dsimp only | split

theorem execRingDestroy_canon {q a0} {a1 : State} {t : State} (e : execRingDestroy a0 a1 = .next t) (h1 : Canon q a1) : Canon q t := by
  unfold execRingDestroy at e
  refine act_canon e h1 ?_
  intros
  repeat' with_reducible first
    | assumption | intro _ | refine act_canon (by assumption) ?_ | apply State.perform_canon
    | apply ringDestroyBody_canon | dsimp only

theorem tokenRingCreateBody_canon {q a0} {a1 : State} (h1 : Canon q a1) :
    AnsCanon q (tokenRingCreateBody a0 a1) := by
  unfold tokenRingCreateBody
  try dsimp only
  repeat' with_reducible first
    | assumption | exact ansCanon_refuse | apply ansCanon_done | apply ansCanon_ite | intro _ | apply ansCanon_ends
    | apply ansCanon_later | apply ansCanon_long | apply canon_ite | dsimp only | split

theorem execTokenRingCreate_canon {q a0} {a1 : State} {t : State} (e : execTokenRingCreate a0 a1 = .next t) (h1 : Canon q a1) : Canon q t := by
  unfold execTokenRingCreate at e
  refine act_canon e h1 ?_
  intros
  repeat' with_reducible first
    | assumption | intro _ | refine act_canon (by assumption) ?_ | apply State.perform_canon
    | apply tokenRingCreateBody_canon | dsimp only

theorem tokenRingDestroyBody_canon {q a0} {a1 : State} (h1 : Canon q a1) :
    AnsCanon q (tokenRingDestroyBody a0 a1) := by
  unfold tokenRingDestroyBody
  try dsimp only
  repeat' with_reducible first
    | assumption | exact ansCanon_refuse | apply ansCanon_done | apply ansCanon_ite | intro _ | apply ansCanon_ends
    | apply ansCanon_later | apply ansCanon_long | apply canon_ite | dsimp only | split

theorem execTokenRingDestroy_canon {q a0} {a1 : State} {t : State} (e : execTokenRingDestroy a0 a1 = .next t) (h1 : Canon q a1) : Canon q t := by
  unfold execTokenRingDestroy at e
  refine act_canon e h1 ?_
  intros
  repeat' with_reducible first
    | assumption | intro _ | refine act_canon (by assumption) ?_ | apply State.perform_canon
    | apply tokenRingDestroyBody_canon | dsimp only

theorem State.foreignWrite_canon {q a1 a2} {a0 : State} (h0 : Canon q a0) :
    Canon q (State.foreignWrite a0 a1 a2) := by
  unfold State.foreignWrite
  try dsimp only
  repeat' with_reducible first
    | assumption | apply State.forFault_canon | apply State.satReg_canon | dsimp only | split

theorem doorbellEffect_canon {q a0 a1 a2} {a3 : State} (h3 : Canon q a3) :
    Canon q (doorbellEffect a0 a1 a2 a3) := by
  unfold doorbellEffect
  try dsimp only
  repeat' with_reducible first
    | assumption | apply State.foreignWrite_canon | apply State.satReg_canon | apply State.fetchIssue_canon
    | apply State.publish_canon | apply State.forFault_canon | apply State.modRing_canon | intro _ | apply canon_ite
    | dsimp only | split

theorem execDoorbellWrite_canon {q a0 a1 a2} {a3 : State} {t : State} (e : execDoorbellWrite a0 a1 a2 a3 = .next t) (h3 : Canon q a3) : Canon q t := by
  unfold execDoorbellWrite at e
  refine barWrite_canon e h3 ?_
  intros
  repeat' with_reducible first
    | assumption | intro _ | refine barWrite_canon (by assumption) ?_ | apply doorbellEffect_canon | dsimp only

theorem pushEffect_canon {q a0 a1 a2} {a3 : State} (h3 : Canon q a3) :
    Canon q (pushEffect a0 a1 a2 a3) := by
  unfold pushEffect
  try dsimp only
  repeat' with_reducible first
    | assumption | apply State.foreignWrite_canon | apply State.pushDrop_canon | apply State.takePush_canon
    | apply canon_ite | dsimp only | split

theorem execPushWrite_canon {q a0 a1 a2} {a3 : State} {t : State} (e : execPushWrite a0 a1 a2 a3 = .next t) (h3 : Canon q a3) : Canon q t := by
  unfold execPushWrite at e
  refine barWrite_canon e h3 ?_
  intros
  repeat' with_reducible first
    | assumption | intro _ | refine barWrite_canon (by assumption) ?_ | apply pushEffect_canon | dsimp only

theorem tokenDoorbellEffect_canon {q a0 a1 a2} {a3 : State} (h3 : Canon q a3) :
    Canon q (tokenDoorbellEffect a0 a1 a2 a3) := by
  unfold tokenDoorbellEffect
  try dsimp only
  repeat' with_reducible first
    | assumption | apply State.foreignWrite_canon | apply State.forFault_canon | apply canon_ite | dsimp only | split

theorem execTokenRingDoorbell_canon {q a0 a1 a2} {a3 : State} {t : State} (e : execTokenRingDoorbell a0 a1 a2 a3 = .next t) (h3 : Canon q a3) : Canon q t := by
  unfold execTokenRingDoorbell at e
  refine barWrite_canon e h3 ?_
  intros
  repeat' with_reducible first
    | assumption | intro _ | refine barWrite_canon (by assumption) ?_ | apply tokenDoorbellEffect_canon | dsimp only

theorem bootEnableEffect_canon {q a0} {a1 : State} (h1 : Canon q a1) :
    Canon q (bootEnableEffect a0 a1) := by
  unfold bootEnableEffect
  try dsimp only
  repeat' with_reducible first
    | assumption | apply State.orReg_canon | apply State.enableRing_canon | apply canon_ite | dsimp only | split

theorem execBootRingEnable_canon {q a0} {a1 : State} {t : State} (e : execBootRingEnable a0 a1 = .next t) (h1 : Canon q a1) : Canon q t := by
  unfold execBootRingEnable at e
  refine barWrite_canon e h1 ?_
  intros
  repeat' with_reducible first
    | assumption | intro _ | refine barWrite_canon (by assumption) ?_ | apply bootEnableEffect_canon | dsimp only

theorem bootDisableEffect_canon {q a0} {a1 : State} (h1 : Canon q a1) :
    Canon q (bootDisableEffect a0 a1) := by
  unfold bootDisableEffect
  try dsimp only
  repeat' with_reducible first
    | assumption | apply State.andNotReg_canon | apply State.drainRing_canon | apply canon_ite | dsimp only | split

theorem execBootRingDisable_canon {q a0} {a1 : State} {t : State} (e : execBootRingDisable a0 a1 = .next t) (h1 : Canon q a1) : Canon q t := by
  unfold execBootRingDisable at e
  refine barWrite_canon e h1 ?_
  intros
  repeat' with_reducible first
    | assumption | intro _ | refine barWrite_canon (by assumption) ?_ | apply bootDisableEffect_canon | dsimp only

theorem fetchEffect_canon {q a0 a1} {a2 : State} (h2 : Canon q a2) :
    Canon q (fetchEffect a0 a1 a2) := by
  unfold fetchEffect
  try dsimp only
  repeat' with_reducible first
    | assumption | apply State.takeUnits_canon | apply State.fetchIssue_canon | apply State.failRing_canon
    | apply State.modRing_canon | apply State.fetchDone_canon | intro _ | apply canon_ite | dsimp only | split

theorem execFetchReadComplete_canon {q a0 a1} {a2 : State} {t : State} (e : execFetchReadComplete a0 a1 a2 = .next t) (h2 : Canon q a2) : Canon q t := by
  unfold execFetchReadComplete at e
  refine act_canon e h2 ?_
  intros
  repeat' with_reducible first
    | assumption | intro _ | refine act_canon (by assumption) ?_ | apply fetchEffect_canon | dsimp only

theorem rereadEffect_canon {q a0} {a1 : State} (h1 : Canon q a1) :
    Canon q (rereadEffect a0 a1) := by
  unfold rereadEffect
  try dsimp only
  repeat' with_reducible first
    | assumption | apply State.fetchIssue_canon | apply State.modRing_canon | intro _ | apply canon_ite | dsimp only
    | split

theorem execFetchRereadTimer_canon {q a0} {a1 : State} {t : State} (e : execFetchRereadTimer a0 a1 = .next t) (h1 : Canon q a1) : Canon q t := by
  unfold execFetchRereadTimer at e
  refine act_canon e h1 ?_
  intros
  repeat' with_reducible first
    | assumption | intro _ | refine act_canon (by assumption) ?_ | apply rereadEffect_canon | dsimp only

theorem pollEffect_canon {q a0} {a1 : State} (h1 : Canon q a1) :
    Canon q (pollEffect a0 a1) := by
  unfold pollEffect
  try dsimp only
  repeat' with_reducible first
    | assumption | apply State.setRing_canon | apply State.fetchIssue_canon | apply canon_ite | dsimp only | split

theorem execSpecPollTimer_canon {q a0} {a1 : State} {t : State} (e : execSpecPollTimer a0 a1 = .next t) (h1 : Canon q a1) : Canon q t := by
  unfold execSpecPollTimer at e
  refine act_canon e h1 ?_
  intros
  repeat' with_reducible first
    | assumption | intro _ | refine act_canon (by assumption) ?_ | apply pollEffect_canon | dsimp only

theorem execEntryStart_canon {q a0} {a1 : State} {t : State} (e : execEntryStart a0 a1 = .next t) (h1 : Canon q a1) : Canon q t := by
  unfold execEntryStart at e
  refine act_canon e h1 ?_
  intros
  repeat' with_reducible first
    | assumption | intro _ | refine act_canon (by assumption) ?_ | apply State.startEntry_canon | dsimp only

theorem barrierEffect_canon {q a0} {a1 : State} (h1 : Canon q a1) :
    Canon q (barrierEffect a0 a1) := by
  unfold barrierEffect
  try dsimp only
  repeat' with_reducible first
    | assumption | apply State.startEntry_canon | apply canon_ite | dsimp only | split

theorem execBarrierRelease_canon {q a0} {a1 : State} {t : State} (e : execBarrierRelease a0 a1 = .next t) (h1 : Canon q a1) : Canon q t := by
  unfold execBarrierRelease at e
  refine act_canon e h1 ?_
  intros
  repeat' with_reducible first
    | assumption | intro _ | refine act_canon (by assumption) ?_ | apply barrierEffect_canon | dsimp only

theorem shadowEffect_canon {q a0} {a1 : State} (h1 : Canon q a1) :
    Canon q (shadowEffect a0 a1) := by
  unfold shadowEffect
  try dsimp only
  repeat' with_reducible first
    | assumption | apply State.writeShadow_canon | apply canon_ite | dsimp only | split

theorem execHeadShadowWrite_canon {q a0} {a1 : State} {t : State} (e : execHeadShadowWrite a0 a1 = .next t) (h1 : Canon q a1) : Canon q t := by
  unfold execHeadShadowWrite at e
  refine act_canon e h1 ?_
  intros
  repeat' with_reducible first
    | assumption | intro _ | refine act_canon (by assumption) ?_ | apply shadowEffect_canon | dsimp only

theorem complErrorEffect_canon {q a0 a1} {a2 : State} (h2 : Canon q a2) :
    Canon q (complErrorEffect a0 a1 a2) := by
  unfold complErrorEffect
  try dsimp only
  repeat' with_reducible first
    | assumption | apply State.setRing_canon | apply State.drainRing_canon | apply State.modRing_canon
    | apply State.forFault_canon | intro _ | apply canon_ite | dsimp only | split

theorem execCompletionWriteError_canon {q a0 a1} {a2 : State} {t : State} (e : execCompletionWriteError a0 a1 a2 = .next t) (h2 : Canon q a2) : Canon q t := by
  unfold execCompletionWriteError at e
  refine act_canon e h2 ?_
  intros
  repeat' with_reducible first
    | assumption | intro _ | refine act_canon (by assumption) ?_ | apply complErrorEffect_canon | dsimp only

theorem execRingDrainEnd_canon {q a0} {a1 : State} {t : State} (e : execRingDrainEnd a0 a1 = .next t) (h1 : Canon q a1) : Canon q t := by
  unfold execRingDrainEnd at e
  exact act_canon e h1 fun _ h => State.drainEnd_canon h

theorem blockUpdateEffect_canon {q a0} {a1 : State} (h1 : Canon q a1) :
    Canon q (blockUpdateEffect a0 a1) := by
  unfold blockUpdateEffect
  try dsimp only
  repeat' with_reducible first
    | assumption | apply State.blockUpdate_canon | apply canon_ite | dsimp only | split

theorem execStatusBlockUpdate_canon {q a0} {a1 : State} {t : State} (e : execStatusBlockUpdate a0 a1 = .next t) (h1 : Canon q a1) : Canon q t := by
  unfold execStatusBlockUpdate at e
  refine act_canon e h1 ?_
  intros
  repeat' with_reducible first
    | assumption | intro _ | refine act_canon (by assumption) ?_ | apply blockUpdateEffect_canon | dsimp only

theorem blockErrorEffect_canon {q a0} {a1 : State} (h1 : Canon q a1) :
    Canon q (blockErrorEffect a0 a1) := by
  unfold blockErrorEffect
  try dsimp only
  repeat' with_reducible first
    | assumption | apply State.raise_canon | apply canon_ite | dsimp only | split

theorem execStatusBlockWriteError_canon {q a0} {a1 : State} {t : State} (e : execStatusBlockWriteError a0 a1 = .next t) (h1 : Canon q a1) : Canon q t := by
  unfold execStatusBlockWriteError at e
  refine act_canon e h1 ?_
  intros
  repeat' with_reducible first
    | assumption | intro _ | refine act_canon (by assumption) ?_ | apply blockErrorEffect_canon | dsimp only

theorem State.attachPrefix_canon {q a1 a2} {a0 : State} (h0 : Canon q a0) :
    Canon q (State.attachPrefix a0 a1 a2) := by
  unfold State.attachPrefix
  try dsimp only
  repeat' with_reducible first
    | assumption | intro _ | apply State.modMem_canon | apply State.countPages_canon | apply State.addShared_canon
    | apply canon_foldl | dsimp only | split

theorem State.firstPages_canon {q a1} {a0 : State} {t} (e : State.firstPages a0 a1 = some t) (h0 : Canon q a0) : Canon q t := by
  unfold State.firstPages at e
  extract_lets x g k sh own ls s lv wr at e
  have hs : Canon q s := State.reclaim_canon h0
  clear_value s
  refine canon_foldl_opt_any (fun _ => rfl) (fun s x t ht hs => State.newPage_canon ht hs) e fun u hu => ?_
  refine of_map hu fun v hv hw => ?_
  subst hw
  exact canon_foldl (fun _ _ h => State.rewrote_canon h)
    (canon_foldl_opt (fun _ => rfl) (fun s x t ht hs => State.needLeaf_canon ht hs) hv hs)

theorem State.leaveAdmitted_canon {q a1} {a0 : State} (h0 : Canon q a0) :
    Canon q (State.leaveAdmitted a0 a1) := by
  unfold State.leaveAdmitted
  try dsimp only
  repeat' with_reducible first
    | assumption | refine State.firstPages_canon (by assumption) ?_ | apply State.modEntry_canon
    | apply State.park_canon | apply State.enterReady_canon | apply State.modMem_canon | intro _ | apply canon_ite
    | dsimp only | split

theorem promptDoneEffect_canon {q a0 a1} {a2 : State} (h2 : Canon q a2) :
    Canon q (promptDoneEffect a0 a1 a2) := by
  unfold promptDoneEffect
  try dsimp only
  repeat' with_reducible first
    | assumption | apply State.modMem_canon | apply State.writeTokens_canon | apply State.attachPrefix_canon
    | apply State.modEntry_canon | apply State.pagerSync_canon | apply State.leaveAdmitted_canon | intro _
    | apply canon_ite | dsimp only | split

theorem execPromptFetchDone_canon {q a0 a1} {a2 : State} {t : State} (e : execPromptFetchDone a0 a1 a2 = .next t) (h2 : Canon q a2) : Canon q t := by
  unfold execPromptFetchDone at e
  refine act_canon e h2 ?_
  intros
  repeat' with_reducible first
    | assumption | intro _ | refine act_canon (by assumption) ?_ | apply promptDoneEffect_canon | dsimp only

theorem promptFailEffect_canon {q a0} {a1 : State} (h1 : Canon q a1) :
    Canon q (promptFailEffect a0 a1) := by
  unfold promptFailEffect
  try dsimp only
  repeat' with_reducible first
    | assumption | apply State.pagerSync_canon | apply State.retire_canon | apply canon_ite | dsimp only | split

theorem execPromptFetchFail_canon {q a0} {a1 : State} {t : State} (e : execPromptFetchFail a0 a1 = .next t) (h1 : Canon q a1) : Canon q t := by
  unfold execPromptFetchFail at e
  refine act_canon e h1 ?_
  intros
  repeat' with_reducible first
    | assumption | intro _ | refine act_canon (by assumption) ?_ | apply promptFailEffect_canon | dsimp only

theorem firstPagesEffect_canon {q} {a0 : State} (h0 : Canon q a0) :
    Canon q (firstPagesEffect a0) := by
  unfold firstPagesEffect
  try dsimp only
  repeat' with_reducible first
    | assumption | intro _ | apply State.pagerSync_canon | apply State.leaveAdmitted_canon | apply canon_ite
    | apply canon_foldl | dsimp only | split

theorem execFirstPagesRetry_canon {q} {a0 : State} {t : State} (e : execFirstPagesRetry a0 = .next t) (h0 : Canon q a0) : Canon q t := by
  unfold execFirstPagesRetry at e
  refine act_canon e h0 ?_
  intros
  repeat' with_reducible first
    | assumption | intro _ | refine act_canon (by assumption) ?_ | apply firstPagesEffect_canon | dsimp only

theorem State.landMove_canon {q a1 a2 a3 a4} {a0 : State} (h0 : Canon q a0) :
    Canon q (State.landMove a0 a1 a2 a3 a4) := by
  unfold State.landMove
  try dsimp only
  repeat' with_reducible first
    | assumption | apply State.refundSuper_canon | apply State.refundBrood_canon | apply State.giveFrame_canon
    | apply State.moveEnded_canon | apply State.countPages_canon | apply State.setPage_canon
    | apply State.dropShared_canon | apply State.prefixSweep_canon | apply State.poisonPage_canon
    | apply State.releaseFrame_canon | refine State.promote_canon (by assumption) ?_
    | refine State.demote_canon (by assumption) ?_ | intro _ | apply canon_ite | dsimp only | split

theorem moveDoneEffect_canon {q a0 a1} {a2 : State} (h2 : Canon q a2) :
    Canon q (moveDoneEffect a0 a1 a2) := by
  unfold moveDoneEffect
  try dsimp only
  repeat' with_reducible first
    | assumption | apply State.setMover_canon | apply State.landMove_canon | apply State.giveFrame_canon
    | apply State.pagerSync_canon | apply State.startMove_canon | apply State.poisonPage_canon | apply canon_ite
    | dsimp only | split

theorem execPageMoveDone_canon {q a0 a1} {a2 : State} {t : State} (e : execPageMoveDone a0 a1 a2 = .next t) (h2 : Canon q a2) : Canon q t := by
  unfold execPageMoveDone at e
  refine act_canon e h2 ?_
  intros
  repeat' with_reducible first
    | assumption | intro _ | refine act_canon (by assumption) ?_ | apply moveDoneEffect_canon | dsimp only

theorem demoteEffect_canon {q a0 a1} {a2 : State} (h2 : Canon q a2) :
    Canon q (demoteEffect a0 a1 a2) := by
  unfold demoteEffect
  try dsimp only
  repeat' with_reducible first
    | assumption | intro _ | apply State.syncPressure_canon | refine State.demote_canon (by assumption) ?_
    | apply canon_getD | apply canon_filter | apply canon_ite | apply canon_foldl | dsimp only | split

theorem execDemotePage_canon {q a0 a1} {a2 : State} {t : State} (e : execDemotePage a0 a1 a2 = .next t) (h2 : Canon q a2) : Canon q t := by
  unfold execDemotePage at e
  refine act_canon e h2 ?_
  intros
  repeat' with_reducible first
    | assumption | intro _ | refine act_canon (by assumption) ?_ | apply demoteEffect_canon | dsimp only

theorem State.narrowDone_canon {q a1 a2} {a0 : State} (h0 : Canon q a0) :
    Canon q (State.narrowDone a0 a1 a2) := by
  unfold State.narrowDone
  try dsimp only
  repeat' with_reducible first
    | assumption | intro _ | apply State.loseBoth_canon | apply State.repairList_canon | apply State.pagerSync_canon
    | apply State.walked_canon | apply canon_filter | apply State.npPump_canon | apply canon_ite | apply canon_foldl
    | dsimp only | split

theorem narrowEffect_canon {q a0 a1} {a2 : State} (h2 : Canon q a2) :
    Canon q (narrowEffect a0 a1 a2) := by
  unfold narrowEffect
  try dsimp only
  repeat' with_reducible first
    | assumption | apply State.narrowDone_canon | intro _ | dsimp only | split

theorem execNarrowPathResponse_canon {q a0 a1} {a2 : State} {t : State} (e : execNarrowPathResponse a0 a1 a2 = .next t) (h2 : Canon q a2) : Canon q t := by
  unfold execNarrowPathResponse at e
  refine act_canon e h2 ?_
  intros
  repeat' with_reducible first
    | assumption | intro _ | refine act_canon (by assumption) ?_ | apply narrowEffect_canon | dsimp only

theorem narrowTimeoutEffect_canon {q a0} {a1 : State} (h1 : Canon q a1) :
    Canon q (narrowTimeoutEffect a0 a1) := by
  unfold narrowTimeoutEffect
  try dsimp only
  repeat' with_reducible first
    | assumption | apply State.narrowDone_canon | intro _ | apply canon_ite | dsimp only | split

theorem execNarrowPathTimeout_canon {q a0} {a1 : State} {t : State} (e : execNarrowPathTimeout a0 a1 = .next t) (h1 : Canon q a1) : Canon q t := by
  unfold execNarrowPathTimeout at e
  refine act_canon e h1 ?_
  intros
  repeat' with_reducible first
    | assumption | intro _ | refine act_canon (by assumption) ?_ | apply narrowTimeoutEffect_canon | dsimp only

theorem regionPoisonEffect_canon {q a0 a1} {a2 : State} (h2 : Canon q a2) :
    Canon q (regionPoisonEffect a0 a1 a2) := by
  unfold regionPoisonEffect
  try dsimp only
  repeat' with_reducible first
    | assumption | apply State.pagFault_canon | apply State.regionLost_canon | apply State.report_canon
    | apply State.emit_canon | apply State.modRegion_canon | intro _ | apply State.repairPage_canon | apply canon_ite
    | dsimp only | split

theorem execRegionPoison_canon {q a0 a1} {a2 : State} {t : State} (e : execRegionPoison a0 a1 a2 = .next t) (h2 : Canon q a2) : Canon q t := by
  unfold execRegionPoison at e
  refine act_canon e h2 ?_
  intros
  repeat' with_reducible first
    | assumption | intro _ | refine act_canon (by assumption) ?_ | apply regionPoisonEffect_canon | dsimp only

theorem regionDoneEffect_canon {q a0 a1 a2 a3} {a4 : State} (h4 : Canon q a4) :
    Canon q (regionDoneEffect a0 a1 a2 a3 a4) := by
  unfold regionDoneEffect
  try dsimp only
  repeat' with_reducible first
    | assumption | apply State.modRegion_canon | apply State.report_canon | apply State.regionLost_canon | intro _
    | apply canon_ite | dsimp only | split

theorem execRegionRepairDone_canon {q a0 a1 a2 a3} {a4 : State} {t : State} (e : execRegionRepairDone a0 a1 a2 a3 a4 = .next t) (h4 : Canon q a4) : Canon q t := by
  unfold execRegionRepairDone at e
  refine act_canon e h4 ?_
  intros
  repeat' with_reducible first
    | assumption | intro _ | refine act_canon (by assumption) ?_ | apply regionDoneEffect_canon | dsimp only

theorem State.prefixLogPoison_canon {q a1 a2 a3 a4} {a0 : State} (h0 : Canon q a0) :
    Canon q (State.prefixLogPoison a0 a1 a2 a3 a4) := by
  unfold State.prefixLogPoison
  try dsimp only
  repeat' with_reducible first
    | assumption | apply State.losePrefix_canon | apply State.repairPrefixLog_canon | dsimp only | split

theorem State.heldPoison_canon {q a1 a2 a3} {a0 : State} (h0 : Canon q a0) :
    Canon q (State.heldPoison a0 a1 a2 a3) := by
  unfold State.heldPoison
  try dsimp only
  repeat' with_reducible first
    | assumption | apply State.setReg_canon | apply State.raise_canon | apply State.withhold_canon
    | apply State.loseHeld_canon | apply State.report_canon | dsimp only | split

theorem framePoisonEffect_canon {q a0 a1 a2 a3} {a4 : State} (h4 : Canon q a4) :
    Canon q (framePoisonEffect a0 a1 a2 a3 a4) := by
  unfold framePoisonEffect
  try dsimp only
  repeat' with_reducible first
    | assumption | apply State.poisonPage_canon | apply State.repairLog_canon | apply State.loseBoth_canon
    | apply State.repairList_canon | apply State.pagerSync_canon | apply State.prefixLogPoison_canon
    | apply State.heldPoison_canon | apply canon_ite | dsimp only | split

theorem execFramePoison_canon {q a0 a1 a2 a3} {a4 : State} {t : State} (e : execFramePoison a0 a1 a2 a3 a4 = .next t) (h4 : Canon q a4) : Canon q t := by
  unfold execFramePoison at e
  refine act_canon e h4 ?_
  intros
  repeat' with_reducible first
    | assumption | intro _ | refine act_canon (by assumption) ?_ | apply framePoisonEffect_canon | dsimp only

theorem frameSweepEffect_canon {q} {a0 : State} (h0 : Canon q a0) :
    Canon q (frameSweepEffect a0) := by
  unfold frameSweepEffect
  try dsimp only
  repeat' with_reducible first
    | assumption | apply State.pagerSync_canon | apply State.sweepKey_canon | dsimp only | split

theorem execFrameTableSweep_canon {q} {a0 : State} {t : State} (e : execFrameTableSweep a0 = .next t) (h0 : Canon q a0) : Canon q t := by
  unfold execFrameTableSweep at e
  refine act_canon e h0 ?_
  intros
  repeat' with_reducible first
    | assumption | intro _ | refine act_canon (by assumption) ?_ | apply frameSweepEffect_canon | dsimp only

theorem State.addRegion_canon {q a1 a2 a3} {a0 : State} (h0 : Canon q a0) : Canon q ((State.addRegion a0 a1 a2 a3).1) := by
  unfold State.addRegion
  try dsimp only
  repeat' with_reducible first
    | assumption | apply State.modRegion_canon | apply canon_ite | dsimp only | split

theorem State.addRegion_canon' {q a1 a2 a3} {a0 : State} {t y1} (e : State.addRegion a0 a1 a2 a3 = (t, y1)) (h0 : Canon q a0) : Canon q t := by
  have z := State.addRegion_canon (q := q) (a0 := a0) (a1 := a1) (a2 := a2) (a3 := a3) h0
  rw [e] at z; exact z

theorem modelLoadBody_canon {q a0 a1} {a2 : State} (h2 : Canon q a2) :
    AnsCanon q (modelLoadBody a0 a1 a2) := by
  unfold modelLoadBody
  try dsimp only
  repeat' with_reducible first
    | assumption | exact ansCanon_refuse | apply ansCanon_long | apply ansCanon_ite | intro _
    | apply State.addRegion_canon | refine State.addRegion_canon' (by assumption) ?_ | apply State.emit_canon
    | apply canon_foldl_fst | apply ansCanon_done | apply ansCanon_ends | apply ansCanon_later | apply canon_ite
    | apply canon_foldl | dsimp only | split

theorem execModelLoad_canon {q a0 a1} {a2 : State} {t : State} (e : execModelLoad a0 a1 a2 = .next t) (h2 : Canon q a2) : Canon q t := by
  unfold execModelLoad at e
  refine act_canon e h2 ?_
  intros
  repeat' with_reducible first
    | assumption | intro _ | refine act_canon (by assumption) ?_ | apply State.perform_canon | apply modelLoadBody_canon
    | dsimp only

theorem modelUnloadBody_canon {q a0} {a1 : State} (h1 : Canon q a1) :
    AnsCanon q (modelUnloadBody a0 a1) := by
  unfold modelUnloadBody
  try dsimp only
  repeat' with_reducible first
    | assumption | exact ansCanon_refuse | apply ansCanon_done | apply ansCanon_ite | intro _
    | apply State.dropModel_canon | apply ansCanon_ends | apply ansCanon_later | apply ansCanon_long | apply canon_ite
    | dsimp only | split

theorem execModelUnload_canon {q a0} {a1 : State} {t : State} (e : execModelUnload a0 a1 = .next t) (h1 : Canon q a1) : Canon q t := by
  unfold execModelUnload at e
  refine act_canon e h1 ?_
  intros
  repeat' with_reducible first
    | assumption | intro _ | refine act_canon (by assumption) ?_ | apply State.perform_canon
    | apply modelUnloadBody_canon | dsimp only

theorem State.modelPage_canon {q a1 a2 a3 a4 a5} {a0 : State} (h0 : Canon q a0) :
    Canon q (State.modelPage a0 a1 a2 a3 a4 a5) := by
  unfold State.modelPage
  try dsimp only
  repeat' with_reducible first
    | assumption | intro _ | apply State.dropModel_canon | apply State.opEnd_canon | apply State.emit_canon
    | apply State.opProgress_canon | apply canon_getD | apply State.writeRegion_canon | apply canon_ite
    | apply canon_foldl | dsimp only | split

theorem State.saveFailed_canon {q a1 a2 a3} {a0 : State} (h0 : Canon q a0) :
    Canon q (State.saveFailed a0 a1 a2 a3) := by
  unfold State.saveFailed
  try dsimp only
  repeat' with_reducible first
    | assumption | apply State.opEnd_canon | apply State.setInst_canon | apply State.raise_canon
    | apply State.setReg_canon | dsimp only | split

theorem State.savePhase_canon {q a1 a2 a3 a4} {a0 : State} (h0 : Canon q a0) :
    Canon q (State.savePhase a0 a1 a2 a3 a4) := by
  unfold State.savePhase
  try dsimp only
  repeat' with_reducible first
    | assumption | intro _ | apply State.modOp_canon | dsimp only | split

theorem State.appendRecord_canon {q a1 a2 a3} {a0 : State} (h0 : Canon q a0) : Canon q ((State.appendRecord a0 a1 a2 a3).1) :=
  State.emit_canon h0

theorem State.saveClose_canon {q a1 a2 a3 a4 a5} {a0 : State} (h0 : Canon q a0) :
    Canon q (State.saveClose a0 a1 a2 a3 a4 a5) := by
  unfold State.saveClose
  extract_lets objects more
  split
  · exact State.saveFailed_canon h0
  · have hf : Canon q (objects.foldl (fun x r => x.1.appendRecord a4.toNat x.2 r) (a0, a5)).1 :=
      canon_foldl_fst (s := (a0, a5)) (fun _ _ h => State.appendRecord_canon h) h0
    dsimp only
    refine State.opProgress_canon (State.savePhase_canon (State.setInst_canon ?_))
    split
    · exact State.setDlog_canon (State.emit_canon hf)
    · exact State.emit_canon hf

theorem State.saveGo_canon {q a1 a2 a3 a4 a5 a6} {a0 : State} (h0 : Canon q a0) :
    Canon q (State.saveGo a0 a1 a2 a3 a4 a5 a6) := by
  induction a6 generalizing a0 a5 with
  | nil => exact State.saveClose_canon h0
  | cons x l ih =>
    unfold State.saveGo
    split
    · exact ih h0
    · split
      · exact State.saveFailed_canon h0
      · split
        · exact State.savePhase_canon (State.emit_canon h0)
        · exact ih (State.appendRecord_canon h0)

theorem State.savePage_canon {q a1 a2 a3 a4 a5 a6} {a0 : State} (h0 : Canon q a0) :
    Canon q (State.savePage a0 a1 a2 a3 a4 a5 a6) := by
  unfold State.savePage
  split
  · exact h0
  · split
    · exact State.saveGo_canon h0
    · exact State.saveGo_canon (State.opProgress_canon (State.appendRecord_canon h0))

theorem State.saveBegin_canon {q a1 a2 a3 a4 a5} {a0 : State} (h0 : Canon q a0) :
    Canon q (State.saveBegin a0 a1 a2 a3 a4 a5) := by
  unfold State.saveBegin
  dsimp only
  split
  · exact State.saveGo_canon h0
  · exact State.saveGo_canon (State.setDlog_canon (State.emit_canon h0))

theorem State.saveRead_canon {q a1 a2 a3} {a0 : State} (h0 : Canon q a0) :
    Canon q (State.saveRead a0 a1 a2 a3) := by
  unfold State.saveRead
  try dsimp only
  repeat' with_reducible first
    | assumption | apply State.emit_canon | apply State.savePhase_canon | dsimp only | split

theorem State.saveAnswer_canon {q a1 a2 a3 a4 a5 a6} {a0 : State} (h0 : Canon q a0) :
    Canon q (State.saveAnswer a0 a1 a2 a3 a4 a5 a6) := by
  unfold State.saveAnswer
  try dsimp only
  repeat' with_reducible first
    | assumption | apply State.opEnd_canon | apply State.saveFailed_canon | apply State.savePage_canon
    | apply State.saveBegin_canon | dsimp only | split

theorem instanceSaveBody_canon {q a0} {a1 : State} (h1 : Canon q a1) :
    AnsCanon q (instanceSaveBody a0 a1) := by
  unfold instanceSaveBody
  try dsimp only
  repeat' with_reducible first
    | assumption | exact ansCanon_refuse | apply ansCanon_long | apply ansCanon_ite | intro _ | apply ansCanon_done
    | apply ansCanon_ends | apply ansCanon_later | apply State.saveRead_canon | apply canon_ite | dsimp only | split

theorem execInstanceSave_canon {q a0} {a1 : State} {t : State} (e : execInstanceSave a0 a1 = .next t) (h1 : Canon q a1) : Canon q t := by
  unfold execInstanceSave at e
  refine act_canon e h1 ?_
  intros
  repeat' with_reducible first
    | assumption | intro _ | refine act_canon (by assumption) ?_ | apply State.perform_canon
    | apply instanceSaveBody_canon | dsimp only

theorem quiescentEffect_canon {q a0} {a1 : State} (h1 : Canon q a1) :
    Canon q (quiescentEffect a0 a1) := by
  unfold quiescentEffect
  try dsimp only
  repeat' with_reducible first
    | assumption | intro _ | apply State.setInst_canon | apply State.saveRead_canon | apply canon_ite
    | apply canon_foldl | dsimp only | split

theorem execInstanceQuiescent_canon {q a0} {a1 : State} {t : State} (e : execInstanceQuiescent a0 a1 = .next t) (h1 : Canon q a1) : Canon q t := by
  unfold execInstanceQuiescent at e
  refine act_canon e h1 ?_
  intros
  repeat' with_reducible first
    | assumption | intro _ | refine act_canon (by assumption) ?_ | apply quiescentEffect_canon | dsimp only

theorem Rebuild.fill_canon {q a0 a1 a2 a3 a4} {a5 : State} (h0 : Canon q a5) :
    Canon q (Rebuild.fill a0 a1 a2 a3 a4 a5) := by
  unfold Rebuild.fill
  try dsimp only
  repeat' with_reducible first
    | assumption | intro _ | apply State.emit_canon | dsimp only | split

theorem Rebuild.note_canon {q a0 a1 a2 a3} (h0 : Canon q a0.s) :
    Canon q ((Rebuild.note a0 a1 a2 a3).s) := by
  unfold Rebuild.note
  try dsimp only
  repeat' with_reducible first
    | assumption | dsimp only

theorem Rebuild.run_canon {q a0 a1 a2 a3} (h0 : Canon q a0.s) (h3 : ∀ x0 u, Canon q u → AnsCanon q (a3 x0 u)) : Canon q ((Rebuild.run a0 a1 a2 a3).1.s) := by
  unfold Rebuild.run
  split
  · exact h0
  · have ha := h3 { src := .ring a1, inst := a1, remote := none, index := 0, ws := a2 } a0.s h0
    split
    · rename_i e; rw [e] at ha; exact ha
    · rename_i e; rw [e] at ha; exact ha
    · exact h0
    · exact h0
    · exact h0

theorem Rebuild.run_canon' {q a0 a1 a2 a3} {t y1} (e : Rebuild.run a0 a1 a2 a3 = (t, y1)) (h0 : Canon q a0.s) (h3 : ∀ x0 u, Canon q u → AnsCanon q (a3 x0 u)) : Canon q t.s := by
  have z := Rebuild.run_canon (q := q) (a0 := a0) (a1 := a1) (a2 := a2) (a3 := a3) h0 h3
  rw [e] at z; exact z

theorem Rebuild.partition_canon {q a0 a1 a2} (h0 : Canon q a0.s) :
    Canon q ((Rebuild.partition a0 a1 a2).s) := by
  unfold Rebuild.partition
  try dsimp only
  repeat' with_reducible first
    | assumption | intro _ | apply Rebuild.run_canon | refine Rebuild.run_canon' (by assumption) ?_
    | apply partitionCreateBody_canon | apply pageGeomBody_canon | apply sampleBindBody_canon | apply serveBindBody_canon
    | apply bwrSetBody_canon | apply canon_foldl | apply canon_foldl_rebuild | dsimp only | split

theorem Rebuild.context_canon {q a0 a1 a2} (h0 : Canon q a0.s) :
    Canon q ((Rebuild.context a0 a1 a2).s) := by
  unfold Rebuild.context
  try dsimp only
  repeat' with_reducible first
    | assumption | intro _ | apply Rebuild.run_canon | refine Rebuild.run_canon' (by assumption) ?_
    | apply contextCreateBody_canon | apply Rebuild.note_canon | apply State.modCtx_canon | apply canon_ite | dsimp only
    | split

theorem Rebuild.pfx_canon {q a0 a1 a2 a3} (h0 : Canon q a0.s) :
    Canon q ((Rebuild.pfx a0 a1 a2 a3).s) := by
  unfold Rebuild.pfx
  dsimp only
  split
  · exact h0
  · split
    · rename_i e
      refine State.writePrefixLog_canon ?_
      refine canon_foldl_opt_any (fun _ => rfl) ?_ e ?_
      · intro s x t ht hs
        dsimp only [Option.bind_some] at ht
        split at ht
        · cases ht
        · refine of_map ht fun w hx e => ?_
          obtain ⟨f, u⟩ := w
          cases e
          have hu : Canon q u := State.takePair_canon hx hs
          exact State.chargeSuper_canon (a0 := u) (a1 := a1) (a2 := 32) hu
      · intro s e
        refine canon_foldl_opt (fun _ => rfl) ?_ e h0
        intro s x t ht hs
        dsimp only [Option.bind_some] at ht
        split at ht
        · cases ht
        · refine of_map ht fun w hx e => ?_
          obtain ⟨f, u⟩ := w
          cases e
          have hu : Canon q u := State.takePlaced_canon hx hs
          exact Rebuild.fill_canon (State.chargeBrood_canon (a0 := u) (a1 := a1) (a2 := 16) hu)
    · exact h0

theorem State.placePage_canon {q a1 a2 a3 a4} {a0 : State} {t} (e : State.placePage a0 a1 a2 a3 a4 = some t) (h0 : Canon q a0) : Canon q t := by
  unfold State.placePage at e
  split at e
  · split at e
    · refine of_map e fun w hx e => ?_
      subst e
      exact State.countPages_canon (State.addShared_canon (State.setPage_canon (State.needLeaf_canon hx h0)))
    · cases e
  · refine of_bind e fun w hx e => ?_
    have hw := State.needLeaf_canon hx h0
    dsimp only at e
    split at e
    · rename_i hb
      cases e
      split at hb
      · exact State.countPages_canon (State.setPage_canon (State.chargeBrood_canon (State.takePlaced_canon hb hw)))
      · cases hb
    · split at e
      · cases e
      · refine of_map e fun y hy e => ?_
        obtain ⟨f, u⟩ := y
        subst e
        exact State.countPages_canon (State.setPage_canon (State.chargeSuper_canon (State.takePlaced_canon hy hw)))

theorem Rebuild.stream_canon {q a0 a1 a2 a3} (h0 : Canon q a0.s) :
    Canon q ((Rebuild.stream a0 a1 a2 a3).s) := by
  unfold Rebuild.stream
  dsimp only
  split
  · split
    · exact h0
    · split
      · exact h0
      · rename_i hm
        have h1 := State.admitMem_canon hm h0
        split
        · exact h0
        · rename_i e
          refine of_map e fun w hw e => ?_
          subst e
          have h2 := canon_foldl_opt (fun _ => rfl) (fun s x t ht hs => State.placePage_canon ht hs) hw
            (State.writeLog_canon (State.madeBlock_canon (State.madeBlock_canon
              (State.setMem_canon (State.setEntry_canon (State.combPop_canon h1))))))
          refine Rebuild.note_canon ?_
          dsimp only
          split
          · refine State.joinReady_canon (canon_foldl ?_ h2)
            intro s x hs; split <;> first | exact Rebuild.fill_canon hs | exact hs
          · refine State.resumeChoice_canon (State.joinParked_canon (State.lastParked_canon (canon_foldl ?_ h2)))
            intro s x hs; split <;> first | exact Rebuild.fill_canon hs | exact hs
          all_goals
            refine canon_foldl ?_ h2
            intro s x hs; split <;> first | exact Rebuild.fill_canon hs | exact hs
  · exact h0

theorem Rebuild.table_canon {q a0 a1 a2} (h0 : Canon q a0.s) :
    Canon q ((Rebuild.table a0 a1 a2).s) := by
  unfold Rebuild.table
  refine Rebuild.run_canon h0 ?_
  intro c s hs
  split
  · exact ansCanon_refuse
  · dsimp only
    exact ansCanon_ite (ansCanon_done (State.cycStore_canon hs)) ansCanon_refuse

theorem Rebuild.object_canon {q a0 a1 a2 a3} (h0 : Canon q a0.s) :
    Canon q ((Rebuild.object a0 a1 a2 a3).s) := by
  unfold Rebuild.object
  try dsimp only
  repeat' with_reducible first
    | assumption | intro _ | apply Rebuild.run_canon | refine Rebuild.run_canon' (by assumption) ?_
    | apply ringCreateBody_canon | apply State.modRing_canon | apply tokenRingCreateBody_canon
    | apply Rebuild.partition_canon | apply Rebuild.context_canon | apply Rebuild.stream_canon | apply Rebuild.pfx_canon
    | apply Rebuild.table_canon | apply canon_ite | dsimp only | split

theorem Rebuild.record_canon {q a0 a1 a2 a3} (h0 : Canon q a0.s) :
    Canon q ((Rebuild.record a0 a1 a2 a3).s) := by
  unfold Rebuild.record
  split
  · exact h0
  · dsimp only
    split
    · exact Rebuild.object_canon h0
    · exact Rebuild.object_canon h0

theorem State.retirePrefixes_canon {q a1 a2} {a0 : State} (h0 : Canon q a0) :
    Canon q (State.retirePrefixes a0 a1 a2) := by
  unfold State.retirePrefixes
  try dsimp only
  repeat' with_reducible first
    | assumption | intro _ | apply canon_ite | apply canon_foldl | dsimp only | split

theorem State.writeRemap_canon {q a1 a2 a3} {a0 : State} (h0 : Canon q a0) :
    Canon q (State.writeRemap a0 a1 a2 a3) := by
  unfold State.writeRemap
  try dsimp only
  repeat' with_reducible first
    | assumption | apply State.emit_canon | intro _ | dsimp only | split

theorem State.restoreEnds_canon {q a1 a2 a3 a4 a5} {a0 : State} (h0 : Canon q a0) :
    Canon q (State.restoreEnds a0 a1 a2 a3 a4 a5) := by
  unfold State.restoreEnds
  try dsimp only
  repeat' with_reducible first
    | assumption | apply State.raise_canon | apply State.setReg_canon | apply State.beginReset_canon
    | apply State.opProgress_canon | apply canon_ite | dsimp only | split

theorem State.restore_canon {q a1 a2 a3 a4} {a0 : State} (h0 : Canon q a0) :
    Canon q (State.restore a0 a1 a2 a3 a4) := by
  unfold State.restore
  try dsimp only
  repeat' with_reducible first
    | assumption | intro _ | apply State.setInst_canon | apply State.restoreEnds_canon | apply Rebuild.record_canon
    | apply State.writeRemap_canon | apply State.pagerSync_canon | apply State.opEnd_canon
    | apply State.opProgress_canon | apply canon_foldl_rebuild | apply canon_filter | apply State.retirePrefixes_canon
    | apply canon_foldl | dsimp only | split

theorem instanceRestoreBody_canon {q a0 a1} {a2 : State} (h2 : Canon q a2) :
    AnsCanon q (instanceRestoreBody a0 a1 a2) := by
  unfold instanceRestoreBody
  try dsimp only
  repeat' with_reducible first
    | assumption | exact ansCanon_refuse | apply ansCanon_long | apply ansCanon_ite | intro _
    | apply State.restore_canon | apply ansCanon_done | apply ansCanon_ends | apply ansCanon_later | apply canon_ite
    | dsimp only | split

theorem execInstanceRestore_canon {q a0 a1} {a2 : State} {t : State} (e : execInstanceRestore a0 a1 a2 = .next t) (h2 : Canon q a2) : Canon q t := by
  unfold execInstanceRestore at e
  refine act_canon e h2 ?_
  intros
  repeat' with_reducible first
    | assumption | intro _ | refine act_canon (by assumption) ?_ | apply State.perform_canon
    | apply instanceRestoreBody_canon | dsimp only

theorem State.inputs_canon {q} {a0 a1 : State} (h0 : Canon q a0) (h1 : Canon q a1) :
    Canon q (State.inputs a0 a1) := by
  unfold State.inputs
  try dsimp only
  repeat' with_reducible first
    | assumption | intro _ | apply canon_ite | dsimp only | split

theorem State.cleared_canon {q} {a0 : State} (h0 : Canon q a0) :
    Canon q (State.cleared a0) := by
  unfold State.cleared State.inputs
  exact ⟨rfl, h0.2⟩

theorem State.takeStacks_canon {q} {a0 : State} (h0 : Canon q a0) :
    Canon q (State.takeStacks a0) := by
  unfold State.takeStacks
  try dsimp only
  repeat' with_reducible first
    | assumption | intro _ | apply State.setStack_canon | apply critRiseEffect_canon | apply hotRiseEffect_canon
    | apply canon_ite | apply canon_foldl | dsimp only | split

theorem State.readFuses_canon {q} {a0 : State} (h0 : Canon q a0) :
    Canon q (State.readFuses a0) := by
  unfold State.readFuses
  try dsimp only
  repeat' with_reducible first
    | assumption | apply State.emits_canon | dsimp only | split

theorem State.innerReset_canon {q a1} {a0 : State} (h0 : Canon q a0) :
    Canon q (State.innerReset a0 a1) := by
  unfold State.innerReset
  refine State.takeStacks_canon (State.readFuses_canon (State.emit_canon (State.setReg_canon ?_)))
  exact ⟨Tbl.wf_filter h0.1, h0.2⟩

theorem State.takeFreeze_canon {q a1 a2} {a0 : State} (h0 : Canon q a0) :
    Canon q (State.takeFreeze a0 a1 a2) := by
  unfold State.takeFreeze
  try dsimp only
  repeat' with_reducible first
    | assumption | apply State.zeroStart_canon | apply State.captureFreeze_canon | apply canon_ite | dsimp only
    | split

theorem State.freezePin_canon {q} {a0 : State} (h0 : Canon q a0) :
    Canon q (State.freezePin a0) := by
  unfold State.freezePin
  try dsimp only
  repeat' with_reducible first
    | assumption | apply State.takeFreeze_canon | apply canon_ite | dsimp only | split

theorem execPowerOnReset_canon {q} {a0 : State} {t : State} (e : execPowerOnReset a0 = .next t) (h0 : Canon q a0) : Canon q t := by
  unfold execPowerOnReset at e
  try dsimp only at e
  (repeat' split at e)
  all_goals first | cases e | skip
  repeat' with_reducible first
    | assumption | intro _ | apply State.cleared_canon | dsimp only

theorem resetReleaseEffect_canon {q} {a0 : State} (h0 : Canon q a0) :
    Canon q (resetReleaseEffect a0) := by
  unfold resetReleaseEffect
  try dsimp only
  repeat' with_reducible first
    | assumption | apply State.takeStacks_canon | apply State.emit_canon | apply State.readFuses_canon
    | apply canon_ite | dsimp only | split

theorem execResetRelease_canon {q} {a0 : State} {t : State} (e : execResetRelease a0 = .next t) (h0 : Canon q a0) : Canon q t := by
  unfold execResetRelease at e
  try dsimp only at e
  (repeat' split at e)
  all_goals first | cases e | skip
  repeat' with_reducible first
    | assumption | intro _ | apply resetReleaseEffect_canon | dsimp only

theorem fuseReadEffect_canon {q a0 a1} {a2 : State} (h2 : Canon q a2) :
    Canon q (fuseReadEffect a0 a1 a2) := by
  unfold fuseReadEffect
  try dsimp only
  repeat' with_reducible first
    | assumption | apply State.takeFreeze_canon | apply State.readFuses_canon | apply canon_ite | dsimp only | split

theorem execFuseMapReadDone_canon {q a0 a1} {a2 : State} {t : State} (e : execFuseMapReadDone a0 a1 a2 = .next t) (h2 : Canon q a2) : Canon q t := by
  unfold execFuseMapReadDone at e
  refine act_canon e h2 ?_
  intros
  repeat' with_reducible first
    | assumption | intro _ | refine act_canon (by assumption) ?_ | apply fuseReadEffect_canon | dsimp only

theorem State.withdrawAll_canon {q} {a0 : State} (h0 : Canon q a0) :
    Canon q (State.withdrawAll a0) := by
  unfold State.withdrawAll
  try dsimp only
  repeat' with_reducible first
    | assumption | intro _ | dsimp only | split

theorem softResetEffect_canon {q a0 a1} {a2 : State} (h2 : Canon q a2) :
    Canon q (softResetEffect a0 a1 a2) := by
  unfold softResetEffect
  try dsimp only
  repeat' with_reducible first
    | assumption | apply State.withdrawAll_canon | apply canon_ite | dsimp only | split

theorem execSoftReset_canon {q a0 a1} {a2 : State} {t : State} (e : execSoftReset a0 a1 a2 = .next t) (h2 : Canon q a2) : Canon q t := by
  unfold execSoftReset at e
  try dsimp only at e
  (repeat' split at e)
  all_goals first | cases e | skip
  repeat' with_reducible first
    | assumption | intro _ | apply softResetEffect_canon | dsimp only

theorem softTakeEffect_canon {q} {a0 : State} (h0 : Canon q a0) :
    Canon q (softTakeEffect a0) := by
  unfold softTakeEffect
  try dsimp only
  repeat' with_reducible first
    | assumption | intro _ | apply State.emit_canon | apply State.innerReset_canon | apply canon_ite
    | apply canon_foldl | dsimp only | split

theorem execSoftResetTakeEffect_canon {q} {a0 : State} {t : State} (e : execSoftResetTakeEffect a0 = .next t) (h0 : Canon q a0) : Canon q t := by
  unfold execSoftResetTakeEffect at e
  try dsimp only at e
  (repeat' split at e)
  all_goals first | cases e | skip
  repeat' with_reducible first
    | assumption | intro _ | apply softTakeEffect_canon | dsimp only

theorem sleepRequestEffect_canon {q a0} {a1 : State} (h1 : Canon q a1) :
    Canon q (sleepRequestEffect a0 a1) := by
  unfold sleepRequestEffect
  try dsimp only
  repeat' with_reducible first
    | assumption | apply State.raise_canon | apply State.andNotReg_canon | apply State.orReg_canon | apply canon_ite
    | dsimp only | split

theorem execSleepRequest_canon {q a0} {a1 : State} {t : State} (e : execSleepRequest a0 a1 = .next t) (h1 : Canon q a1) : Canon q t := by
  unfold execSleepRequest at e
  refine act_canon e h1 ?_
  intros
  repeat' with_reducible first
    | assumption | intro _ | refine act_canon (by assumption) ?_ | apply sleepRequestEffect_canon | dsimp only

theorem sleepClearEffect_canon {q a0} {a1 : State} (h1 : Canon q a1) :
    Canon q (sleepClearEffect a0 a1) := by
  unfold sleepClearEffect
  try dsimp only
  repeat' with_reducible first
    | assumption | apply State.wakeEvent_canon | apply State.andNotReg_canon | apply canon_ite | dsimp only | split

theorem execSleepRequestClear_canon {q a0} {a1 : State} {t : State} (e : execSleepRequestClear a0 a1 = .next t) (h1 : Canon q a1) : Canon q t := by
  unfold execSleepRequestClear at e
  try dsimp only at e
  (repeat' split at e)
  all_goals first | cases e | skip
  repeat' with_reducible first
    | assumption | intro _ | apply sleepClearEffect_canon | dsimp only

theorem sleepEntryEffect_canon {q} {a0 : State} (h0 : Canon q a0) :
    Canon q (sleepEntryEffect a0) := by
  unfold sleepEntryEffect
  try dsimp only
  repeat' with_reducible first
    | assumption | apply State.wakeEvent_canon | apply canon_ite | dsimp only | split

theorem execSleepEntryDone_canon {q} {a0 : State} {t : State} (e : execSleepEntryDone a0 = .next t) (h0 : Canon q a0) : Canon q t := by
  unfold execSleepEntryDone at e
  try dsimp only at e
  (repeat' split at e)
  all_goals first | cases e | skip
  repeat' with_reducible first
    | assumption | intro _ | apply sleepEntryEffect_canon | dsimp only

theorem wakeTimeEffect_canon {q} {a0 : State} (h0 : Canon q a0) :
    Canon q (wakeTimeEffect a0) := by
  unfold wakeTimeEffect
  try dsimp only
  repeat' with_reducible first
    | assumption | apply State.wakeEvent_canon | apply canon_ite | dsimp only | split

theorem execWakeTimeReached_canon {q} {a0 : State} {t : State} (e : execWakeTimeReached a0 = .next t) (h0 : Canon q a0) : Canon q t := by
  unfold execWakeTimeReached at e
  try dsimp only at e
  (repeat' split at e)
  all_goals first | cases e | skip
  repeat' with_reducible first
    | assumption | intro _ | apply wakeTimeEffect_canon | dsimp only

theorem State.icLost_canon {q} {a0 : State} (h0 : Canon q a0) :
    Canon q (State.icLost a0) := by
  unfold State.icLost
  try dsimp only
  repeat' with_reducible first
    | assumption | apply State.raise_canon | apply canon_filter | intro _ | apply State.icSync_canon | apply canon_ite
    | dsimp only | split

theorem wakeRestoreEffect_canon {q a0 a1} {a2 : State} (h2 : Canon q a2) :
    Canon q (wakeRestoreEffect a0 a1 a2) := by
  unfold wakeRestoreEffect
  try dsimp only
  repeat' with_reducible first
    | assumption | intro _ | apply State.innerReset_canon | apply State.icSync_canon | apply State.icLost_canon
    | apply State.wakeSettle_canon | apply State.plannedRestart_canon | apply canon_ite | apply canon_foldl
    | dsimp only | split

theorem execWakeRestoreDone_canon {q a0 a1} {a2 : State} {t : State} (e : execWakeRestoreDone a0 a1 a2 = .next t) (h2 : Canon q a2) : Canon q t := by
  unfold execWakeRestoreDone at e
  try dsimp only at e
  (repeat' split at e)
  all_goals first | cases e | skip
  repeat' with_reducible first
    | assumption | intro _ | apply wakeRestoreEffect_canon | dsimp only

theorem execFreezePin_canon {q} {a0 : State} {t : State} (e : execFreezePin a0 = .next t) (h0 : Canon q a0) : Canon q t := by
  unfold execFreezePin at e
  try dsimp only at e
  (repeat' split at e)
  all_goals first | cases e | skip
  repeat' with_reducible first
    | assumption | intro _ | apply State.freezePin_canon | dsimp only

theorem waggleSetBody_canon {q a0} {a1 : State} (h1 : Canon q a1) :
    AnsCanon q (waggleSetBody a0 a1) := by
  unfold waggleSetBody
  try dsimp only
  repeat' with_reducible first
    | assumption | exact ansCanon_refuse | apply ansCanon_done | apply ansCanon_ite | intro _ | apply ansCanon_ends
    | apply ansCanon_later | apply ansCanon_long | apply canon_ite | dsimp only | split

theorem execWaggleSet_canon {q a0} {a1 : State} {t : State} (e : execWaggleSet a0 a1 = .next t) (h1 : Canon q a1) : Canon q t := by
  unfold execWaggleSet at e
  refine act_canon e h1 ?_
  intros
  repeat' with_reducible first
    | assumption | intro _ | refine act_canon (by assumption) ?_ | apply State.perform_canon | apply waggleSetBody_canon
    | dsimp only

theorem wagglePassageEffect_canon {q a0} {a1 : State} (h1 : Canon q a1) :
    Canon q (wagglePassageEffect a0 a1) := by
  unfold wagglePassageEffect
  try dsimp only
  repeat' with_reducible first
    | assumption | apply State.logEvent_canon | apply State.takeFreeze_canon | apply canon_ite | dsimp only | split

theorem execWagglePassage_canon {q a0} {a1 : State} {t : State} (e : execWagglePassage a0 a1 = .next t) (h1 : Canon q a1) : Canon q t := by
  unfold execWagglePassage at e
  refine act_canon e h1 ?_
  intros
  repeat' with_reducible first
    | assumption | intro _ | refine act_canon (by assumption) ?_ | apply wagglePassageEffect_canon | dsimp only

theorem State.tapIr_canon {q a1} {a0 : State} (h0 : Canon q a0) :
    Canon q (State.tapIr a0 a1) := by
  unfold State.tapIr
  try dsimp only
  repeat' with_reducible first
    | assumption | dsimp only | split

theorem execIdcode_canon {q} {a0 : State} {t : State} (e : execIdcode a0 = .next t) (h0 : Canon q a0) : Canon q t := by
  unfold execIdcode at e
  try dsimp only at e
  (repeat' split at e)
  all_goals first | cases e | skip
  repeat' with_reducible first
    | assumption | intro _ | apply State.emit_canon | apply State.tapIr_canon | dsimp only

theorem execScanSel_canon {q a0} {a1 : State} {t : State} (e : execScanSel a0 a1 = .next t) (h1 : Canon q a1) : Canon q t := by
  unfold execScanSel at e
  try dsimp only at e
  (repeat' split at e)
  all_goals first | cases e | skip
  repeat' with_reducible first
    | assumption | intro _ | dsimp only

theorem scanDumpEffect_canon {q} {a0 : State} (h0 : Canon q a0) :
    Canon q (scanDumpEffect a0) := by
  unfold scanDumpEffect
  try dsimp only
  repeat' with_reducible first
    | assumption | apply State.tapIr_canon | apply State.emit_canon | apply State.drew_canon | apply canon_ite
    | dsimp only | split

theorem execScanDump_canon {q} {a0 : State} {t : State} (e : execScanDump a0 = .next t) (h0 : Canon q a0) : Canon q t := by
  unfold execScanDump at e
  try dsimp only at e
  (repeat' split at e)
  all_goals first | cases e | skip
  repeat' with_reducible first
    | assumption | intro _ | apply scanDumpEffect_canon | dsimp only

theorem execBypass_canon {q a0} {a1 : State} {t : State} (e : execBypass a0 a1 = .next t) (h1 : Canon q a1) : Canon q t := by
  unfold execBypass at e
  try dsimp only at e
  (repeat' split at e)
  all_goals first | cases e | skip
  repeat' with_reducible first
    | assumption | intro _ | apply State.emit_canon | apply State.tapIr_canon | dsimp only

theorem swarmSelfSetBody_canon {q a0} {a1 : State} (h1 : Canon q a1) :
    AnsCanon q (swarmSelfSetBody a0 a1) := by
  unfold swarmSelfSetBody
  try dsimp only
  repeat' with_reducible first
    | assumption | exact ansCanon_refuse | apply ansCanon_done | apply ansCanon_ite | intro _ | apply ansCanon_ends
    | apply ansCanon_later | apply ansCanon_long | apply canon_ite | dsimp only | split

theorem execSwarmSelfSet_canon {q a0} {a1 : State} {t : State} (e : execSwarmSelfSet a0 a1 = .next t) (h1 : Canon q a1) : Canon q t := by
  unfold execSwarmSelfSet at e
  refine act_canon e h1 ?_
  intros
  repeat' with_reducible first
    | assumption | intro _ | refine act_canon (by assumption) ?_ | apply State.perform_canon
    | apply swarmSelfSetBody_canon | dsimp only

theorem swarmMemberSetBody_canon {q a0} {a1 : State} (h1 : Canon q a1) :
    AnsCanon q (swarmMemberSetBody a0 a1) := by
  unfold swarmMemberSetBody
  try dsimp only
  repeat' with_reducible first
    | assumption | exact ansCanon_refuse | apply ansCanon_done | apply ansCanon_ite | intro _
    | apply State.setMember_canon | apply State.suspect_canon | apply ansCanon_ends | apply ansCanon_later
    | apply ansCanon_long | apply canon_ite | dsimp only | split

theorem execSwarmMemberSet_canon {q a0} {a1 : State} {t : State} (e : execSwarmMemberSet a0 a1 = .next t) (h1 : Canon q a1) : Canon q t := by
  unfold execSwarmMemberSet at e
  refine act_canon e h1 ?_
  intros
  repeat' with_reducible first
    | assumption | intro _ | refine act_canon (by assumption) ?_ | apply State.perform_canon
    | apply swarmMemberSetBody_canon | dsimp only

theorem State.memberClear_canon {q a1} {a0 : State} (h0 : Canon q a0) :
    Canon q (State.memberClear a0 a1) := by
  unfold State.memberClear
  try dsimp only
  repeat' with_reducible first
    | assumption | apply State.setMember_canon | apply State.memberBarred_canon | apply canon_filter | intro _
    | dsimp only | split

theorem swarmMemberClearBody_canon {q a0} {a1 : State} (h1 : Canon q a1) :
    AnsCanon q (swarmMemberClearBody a0 a1) := by
  unfold swarmMemberClearBody
  try dsimp only
  repeat' with_reducible first
    | assumption | exact ansCanon_refuse | apply ansCanon_done | apply ansCanon_ite | intro _
    | apply State.memberClear_canon | apply ansCanon_ends | apply ansCanon_later | apply ansCanon_long
    | apply canon_ite | dsimp only | split

theorem execSwarmMemberClear_canon {q a0} {a1 : State} {t : State} (e : execSwarmMemberClear a0 a1 = .next t) (h1 : Canon q a1) : Canon q t := by
  unfold execSwarmMemberClear at e
  refine act_canon e h1 ?_
  intros
  repeat' with_reducible first
    | assumption | intro _ | refine act_canon (by assumption) ?_ | apply State.perform_canon
    | apply swarmMemberClearBody_canon | dsimp only

theorem swarmGroupSetBody_canon {q a0 a1} {a2 : State} (h2 : Canon q a2) :
    AnsCanon q (swarmGroupSetBody a0 a1 a2) := by
  unfold swarmGroupSetBody
  try dsimp only
  repeat' with_reducible first
    | assumption | exact ansCanon_refuse | apply ansCanon_done | intro _ | apply canon_put | apply ansCanon_ends
    | apply ansCanon_later | apply ansCanon_long | apply ansCanon_ite | dsimp only | split

theorem execSwarmGroupSet_canon {q a0 a1} {a2 : State} {t : State} (e : execSwarmGroupSet a0 a1 a2 = .next t) (h2 : Canon q a2) : Canon q t := by
  unfold execSwarmGroupSet at e
  refine act_canon e h2 ?_
  intros
  repeat' with_reducible first
    | assumption | intro _ | refine act_canon (by assumption) ?_ | apply State.perform_canon
    | apply swarmGroupSetBody_canon | dsimp only

theorem portEnableEffect_canon {q a0 a1} {a2 : State} (h2 : Canon q a2) :
    Canon q (portEnableEffect a0 a1 a2) := by
  unfold portEnableEffect
  try dsimp only
  repeat' with_reducible first
    | assumption | apply State.setReg_canon | apply canon_getD | apply canon_ite | dsimp only | split

theorem execSwarmPortEnable_canon {q a0 a1} {a2 : State} {t : State} (e : execSwarmPortEnable a0 a1 a2 = .next t) (h2 : Canon q a2) : Canon q t := by
  unfold execSwarmPortEnable at e
  refine barWrite_canon e h2 ?_
  intros
  repeat' with_reducible first
    | assumption | intro _ | refine barWrite_canon (by assumption) ?_ | apply portEnableEffect_canon | dsimp only

theorem State.greeted_canon {q a1 a2 a3} {a0 : State} (h0 : Canon q a0) :
    Canon q (State.greeted a0 a1 a2 a3) := by
  unfold State.greeted
  try dsimp only
  repeat' with_reducible first
    | assumption | apply State.malformed_canon | apply State.memberUp_canon | apply State.sendPkt_canon
    | apply State.suspect_canon | apply canon_ite | dsimp only | split

theorem execSwarmHello_canon {q a0 a1 a2} {a3 : State} {t : State} (e : execSwarmHello a0 a1 a2 a3 = .next t) (h3 : Canon q a3) : Canon q t := by
  unfold execSwarmHello at e
  refine act_canon e h3 ?_
  intros
  repeat' with_reducible first
    | assumption | intro _ | refine act_canon (by assumption) ?_ | apply State.receive_canon | apply State.greeted_canon
    | dsimp only

theorem execSwarmHelloAck_canon {q a0 a1 a2} {a3 : State} {t : State} (e : execSwarmHelloAck a0 a1 a2 a3 = .next t) (h3 : Canon q a3) : Canon q t := by
  unfold execSwarmHelloAck at e
  refine act_canon e h3 ?_
  intros
  repeat' with_reducible first
    | assumption | intro _ | refine act_canon (by assumption) ?_ | apply State.receive_canon | apply State.greeted_canon
    | dsimp only

theorem execSwarmHeartbeat_canon {q a0} {a1 : State} {t : State} (e : execSwarmHeartbeat a0 a1 = .next t) (h1 : Canon q a1) : Canon q t := by
  unfold execSwarmHeartbeat at e
  exact act_canon e h1 fun u hu => State.receive_canon hu fun _ h => h

theorem execStateNotice_canon {q a0} {a1 : State} {t : State} (e : execStateNotice a0 a1 = .next t) (h1 : Canon q a1) : Canon q t := by
  unfold execStateNotice at e
  exact act_canon e h1 fun u hu => State.receive_canon hu fun _ h => h

theorem State.timeAnswer_canon {q a1 a2 a3} {a0 : State} (h0 : Canon q a0) :
    Canon q (State.timeAnswer a0 a1 a2 a3) := by
  unfold State.timeAnswer
  try dsimp only
  repeat' with_reducible first
    | assumption | apply State.sendPktAt_canon | dsimp only | split

theorem execTimeReq_canon {q a0 a1 a2} {a3 : State} {t : State} (e : execTimeReq a0 a1 a2 a3 = .next t) (h3 : Canon q a3) : Canon q t := by
  unfold execTimeReq at e
  refine act_canon e h3 ?_
  intros
  repeat' with_reducible first
    | assumption | intro _ | refine act_canon (by assumption) ?_ | apply State.receive_canon
    | apply State.timeAnswer_canon | dsimp only

theorem State.timeResult_canon {q a1 a2 a3 a4 a5} {a0 : State} (h0 : Canon q a0) :
    Canon q (State.timeResult a0 a1 a2 a3 a4 a5) := by
  unfold State.timeResult
  try dsimp only
  repeat' with_reducible first
    | assumption | apply State.modMember_canon | apply State.suspect_canon | apply State.raise_canon
    | apply State.swmInfo_canon | intro _ | apply canon_ite | dsimp only | split

theorem State.timeReply_canon {q a1 a2 a3 a4 a5} {a0 : State} (h0 : Canon q a0) :
    Canon q (State.timeReply a0 a1 a2 a3 a4 a5) := by
  unfold State.timeReply
  try dsimp only
  repeat' with_reducible first
    | assumption | apply State.modMember_canon | apply State.timeResult_canon | intro _ | apply canon_ite | dsimp only
    | split

theorem execTimeResp_canon {q a0 a1 a2 a3 a4} {a5 : State} {t : State} (e : execTimeResp a0 a1 a2 a3 a4 a5 = .next t) (h5 : Canon q a5) : Canon q t := by
  unfold execTimeResp at e
  refine act_canon e h5 ?_
  intros
  repeat' with_reducible first
    | assumption | intro _ | refine act_canon (by assumption) ?_ | apply State.receive_canon
    | apply State.timeReply_canon | dsimp only

theorem State.keep_canon {q a1} {a0 : State} (h0 : Canon q a0) :
    Canon q (State.keep a0 a1) := by
  unfold State.keep
  try dsimp only
  repeat' with_reducible first
    | assumption | dsimp only | split

theorem State.announced_canon {q a1} {a0 : State} (h0 : Canon q a0) :
    Canon q (State.announced a0 a1) := by
  unfold State.announced
  try dsimp only
  repeat' with_reducible first
    | assumption | apply State.keptApply_canon | apply State.keep_canon | dsimp only | split

theorem execCollAnnounce_canon {q a0 a1 a2 a3 a4} {a5 : State} {t : State} (e : execCollAnnounce a0 a1 a2 a3 a4 a5 = .next t) (h5 : Canon q a5) : Canon q t := by
  unfold execCollAnnounce at e
  refine act_canon e h5 ?_
  intros
  repeat' with_reducible first
    | assumption | intro _ | refine act_canon (by assumption) ?_ | apply State.receive_canon
    | apply State.announced_canon | dsimp only

theorem State.slipped_canon {q a1 a2 a3 a4} {a0 : State} (h0 : Canon q a0) :
    Canon q (State.slipped a0 a1 a2 a3 a4) := by
  unfold State.slipped
  try dsimp only
  repeat' with_reducible first
    | assumption | apply canon_getD | intro _ | apply canon_ite | dsimp only | split

theorem execStepSlip_canon {q a0 a1 a2 a3} {a4 : State} {t : State} (e : execStepSlip a0 a1 a2 a3 a4 = .next t) (h4 : Canon q a4) : Canon q t := by
  unfold execStepSlip at e
  refine act_canon e h4 ?_
  intros
  repeat' with_reducible first
    | assumption | intro _ | refine act_canon (by assumption) ?_ | apply State.receive_canon | apply State.slipped_canon
    | dsimp only

theorem State.abandonedBy_canon {q a1 a2} {a0 : State} (h0 : Canon q a0) :
    Canon q (State.abandonedBy a0 a1 a2) := by
  unfold State.abandonedBy
  try dsimp only
  repeat' with_reducible first
    | assumption | apply State.announced_canon | apply State.overrun_canon | apply canon_ite | dsimp only | split

theorem execCollAbandon_canon {q a0 a1 a2 a3 a4} {a5 : State} {t : State} (e : execCollAbandon a0 a1 a2 a3 a4 a5 = .next t) (h5 : Canon q a5) : Canon q t := by
  unfold execCollAbandon at e
  refine act_canon e h5 ?_
  intros
  repeat' with_reducible first
    | assumption | intro _ | refine act_canon (by assumption) ?_ | apply State.receive_canon
    | apply State.abandonedBy_canon | dsimp only

theorem State.newTicket_canon {q a1 a2} {a0 : State} (h0 : Canon q a0) :
    Canon q (State.newTicket a0 a1 a2) := by
  unfold State.newTicket
  try dsimp only
  repeat' with_reducible first
    | assumption | apply State.modMember_canon | intro _ | dsimp only | split

theorem State.remoteAnswer_canon {q a1 a2 a3} {a0 : State} (h0 : Canon q a0) :
    Canon q (State.remoteAnswer a0 a1 a2 a3) := by
  unfold State.remoteAnswer
  try dsimp only
  repeat' with_reducible first
    | assumption | apply State.answerRemote_canon | apply State.newTicket_canon | dsimp only | split

theorem State.remoteReady_canon {q a1 a2 a3 a4} {a0 : State} (h0 : Canon q a0) :
    Canon q (State.remoteReady a0 a1 a2 a3 a4) := by
  unfold State.remoteReady
  try dsimp only
  repeat' with_reducible first
    | assumption | apply State.newTicket_canon | apply State.answerRemote_canon | apply State.denied_canon
    | apply State.finishCmd_canon | intro _ | apply canon_ite | dsimp only | split

theorem State.remoteFrag_canon {q a1 a2 a3 a4 a5} {a0 : State} (h0 : Canon q a0) :
    Canon q (State.remoteFrag a0 a1 a2 a3 a4 a5) := by
  unfold State.remoteFrag
  try dsimp only
  repeat' with_reducible first
    | assumption | intro _ | apply State.remoteAnswer_canon | apply State.remoteReady_canon | apply canon_ite
    | apply canon_foldl | dsimp only | split

theorem State.remoteTaken_canon {q a1 a2 a3 a4 a5} {a0 : State} (h0 : Canon q a0) :
    Canon q (State.remoteTaken a0 a1 a2 a3 a4 a5) := by
  unfold State.remoteTaken
  try dsimp only
  repeat' with_reducible first
    | assumption | apply State.sendPkt_canon | apply State.remoteAnswer_canon | apply State.remoteFrag_canon | intro _
    | apply canon_ite | dsimp only | split

theorem execRemoteCmd_canon {q a0 a1 a2 a3 a4} {a5 : State} {t : State} (e : execRemoteCmd a0 a1 a2 a3 a4 a5 = .next t) (h5 : Canon q a5) : Canon q t := by
  unfold execRemoteCmd at e
  refine act_canon e h5 ?_
  intros
  repeat' with_reducible first
    | assumption | intro _ | refine act_canon (by assumption) ?_ | apply State.receive_canon
    | apply State.remoteTaken_canon | dsimp only

theorem State.resultTaken_canon {q a1 a2} {a0 : State} (h0 : Canon q a0) :
    Canon q (State.resultTaken a0 a1 a2) := by
  unfold State.resultTaken
  try dsimp only
  repeat' with_reducible first
    | assumption | dsimp only | split

theorem execRemoteResult_canon {q a0 a1 a2 a3} {a4 : State} {t : State} (e : execRemoteResult a0 a1 a2 a3 a4 = .next t) (h4 : Canon q a4) : Canon q t := by
  unfold execRemoteResult at e
  refine act_canon e h4 ?_
  intros
  repeat' with_reducible first
    | assumption | intro _ | refine act_canon (by assumption) ?_ | apply State.receive_canon
    | apply State.resultTaken_canon | dsimp only

theorem remoteSlotTimeoutEffect_canon {q a0} {a1 : State} (h1 : Canon q a1) :
    Canon q (remoteSlotTimeoutEffect a0 a1) := by
  unfold remoteSlotTimeoutEffect
  try dsimp only
  repeat' with_reducible first
    | assumption | apply canon_ite | dsimp only | split

theorem execRemoteSlotTimeout_canon {q a0} {a1 : State} {t : State} (e : execRemoteSlotTimeout a0 a1 = .next t) (h1 : Canon q a1) : Canon q t := by
  unfold execRemoteSlotTimeout at e
  refine act_canon e h1 ?_
  intros
  repeat' with_reducible first
    | assumption | intro _ | refine act_canon (by assumption) ?_ | apply remoteSlotTimeoutEffect_canon | dsimp only

theorem State.beat_canon {q a1} {a0 : State} (h0 : Canon q a0) :
    Canon q (State.beat a0 a1) := by
  unfold State.beat
  try dsimp only
  repeat' with_reducible first
    | assumption | apply State.sendPkt_canon | apply State.modMember_canon | apply State.suspect_canon | intro _
    | apply canon_ite | dsimp only | split

theorem heartbeatEffect_canon {q} {a0 : State} (h0 : Canon q a0) :
    Canon q (heartbeatEffect a0) := by
  unfold heartbeatEffect
  try dsimp only
  repeat' with_reducible first
    | assumption | intro _ | apply State.beat_canon | apply canon_ite | apply canon_foldl | dsimp only | split

theorem execHeartbeatPeriod_canon {q} {a0 : State} {t : State} (e : execHeartbeatPeriod a0 = .next t) (h0 : Canon q a0) : Canon q t := by
  unfold execHeartbeatPeriod at e
  refine act_canon e h0 ?_
  intros
  repeat' with_reducible first
    | assumption | intro _ | refine act_canon (by assumption) ?_ | apply heartbeatEffect_canon | dsimp only

theorem absenceEffect_canon {q a0} {a1 : State} (h1 : Canon q a1) :
    Canon q (absenceEffect a0 a1) := by
  unfold absenceEffect
  try dsimp only
  repeat' with_reducible first
    | assumption | apply State.memberAbsent_canon | apply canon_ite | dsimp only | split

theorem execAbsenceTimeout_canon {q a0} {a1 : State} {t : State} (e : execAbsenceTimeout a0 a1 = .next t) (h1 : Canon q a1) : Canon q t := by
  unfold execAbsenceTimeout at e
  refine act_canon e h1 ?_
  intros
  repeat' with_reducible first
    | assumption | intro _ | refine act_canon (by assumption) ?_ | apply absenceEffect_canon | dsimp only

theorem timePeriodEffect_canon {q a0} {a1 : State} (h1 : Canon q a1) :
    Canon q (timePeriodEffect a0 a1) := by
  unfold timePeriodEffect
  try dsimp only
  repeat' with_reducible first
    | assumption | apply State.sendPktAt_canon | apply State.modMember_canon | intro _ | apply canon_ite | dsimp only
    | split

theorem execTimeTransferPeriod_canon {q a0} {a1 : State} {t : State} (e : execTimeTransferPeriod a0 a1 = .next t) (h1 : Canon q a1) : Canon q t := by
  unfold execTimeTransferPeriod at e
  refine act_canon e h1 ?_
  intros
  repeat' with_reducible first
    | assumption | intro _ | refine act_canon (by assumption) ?_ | apply timePeriodEffect_canon | dsimp only

theorem State.requestLost_canon {q a1} {a0 : State} (h0 : Canon q a0) :
    Canon q (State.requestLost a0 a1) := by
  unfold State.requestLost
  try dsimp only
  repeat' with_reducible first
    | assumption | apply State.capSeek_canon | apply State.buddyLost_canon | apply State.fillLost_canon | intro _
    | apply Rebuild.fill_canon | apply canon_ite | apply canon_foldl | dsimp only | split

theorem retryEffect_canon {q a0} {a1 : State} (h1 : Canon q a1) :
    Canon q (retryEffect a0 a1) := by
  unfold retryEffect
  try dsimp only
  repeat' with_reducible first
    | assumption | apply State.sendPkt_canon | apply State.requestLost_canon | intro _ | apply canon_ite | dsimp only
    | split

theorem execRequestRetryTimeout_canon {q a0} {a1 : State} {t : State} (e : execRequestRetryTimeout a0 a1 = .next t) (h1 : Canon q a1) : Canon q t := by
  unfold execRequestRetryTimeout at e
  refine act_canon e h1 ?_
  intros
  repeat' with_reducible first
    | assumption | intro _ | refine act_canon (by assumption) ?_ | apply retryEffect_canon | dsimp only

theorem secondCopyEffect_canon {q} {a0 : State} (h0 : Canon q a0) :
    Canon q (secondCopyEffect a0) := by
  unfold secondCopyEffect
  try dsimp only
  repeat' with_reducible first
    | assumption | intro _ | apply State.sendPkt_canon | apply canon_filter | apply canon_foldl | dsimp only | split

theorem execSecondCopySend_canon {q} {a0 : State} {t : State} (e : execSecondCopySend a0 = .next t) (h0 : Canon q a0) : Canon q t := by
  unfold execSecondCopySend at e
  refine act_canon e h0 ?_
  intros
  repeat' with_reducible first
    | assumption | intro _ | refine act_canon (by assumption) ?_ | apply secondCopyEffect_canon | dsimp only

theorem windowMissEffect_canon {q a0 a1 a2} {a3 : State} (h3 : Canon q a3) :
    Canon q (windowMissEffect a0 a1 a2 a3) := by
  unfold windowMissEffect
  try dsimp only
  repeat' with_reducible first
    | assumption | apply State.missWindow_canon | apply canon_ite | dsimp only | split

theorem execWindowMiss_canon {q a0 a1 a2} {a3 : State} {t : State} (e : execWindowMiss a0 a1 a2 a3 = .next t) (h3 : Canon q a3) : Canon q t := by
  unfold execWindowMiss at e
  refine act_canon e h3 ?_
  intros
  repeat' with_reducible first
    | assumption | intro _ | refine act_canon (by assumption) ?_ | apply windowMissEffect_canon | dsimp only

theorem announceExpiryEffect_canon {q a0} {a1 : State} (h1 : Canon q a1) :
    Canon q (announceExpiryEffect a0 a1) := by
  unfold announceExpiryEffect
  try dsimp only
  repeat' with_reducible first
    | assumption | apply canon_ite | dsimp only | split

theorem execAnnounceExpiry_canon {q a0} {a1 : State} {t : State} (e : execAnnounceExpiry a0 a1 = .next t) (h1 : Canon q a1) : Canon q t := by
  unfold execAnnounceExpiry at e
  refine act_canon e h1 ?_
  intros
  repeat' with_reducible first
    | assumption | intro _ | refine act_canon (by assumption) ?_ | apply announceExpiryEffect_canon | dsimp only

theorem collArrivedEffect_canon {q a0 a1 a2} {a3 : State} (h3 : Canon q a3) :
    Canon q (collArrivedEffect a0 a1 a2 a3) := by
  unfold collArrivedEffect
  try dsimp only
  repeat' with_reducible first
    | assumption | apply canon_ite | dsimp only | split

theorem execCollArrived_canon {q a0 a1 a2 a3} {a4 : State} {t : State} (e : execCollArrived a0 a1 a2 a3 a4 = .next t) (h4 : Canon q a4) : Canon q t := by
  unfold execCollArrived at e
  refine act_canon e h4 ?_
  intros
  repeat' with_reducible first
    | assumption | intro _ | refine act_canon (by assumption) ?_ | apply collArrivedEffect_canon | dsimp only

theorem execCollDone_canon {q a0 a1 a2 a3} {a4 : State} {t : State} (e : execCollDone a0 a1 a2 a3 a4 = .next t) (h4 : Canon q a4) : Canon q t := by
  unfold execCollDone at e
  refine act_canon e h4 ?_
  intros
  repeat' with_reducible first
    | assumption | intro _ | refine act_canon (by assumption) ?_ | apply State.capMark_canon | dsimp only

theorem linkHealthEffect_canon {q a0 a1} {a2 : State} (h2 : Canon q a2) :
    Canon q (linkHealthEffect a0 a1 a2) := by
  unfold linkHealthEffect
  try dsimp only
  repeat' with_reducible first
    | assumption | apply State.healthEvent_canon | apply canon_ite | dsimp only | split

theorem execLinkHealth_canon {q a0 a1 a2} {a3 : State} {t : State} (e : execLinkHealth a0 a1 a2 a3 = .next t) (h3 : Canon q a3) : Canon q t := by
  unfold execLinkHealth at e
  refine act_canon e h3 ?_
  intros
  repeat' with_reducible first
    | assumption | intro _ | refine act_canon (by assumption) ?_ | apply linkHealthEffect_canon | dsimp only

theorem execPortState_canon {q a0 a1} {a2 : State} {t : State} (e : execPortState a0 a1 a2 = .next t) (h2 : Canon q a2) : Canon q t := by
  unfold execPortState at e
  exact act_canon e h2 fun u hu => hu

theorem execSwarmDrop_canon {q a0} {a1 : State} {t : State} (e : execSwarmDrop a0 a1 = .next t) (h1 : Canon q a1) : Canon q t := by
  unfold execSwarmDrop at e
  refine act_canon e h1 ?_
  intros
  repeat' with_reducible first
    | assumption | intro _ | refine act_canon (by assumption) ?_ | apply State.swmDrop_canon | dsimp only

end Sys2Proof.Machine
end

