-- ==== Sys2Proof/Laws/CanonExec.lean ====
section
/-!
SUPPORT. Laws/Canon.lean's property for open routines, ports, registers, and every command.
-/

namespace Sys2Proof.Machine

theorem State.commitOne_canon {q a1 a2} {a0 : State} (h0 : Canon q a0) :
    Canon q (State.commitOne a0 a1 a2) := by
  unfold State.commitOne
  try dsimp only
  repeat' with_reducible first
    | assumption | apply State.modEntry_canon | apply State.setInst_canon | apply canon_ite | apply canon_put
    | dsimp only | split

theorem State.commitAll_canon {q a1 a2} {a0 : State} (h0 : Canon q a0) :
    Canon q (State.commitAll a0 a1 a2) := by
  unfold State.commitAll
  try dsimp only
  repeat' with_reducible first
    | assumption | intro _ | apply State.commitOne_canon | apply canon_foldl | dsimp only | split

theorem bodyOf_canon {q : List Instr} {a0 : Nat} {a1 : Sys2Proof.ExtRead} {y : Cmd → State → Answer} (e : bodyOf a0 a1 = some y) {c : Cmd} {s : State} (h : Canon q s) : AnsCanon q (y c s) := by
  unfold bodyOf at e
  extract_lets rd at e
  clear_value rd
  split at e
  · cases e; exact nopBody_canon h
  · cases e; exact ringCreateBody_canon h
  · cases e; exact ringEnableBody_canon h
  · cases e; exact ringDisableBody_canon h
  · cases e; exact ringDestroyBody_canon h
  · cases e; exact tokenRingCreateBody_canon h
  · cases e; exact tokenRingDestroyBody_canon h
  · cases e; exact leaseRenewBody_canon h
  · cases e; exact instanceCreateBody_canon h
  · cases e; exact instanceResizeBody_canon h
  · cases e; exact instanceResetBody_canon h
  · cases e; exact instanceDestroyBody_canon h
  · cases e; exact instanceFreezeBody_canon h
  · cases e; exact instanceSaveBody_canon h
  · cases e; exact instanceRestoreBody_canon h
  · cases e; exact instanceThawBody_canon h
  · cases e; exact partitionCreateBody_canon h
  · cases e; exact partitionDestroyBody_canon h
  · cases e; exact contextCreateBody_canon h
  · cases e; exact contextSetBody_canon h
  · cases e; exact contextDestroyBody_canon h
  · cases e; exact bwrSetBody_canon h
  · cases e; exact pageGeomBody_canon h
  · cases e; exact modelLoadBody_canon h
  · cases e; exact modelUnloadBody_canon h
  · cases e; exact serveBindBody_canon h
  · cases e; exact serveUnbindBody_canon h
  · cases e; exact sampleBindBody_canon h
  · cases e; exact tableLoadBody_canon h
  · cases e; exact tableFreeBody_canon h
  · cases e; exact automatonLoadBody_canon h
  · cases e; exact automatonFreeBody_canon h
  · cases e; exact admitBody_canon h
  · cases e; exact streamSetBody_canon h
  · cases e; exact streamQueryBody_canon h
  · cases e; exact streamParkBody_canon h
  · cases e; exact streamResumeBody_canon h
  · cases e; exact streamAppendBody_canon h
  · cases e; exact streamRetireBody_canon h
  · cases e; exact streamReleaseBody_canon h
  · cases e; exact tokenLogReadBody_canon h
  · cases e; exact prefixCreateBody_canon h
  · cases e; exact prefixFreeBody_canon h
  · cases e; exact runStepBody_canon h
  · cases e; exact cycLoadBody_canon h
  · cases e; exact cycStartBody_canon h
  · cases e; exact cycStopBody_canon h
  · cases e; exact cycFreeBody_canon h
  · cases e; exact swarmSelfSetBody_canon h
  · cases e; exact swarmMemberSetBody_canon h
  · cases e; exact swarmMemberClearBody_canon h
  · cases e; exact swarmGroupSetBody_canon h
  · cases e; exact capBindBody_canon h
  · cases e; exact capUnbindBody_canon h
  · cases e; exact capFillBody_canon h
  · cases e; exact capRiskHintBody_canon h
  · cases e; exact waggleSetBody_canon h
  · cases e


theorem State.exec_canon {q a1 a2 a3} {a0 : State} (h0 : Canon q a0) :
    Canon q ((State.exec a0 a1 a2 a3).s) := by
  unfold State.exec
  extract_lets c w form
  clear_value form c w
  split
  · exact h0
  · exact h0
  · rename_i y hb
    have ha := Answer.checked_canon (a1 := c.statusFail) (bodyOf_canon hb (c := c) h0)
    split
    · exact h0
    · rename_i e; rw [e] at ha; exact ha
    · rename_i e; rw [e] at ha; exact ha
    · rename_i e; rw [e] at ha; exact ha
    · rename_i e
      rw [e] at ha
      split
      · exact h0
      · exact ha.2 _ _ (State.openOp_canon ha.1)

theorem Routine.pop_canon {q a0} (h0 : Canon q a0.s) : Canon q ((Routine.pop a0).2.s) := by
  unfold Routine.pop
  try dsimp only
  repeat' with_reducible first
    | assumption | dsimp only

theorem Routine.pop_canon' {q a0} {y0 t} (e : Routine.pop a0 = (y0, t)) (h0 : Canon q a0.s) : Canon q t.s := by
  have z := Routine.pop_canon (q := q) (a0 := a0) h0
  rw [e] at z; exact z

theorem State.combRead_canon {q a1 a2 a3 a4} {a0 : State} (h0 : Canon q a0) : Canon q (State.combRead a0 a1 a2 a3 a4).s := by
  unfold State.combRead
  dsimp only
  split
  · exact h0
  · exact State.readWords_canon h0

theorem Routine.memOp_canon {q a0 a1 a2 a3 a4} (h0 : Canon q a0.s) : Canon q ((Routine.memOp a0 a1 a2 a3 a4).1.s) := by
  unfold Routine.memOp
  try dsimp only
  repeat' with_reducible first
    | assumption | apply Routine.pop_canon | refine Routine.pop_canon' (by assumption) ?_ | apply State.exec_canon
    | apply State.combRead_canon | apply State.emit_canon | apply canon_ite | dsimp only | split

theorem Routine.memOp_canon' {q a0 a1 a2 a3 a4} {t y1 y2} (e : Routine.memOp a0 a1 a2 a3 a4 = (t, y1, y2)) (h0 : Canon q a0.s) : Canon q t.s := by
  have z := Routine.memOp_canon (q := q) (a0 := a0) (a1 := a1) (a2 := a2) (a3 := a3) (a4 := a4) h0
  rw [e] at z; exact z

theorem Routine.commit_canon {q a0 a1 a2} (h0 : Canon q a0.s) :
    Canon q ((Routine.commit a0 a1 a2).s) := by
  unfold Routine.commit
  try dsimp only
  repeat' with_reducible first
    | assumption | apply State.commitAll_canon | apply canon_ite | dsimp only | split

theorem Routine.next_canon {q a0 a1 a2 a3} (h0 : Canon q a0.s) : Canon q ((Routine.next a0 a1 a2 a3).1.s) := by
  unfold Routine.next
  try dsimp only
  repeat' with_reducible first
    | assumption | apply canon_ite | dsimp only | split

theorem Routine.next_canon' {q a0 a1 a2 a3} {t y1} (e : Routine.next a0 a1 a2 a3 = (t, y1)) (h0 : Canon q a0.s) : Canon q t.s := by
  have z := Routine.next_canon (q := q) (a0 := a0) (a1 := a1) (a2 := a2) (a3 := a3) h0
  rw [e] at z; exact z

theorem Routine.word_canon {q a0 a1 a2 a3} (h0 : Canon q a0.s) : Canon q ((Routine.word a0 a1 a2 a3).1.s) := by
  unfold Routine.word
  try dsimp only
  repeat' with_reducible first
    | assumption | apply Routine.memOp_canon | refine Routine.memOp_canon' (by assumption) ?_ | apply State.drew_canon
    | apply Routine.next_canon | refine Routine.next_canon' (by assumption) ?_ | apply Routine.commit_canon
    | apply canon_ite | apply canon_getD | dsimp only | split

theorem Routine.word_canon' {q a0 a1 a2 a3} {t y1} (e : Routine.word a0 a1 a2 a3 = (t, y1)) (h0 : Canon q a0.s) : Canon q t.s := by
  have z := Routine.word_canon (q := q) (a0 := a0) (a1 := a1) (a2 := a2) (a3 := a3) h0
  rw [e] at z; exact z

theorem Routine.run_canon {q a0 a1 a2 a3} (h3 : Canon q a3.s) : Canon q ((Routine.run a0 a1 a2 a3).1.s) := by
  induction a2 generalizing a3 with
  | zero => exact h3
  | succ n ih =>
    unfold Routine.run
    split
    · exact h3
    · split
      · exact h3
      · rename_i w _ _
        have hw : Canon q (({ a3 with left := a3.left - w.cost } : Routine).word a0 a1 w).1.s := Routine.word_canon h3
        split
        · rename_i e; rw [e] at hw; exact hw
        · rename_i e; rw [e] at hw; exact ih hw

theorem Routine.run_canon' {q a0 a1 a2 a3} {t y1} (e : Routine.run a0 a1 a2 a3 = (t, y1)) (h3 : Canon q a3.s) : Canon q t.s := by
  have z := Routine.run_canon (q := q) (a0 := a0) (a1 := a1) (a2 := a2) (a3 := a3) h3
  rw [e] at z; exact z

theorem State.openEvent_canon {q a1 a2} {a0 : State} (h0 : Canon q a0) :
    Canon q (State.openEvent a0 a1 a2) := by
  unfold State.openEvent
  try dsimp only
  repeat' with_reducible first
    | assumption | apply State.raise_canon | dsimp only | split

theorem State.openFinish_canon {q a1 a2 a3 a4} {a0 : State} (h0 : Canon q a0) :
    Canon q (State.openFinish a0 a1 a2 a3 a4) := by
  unfold State.openFinish
  try dsimp only
  repeat' with_reducible first
    | assumption | apply State.modOp_canon | apply State.finishCmd_canon | intro _ | apply canon_ite | dsimp only
    | split

theorem State.mchkRecord_canon {q a1 a2 a3} {a0 : State} (h0 : Canon q a0) :
    Canon q (State.mchkRecord a0 a1 a2 a3) := by
  unfold State.mchkRecord
  try dsimp only
  repeat' with_reducible first
    | assumption | apply State.satReg_canon | dsimp only | split

theorem State.openRun_canon {q a1 a2 a3 a4} {a0 : State} (h0 : Canon q a0) :
    Canon q (State.openRun a0 a1 a2 a3 a4) := by
  unfold State.openRun
  try dsimp only
  repeat' with_reducible first
    | assumption | intro _ | apply Routine.run_canon | refine Routine.run_canon' (by assumption) ?_
    | apply State.drew_canon | apply State.openFinish_canon | apply State.openEvent_canon | apply State.raise_canon
    | apply State.mchkRecord_canon | apply State.modOp_canon | apply canon_put | apply State.overrun_canon
    | apply canon_ite | apply canon_foldl | dsimp only | split

theorem openRoutineEffect_canon {q a0 a1} {a2 : State} (h2 : Canon q a2) :
    Canon q (openRoutineEffect a0 a1 a2) := by
  unfold openRoutineEffect
  try dsimp only
  repeat' with_reducible first
    | assumption | apply State.openRun_canon | apply State.finishCmd_canon | apply canon_getD | intro _
    | apply canon_ite | dsimp only | split

theorem execOpenRegionRoutine_canon {q a0 a1} {a2 : State} {t : State} (e : execOpenRegionRoutine a0 a1 a2 = .next t) (h2 : Canon q a2) : Canon q t := by
  unfold execOpenRegionRoutine at e
  refine act_canon e h2 ?_
  intros
  repeat' with_reducible first
    | assumption | intro _ | refine act_canon (by assumption) ?_ | apply openRoutineEffect_canon | dsimp only

theorem openTimeoutEffect_canon {q} {a0 : State} (h0 : Canon q a0) :
    Canon q (openTimeoutEffect a0) := by
  unfold openTimeoutEffect
  try dsimp only
  repeat' with_reducible first
    | assumption | apply State.finishCmd_canon | apply State.openEvent_canon | apply State.overrun_canon | dsimp only
    | split

theorem execOpenRoutineTimeout_canon {q} {a0 : State} {t : State} (e : execOpenRoutineTimeout a0 = .next t) (h0 : Canon q a0) : Canon q t := by
  unfold execOpenRoutineTimeout at e
  refine act_canon e h0 ?_
  intros
  repeat' with_reducible first
    | assumption | intro _ | refine act_canon (by assumption) ?_ | apply openTimeoutEffect_canon | dsimp only

theorem parityEffect_canon {q a0 a1} {a2 : State} (h2 : Canon q a2) :
    Canon q (parityEffect a0 a1 a2) := by
  unfold parityEffect
  try dsimp only
  repeat' with_reducible first
    | assumption | apply State.raise_canon | apply State.mchkRecord_canon | apply State.finishCmd_canon
    | apply State.overrun_canon | intro _ | apply canon_ite | dsimp only | split

theorem execParityMachineCheck_canon {q a0 a1} {a2 : State} {t : State} (e : execParityMachineCheck a0 a1 a2 = .next t) (h2 : Canon q a2) : Canon q t := by
  unfold execParityMachineCheck at e
  refine act_canon e h2 ?_
  intros
  repeat' with_reducible first
    | assumption | intro _ | refine act_canon (by assumption) ?_ | apply parityEffect_canon | dsimp only

theorem readbackEffect_canon {q a0} {a1 : State} (h1 : Canon q a1) :
    Canon q (readbackEffect a0 a1) := by
  unfold readbackEffect
  try dsimp only
  repeat' with_reducible first
    | assumption | apply State.raise_canon | apply State.humStop_canon | apply State.andNotReg_canon
    | apply State.clearOpen_canon | apply canon_ite | dsimp only | split

theorem execMchkReadbackDone_canon {q a0} {a1 : State} {t : State} (e : execMchkReadbackDone a0 a1 = .next t) (h1 : Canon q a1) : Canon q t := by
  unfold execMchkReadbackDone at e
  refine act_canon e h1 ?_
  intros
  repeat' with_reducible first
    | assumption | intro _ | refine act_canon (by assumption) ?_ | apply readbackEffect_canon | dsimp only

theorem xlateEffect_canon {q} {a0 : State} (h0 : Canon q a0) :
    Canon q (xlateEffect a0) := by
  unfold xlateEffect
  try dsimp only
  repeat' with_reducible first
    | assumption | apply State.emit_canon | apply State.drew_canon | intro _ | apply canon_ite | dsimp only | split

theorem execXlateTrap_canon {q} {a0 : State} {t : State} (e : execXlateTrap a0 = .next t) (h0 : Canon q a0) : Canon q t := by
  unfold execXlateTrap at e
  refine act_canon e h0 ?_
  intros
  repeat' with_reducible first
    | assumption | intro _ | refine act_canon (by assumption) ?_ | apply xlateEffect_canon | dsimp only

theorem State.openLoad_canon {q a1 a2} {a0 : State} (h0 : Canon q a0) :
    Canon q (State.openLoad a0 a1 a2) := by
  unfold State.openLoad
  try dsimp only
  repeat' with_reducible first
    | assumption | apply State.mbxReply_canon | apply State.sigReject_canon | apply State.grdInfo_canon
    | apply State.emit_canon | apply State.keep_canon | apply canon_ite | dsimp only | split

theorem execOpenLoad_canon {q a0 a1} {a2 : State} {t : State} (e : execOpenLoad a0 a1 a2 = .next t) (h2 : Canon q a2) : Canon q t := by
  unfold execOpenLoad at e
  refine mbxMessage_canon e ?_ h2
  intros
  repeat' with_reducible first
    | assumption | intro _ | refine mbxMessage_canon (by assumption) ?_ | apply State.openLoad_canon | dsimp only

theorem execOpenClear_canon {q a0} {a1 : State} {t : State} (e : execOpenClear a0 a1 = .next t) (h1 : Canon q a1) : Canon q t := by
  unfold execOpenClear at e
  refine mbxMessage_canon e ?_ h1
  intros
  repeat' with_reducible first
    | assumption | intro _ | refine mbxMessage_canon (by assumption) ?_ | apply State.clearOpen_canon
    | apply State.mbxReply_canon | dsimp only

theorem verifyDoneEffect_canon {q a0} {a1 : State} (h1 : Canon q a1) :
    Canon q (verifyDoneEffect a0 a1) := by
  unfold verifyDoneEffect
  try dsimp only
  repeat' with_reducible first
    | assumption | apply State.mbxReply_canon | apply State.stageReject_canon | apply State.sigReject_canon
    | apply State.release_canon | apply State.cleared_canon | apply State.keep_canon | apply canon_ite | dsimp only
    | split

theorem execStageVerifyDone_canon {q a0} {a1 : State} {t : State} (e : execStageVerifyDone a0 a1 = .next t) (h1 : Canon q a1) : Canon q t := by
  unfold execStageVerifyDone at e
  refine actFw_canon e h1 ?_
  intros
  repeat' with_reducible first
    | assumption | intro _ | refine actFw_canon (by assumption) ?_ | apply verifyDoneEffect_canon | dsimp only

theorem translated_canon {q a0} {a1 : State} (h1 : Canon q a1) :
    Canon q (translated a0 a1) := by
  unfold translated
  try dsimp only
  repeat' with_reducible first
    | assumption | intro _ | apply State.squashRing_canon | dsimp only | split

theorem State.tokenReadEnd_canon {q a1 a2 a3 a4} {a0 : State} (h0 : Canon q a0) :
    Canon q (State.tokenReadEnd a0 a1 a2 a3 a4) := by
  unfold State.tokenReadEnd
  try dsimp only
  repeat' with_reducible first
    | assumption | apply State.opEnd_canon | apply State.dropLog_canon | apply canon_ite | dsimp only | split

theorem State.tokenWritten_canon {q a1 a2 a3 a4 a5} {a0 : State} (h0 : Canon q a0) :
    Canon q (State.tokenWritten a0 a1 a2 a3 a4 a5) := by
  unfold State.tokenWritten
  try dsimp only
  repeat' with_reducible first
    | assumption | intro _ | apply State.modOp_canon | apply State.opProgress_canon | apply State.tokenReadAgain_canon
    | apply State.tokenReadEnd_canon | apply canon_ite | dsimp only | split

theorem hostReadOp_canon {q a0 a1} {a2 : State} (h2 : Canon q a2) :
    Canon q (hostReadOp a0 a1 a2) := by
  unfold hostReadOp
  try dsimp only
  repeat' with_reducible first
    | assumption | apply State.modelPage_canon | apply State.opEnd_canon | apply State.tokenReadEnd_canon
    | apply State.tokenWritten_canon | apply canon_ite | dsimp only | split

theorem hostReadEffect_canon {q a0 a1} {a2 : State} (h2 : Canon q a2) :
    Canon q (hostReadEffect a0 a1 a2) := by
  unfold hostReadEffect
  try dsimp only
  repeat' with_reducible first
    | assumption | apply translated_canon | apply hostReadOp_canon | apply canon_ite | dsimp only | split

theorem execHtpDcCompletion_canon {q a0 a1} {a2 : State} {t : State} (e : execHtpDcCompletion a0 a1 a2 = .next t) (h2 : Canon q a2) : Canon q t := by
  unfold execHtpDcCompletion at e
  refine act_canon e h2 ?_
  intros
  repeat' with_reducible first
    | assumption | intro _ | refine act_canon (by assumption) ?_ | apply hostReadEffect_canon | dsimp only

theorem atsInvalidateEffect_canon {q a0 a1} {a2 : State} (h2 : Canon q a2) :
    Canon q (atsInvalidateEffect a0 a1 a2) := by
  unfold atsInvalidateEffect
  try dsimp only
  repeat' with_reducible first
    | assumption | apply State.emit_canon | intro _ | dsimp only | split

theorem execAtsInvalidation_canon {q a0 a1} {a2 : State} {t : State} (e : execAtsInvalidation a0 a1 a2 = .next t) (h2 : Canon q a2) : Canon q t := by
  unfold execAtsInvalidation at e
  refine act_canon e h2 ?_
  intros
  repeat' with_reducible first
    | assumption | intro _ | refine act_canon (by assumption) ?_ | apply atsInvalidateEffect_canon | dsimp only

theorem State.tokenData_canon {q a1 a2 a3 a4 a5 a6 a7 a8} {a0 : State} (h0 : Canon q a0) :
    Canon q (State.tokenData a0 a1 a2 a3 a4 a5 a6 a7 a8) := by
  unfold State.tokenData
  try dsimp only
  repeat' with_reducible first
    | assumption | apply State.emit_canon | apply State.modOp_canon | apply State.opProgress_canon
    | apply State.tokenReadEnd_canon | apply State.tokenReadAgain_canon | apply State.loseBoth_canon
    | apply State.repairLog_canon | intro _ | apply canon_ite | dsimp only | split

theorem fabricOp_canon {q a0 a1} {a2 : State} (h2 : Canon q a2) :
    Canon q (fabricOp a0 a1 a2) := by
  unfold fabricOp
  try dsimp only
  repeat' with_reducible first
    | assumption | apply State.tokenData_canon | apply State.opEnd_canon | apply State.saveFailed_canon
    | apply State.saveAnswer_canon | apply canon_ite | dsimp only | split

theorem fabricAgent_canon {q a0 a1 a2 a3} {a4 : State} (h4 : Canon q a4) :
    Canon q (fabricAgent a0 a1 a2 a3 a4) := by
  unfold fabricAgent
  try dsimp only
  repeat' with_reducible first
    | assumption | apply State.modAgentStep_canon | apply State.frmFault_canon | apply State.execFault_canon | intro _
    | apply canon_ite | dsimp only | split

theorem fabricEffect_canon {q a0 a1} {a2 : State} (h2 : Canon q a2) :
    Canon q (fabricEffect a0 a1 a2) := by
  unfold fabricEffect
  try dsimp only
  repeat' with_reducible first
    | assumption | apply fabricOp_canon | apply fabricAgent_canon | dsimp only | split

theorem execFabricReadResponse_canon {q a0 a1} {a2 : State} {t : State} (e : execFabricReadResponse a0 a1 a2 = .next t) (h2 : Canon q a2) : Canon q t := by
  unfold execFabricReadResponse at e
  refine act_canon e h2 ?_
  intros
  repeat' with_reducible first
    | assumption | intro _ | refine act_canon (by assumption) ?_ | apply fabricEffect_canon | dsimp only

theorem ppsEdgeEffect_canon {q a0} {a1 : State} (h1 : Canon q a1) :
    Canon q (ppsEdgeEffect a0 a1) := by
  unfold ppsEdgeEffect
  try dsimp only
  repeat' with_reducible first
    | assumption | apply State.ppsEdge_canon | apply canon_ite | dsimp only | split

theorem execPpsEdge_canon {q a0} {a1 : State} {t : State} (e : execPpsEdge a0 a1 = .next t) (h1 : Canon q a1) : Canon q t := by
  unfold execPpsEdge at e
  refine actRef_canon e h1 ?_
  intros
  repeat' with_reducible first
    | assumption | intro _ | refine actRef_canon (by assumption) ?_ | apply ppsEdgeEffect_canon | dsimp only

theorem missedSecondEffect_canon {q} {a0 : State} (h0 : Canon q a0) :
    Canon q (missedSecondEffect a0) := by
  unfold missedSecondEffect
  try dsimp only
  repeat' with_reducible first
    | assumption | apply State.missSecond_canon | apply canon_ite | dsimp only | split

theorem execMissedSecond_canon {q} {a0 : State} {t : State} (e : execMissedSecond a0 = .next t) (h0 : Canon q a0) : Canon q t := by
  unfold execMissedSecond at e
  refine actRef_canon e h0 ?_
  intros
  repeat' with_reducible first
    | assumption | intro _ | refine actRef_canon (by assumption) ?_ | apply missedSecondEffect_canon | dsimp only

theorem acquireNoEdgeEffect_canon {q} {a0 : State} (h0 : Canon q a0) :
    Canon q (acquireNoEdgeEffect a0) := by
  unfold acquireNoEdgeEffect
  try dsimp only
  repeat' with_reducible first
    | assumption | apply State.modTb_canon | intro _ | apply canon_ite | dsimp only | split

theorem execAcquireNoEdge_canon {q} {a0 : State} {t : State} (e : execAcquireNoEdge a0 = .next t) (h0 : Canon q a0) : Canon q t := by
  unfold execAcquireNoEdge at e
  refine actRef_canon e h0 ?_
  intros
  repeat' with_reducible first
    | assumption | intro _ | refine actRef_canon (by assumption) ?_ | apply acquireNoEdgeEffect_canon | dsimp only

theorem holdoverExpireEffect_canon {q} {a0 : State} (h0 : Canon q a0) :
    Canon q (holdoverExpireEffect a0) := by
  unfold holdoverExpireEffect
  try dsimp only
  repeat' with_reducible first
    | assumption | apply State.tbFault_canon | apply State.setLock_canon | apply canon_ite | dsimp only | split

theorem execHoldoverExpire_canon {q} {a0 : State} {t : State} (e : execHoldoverExpire a0 = .next t) (h0 : Canon q a0) : Canon q t := by
  unfold execHoldoverExpire at e
  refine actRef_canon e h0 ?_
  intros
  repeat' with_reducible first
    | assumption | intro _ | refine actRef_canon (by assumption) ?_ | apply holdoverExpireEffect_canon | dsimp only

theorem tbReacqEffect_canon {q a0} {a1 : State} (h1 : Canon q a1) :
    Canon q (tbReacqEffect a0 a1) := by
  unfold tbReacqEffect
  try dsimp only
  repeat' with_reducible first
    | assumption | apply State.setLock_canon | apply State.modTb_canon | intro _ | apply canon_ite | dsimp only
    | split

theorem execTbReacq_canon {q a0} {a1 : State} {t : State} (e : execTbReacq a0 a1 = .next t) (h1 : Canon q a1) : Canon q t := by
  unfold execTbReacq at e
  refine barWrite_canon e h1 ?_
  intros
  repeat' with_reducible first
    | assumption | intro _ | refine barWrite_canon (by assumption) ?_ | apply tbReacqEffect_canon | dsimp only

theorem tbTodArmEffect_canon {q a0} {a1 : State} (h1 : Canon q a1) :
    Canon q (tbTodArmEffect a0 a1) := by
  unfold tbTodArmEffect
  try dsimp only
  repeat' with_reducible first
    | assumption | apply State.orReg_canon | apply canon_ite | dsimp only | split

theorem execTbTodArm_canon {q a0} {a1 : State} {t : State} (e : execTbTodArm a0 a1 = .next t) (h1 : Canon q a1) : Canon q t := by
  unfold execTbTodArm at e
  refine barWrite_canon e h1 ?_
  intros
  repeat' with_reducible first
    | assumption | intro _ | refine barWrite_canon (by assumption) ?_ | apply tbTodArmEffect_canon | dsimp only

theorem nowCaptureEffect_canon {q a0} {a1 : State} (h1 : Canon q a1) :
    Canon q (nowCaptureEffect a0 a1) := by
  unfold nowCaptureEffect
  try dsimp only
  repeat' with_reducible first
    | assumption | apply State.modTb_canon | intro _ | apply canon_ite | dsimp only | split

theorem execTbNowCapture_canon {q a0} {a1 : State} {t : State} (e : execTbNowCapture a0 a1 = .next t) (h1 : Canon q a1) : Canon q t := by
  unfold execTbNowCapture at e
  refine barRead_canon e h1 ?_
  intros
  repeat' with_reducible first
    | assumption | intro _ | refine barRead_canon (by assumption) ?_ | apply nowCaptureEffect_canon | apply canon_ite
    | dsimp only | split

theorem State.putBits_canon {q a1 a2 a3} {a0 : State} (h0 : Canon q a0) :
    Canon q (State.putBits a0 a1 a2 a3) := by
  unfold State.putBits
  try dsimp only
  repeat' with_reducible first
    | assumption | apply State.setReg_canon | dsimp only | split

theorem State.composeStop_canon {q} {a0 : State} (h0 : Canon q a0) :
    Canon q (State.composeStop a0) := by
  unfold State.composeStop
  try dsimp only
  repeat' with_reducible first
    | assumption | intro _ | apply State.discardForecast_canon | apply canon_foldl | dsimp only | split

theorem State.swiLevels_canon {q a1 a2} {a0 : State} (h0 : Canon q a0) :
    Canon q (State.swiLevels a0 a1 a2) := by
  unfold State.swiLevels
  try dsimp only
  repeat' with_reducible first
    | assumption | intro _ | apply State.irqLevel_canon | apply canon_foldl | dsimp only | split

theorem State.stored_canon {q a1 a2} {a0 : State} (h0 : Canon q a0) :
    Canon q (State.stored a0 a1 a2) := by
  unfold State.stored
  try dsimp only
  repeat' with_reducible first
    | assumption | apply State.composeStop_canon | apply State.pagerSync_canon | apply State.scrubRestart_canon
    | apply State.icSync_canon | apply State.swiLevels_canon | apply State.spreadExchanges_canon | apply canon_ite
    | dsimp only | split

theorem State.poolBounds_canon {q a1} {a0 : State} (h0 : Canon q a0) :
    Canon q (State.poolBounds a0 a1) := by
  unfold State.poolBounds
  try dsimp only
  repeat' with_reducible first
    | assumption | intro _ | apply State.drew_canon | apply State.pagerSync_canon | apply State.setPool_canon
    | apply canon_ite | dsimp only | split

theorem State.modDlog_canon {q a1} {a0 : State} (h0 : Canon q a0) :
    Canon q (State.modDlog a0 a1) := by
  unfold State.modDlog
  try dsimp only
  repeat' with_reducible first
    | assumption | intro _ | apply State.setDlog_canon | dsimp only | split

theorem State.dlogCtrl_canon {q a1} {a0 : State} (h0 : Canon q a0) :
    Canon q (State.dlogCtrl a0 a1) := by
  unfold State.dlogCtrl
  try dsimp only
  repeat' with_reducible first
    | assumption | apply State.setDlog_canon | apply State.setInst_canon | apply canon_ite | dsimp only | split

theorem State.bootWrite_canon {q a1 a2 a3 a4} {a0 : State} (h0 : Canon q a0) :
    Canon q (State.bootWrite a0 a1 a2 a3 a4) := by
  unfold State.bootWrite
  try dsimp only
  repeat' with_reducible first
    | assumption | apply State.putBits_canon | apply State.setRing_canon | apply State.modRing_canon
    | apply State.loadBoot_canon | intro _ | apply canon_ite | dsimp only | split

theorem State.msixUnmask_canon {q a1 a2 a3} {a0 : State} (h0 : Canon q a0) :
    Canon q (State.msixUnmask a0 a1 a2 a3) := by
  unfold State.msixUnmask
  try dsimp only
  repeat' with_reducible first
    | assumption | apply State.setReg_canon | apply State.msix_canon | apply State.andNotReg_canon | apply canon_ite
    | dsimp only | split

theorem State.tbCtrlWrite_canon {q a1} {a0 : State} (h0 : Canon q a0) :
    Canon q (State.tbCtrlWrite a0 a1) := by
  unfold State.tbCtrlWrite
  try dsimp only
  repeat' with_reducible first
    | assumption | apply State.ppsCheck_canon | apply State.putBits_canon | apply tbReacqEffect_canon
    | apply canon_ite | dsimp only | split

theorem State.todCtrlWrite_canon {q a1} {a0 : State} (h0 : Canon q a0) :
    Canon q (State.todCtrlWrite a0 a1) := by
  unfold State.todCtrlWrite
  try dsimp only
  repeat' with_reducible first
    | assumption | apply State.andNotReg_canon | apply tbTodArmEffect_canon | apply canon_ite | dsimp only | split

theorem State.pwrCtrlWrite_canon {q a1} {a0 : State} (h0 : Canon q a0) :
    Canon q (State.pwrCtrlWrite a0 a1) := by
  unfold State.pwrCtrlWrite
  try dsimp only
  repeat' with_reducible first
    | assumption | apply State.putBits_canon | apply sleepRequestEffect_canon | apply sleepClearEffect_canon
    | apply canon_ite | dsimp only | split

theorem State.logWrite_canon {q a1 a2 a3} {a0 : State} (h0 : Canon q a0) :
    Canon q (State.logWrite a0 a1 a2 a3) := by
  unfold State.logWrite
  try dsimp only
  repeat' with_reducible first
    | assumption | apply State.setReg_canon | apply State.putBits_canon | apply canon_ite | dsimp only | split

theorem State.pageSpecial_canon {q a1 a2 a3 a4} {a0 : State} (h0 : Canon q a0) :
    Canon q (State.pageSpecial a0 a1 a2 a3 a4) := by
  unfold State.pageSpecial
  try dsimp only
  repeat' with_reducible first
    | assumption | apply State.msixUnmask_canon | apply bootEnableEffect_canon | apply bootDisableEffect_canon
    | apply State.bootWrite_canon | apply mbxGoEffect_canon | apply State.putBits_canon | apply canon_ite | dsimp only
    | split

theorem State.blockSpecial_canon {q a1 a2 a3} {a0 : State} (h0 : Canon q a0) :
    Canon q (State.blockSpecial a0 a1 a2 a3) := by
  unfold State.blockSpecial
  try dsimp only
  repeat' with_reducible first
    | assumption | apply State.putBits_canon | apply State.inspectGo_canon | apply State.andNotReg_canon
    | apply State.poolBounds_canon | apply State.dlogCtrl_canon | apply State.modDlog_canon
    | apply State.tbCtrlWrite_canon | apply State.todCtrlWrite_canon | apply portEnableEffect_canon
    | apply State.pwrCtrlWrite_canon | apply State.icSync_canon | apply State.setIrq_canon
    | apply stormUnmaskEffect_canon | apply fwForceEffect_canon | apply State.logWrite_canon | apply canon_put
    | intro _ | apply canon_ite | dsimp only | split

theorem State.woWrite_canon {q a1 a2 a3} {a0 : State} (h0 : Canon q a0) :
    Canon q (State.woWrite a0 a1 a2 a3) := by
  unfold State.woWrite
  try dsimp only
  repeat' with_reducible first
    | assumption | apply mbxAckEffect_canon | apply unfenceCmdEffect_canon | apply fenceCmdEffect_canon
    | apply softResetEffect_canon | apply icCompleteEffect_canon | apply State.claim_canon | apply canon_ite
    | dsimp only | split

theorem State.clearWrite_canon {q a1 a2 a3 a4} {a0 : State} (h0 : Canon q a0) :
    Canon q (State.clearWrite a0 a1 a2 a3 a4) := by
  unfold State.clearWrite
  try dsimp only
  repeat' with_reducible first
    | assumption | apply State.andNotReg_canon | apply State.syncLine_canon | apply canon_ite | dsimp only | split

theorem State.prpWrite_canon {q a1 a2 a3 a4} {a0 : State} (h0 : Canon q a0) :
    Canon q (State.prpWrite a0 a1 a2 a3 a4) := by
  unfold State.prpWrite
  try dsimp only
  repeat' with_reducible first
    | assumption | apply State.syncLine_canon | apply State.putBits_canon | apply severeClearEffect_canon
    | apply canon_ite | dsimp only | split

theorem State.writeReg_canon {q a1 a2 a3} {a0 : State} (h0 : Canon q a0) :
    Canon q (State.writeReg a0 a1 a2 a3) := by
  unfold State.writeReg
  try dsimp only
  repeat' with_reducible first
    | assumption | apply State.prpWrite_canon | apply State.stored_canon | apply State.setReg_canon
    | apply State.clearWrite_canon | apply faultForceEffect_canon | apply State.woWrite_canon
    | apply State.pageSpecial_canon | apply State.blockSpecial_canon | apply canon_ite | dsimp only | split

theorem regWriteEffect_canon {q a0 a1 a2 a3} {a4 : State} (h4 : Canon q a4) :
    Canon q (regWriteEffect a0 a1 a2 a3 a4) := by
  unfold regWriteEffect
  try dsimp only
  repeat' with_reducible first
    | assumption | apply State.writeReg_canon | apply canon_ite | dsimp only | split

theorem execRegisterWrite_canon {q a0 a1 a2 a3} {a4 : State} {t : State} (e : execRegisterWrite a0 a1 a2 a3 a4 = .next t) (h4 : Canon q a4) : Canon q t := by
  unfold execRegisterWrite at e
  split at e
  · cases e
    exact canon_ite (State.settle_canon (regWriteEffect_canon h4)) h4
  · exact barWrite_canon e h4 fun u hu => regWriteEffect_canon hu

theorem State.afterRead_canon {q a1 a2} {a0 : State} (h0 : Canon q a0) :
    Canon q (State.afterRead a0 a1 a2) := by
  unfold State.afterRead
  try dsimp only
  repeat' with_reducible first
    | assumption | apply nowCaptureEffect_canon | apply State.modTable_canon | apply State.modMember_canon
    | apply State.setReg_canon | apply State.retire_canon | intro _ | apply canon_ite | dsimp only | split

theorem State.readOne_canon {q a1 a2 a3} {a0 : State} (h0 : Canon q a0) :
    Canon q (State.readOne a0 a1 a2 a3) := by
  unfold State.readOne
  try dsimp only
  repeat' with_reducible first
    | assumption | apply State.emit_canon | apply State.claimed_canon | apply State.afterRead_canon | dsimp only
    | split

theorem readEffect_canon {q a0 a1} {a2 : State} (h0 : Canon q a2) :
    Canon q (readEffect a0 a1 a2) := by
  unfold readEffect
  try dsimp only
  repeat' with_reducible first
    | assumption | intro _ | apply State.emit_canon | apply State.readOne_canon | apply canon_ite | dsimp only | split

theorem State.readNow_canon {q a1 a2} {a0 : State} (h0 : Canon q a0) :
    Canon q (State.readNow a0 a1 a2) := by
  unfold State.readNow
  try dsimp only
  repeat' with_reducible first
    | assumption | apply State.emit_canon | apply State.settle_canon | apply State.barReadNow_canon
    | apply readEffect_canon | apply canon_ite | dsimp only | split

theorem execRcCounterRead_canon {q a0 a1} {a2 : State} {t : State} (e : execRcCounterRead a0 a1 a2 = .next t) (h2 : Canon q a2) : Canon q t := by
  unfold execRcCounterRead at e
  cases e
  exact canon_ite (State.holdRead_canon h2) (State.readNow_canon h2)

theorem thawEffect_canon {q} {a0 : State} (h0 : Canon q a0) :
    Canon q (thawEffect a0) := by
  unfold thawEffect
  try dsimp only
  repeat' with_reducible first
    | assumption | apply State.raise_canon | apply State.icSync_canon | apply State.readNow_canon | intro _
    | apply canon_ite | apply canon_foldl | dsimp only | split

theorem execThaw_canon {q} {a0 : State} {t : State} (e : execThaw a0 = .next t) (h0 : Canon q a0) : Canon q t := by
  unfold execThaw at e
  try dsimp only at e
  (repeat' split at e)
  all_goals first | cases e | skip
  repeat' with_reducible first
    | assumption | intro _ | apply thawEffect_canon | dsimp only

theorem execRetireFramePop_canon {q} {a0 : State} {t : State} (e : execRetireFramePop a0 = .next t) (h0 : Canon q a0) : Canon q t := by
  unfold execRetireFramePop at e
  refine barRead_canon e h0 ?_
  intros
  repeat' with_reducible first
    | assumption | intro _ | refine barRead_canon (by assumption) ?_ | dsimp only

theorem thermal_canon {q a0 a1} {a2 : State} (h1 : ∀ x0 u, Canon q u → Canon q (a1 x0 u)) (h2 : Canon q a2) :
    Canon q (thermal a0 a1 a2) := by
  unfold thermal
  try dsimp only
  repeat' with_reducible first
    | assumption | intro _ | apply h1 | apply canon_ite | dsimp only | split

theorem thermalIn_canon {q a0 a1 a2} {a3 : State} {t : State} (e : thermalIn a0 a1 a2 a3 = .next t) (h2 : ∀ x0 u, Canon q u → Canon q (a2 x0 u)) (h3 : Canon q a3) : Canon q t := by
  unfold thermalIn at e
  try dsimp only at e
  (repeat' split at e)
  all_goals first | cases e | skip
  repeat' with_reducible first
    | assumption | intro _ | apply h2 | apply State.modStack_canon | apply State.settle_canon | apply canon_ite
    | dsimp only | split

theorem execStkHotRise_canon {q a0} {a1 : State} {t : State} (e : execStkHotRise a0 a1 = .next t) (h1 : Canon q a1) : Canon q t := by
  unfold execStkHotRise at e
  refine thermalIn_canon e ?_ h1
  intros
  repeat' with_reducible first
    | assumption | intro _ | refine thermalIn_canon (by assumption) ?_ | apply hotRiseEffect_canon | dsimp only

theorem execStkHotFall_canon {q a0} {a1 : State} {t : State} (e : execStkHotFall a0 a1 = .next t) (h1 : Canon q a1) : Canon q t := by
  unfold execStkHotFall at e
  refine thermalIn_canon e ?_ h1
  intros
  repeat' with_reducible first
    | assumption | intro _ | refine thermalIn_canon (by assumption) ?_ | apply hotFallEffect_canon | dsimp only

theorem execStkCritRise_canon {q a0} {a1 : State} {t : State} (e : execStkCritRise a0 a1 = .next t) (h1 : Canon q a1) : Canon q t := by
  unfold execStkCritRise at e
  refine thermalIn_canon e ?_ h1
  intros
  repeat' with_reducible first
    | assumption | intro _ | refine thermalIn_canon (by assumption) ?_ | apply critRiseEffect_canon | dsimp only

theorem execStkCritFall_canon {q a0} {a1 : State} {t : State} (e : execStkCritFall a0 a1 = .next t) (h1 : Canon q a1) : Canon q t := by
  unfold execStkCritFall at e
  refine thermalIn_canon e ?_ h1
  intros
  repeat' with_reducible first
    | assumption | intro _ | refine thermalIn_canon (by assumption) ?_ | apply critFallEffect_canon | dsimp only

theorem execThrottleHoldRelease_canon {q a0} {a1 : State} {t : State} (e : execThrottleHoldRelease a0 a1 = .next t) (h1 : Canon q a1) : Canon q t := by
  unfold execThrottleHoldRelease at e
  refine actRef_canon e h1 ?_
  intros
  repeat' with_reducible first
    | assumption | intro _ | refine actRef_canon (by assumption) ?_ | apply thermal_canon | apply holdReleaseEffect_canon
    | dsimp only

theorem execDeferExpire_canon {q a0} {a1 : State} {t : State} (e : execDeferExpire a0 a1 = .next t) (h1 : Canon q a1) : Canon q t := by
  unfold execDeferExpire at e
  refine actRef_canon e h1 ?_
  intros
  repeat' with_reducible first
    | assumption | intro _ | refine actRef_canon (by assumption) ?_ | apply thermal_canon | apply deferExpireEffect_canon
    | dsimp only

theorem exec_canon {q a0} {a1 : State} {t : State} (e : exec a0 a1 = .next t) (h1 : Canon q a1) : Canon q t := by
  cases a0 with
  | nop b0 => exact execNop_canon (a0 := b0) e h1
  | ringCreate b0 => exact execRingCreate_canon (a0 := b0) e h1
  | ringEnable b0 => exact execRingEnable_canon (a0 := b0) e h1
  | ringDisable b0 => exact execRingDisable_canon (a0 := b0) e h1
  | ringDestroy b0 => exact execRingDestroy_canon (a0 := b0) e h1
  | tokenRingCreate b0 => exact execTokenRingCreate_canon (a0 := b0) e h1
  | tokenRingDestroy b0 => exact execTokenRingDestroy_canon (a0 := b0) e h1
  | leaseRenew b0 => exact execLeaseRenew_canon (a0 := b0) e h1
  | instanceCreate b0 b1 => exact execInstanceCreate_canon (a0 := b0) (a1 := b1) e h1
  | instanceResize b0 => exact execInstanceResize_canon (a0 := b0) e h1
  | instanceReset b0 => exact execInstanceReset_canon (a0 := b0) e h1
  | instanceDestroy b0 => exact execInstanceDestroy_canon (a0 := b0) e h1
  | instanceFreeze b0 => exact execInstanceFreeze_canon (a0 := b0) e h1
  | instanceQuiescent b0 => exact execInstanceQuiescent_canon (a0 := b0) e h1
  | instanceSave b0 => exact execInstanceSave_canon (a0 := b0) e h1
  | instanceRestore b0 b1 => exact execInstanceRestore_canon (a0 := b0) (a1 := b1) e h1
  | instanceThaw b0 => exact execInstanceThaw_canon (a0 := b0) e h1
  | partitionCreate b0 => exact execPartitionCreate_canon (a0 := b0) e h1
  | partitionDestroy b0 => exact execPartitionDestroy_canon (a0 := b0) e h1
  | contextCreate b0 => exact execContextCreate_canon (a0 := b0) e h1
  | contextSet b0 => exact execContextSet_canon (a0 := b0) e h1
  | contextDestroy b0 => exact execContextDestroy_canon (a0 := b0) e h1
  | bwrSet b0 => exact execBwrSet_canon (a0 := b0) e h1
  | pageGeom b0 => exact execPageGeom_canon (a0 := b0) e h1
  | modelLoad b0 b1 => exact execModelLoad_canon (a0 := b0) (a1 := b1) e h1
  | modelUnload b0 => exact execModelUnload_canon (a0 := b0) e h1
  | serveBind b0 => exact execServeBind_canon (a0 := b0) e h1
  | serveUnbind b0 => exact execServeUnbind_canon (a0 := b0) e h1
  | sampleBind b0 => exact execSampleBind_canon (a0 := b0) e h1
  | sampleTableLoad b0 b1 => exact execSampleTableLoad_canon (a0 := b0) (a1 := b1) e h1
  | sampleTableFree b0 => exact execSampleTableFree_canon (a0 := b0) e h1
  | automatonLoad b0 b1 => exact execAutomatonLoad_canon (a0 := b0) (a1 := b1) e h1
  | automatonFree b0 => exact execAutomatonFree_canon (a0 := b0) e h1
  | admitStream b0 => exact execAdmitStream_canon (a0 := b0) e h1
  | streamSet b0 => exact execStreamSet_canon (a0 := b0) e h1
  | streamQuery b0 b1 => exact execStreamQuery_canon (a0 := b0) (a1 := b1) e h1
  | streamPark b0 => exact execStreamPark_canon (a0 := b0) e h1
  | streamResume b0 => exact execStreamResume_canon (a0 := b0) e h1
  | streamAppend b0 b1 => exact execStreamAppend_canon (a0 := b0) (a1 := b1) e h1
  | streamRetire b0 => exact execStreamRetire_canon (a0 := b0) e h1
  | streamRelease b0 => exact execStreamRelease_canon (a0 := b0) e h1
  | tokenLogRead b0 => exact execTokenLogRead_canon (a0 := b0) e h1
  | prefixCreate b0 => exact execPrefixCreate_canon (a0 := b0) e h1
  | prefixFree b0 => exact execPrefixFree_canon (a0 := b0) e h1
  | runStep b0 => exact execRunStep_canon (a0 := b0) e h1
  | cycLoad b0 b1 => exact execCycLoad_canon (a0 := b0) (a1 := b1) e h1
  | cycStart b0 => exact execCycStart_canon (a0 := b0) e h1
  | cycStop b0 => exact execCycStop_canon (a0 := b0) e h1
  | cycFree b0 => exact execCycFree_canon (a0 := b0) e h1
  | swarmSelfSet b0 => exact execSwarmSelfSet_canon (a0 := b0) e h1
  | swarmMemberSet b0 => exact execSwarmMemberSet_canon (a0 := b0) e h1
  | swarmMemberClear b0 => exact execSwarmMemberClear_canon (a0 := b0) e h1
  | swarmGroupSet b0 b1 => exact execSwarmGroupSet_canon (a0 := b0) (a1 := b1) e h1
  | capBind b0 => exact execCapBind_canon (a0 := b0) e h1
  | capUnbind b0 => exact execCapUnbind_canon (a0 := b0) e h1
  | capFill b0 => exact execCapFill_canon (a0 := b0) e h1
  | capRiskHint b0 => exact execCapRiskHint_canon (a0 := b0) e h1
  | waggleSet b0 => exact execWaggleSet_canon (a0 := b0) e h1
  | openRegionRoutine b0 b1 => exact execOpenRegionRoutine_canon (a0 := b0) (a1 := b1) e h1
  | openRoutineTimeout => exact execOpenRoutineTimeout_canon e h1
  | parityMachineCheck b0 b1 => exact execParityMachineCheck_canon (a0 := b0) (a1 := b1) e h1
  | mchkReadbackDone b0 => exact execMchkReadbackDone_canon (a0 := b0) e h1
  | xlateTrap => exact execXlateTrap_canon e h1
  | hello b0 => exact execHello_canon (a0 := b0) e h1
  | fwStage b0 b1 => exact execFwStage_canon (a0 := b0) (a1 := b1) e h1
  | fwActivate b0 => exact execFwActivate_canon (a0 := b0) e h1
  | fwCoreUpdate b0 => exact execFwCoreUpdate_canon (a0 := b0) e h1
  | orphanResume b0 => exact execOrphanResume_canon (a0 := b0) e h1
  | orphanReset b0 => exact execOrphanReset_canon (a0 := b0) e h1
  | zeroize b0 => exact execZeroize_canon (a0 := b0) e h1
  | zeroizeDone b0 => exact execZeroizeDone_canon (a0 := b0) e h1
  | lifecycleAdvance b0 b1 b2 => exact execLifecycleAdvance_canon (a0 := b0) (a1 := b1) (a2 := b2) e h1
  | openKeySet b0 => exact execOpenKeySet_canon (a0 := b0) e h1
  | selfTest b0 => exact execSelfTest_canon (a0 := b0) e h1
  | openLoad b0 b1 => exact execOpenLoad_canon (a0 := b0) (a1 := b1) e h1
  | openClear b0 => exact execOpenClear_canon (a0 := b0) e h1
  | getVersion b0 => exact execGetVersion_canon (a0 := b0) e h1
  | getCapabilities b0 => exact execGetCapabilities_canon (a0 := b0) e h1
  | negotiateAlgorithms b0 b1 => exact execNegotiateAlgorithms_canon (a0 := b0) (a1 := b1) e h1
  | getDigests b0 => exact execGetDigests_canon (a0 := b0) e h1
  | getCertificate b0 b1 => exact execGetCertificate_canon (a0 := b0) (a1 := b1) e h1
  | challenge b0 b1 => exact execChallenge_canon (a0 := b0) (a1 := b1) e h1
  | getMeasurements b0 b1 => exact execGetMeasurements_canon (a0 := b0) (a1 := b1) e h1
  | keyExchange b0 b1 => exact execKeyExchange_canon (a0 := b0) (a1 := b1) e h1
  | finish b0 b1 => exact execFinish_canon (a0 := b0) (a1 := b1) e h1
  | keyUpdate b0 => exact execKeyUpdate_canon (a0 := b0) e h1
  | spdmHeartbeat b0 => exact execSpdmHeartbeat_canon (a0 := b0) e h1
  | endSession b0 => exact execEndSession_canon (a0 := b0) e h1
  | swarmKeyLoad b0 b1 b2 b3 => exact execSwarmKeyLoad_canon (a0 := b0) (a1 := b1) (a2 := b2) (a3 := b3) e h1
  | ideKmQuery b0 => exact execIdeKmQuery_canon (a0 := b0) e h1
  | ideKmKeyProg b0 b1 b2 b3 => exact execIdeKmKeyProg_canon (a0 := b0) (a1 := b1) (a2 := b2) (a3 := b3) e h1
  | ideKmKSetGo b0 b1 b2 b3 => exact execIdeKmKSetGo_canon (a0 := b0) (a1 := b1) (a2 := b2) (a3 := b3) e h1
  | ideKmKSetStop b0 b1 b2 b3 => exact execIdeKmKSetStop_canon (a0 := b0) (a1 := b1) (a2 := b2) (a3 := b3) e h1
  | mbxInGo b0 => exact execMbxInGo_canon (a0 := b0) e h1
  | mbxOutAck b0 => exact execMbxOutAck_canon (a0 := b0) e h1
  | mbxOutPost b0 b1 => exact execMbxOutPost_canon (a0 := b0) (a1 := b1) e h1
  | doorbellWrite b0 b1 b2 => exact execDoorbellWrite_canon (a0 := b0) (a1 := b1) (a2 := b2) e h1
  | pushWrite b0 b1 b2 => exact execPushWrite_canon (a0 := b0) (a1 := b1) (a2 := b2) e h1
  | tokenRingDoorbell b0 b1 b2 => exact execTokenRingDoorbell_canon (a0 := b0) (a1 := b1) (a2 := b2) e h1
  | bootRingEnable b0 => exact execBootRingEnable_canon (a0 := b0) e h1
  | bootRingDisable b0 => exact execBootRingDisable_canon (a0 := b0) e h1
  | fetchReadComplete b0 b1 => exact execFetchReadComplete_canon (a0 := b0) (a1 := b1) e h1
  | fetchRereadTimer b0 => exact execFetchRereadTimer_canon (a0 := b0) e h1
  | specPollTimer b0 => exact execSpecPollTimer_canon (a0 := b0) e h1
  | entryStart b0 => exact execEntryStart_canon (a0 := b0) e h1
  | barrierRelease b0 => exact execBarrierRelease_canon (a0 := b0) e h1
  | headShadowWrite b0 => exact execHeadShadowWrite_canon (a0 := b0) e h1
  | completionWriteError b0 b1 => exact execCompletionWriteError_canon (a0 := b0) (a1 := b1) e h1
  | ringDrainEnd b0 => exact execRingDrainEnd_canon (a0 := b0) e h1
  | statusBlockUpdate b0 => exact execStatusBlockUpdate_canon (a0 := b0) e h1
  | statusBlockWriteError b0 => exact execStatusBlockWriteError_canon (a0 := b0) e h1
  | hostCopyDone b0 b1 => exact execHostCopyDone_canon (a0 := b0) (a1 := b1) e h1
  | inspectionSnapshot => exact execInspectionSnapshot_canon e h1
  | inspectionSnapshotDone => exact execInspectionSnapshotDone_canon e h1
  | scrubRow b0 => exact execScrubRow_canon (a0 := b0) e h1
  | combInitDone => exact execCombInitDone_canon e h1
  | promptFetchDone b0 b1 => exact execPromptFetchDone_canon (a0 := b0) (a1 := b1) e h1
  | promptFetchFail b0 => exact execPromptFetchFail_canon (a0 := b0) e h1
  | firstPagesRetry => exact execFirstPagesRetry_canon e h1
  | forecast b0 => exact execForecast_canon (a0 := b0) e h1
  | pagerMemberReport b0 b1 => exact execPagerMemberReport_canon (a0 := b0) (a1 := b1) e h1
  | commit b0 => exact execCommit_canon (a0 := b0) e h1
  | commitWaitTimeout b0 => exact execCommitWaitTimeout_canon (a0 := b0) e h1
  | memberTableWriteError b0 b1 => exact execMemberTableWriteError_canon (a0 := b0) (a1 := b1) e h1
  | draftStepCompose b0 => exact execDraftStepCompose_canon (a0 := b0) e h1
  | idleSweep => exact execIdleSweep_canon e h1
  | pressureVictim b0 => exact execPressureVictim_canon (a0 := b0) e h1
  | dispatchRecord b0 b1 b2 => exact execDispatchRecord_canon (a0 := b0) (a1 := b1) (a2 := b2) e h1
  | programCheckDone b0 b1 b2 b3 b4 => exact execProgramCheckDone_canon (a0 := b0) (a1 := b1) (a2 := b2) (a3 := b3) (a4 := b4) e h1
  | launchExpand b0 b1 b2 => exact execLaunchExpand_canon (a0 := b0) (a1 := b1) (a2 := b2) e h1
  | engineCommandIssue b0 b1 b2 => exact execEngineCommandIssue_canon (a0 := b0) (a1 := b1) (a2 := b2) e h1
  | queueCredit b0 b1 b2 => exact execQueueCredit_canon (a0 := b0) (a1 := b1) (a2 := b2) e h1
  | headIssue b0 b1 b2 => exact execHeadIssue_canon (a0 := b0) (a1 := b1) (a2 := b2) e h1
  | commandComplete b0 b1 b2 b3 b4 b5 b6 b7 => exact execCommandComplete_canon (a0 := b0) (a1 := b1) (a2 := b2) (a3 := b3) (a4 := b4) (a5 := b5) (a6 := b6) (a7 := b7) e h1
  | waitTimeout b0 b1 b2 => exact execWaitTimeout_canon (a0 := b0) (a1 := b1) (a2 := b2) e h1
  | gateTimeout b0 b1 b2 => exact execGateTimeout_canon (a0 := b0) (a1 := b1) (a2 := b2) e h1
  | completionRecord b0 b1 b2 b3 => exact execCompletionRecord_canon (a0 := b0) (a1 := b1) (a2 := b2) (a3 := b3) e h1
  | executionFaultReport b0 b1 b2 => exact execExecutionFaultReport_canon (a0 := b0) (a1 := b1) (a2 := b2) e h1
  | stepStop b0 b1 b2 => exact execStepStop_canon (a0 := b0) (a1 := b1) (a2 := b2) e h1
  | endOfStepRecord b0 b1 b2 => exact execEndOfStepRecord_canon (a0 := b0) (a1 := b1) (a2 := b2) e h1
  | sampleRowDone b0 b1 b2 b3 b4 => exact execSampleRowDone_canon (a0 := b0) (a1 := b1) (a2 := b2) (a3 := b3) (a4 := b4) e h1
  | fullScanDone b0 b1 b2 b3 b4 => exact execFullScanDone_canon (a0 := b0) (a1 := b1) (a2 := b2) (a3 := b3) (a4 := b4) e h1
  | memberStepEnd b0 b1 b2 => exact execMemberStepEnd_canon (a0 := b0) (a1 := b1) (a2 := b2) e h1
  | stepDispatch b0 => exact execStepDispatch_canon (a0 := b0) e h1
  | sliceEnd b0 => exact execSliceEnd_canon (a0 := b0) e h1
  | sliceDrainTimeout b0 => exact execSliceDrainTimeout_canon (a0 := b0) e h1
  | contextSwapOut b0 => exact execContextSwapOut_canon (a0 := b0) e h1
  | contextSaveDone b0 b1 => exact execContextSaveDone_canon (a0 := b0) (a1 := b1) e h1
  | contextLoad b0 => exact execContextLoad_canon (a0 := b0) e h1
  | contextLoadDone b0 b1 => exact execContextLoadDone_canon (a0 := b0) (a1 := b1) e h1
  | boundaryTest b0 => exact execBoundaryTest_canon (a0 := b0) e h1
  | boundaryRetest b0 => exact execBoundaryRetest_canon (a0 := b0) e h1
  | preemption b0 b1 b2 => exact execPreemption_canon (a0 := b0) (a1 := b1) (a2 := b2) e h1
  | slotStopped b0 b1 b2 => exact execSlotStopped_canon (a0 := b0) (a1 := b1) (a2 := b2) e h1
  | regulatorRefill b0 b1 => exact execRegulatorRefill_canon (a0 := b0) (a1 := b1) e h1
  | pageMoveDone b0 b1 => exact execPageMoveDone_canon (a0 := b0) (a1 := b1) e h1
  | demotePage b0 b1 => exact execDemotePage_canon (a0 := b0) (a1 := b1) e h1
  | narrowPathResponse b0 b1 => exact execNarrowPathResponse_canon (a0 := b0) (a1 := b1) e h1
  | narrowPathTimeout b0 => exact execNarrowPathTimeout_canon (a0 := b0) e h1
  | regionPoison b0 b1 => exact execRegionPoison_canon (a0 := b0) (a1 := b1) e h1
  | regionRepairDone b0 b1 b2 b3 => exact execRegionRepairDone_canon (a0 := b0) (a1 := b1) (a2 := b2) (a3 := b3) e h1
  | framePoison b0 b1 b2 b3 => exact execFramePoison_canon (a0 := b0) (a1 := b1) (a2 := b2) (a3 := b3) e h1
  | frameTableSweep => exact execFrameTableSweep_canon e h1
  | retireFramePop => exact execRetireFramePop_canon e h1
  | ppsEdge b0 => exact execPpsEdge_canon (a0 := b0) e h1
  | missedSecond => exact execMissedSecond_canon e h1
  | acquireNoEdge => exact execAcquireNoEdge_canon e h1
  | holdoverExpire => exact execHoldoverExpire_canon e h1
  | tbReacq b0 => exact execTbReacq_canon (a0 := b0) e h1
  | tbTodArm b0 => exact execTbTodArm_canon (a0 := b0) e h1
  | tbNowCapture b0 => exact execTbNowCapture_canon (a0 := b0) e h1
  | timedStart b0 b1 => exact execTimedStart_canon (a0 := b0) (a1 := b1) e h1
  | cycleBoundary b0 => exact execCycleBoundary_canon (a0 := b0) e h1
  | slotLead b0 b1 => exact execSlotLead_canon (a0 := b0) (a1 := b1) e h1
  | slotStart b0 b1 => exact execSlotStart_canon (a0 := b0) (a1 := b1) e h1
  | slotDeadline b0 b1 => exact execSlotDeadline_canon (a0 := b0) (a1 := b1) e h1
  | stkHotRise b0 => exact execStkHotRise_canon (a0 := b0) e h1
  | stkHotFall b0 => exact execStkHotFall_canon (a0 := b0) e h1
  | stkCritRise b0 => exact execStkCritRise_canon (a0 := b0) e h1
  | throttleHoldRelease b0 => exact execThrottleHoldRelease_canon (a0 := b0) e h1
  | deferExpire b0 => exact execDeferExpire_canon (a0 := b0) e h1
  | swarmPortEnable b0 b1 => exact execSwarmPortEnable_canon (a0 := b0) (a1 := b1) e h1
  | swarmHello b0 b1 b2 => exact execSwarmHello_canon (a0 := b0) (a1 := b1) (a2 := b2) e h1
  | swarmHelloAck b0 b1 b2 => exact execSwarmHelloAck_canon (a0 := b0) (a1 := b1) (a2 := b2) e h1
  | swarmHeartbeat b0 => exact execSwarmHeartbeat_canon (a0 := b0) e h1
  | timeReq b0 b1 b2 => exact execTimeReq_canon (a0 := b0) (a1 := b1) (a2 := b2) e h1
  | timeResp b0 b1 b2 b3 b4 => exact execTimeResp_canon (a0 := b0) (a1 := b1) (a2 := b2) (a3 := b3) (a4 := b4) e h1
  | collAnnounce b0 b1 b2 b3 b4 => exact execCollAnnounce_canon (a0 := b0) (a1 := b1) (a2 := b2) (a3 := b3) (a4 := b4) e h1
  | stepSlip b0 b1 b2 b3 => exact execStepSlip_canon (a0 := b0) (a1 := b1) (a2 := b2) (a3 := b3) e h1
  | collAbandon b0 b1 b2 b3 b4 => exact execCollAbandon_canon (a0 := b0) (a1 := b1) (a2 := b2) (a3 := b3) (a4 := b4) e h1
  | stateNotice b0 => exact execStateNotice_canon (a0 := b0) e h1
  | remoteCmd b0 b1 b2 b3 b4 => exact execRemoteCmd_canon (a0 := b0) (a1 := b1) (a2 := b2) (a3 := b3) (a4 := b4) e h1
  | remoteResult b0 b1 b2 b3 => exact execRemoteResult_canon (a0 := b0) (a1 := b1) (a2 := b2) (a3 := b3) e h1
  | capOffer b0 b1 b2 b3 b4 => exact execCapOffer_canon (a0 := b0) (a1 := b1) (a2 := b2) (a3 := b3) (a4 := b4) e h1
  | capAccept b0 b1 b2 b3 => exact execCapAccept_canon (a0 := b0) (a1 := b1) (a2 := b2) (a3 := b3) e h1
  | capReport b0 b1 b2 b3 b4 b5 b6 => exact execCapReport_canon (a0 := b0) (a1 := b1) (a2 := b2) (a3 := b3) (a4 := b4) (a5 := b5) (a6 := b6) e h1
  | capPlan b0 b1 b2 b3 b4 b5 b6 b7 => exact execCapPlan_canon (a0 := b0) (a1 := b1) (a2 := b2) (a3 := b3) (a4 := b4) (a5 := b5) (a6 := b6) (a7 := b7) e h1
  | capCut b0 b1 b2 b3 b4 b5 b6 => exact execCapCut_canon (a0 := b0) (a1 := b1) (a2 := b2) (a3 := b3) (a4 := b4) (a5 := b5) (a6 := b6) e h1
  | capSeal b0 b1 b2 b3 b4 => exact execCapSeal_canon (a0 := b0) (a1 := b1) (a2 := b2) (a3 := b3) (a4 := b4) e h1
  | capAck b0 b1 b2 b3 b4 b5 b6 => exact execCapAck_canon (a0 := b0) (a1 := b1) (a2 := b2) (a3 := b3) (a4 := b4) (a5 := b5) (a6 := b6) e h1
  | capFillPacket b0 b1 b2 b3 b4 b5 => exact execCapFillPacket_canon (a0 := b0) (a1 := b1) (a2 := b2) (a3 := b3) (a4 := b4) (a5 := b5) e h1
  | capPageTransfer b0 => exact execCapPageTransfer_canon (a0 := b0) e h1
  | stagingCopyDone b0 b1 => exact execStagingCopyDone_canon (a0 := b0) (a1 := b1) e h1
  | buddyReseek b0 => exact execBuddyReseek_canon (a0 := b0) e h1
  | riskRecompute => exact execRiskRecompute_canon e h1
  | heartbeatPeriod => exact execHeartbeatPeriod_canon e h1
  | absenceTimeout b0 => exact execAbsenceTimeout_canon (a0 := b0) e h1
  | timeTransferPeriod b0 => exact execTimeTransferPeriod_canon (a0 := b0) e h1
  | requestRetryTimeout b0 => exact execRequestRetryTimeout_canon (a0 := b0) e h1
  | secondCopySend => exact execSecondCopySend_canon e h1
  | remoteSlotTimeout b0 => exact execRemoteSlotTimeout_canon (a0 := b0) e h1
  | windowMiss b0 b1 b2 => exact execWindowMiss_canon (a0 := b0) (a1 := b1) (a2 := b2) e h1
  | announceExpiry b0 => exact execAnnounceExpiry_canon (a0 := b0) e h1
  | keyActivate => exact execKeyActivate_canon e h1
  | collArrived b0 b1 b2 b3 => exact execCollArrived_canon (a0 := b0) (a1 := b1) (a2 := b2) (a3 := b3) e h1
  | collDone b0 b1 b2 b3 => exact execCollDone_canon (a0 := b0) (a1 := b1) (a2 := b2) (a3 := b3) e h1
  | linkHealth b0 b1 b2 => exact execLinkHealth_canon (a0 := b0) (a1 := b1) (a2 := b2) e h1
  | portState b0 b1 => exact execPortState_canon (a0 := b0) (a1 := b1) e h1
  | swarmDrop b0 => exact execSwarmDrop_canon (a0 := b0) e h1
  | watchdogExpiry b0 => exact execWatchdogExpiry_canon (a0 := b0) e h1
  | processorTrapFault b0 b1 b2 => exact execProcessorTrapFault_canon (a0 := b0) (a1 := b1) (a2 := b2) e h1
  | restartLimitExpiry b0 => exact execRestartLimitExpiry_canon (a0 := b0) e h1
  | rebuildComplete b0 => exact execRebuildComplete_canon (a0 := b0) e h1
  | fwRestartForce b0 => exact execFwRestartForce_canon (a0 := b0) e h1
  | bootLoadTimeout => exact execBootLoadTimeout_canon e h1
  | leaseExpiry => exact execLeaseExpiry_canon e h1
  | linkDown => exact execLinkDown_canon e h1
  | pfFlr => exact execPfFlr_canon e h1
  | vfFlr b0 => exact execVfFlr_canon (a0 := b0) e h1
  | flrTimeout b0 => exact execFlrTimeout_canon (a0 := b0) e h1
  | wagglePassage b0 => exact execWagglePassage_canon (a0 := b0) e h1
  | fenceCmd b0 b1 => exact execFenceCmd_canon (a0 := b0) (a1 := b1) e h1
  | unfenceCmd b0 b1 => exact execUnfenceCmd_canon (a0 := b0) (a1 := b1) e h1
  | fenceBusFence b0 b1 b2 => exact execFenceBusFence_canon (a0 := b0) (a1 := b1) (a2 := b2) e h1
  | fenceBusUnfence b0 b1 b2 => exact execFenceBusUnfence_canon (a0 := b0) (a1 := b1) (a2 := b2) e h1
  | fenceBusReg b0 b1 b2 => exact execFenceBusReg_canon (a0 := b0) (a1 := b1) (a2 := b2) e h1
  | fenceBusIrq b0 b1 => exact execFenceBusIrq_canon (a0 := b0) (a1 := b1) e h1
  | fenceBusAck b0 b1 b2 => exact execFenceBusAck_canon (a0 := b0) (a1 := b1) (a2 := b2) e h1
  | fenceBusNak b0 b1 b2 => exact execFenceBusNak_canon (a0 := b0) (a1 := b1) (a2 := b2) e h1
  | fenceAckTimeout b0 b1 => exact execFenceAckTimeout_canon (a0 := b0) (a1 := b1) e h1
  | faultForce b0 b1 b2 => exact execFaultForce_canon (a0 := b0) (a1 := b1) (a2 := b2) e h1
  | severeClear b0 b1 b2 => exact execSevereClear_canon (a0 := b0) (a1 := b1) (a2 := b2) e h1
  | humToggle => exact execHumToggle_canon e h1
  | irqLevelChange b0 b1 => exact execIrqLevelChange_canon (a0 := b0) (a1 := b1) e h1
  | icClaim b0 b1 => exact execIcClaim_canon (a0 := b0) (a1 := b1) e h1
  | icComplete b0 b1 b2 => exact execIcComplete_canon (a0 := b0) (a1 := b1) (a2 := b2) e h1
  | stormUnmask b0 b1 => exact execStormUnmask_canon (a0 := b0) (a1 := b1) e h1
  | holdoffExpiry b0 => exact execHoldoffExpiry_canon (a0 := b0) e h1
  | rcCounterRead b0 b1 => exact execRcCounterRead_canon (a0 := b0) (a1 := b1) e h1
  | registerWrite b0 b1 b2 b3 => exact execRegisterWrite_canon (a0 := b0) (a1 := b1) (a2 := b2) (a3 := b3) e h1
  | powerOnReset => exact execPowerOnReset_canon e h1
  | resetRelease => exact execResetRelease_canon e h1
  | fuseMapReadDone b0 b1 => exact execFuseMapReadDone_canon (a0 := b0) (a1 := b1) e h1
  | guardPostDone b0 => exact execGuardPostDone_canon (a0 := b0) e h1
  | entropyRetest b0 => exact execEntropyRetest_canon (a0 := b0) e h1
  | softReset b0 b1 => exact execSoftReset_canon (a0 := b0) (a1 := b1) e h1
  | softResetTakeEffect => exact execSoftResetTakeEffect_canon e h1
  | sleepRequest b0 => exact execSleepRequest_canon (a0 := b0) e h1
  | sleepRequestClear b0 => exact execSleepRequestClear_canon (a0 := b0) e h1
  | sleepEntryDone => exact execSleepEntryDone_canon e h1
  | wakeTimeReached => exact execWakeTimeReached_canon e h1
  | wakeRestoreDone b0 b1 => exact execWakeRestoreDone_canon (a0 := b0) (a1 := b1) e h1
  | freezePin => exact execFreezePin_canon e h1
  | thaw => exact execThaw_canon e h1
  | idcode => exact execIdcode_canon e h1
  | scanSel b0 => exact execScanSel_canon (a0 := b0) e h1
  | scanDump => exact execScanDump_canon e h1
  | bypass b0 => exact execBypass_canon (a0 := b0) e h1
  | capPageReceived b0 b1 b2 b3 => exact execCapPageReceived_canon (a0 := b0) (a1 := b1) (a2 := b2) (a3 := b3) e h1
  | fillPageReceived b0 b1 => exact execFillPageReceived_canon (a0 := b0) (a1 := b1) e h1
  | htpDcCompletion b0 b1 => exact execHtpDcCompletion_canon (a0 := b0) (a1 := b1) e h1
  | atsInvalidation b0 b1 => exact execAtsInvalidation_canon (a0 := b0) (a1 := b1) e h1
  | fabricReadResponse b0 b1 => exact execFabricReadResponse_canon (a0 := b0) (a1 := b1) e h1
  | stkCritFall b0 => exact execStkCritFall_canon (a0 := b0) e h1
  | mcCePulse b0 b1 => exact execMcCePulse_canon (a0 := b0) (a1 := b1) e h1
  | fuseProgramAck b0 => exact execFuseProgramAck_canon (a0 := b0) e h1
  | processorLoaded b0 b1 => exact execProcessorLoaded_canon (a0 := b0) (a1 := b1) e h1
  | stageVerifyDone b0 => exact execStageVerifyDone_canon (a0 := b0) e h1


theorem tbRefCycle_canon {q} {a0 : State} (h0 : Canon q a0) :
    Canon q (tbRefCycle a0) := by
  unfold tbRefCycle
  try dsimp only
  repeat' with_reducible first
    | assumption | apply canon_ite | dsimp only | split

end Sys2Proof.Machine
end

