-- ==== Sys2Proof/Laws/Perform.lean ====
section
/-!
SUPPORT. What a command of the interpreter answers, from what its body answers; what a BAR access and an event answer.
-/

namespace Sys2Proof

open Sys2Proof.Machine

/-- The command that a source holds is that source's. -/
theorem holds_src {s : State} {src : Src} {c : Cmd} (h : s.holds src = some c) : c.src = src := by
  cases src with
  | ring r =>
    simp only [State.holds, Option.map_eq_some_iff] at h
    obtain ⟨e, -, rfl⟩ := h; rfl
  | remote k =>
    simp only [State.holds, Option.bind_eq_some_iff, Option.map_eq_some_iff] at h
    obtain ⟨x, -, ws, -, rfl⟩ := h; rfl

theorem cmd_ring (s : State) (q : Nat) : s.cmd (.ring q) =
    if decide (s.interp.current = some (.ring q)) && s.store.trap.isNone && s.store.overrun.isNone
    then s.holds (.ring q) else none := rfl

theorem cmd_remote (s : State) (k : Nat) :
    s.cmd (.remote k) = if s.canStart && !s.remoteRuns (.remote k) && s.remoteTurn k then s.holds (.remote k) else none := rfl

theorem cmd_holds {s : State} {src : Src} {c : Cmd} (h : s.cmd src = some c) : s.holds src = some c := by
  cases src with
  | ring q => rw [cmd_ring] at h; split at h <;> simp_all
  | remote k => rw [cmd_remote] at h; split at h <;> simp_all

theorem Offers.src_eq {s : State} {src : Src} {op : Nat} {c : Cmd} (h : Offers s src op c) : c.src = src :=
  holds_src (cmd_holds h.2.1)

/-- While a source offers a command, that of another ring can be squashed only where it waits and has committed nothing. -/
theorem squashable_other {s t : State} {src : Src} {c : Cmd} {r : Nat} (h : s.cmd src = some c)
    (hr : src ≠ .ring r) (ht : t.interp = s.interp)
    (hw : (s.interp.waiting.any fun w => w.1 == .ring r && t.uncommitted w.2) = false) : t.squashable r = none := by
  have hc : s.interp.current ≠ some (.ring r) := by
    cases src with
    | ring q => rw [cmd_ring] at h; split at h <;> simp_all
    | remote k => rw [cmd_remote] at h; split at h <;> simp_all [State.canStart]
  simp only [State.squashable, ht, hc, hw, false_and, Bool.false_eq_true, or_self, if_false]

theorem perform_done {s t : State} {src : Src} {op : Nat} {c : Cmd} {body : Cmd → State → Answer} {rs : List Word}
    (h : Offers s src op c) (hb : body c s = .done t rs) : act s (·.perform src op body) = completes t c rs := by
  obtain ⟨hk, hc, ho, hf, ha⟩ := h
  simp only [act, hk, State.perform, hc, ho, ha, hb, hf, Answer.checked, completes, ends, if_true, ne_eq, not_true_eq_false,
    Bool.false_eq_true, if_false]

theorem perform_ends {s t : State} {src : Src} {op : Nat} {c : Cmd} {body : Cmd → State → Answer} {rs : List Word}
    {st : Byte} (h : Offers s src op c) (hb : body c s = .ends t st rs) :
    act s (·.perform src op body) = ends t c st rs (if st = St.ok then 0 else noField) := by
  obtain ⟨hk, hc, ho, hf, ha⟩ := h
  simp only [act, hk, State.perform, hc, ho, ha, hb, hf, Answer.checked, ends, if_true, ne_eq, not_true_eq_false, Bool.false_eq_true,
    if_false]

theorem perform_refuse {s : State} {src : Src} {op : Nat} {c : Cmd} {body : Cmd → State → Answer} {st : Byte} {d : Nat}
    (h : Offers s src op c) (hb : body c s = .refuse st d) :
    act s (·.perform src op body) = refuses s c st d := by
  obtain ⟨hk, hc, ho, hf, ha⟩ := h
  simp only [act, hk, State.perform, hc, ho, ha, hb, hf, Answer.checked, refuses, ends, if_true, ne_eq, not_true_eq_false,
    Bool.false_eq_true, if_false]

theorem perform_long {s t : State} {src : Src} {op : Nat} {c : Cmd} {body : Cmd → State → Answer} {addr : Nat}
    {b : OpBody} {aux : Word} {rs : List Word} {go : Nat → State → State}
    (h : Offers s src op c) (hb : body c s = .long t addr b aux rs go) (hl : s.longFail b = none) :
    act s (·.perform src op body) = goesOn (go t.interp.nextOp (accepted t c addr b aux rs)) := by
  obtain ⟨hk, hc, ho, hf, ha⟩ := h
  simp only [act, hk, State.perform, hc, ho, ha, hb, hf, hl, Answer.checked, goesOn, accepted, State.acceptLong, if_true,
    ne_eq, not_true_eq_false, Bool.false_eq_true, if_false]

theorem perform_later {s t : State} {src : Src} {op : Nat} {c : Cmd} {body : Cmd → State → Answer} {w : Waiting}
    (h : Offers s src op c) (hb : body c s = .later t w) :
    act s (·.perform src op body) = waitsFor t src w := by
  obtain ⟨hk, hc, ho, hf, ha⟩ := h
  cases src <;> simp only [act, hk, State.perform, hc, ho, ha, hb, hf, Answer.checked, waitsFor, goesOn, if_true, ne_eq,
    not_true_eq_false, Bool.false_eq_true, if_false]

theorem act_goesOn {s : State} {f : State → State} (h : s.clocked = true) : act s f = goesOn (f s) := by
  simp only [act, h, if_true, goesOn]

theorem barWrite_goesOn {s : State} {fn : Nat} {f : State → State} (h : Reachable s fn) :
    barWrite s fn f = goesOn (f s) := by
  obtain ⟨h1, h2, h3, h4⟩ := h
  simp [barWrite, h1, h2, h3, h4, goesOn]

theorem barRead_goesOn {s : State} {fn off : Nat} {v : State → Word} {f : State → State} (h : Reachable s fn) :
    barRead s fn off v f = goesOn (f (s.emit (.readData fn (v s)))) := by
  obtain ⟨h1, h2, h3, h4⟩ := h
  simp [barRead, State.barReadNow, h1, h2, h3, h4, goesOn]

theorem actRef_goesOn {s : State} {f : State → State} (h : s.inReset = false) :
    actRef s f = goesOn (f s) := by
  simp [actRef, h, goesOn]

/-- A packet that passes the checks has its effect on the state in which it is heard. -/
theorem receive_heard {s t : State} {h : SwarmHdr} {len : Nat → Bool} {f : State → State} (e : Heard s h len t) :
    act s (fun s => s.receive h len f) = goesOn (f t) := by
  obtain ⟨hk, h1, h2, h3, h4, hd, h5, h6, x, h7, h8, rfl⟩ := e
  rw [act_goesOn hk]
  simp only [State.receive, h1, h2, h3, h4, hd, h5, h6, h7, Bool.not_true, Bool.false_eq_true, if_false, ne_eq,
    not_true_eq_false, or_self, reduceCtorEq, Nat.not_lt.mpr h8]

theorem mbx_taken {s t : State} {code : Nat} {q : MbxReq} {mine : Nat → Bool} {f : MbxReq → State → State}
    (h : Taken s code q t) (hm : mine code = true) : mbxMessage 0 mine f s = goesOn (f q t) := by
  obtain ⟨hk, h1, h2, h3, h6, rfl, rfl⟩ := h
  have hq : (s.mbxRequest 0).msg = code := h2
  have hn : (s.inst 0).matched.isNone = false := by cases h : (s.inst 0).matched <;> simp_all
  simp only [mbxMessage, hk, h1, h2, hm, hn, hq, h6, goesOn, Bool.not_true, Bool.or_self, Bool.false_eq_true, if_false,
    ne_eq, not_true_eq_false]

theorem doe_taken {s : State} {q : DoeReq} {code : Nat} {random : Bool} {f : State → State} (h : DoeTaken s q code random) :
    act s (fun s => s.doe q code random f) = goesOn (f s) := by
  obtain ⟨hk, h1, h2, h3, h4, h5, h6, h7, h8⟩ := h
  rw [act_goesOn hk]
  have hv : ¬ (code ≠ 0x84 ∧ q.version ≠ 0x12 ∧ q.version ≠ 0x13) := by
    rcases h7 with h7 | h7 | h7 <;> simp [h7]
  have : (q.session.isSome && (s.doeSession q).isNone) = false := by
    rcases h6 with h6 | h6
    · simp [h6]
    · cases h : s.doeSession q <;> simp_all
  simp only [State.doe, h1, h2, h3, h5, this, Nat.not_lt.mpr h4, if_neg hv, Bool.not_true, Bool.false_eq_true, if_false,
    Option.isSome_none, Bool.or_self]
  cases random with
  | false => rfl
  | true => simp only [State.doeDraw, h8 rfl, if_true, if_false]

end Sys2Proof
end

