-- ==== Sys2Proof/Laws/State.lean ====
section
/-!
SUPPORT. What each update of the state leaves alone, field by field, and what reads back after it.
-/

namespace Sys2Proof.Machine

/-! `emits` -/

@[simp] theorem State.emits_pending (s : State) (os) : (s.emits os).pending = s.pending := rfl
@[simp] theorem State.emits_freeCtr (s : State) (os) : (s.emits os).freeCtr = s.freeCtr := rfl
@[simp] theorem State.emits_cc (s : State) (os) : (s.emits os).cc = s.cc := rfl
@[simp] theorem State.emits_ticks (s : State) (os) : (s.emits os).ticks = s.ticks := rfl
@[simp] theorem State.emits_regs (s : State) (os) : (s.emits os).regs = s.regs := rfl
@[simp] theorem State.emits_comb (s : State) (os) : (s.emits os).comb = s.comb := rfl
@[simp] theorem State.emits_agents (s : State) (os) : (s.emits os).agents = s.agents := rfl
@[simp] theorem State.emits_sched (s : State) (os) : (s.emits os).sched = s.sched := rfl
@[simp] theorem State.emits_comp (s : State) (os) : (s.emits os).comp = s.comp := rfl
@[simp] theorem State.emits_reqs (s : State) (os) : (s.emits os).reqs = s.reqs := rfl
@[simp] theorem State.emits_pager (s : State) (os) : (s.emits os).pager = s.pager := rfl
@[simp] theorem State.emits_sampler (s : State) (os) : (s.emits os).sampler = s.sampler := rfl
@[simp] theorem State.emits_tb (s : State) (os) : (s.emits os).tb = s.tb := rfl
@[simp] theorem State.emits_cyc (s : State) (os) : (s.emits os).cyc = s.cyc := rfl
@[simp] theorem State.emits_forager (s : State) (os) : (s.emits os).forager = s.forager := rfl
@[simp] theorem State.emits_interp (s : State) (os) : (s.emits os).interp = s.interp := rfl
@[simp] theorem State.emits_atc (s : State) (os) : (s.emits os).atc = s.atc := rfl
@[simp] theorem State.emits_insts (s : State) (os) : (s.emits os).insts = s.insts := rfl
@[simp] theorem State.emits_fw (s : State) (os) : (s.emits os).fw = s.fw := rfl
@[simp] theorem State.emits_store (s : State) (os) : (s.emits os).store = s.store := rfl
@[simp] theorem State.emits_swarm (s : State) (os) : (s.emits os).swarm = s.swarm := rfl
@[simp] theorem State.emits_cap (s : State) (os) : (s.emits os).cap = s.cap := rfl
@[simp] theorem State.emits_health (s : State) (os) : (s.emits os).health = s.health := rfl
@[simp] theorem State.emits_fences (s : State) (os) : (s.emits os).fences = s.fences := rfl
@[simp] theorem State.emits_hum (s : State) (os) : (s.emits os).hum = s.hum := rfl
@[simp] theorem State.emits_ic (s : State) (os) : (s.emits os).ic = s.ic := rfl
@[simp] theorem State.emits_guard (s : State) (os) : (s.emits os).guard = s.guard := rfl
@[simp] theorem State.emits_power (s : State) (os) : (s.emits os).power = s.power := rfl

/-! `setReg` -/

@[simp] theorem State.setReg_pending (s : State) (k) (v) : (s.setReg k v).pending = s.pending := rfl
@[simp] theorem State.setReg_out (s : State) (k) (v) : (s.setReg k v).out = s.out := rfl
@[simp] theorem State.setReg_freeCtr (s : State) (k) (v) : (s.setReg k v).freeCtr = s.freeCtr := rfl
@[simp] theorem State.setReg_cc (s : State) (k) (v) : (s.setReg k v).cc = s.cc := rfl
@[simp] theorem State.setReg_ticks (s : State) (k) (v) : (s.setReg k v).ticks = s.ticks := rfl
@[simp] theorem State.setReg_comb (s : State) (k) (v) : (s.setReg k v).comb = s.comb := rfl
@[simp] theorem State.setReg_agents (s : State) (k) (v) : (s.setReg k v).agents = s.agents := rfl
@[simp] theorem State.setReg_sched (s : State) (k) (v) : (s.setReg k v).sched = s.sched := rfl
@[simp] theorem State.setReg_comp (s : State) (k) (v) : (s.setReg k v).comp = s.comp := rfl
@[simp] theorem State.setReg_reqs (s : State) (k) (v) : (s.setReg k v).reqs = s.reqs := rfl
@[simp] theorem State.setReg_pager (s : State) (k) (v) : (s.setReg k v).pager = s.pager := rfl
@[simp] theorem State.setReg_sampler (s : State) (k) (v) : (s.setReg k v).sampler = s.sampler := rfl
@[simp] theorem State.setReg_tb (s : State) (k) (v) : (s.setReg k v).tb = s.tb := rfl
@[simp] theorem State.setReg_cyc (s : State) (k) (v) : (s.setReg k v).cyc = s.cyc := rfl
@[simp] theorem State.setReg_forager (s : State) (k) (v) : (s.setReg k v).forager = s.forager := rfl
@[simp] theorem State.setReg_interp (s : State) (k) (v) : (s.setReg k v).interp = s.interp := rfl
@[simp] theorem State.setReg_atc (s : State) (k) (v) : (s.setReg k v).atc = s.atc := rfl
@[simp] theorem State.setReg_insts (s : State) (k) (v) : (s.setReg k v).insts = s.insts := rfl
@[simp] theorem State.setReg_fw (s : State) (k) (v) : (s.setReg k v).fw = s.fw := rfl
@[simp] theorem State.setReg_store (s : State) (k) (v) : (s.setReg k v).store = s.store := rfl
@[simp] theorem State.setReg_swarm (s : State) (k) (v) : (s.setReg k v).swarm = s.swarm := rfl
@[simp] theorem State.setReg_cap (s : State) (k) (v) : (s.setReg k v).cap = s.cap := rfl
@[simp] theorem State.setReg_health (s : State) (k) (v) : (s.setReg k v).health = s.health := rfl
@[simp] theorem State.setReg_fences (s : State) (k) (v) : (s.setReg k v).fences = s.fences := rfl
@[simp] theorem State.setReg_hum (s : State) (k) (v) : (s.setReg k v).hum = s.hum := rfl
@[simp] theorem State.setReg_ic (s : State) (k) (v) : (s.setReg k v).ic = s.ic := rfl
@[simp] theorem State.setReg_guard (s : State) (k) (v) : (s.setReg k v).guard = s.guard := rfl
@[simp] theorem State.setReg_power (s : State) (k) (v) : (s.setReg k v).power = s.power := rfl

/-! `setInst` -/

@[simp] theorem State.setInst_pending (s : State) (i) (v) : (s.setInst i v).pending = s.pending := rfl
@[simp] theorem State.setInst_out (s : State) (i) (v) : (s.setInst i v).out = s.out := rfl
@[simp] theorem State.setInst_freeCtr (s : State) (i) (v) : (s.setInst i v).freeCtr = s.freeCtr := rfl
@[simp] theorem State.setInst_cc (s : State) (i) (v) : (s.setInst i v).cc = s.cc := rfl
@[simp] theorem State.setInst_ticks (s : State) (i) (v) : (s.setInst i v).ticks = s.ticks := rfl
@[simp] theorem State.setInst_regs (s : State) (i) (v) : (s.setInst i v).regs = s.regs := rfl
@[simp] theorem State.setInst_comb (s : State) (i) (v) : (s.setInst i v).comb = s.comb := rfl
@[simp] theorem State.setInst_agents (s : State) (i) (v) : (s.setInst i v).agents = s.agents := rfl
@[simp] theorem State.setInst_sched (s : State) (i) (v) : (s.setInst i v).sched = s.sched := rfl
@[simp] theorem State.setInst_comp (s : State) (i) (v) : (s.setInst i v).comp = s.comp := rfl
@[simp] theorem State.setInst_reqs (s : State) (i) (v) : (s.setInst i v).reqs = s.reqs := rfl
@[simp] theorem State.setInst_pager (s : State) (i) (v) : (s.setInst i v).pager = s.pager := rfl
@[simp] theorem State.setInst_sampler (s : State) (i) (v) : (s.setInst i v).sampler = s.sampler := rfl
@[simp] theorem State.setInst_tb (s : State) (i) (v) : (s.setInst i v).tb = s.tb := rfl
@[simp] theorem State.setInst_cyc (s : State) (i) (v) : (s.setInst i v).cyc = s.cyc := rfl
@[simp] theorem State.setInst_forager (s : State) (i) (v) : (s.setInst i v).forager = s.forager := rfl
@[simp] theorem State.setInst_interp (s : State) (i) (v) : (s.setInst i v).interp = s.interp := rfl
@[simp] theorem State.setInst_atc (s : State) (i) (v) : (s.setInst i v).atc = s.atc := rfl
@[simp] theorem State.setInst_fw (s : State) (i) (v) : (s.setInst i v).fw = s.fw := rfl
@[simp] theorem State.setInst_store (s : State) (i) (v) : (s.setInst i v).store = s.store := rfl
@[simp] theorem State.setInst_swarm (s : State) (i) (v) : (s.setInst i v).swarm = s.swarm := rfl
@[simp] theorem State.setInst_cap (s : State) (i) (v) : (s.setInst i v).cap = s.cap := rfl
@[simp] theorem State.setInst_health (s : State) (i) (v) : (s.setInst i v).health = s.health := rfl
@[simp] theorem State.setInst_fences (s : State) (i) (v) : (s.setInst i v).fences = s.fences := rfl
@[simp] theorem State.setInst_hum (s : State) (i) (v) : (s.setInst i v).hum = s.hum := rfl
@[simp] theorem State.setInst_ic (s : State) (i) (v) : (s.setInst i v).ic = s.ic := rfl
@[simp] theorem State.setInst_guard (s : State) (i) (v) : (s.setInst i v).guard = s.guard := rfl
@[simp] theorem State.setInst_power (s : State) (i) (v) : (s.setInst i v).power = s.power := rfl

/-! `emit` -/

@[simp] theorem State.emit_pending (s : State) (o) : (s.emit o).pending = s.pending := rfl
@[simp] theorem State.emit_freeCtr (s : State) (o) : (s.emit o).freeCtr = s.freeCtr := rfl
@[simp] theorem State.emit_cc (s : State) (o) : (s.emit o).cc = s.cc := rfl
@[simp] theorem State.emit_ticks (s : State) (o) : (s.emit o).ticks = s.ticks := rfl
@[simp] theorem State.emit_regs (s : State) (o) : (s.emit o).regs = s.regs := rfl
@[simp] theorem State.emit_comb (s : State) (o) : (s.emit o).comb = s.comb := rfl
@[simp] theorem State.emit_agents (s : State) (o) : (s.emit o).agents = s.agents := rfl
@[simp] theorem State.emit_sched (s : State) (o) : (s.emit o).sched = s.sched := rfl
@[simp] theorem State.emit_comp (s : State) (o) : (s.emit o).comp = s.comp := rfl
@[simp] theorem State.emit_reqs (s : State) (o) : (s.emit o).reqs = s.reqs := rfl
@[simp] theorem State.emit_pager (s : State) (o) : (s.emit o).pager = s.pager := rfl
@[simp] theorem State.emit_sampler (s : State) (o) : (s.emit o).sampler = s.sampler := rfl
@[simp] theorem State.emit_tb (s : State) (o) : (s.emit o).tb = s.tb := rfl
@[simp] theorem State.emit_cyc (s : State) (o) : (s.emit o).cyc = s.cyc := rfl
@[simp] theorem State.emit_forager (s : State) (o) : (s.emit o).forager = s.forager := rfl
@[simp] theorem State.emit_interp (s : State) (o) : (s.emit o).interp = s.interp := rfl
@[simp] theorem State.emit_atc (s : State) (o) : (s.emit o).atc = s.atc := rfl
@[simp] theorem State.emit_insts (s : State) (o) : (s.emit o).insts = s.insts := rfl
@[simp] theorem State.emit_fw (s : State) (o) : (s.emit o).fw = s.fw := rfl
@[simp] theorem State.emit_store (s : State) (o) : (s.emit o).store = s.store := rfl
@[simp] theorem State.emit_swarm (s : State) (o) : (s.emit o).swarm = s.swarm := rfl
@[simp] theorem State.emit_cap (s : State) (o) : (s.emit o).cap = s.cap := rfl
@[simp] theorem State.emit_health (s : State) (o) : (s.emit o).health = s.health := rfl
@[simp] theorem State.emit_fences (s : State) (o) : (s.emit o).fences = s.fences := rfl
@[simp] theorem State.emit_hum (s : State) (o) : (s.emit o).hum = s.hum := rfl
@[simp] theorem State.emit_ic (s : State) (o) : (s.emit o).ic = s.ic := rfl
@[simp] theorem State.emit_guard (s : State) (o) : (s.emit o).guard = s.guard := rfl
@[simp] theorem State.emit_power (s : State) (o) : (s.emit o).power = s.power := rfl

/-! `setIrq` -/

@[simp] theorem State.setIrq_pending (s : State) (n) (x) : (s.setIrq n x).pending = s.pending := rfl
@[simp] theorem State.setIrq_out (s : State) (n) (x) : (s.setIrq n x).out = s.out := rfl
@[simp] theorem State.setIrq_freeCtr (s : State) (n) (x) : (s.setIrq n x).freeCtr = s.freeCtr := rfl
@[simp] theorem State.setIrq_cc (s : State) (n) (x) : (s.setIrq n x).cc = s.cc := rfl
@[simp] theorem State.setIrq_ticks (s : State) (n) (x) : (s.setIrq n x).ticks = s.ticks := rfl
@[simp] theorem State.setIrq_regs (s : State) (n) (x) : (s.setIrq n x).regs = s.regs := rfl
@[simp] theorem State.setIrq_comb (s : State) (n) (x) : (s.setIrq n x).comb = s.comb := rfl
@[simp] theorem State.setIrq_agents (s : State) (n) (x) : (s.setIrq n x).agents = s.agents := rfl
@[simp] theorem State.setIrq_sched (s : State) (n) (x) : (s.setIrq n x).sched = s.sched := rfl
@[simp] theorem State.setIrq_comp (s : State) (n) (x) : (s.setIrq n x).comp = s.comp := rfl
@[simp] theorem State.setIrq_reqs (s : State) (n) (x) : (s.setIrq n x).reqs = s.reqs := rfl
@[simp] theorem State.setIrq_pager (s : State) (n) (x) : (s.setIrq n x).pager = s.pager := rfl
@[simp] theorem State.setIrq_sampler (s : State) (n) (x) : (s.setIrq n x).sampler = s.sampler := rfl
@[simp] theorem State.setIrq_tb (s : State) (n) (x) : (s.setIrq n x).tb = s.tb := rfl
@[simp] theorem State.setIrq_cyc (s : State) (n) (x) : (s.setIrq n x).cyc = s.cyc := rfl
@[simp] theorem State.setIrq_forager (s : State) (n) (x) : (s.setIrq n x).forager = s.forager := rfl
@[simp] theorem State.setIrq_interp (s : State) (n) (x) : (s.setIrq n x).interp = s.interp := rfl
@[simp] theorem State.setIrq_atc (s : State) (n) (x) : (s.setIrq n x).atc = s.atc := rfl
@[simp] theorem State.setIrq_insts (s : State) (n) (x) : (s.setIrq n x).insts = s.insts := rfl
@[simp] theorem State.setIrq_fw (s : State) (n) (x) : (s.setIrq n x).fw = s.fw := rfl
@[simp] theorem State.setIrq_store (s : State) (n) (x) : (s.setIrq n x).store = s.store := rfl
@[simp] theorem State.setIrq_swarm (s : State) (n) (x) : (s.setIrq n x).swarm = s.swarm := rfl
@[simp] theorem State.setIrq_cap (s : State) (n) (x) : (s.setIrq n x).cap = s.cap := rfl
@[simp] theorem State.setIrq_health (s : State) (n) (x) : (s.setIrq n x).health = s.health := rfl
@[simp] theorem State.setIrq_fences (s : State) (n) (x) : (s.setIrq n x).fences = s.fences := rfl
@[simp] theorem State.setIrq_hum (s : State) (n) (x) : (s.setIrq n x).hum = s.hum := rfl
@[simp] theorem State.setIrq_guard (s : State) (n) (x) : (s.setIrq n x).guard = s.guard := rfl
@[simp] theorem State.setIrq_power (s : State) (n) (x) : (s.setIrq n x).power = s.power := rfl

/-! `setTarget` -/

@[simp] theorem State.setTarget_pending (s : State) (cls) (index) (t) : (s.setTarget cls index t).pending = s.pending := rfl
@[simp] theorem State.setTarget_out (s : State) (cls) (index) (t) : (s.setTarget cls index t).out = s.out := rfl
@[simp] theorem State.setTarget_freeCtr (s : State) (cls) (index) (t) : (s.setTarget cls index t).freeCtr = s.freeCtr := rfl
@[simp] theorem State.setTarget_cc (s : State) (cls) (index) (t) : (s.setTarget cls index t).cc = s.cc := rfl
@[simp] theorem State.setTarget_ticks (s : State) (cls) (index) (t) : (s.setTarget cls index t).ticks = s.ticks := rfl
@[simp] theorem State.setTarget_regs (s : State) (cls) (index) (t) : (s.setTarget cls index t).regs = s.regs := rfl
@[simp] theorem State.setTarget_comb (s : State) (cls) (index) (t) : (s.setTarget cls index t).comb = s.comb := rfl
@[simp] theorem State.setTarget_agents (s : State) (cls) (index) (t) : (s.setTarget cls index t).agents = s.agents := rfl
@[simp] theorem State.setTarget_sched (s : State) (cls) (index) (t) : (s.setTarget cls index t).sched = s.sched := rfl
@[simp] theorem State.setTarget_comp (s : State) (cls) (index) (t) : (s.setTarget cls index t).comp = s.comp := rfl
@[simp] theorem State.setTarget_reqs (s : State) (cls) (index) (t) : (s.setTarget cls index t).reqs = s.reqs := rfl
@[simp] theorem State.setTarget_pager (s : State) (cls) (index) (t) : (s.setTarget cls index t).pager = s.pager := rfl
@[simp] theorem State.setTarget_sampler (s : State) (cls) (index) (t) : (s.setTarget cls index t).sampler = s.sampler := rfl
@[simp] theorem State.setTarget_tb (s : State) (cls) (index) (t) : (s.setTarget cls index t).tb = s.tb := rfl
@[simp] theorem State.setTarget_cyc (s : State) (cls) (index) (t) : (s.setTarget cls index t).cyc = s.cyc := rfl
@[simp] theorem State.setTarget_forager (s : State) (cls) (index) (t) : (s.setTarget cls index t).forager = s.forager := rfl
@[simp] theorem State.setTarget_interp (s : State) (cls) (index) (t) : (s.setTarget cls index t).interp = s.interp := rfl
@[simp] theorem State.setTarget_atc (s : State) (cls) (index) (t) : (s.setTarget cls index t).atc = s.atc := rfl
@[simp] theorem State.setTarget_insts (s : State) (cls) (index) (t) : (s.setTarget cls index t).insts = s.insts := rfl
@[simp] theorem State.setTarget_fw (s : State) (cls) (index) (t) : (s.setTarget cls index t).fw = s.fw := rfl
@[simp] theorem State.setTarget_store (s : State) (cls) (index) (t) : (s.setTarget cls index t).store = s.store := rfl
@[simp] theorem State.setTarget_swarm (s : State) (cls) (index) (t) : (s.setTarget cls index t).swarm = s.swarm := rfl
@[simp] theorem State.setTarget_cap (s : State) (cls) (index) (t) : (s.setTarget cls index t).cap = s.cap := rfl
@[simp] theorem State.setTarget_health (s : State) (cls) (index) (t) : (s.setTarget cls index t).health = s.health := rfl
@[simp] theorem State.setTarget_hum (s : State) (cls) (index) (t) : (s.setTarget cls index t).hum = s.hum := rfl
@[simp] theorem State.setTarget_ic (s : State) (cls) (index) (t) : (s.setTarget cls index t).ic = s.ic := rfl
@[simp] theorem State.setTarget_guard (s : State) (cls) (index) (t) : (s.setTarget cls index t).guard = s.guard := rfl
@[simp] theorem State.setTarget_power (s : State) (cls) (index) (t) : (s.setTarget cls index t).power = s.power := rfl

/-! `setAgent` -/

@[simp] theorem State.setAgent_pending (s : State) (a) (x) : (s.setAgent a x).pending = s.pending := rfl
@[simp] theorem State.setAgent_out (s : State) (a) (x) : (s.setAgent a x).out = s.out := rfl
@[simp] theorem State.setAgent_freeCtr (s : State) (a) (x) : (s.setAgent a x).freeCtr = s.freeCtr := rfl
@[simp] theorem State.setAgent_cc (s : State) (a) (x) : (s.setAgent a x).cc = s.cc := rfl
@[simp] theorem State.setAgent_ticks (s : State) (a) (x) : (s.setAgent a x).ticks = s.ticks := rfl
@[simp] theorem State.setAgent_regs (s : State) (a) (x) : (s.setAgent a x).regs = s.regs := rfl
@[simp] theorem State.setAgent_comb (s : State) (a) (x) : (s.setAgent a x).comb = s.comb := rfl
@[simp] theorem State.setAgent_sched (s : State) (a) (x) : (s.setAgent a x).sched = s.sched := rfl
@[simp] theorem State.setAgent_comp (s : State) (a) (x) : (s.setAgent a x).comp = s.comp := rfl
@[simp] theorem State.setAgent_reqs (s : State) (a) (x) : (s.setAgent a x).reqs = s.reqs := rfl
@[simp] theorem State.setAgent_pager (s : State) (a) (x) : (s.setAgent a x).pager = s.pager := rfl
@[simp] theorem State.setAgent_sampler (s : State) (a) (x) : (s.setAgent a x).sampler = s.sampler := rfl
@[simp] theorem State.setAgent_tb (s : State) (a) (x) : (s.setAgent a x).tb = s.tb := rfl
@[simp] theorem State.setAgent_cyc (s : State) (a) (x) : (s.setAgent a x).cyc = s.cyc := rfl
@[simp] theorem State.setAgent_forager (s : State) (a) (x) : (s.setAgent a x).forager = s.forager := rfl
@[simp] theorem State.setAgent_interp (s : State) (a) (x) : (s.setAgent a x).interp = s.interp := rfl
@[simp] theorem State.setAgent_atc (s : State) (a) (x) : (s.setAgent a x).atc = s.atc := rfl
@[simp] theorem State.setAgent_insts (s : State) (a) (x) : (s.setAgent a x).insts = s.insts := rfl
@[simp] theorem State.setAgent_fw (s : State) (a) (x) : (s.setAgent a x).fw = s.fw := rfl
@[simp] theorem State.setAgent_store (s : State) (a) (x) : (s.setAgent a x).store = s.store := rfl
@[simp] theorem State.setAgent_swarm (s : State) (a) (x) : (s.setAgent a x).swarm = s.swarm := rfl
@[simp] theorem State.setAgent_cap (s : State) (a) (x) : (s.setAgent a x).cap = s.cap := rfl
@[simp] theorem State.setAgent_health (s : State) (a) (x) : (s.setAgent a x).health = s.health := rfl
@[simp] theorem State.setAgent_fences (s : State) (a) (x) : (s.setAgent a x).fences = s.fences := rfl
@[simp] theorem State.setAgent_hum (s : State) (a) (x) : (s.setAgent a x).hum = s.hum := rfl
@[simp] theorem State.setAgent_ic (s : State) (a) (x) : (s.setAgent a x).ic = s.ic := rfl
@[simp] theorem State.setAgent_guard (s : State) (a) (x) : (s.setAgent a x).guard = s.guard := rfl
@[simp] theorem State.setAgent_power (s : State) (a) (x) : (s.setAgent a x).power = s.power := rfl

/-! `modPart` -/

@[simp] theorem State.modPart_pending (s : State) (p) (f) : (s.modPart p f).pending = s.pending := rfl
@[simp] theorem State.modPart_out (s : State) (p) (f) : (s.modPart p f).out = s.out := rfl
@[simp] theorem State.modPart_freeCtr (s : State) (p) (f) : (s.modPart p f).freeCtr = s.freeCtr := rfl
@[simp] theorem State.modPart_cc (s : State) (p) (f) : (s.modPart p f).cc = s.cc := rfl
@[simp] theorem State.modPart_ticks (s : State) (p) (f) : (s.modPart p f).ticks = s.ticks := rfl
@[simp] theorem State.modPart_regs (s : State) (p) (f) : (s.modPart p f).regs = s.regs := rfl
@[simp] theorem State.modPart_comb (s : State) (p) (f) : (s.modPart p f).comb = s.comb := rfl
@[simp] theorem State.modPart_agents (s : State) (p) (f) : (s.modPart p f).agents = s.agents := rfl
@[simp] theorem State.modPart_comp (s : State) (p) (f) : (s.modPart p f).comp = s.comp := rfl
@[simp] theorem State.modPart_reqs (s : State) (p) (f) : (s.modPart p f).reqs = s.reqs := rfl
@[simp] theorem State.modPart_pager (s : State) (p) (f) : (s.modPart p f).pager = s.pager := rfl
@[simp] theorem State.modPart_sampler (s : State) (p) (f) : (s.modPart p f).sampler = s.sampler := rfl
@[simp] theorem State.modPart_tb (s : State) (p) (f) : (s.modPart p f).tb = s.tb := rfl
@[simp] theorem State.modPart_cyc (s : State) (p) (f) : (s.modPart p f).cyc = s.cyc := rfl
@[simp] theorem State.modPart_forager (s : State) (p) (f) : (s.modPart p f).forager = s.forager := rfl
@[simp] theorem State.modPart_interp (s : State) (p) (f) : (s.modPart p f).interp = s.interp := rfl
@[simp] theorem State.modPart_atc (s : State) (p) (f) : (s.modPart p f).atc = s.atc := rfl
@[simp] theorem State.modPart_insts (s : State) (p) (f) : (s.modPart p f).insts = s.insts := rfl
@[simp] theorem State.modPart_fw (s : State) (p) (f) : (s.modPart p f).fw = s.fw := rfl
@[simp] theorem State.modPart_store (s : State) (p) (f) : (s.modPart p f).store = s.store := rfl
@[simp] theorem State.modPart_swarm (s : State) (p) (f) : (s.modPart p f).swarm = s.swarm := rfl
@[simp] theorem State.modPart_cap (s : State) (p) (f) : (s.modPart p f).cap = s.cap := rfl
@[simp] theorem State.modPart_health (s : State) (p) (f) : (s.modPart p f).health = s.health := rfl
@[simp] theorem State.modPart_fences (s : State) (p) (f) : (s.modPart p f).fences = s.fences := rfl
@[simp] theorem State.modPart_hum (s : State) (p) (f) : (s.modPart p f).hum = s.hum := rfl
@[simp] theorem State.modPart_ic (s : State) (p) (f) : (s.modPart p f).ic = s.ic := rfl
@[simp] theorem State.modPart_guard (s : State) (p) (f) : (s.modPart p f).guard = s.guard := rfl
@[simp] theorem State.modPart_power (s : State) (p) (f) : (s.modPart p f).power = s.power := rfl

/-! `setCtx` -/

@[simp] theorem State.setCtx_pending (s : State) (c) (x) : (s.setCtx c x).pending = s.pending := rfl
@[simp] theorem State.setCtx_out (s : State) (c) (x) : (s.setCtx c x).out = s.out := rfl
@[simp] theorem State.setCtx_freeCtr (s : State) (c) (x) : (s.setCtx c x).freeCtr = s.freeCtr := rfl
@[simp] theorem State.setCtx_cc (s : State) (c) (x) : (s.setCtx c x).cc = s.cc := rfl
@[simp] theorem State.setCtx_ticks (s : State) (c) (x) : (s.setCtx c x).ticks = s.ticks := rfl
@[simp] theorem State.setCtx_regs (s : State) (c) (x) : (s.setCtx c x).regs = s.regs := rfl
@[simp] theorem State.setCtx_comb (s : State) (c) (x) : (s.setCtx c x).comb = s.comb := rfl
@[simp] theorem State.setCtx_agents (s : State) (c) (x) : (s.setCtx c x).agents = s.agents := rfl
@[simp] theorem State.setCtx_comp (s : State) (c) (x) : (s.setCtx c x).comp = s.comp := rfl
@[simp] theorem State.setCtx_reqs (s : State) (c) (x) : (s.setCtx c x).reqs = s.reqs := rfl
@[simp] theorem State.setCtx_pager (s : State) (c) (x) : (s.setCtx c x).pager = s.pager := rfl
@[simp] theorem State.setCtx_sampler (s : State) (c) (x) : (s.setCtx c x).sampler = s.sampler := rfl
@[simp] theorem State.setCtx_tb (s : State) (c) (x) : (s.setCtx c x).tb = s.tb := rfl
@[simp] theorem State.setCtx_cyc (s : State) (c) (x) : (s.setCtx c x).cyc = s.cyc := rfl
@[simp] theorem State.setCtx_forager (s : State) (c) (x) : (s.setCtx c x).forager = s.forager := rfl
@[simp] theorem State.setCtx_interp (s : State) (c) (x) : (s.setCtx c x).interp = s.interp := rfl
@[simp] theorem State.setCtx_atc (s : State) (c) (x) : (s.setCtx c x).atc = s.atc := rfl
@[simp] theorem State.setCtx_insts (s : State) (c) (x) : (s.setCtx c x).insts = s.insts := rfl
@[simp] theorem State.setCtx_fw (s : State) (c) (x) : (s.setCtx c x).fw = s.fw := rfl
@[simp] theorem State.setCtx_store (s : State) (c) (x) : (s.setCtx c x).store = s.store := rfl
@[simp] theorem State.setCtx_swarm (s : State) (c) (x) : (s.setCtx c x).swarm = s.swarm := rfl
@[simp] theorem State.setCtx_cap (s : State) (c) (x) : (s.setCtx c x).cap = s.cap := rfl
@[simp] theorem State.setCtx_health (s : State) (c) (x) : (s.setCtx c x).health = s.health := rfl
@[simp] theorem State.setCtx_fences (s : State) (c) (x) : (s.setCtx c x).fences = s.fences := rfl
@[simp] theorem State.setCtx_hum (s : State) (c) (x) : (s.setCtx c x).hum = s.hum := rfl
@[simp] theorem State.setCtx_ic (s : State) (c) (x) : (s.setCtx c x).ic = s.ic := rfl
@[simp] theorem State.setCtx_guard (s : State) (c) (x) : (s.setCtx c x).guard = s.guard := rfl
@[simp] theorem State.setCtx_power (s : State) (c) (x) : (s.setCtx c x).power = s.power := rfl

/-! `setMember` -/

@[simp] theorem State.setMember_pending (s : State) (m) (x) : (s.setMember m x).pending = s.pending := rfl
@[simp] theorem State.setMember_out (s : State) (m) (x) : (s.setMember m x).out = s.out := rfl
@[simp] theorem State.setMember_freeCtr (s : State) (m) (x) : (s.setMember m x).freeCtr = s.freeCtr := rfl
@[simp] theorem State.setMember_cc (s : State) (m) (x) : (s.setMember m x).cc = s.cc := rfl
@[simp] theorem State.setMember_ticks (s : State) (m) (x) : (s.setMember m x).ticks = s.ticks := rfl
@[simp] theorem State.setMember_regs (s : State) (m) (x) : (s.setMember m x).regs = s.regs := rfl
@[simp] theorem State.setMember_comb (s : State) (m) (x) : (s.setMember m x).comb = s.comb := rfl
@[simp] theorem State.setMember_agents (s : State) (m) (x) : (s.setMember m x).agents = s.agents := rfl
@[simp] theorem State.setMember_sched (s : State) (m) (x) : (s.setMember m x).sched = s.sched := rfl
@[simp] theorem State.setMember_comp (s : State) (m) (x) : (s.setMember m x).comp = s.comp := rfl
@[simp] theorem State.setMember_reqs (s : State) (m) (x) : (s.setMember m x).reqs = s.reqs := rfl
@[simp] theorem State.setMember_pager (s : State) (m) (x) : (s.setMember m x).pager = s.pager := rfl
@[simp] theorem State.setMember_sampler (s : State) (m) (x) : (s.setMember m x).sampler = s.sampler := rfl
@[simp] theorem State.setMember_tb (s : State) (m) (x) : (s.setMember m x).tb = s.tb := rfl
@[simp] theorem State.setMember_cyc (s : State) (m) (x) : (s.setMember m x).cyc = s.cyc := rfl
@[simp] theorem State.setMember_forager (s : State) (m) (x) : (s.setMember m x).forager = s.forager := rfl
@[simp] theorem State.setMember_interp (s : State) (m) (x) : (s.setMember m x).interp = s.interp := rfl
@[simp] theorem State.setMember_atc (s : State) (m) (x) : (s.setMember m x).atc = s.atc := rfl
@[simp] theorem State.setMember_insts (s : State) (m) (x) : (s.setMember m x).insts = s.insts := rfl
@[simp] theorem State.setMember_fw (s : State) (m) (x) : (s.setMember m x).fw = s.fw := rfl
@[simp] theorem State.setMember_store (s : State) (m) (x) : (s.setMember m x).store = s.store := rfl
@[simp] theorem State.setMember_cap (s : State) (m) (x) : (s.setMember m x).cap = s.cap := rfl
@[simp] theorem State.setMember_health (s : State) (m) (x) : (s.setMember m x).health = s.health := rfl
@[simp] theorem State.setMember_fences (s : State) (m) (x) : (s.setMember m x).fences = s.fences := rfl
@[simp] theorem State.setMember_hum (s : State) (m) (x) : (s.setMember m x).hum = s.hum := rfl
@[simp] theorem State.setMember_ic (s : State) (m) (x) : (s.setMember m x).ic = s.ic := rfl
@[simp] theorem State.setMember_guard (s : State) (m) (x) : (s.setMember m x).guard = s.guard := rfl
@[simp] theorem State.setMember_power (s : State) (m) (x) : (s.setMember m x).power = s.power := rfl

/-! `setRing` -/

@[simp] theorem State.setRing_pending (s : State) (r) (x) : (s.setRing r x).pending = s.pending := rfl
@[simp] theorem State.setRing_out (s : State) (r) (x) : (s.setRing r x).out = s.out := rfl
@[simp] theorem State.setRing_freeCtr (s : State) (r) (x) : (s.setRing r x).freeCtr = s.freeCtr := rfl
@[simp] theorem State.setRing_cc (s : State) (r) (x) : (s.setRing r x).cc = s.cc := rfl
@[simp] theorem State.setRing_ticks (s : State) (r) (x) : (s.setRing r x).ticks = s.ticks := rfl
@[simp] theorem State.setRing_regs (s : State) (r) (x) : (s.setRing r x).regs = s.regs := rfl
@[simp] theorem State.setRing_comb (s : State) (r) (x) : (s.setRing r x).comb = s.comb := rfl
@[simp] theorem State.setRing_agents (s : State) (r) (x) : (s.setRing r x).agents = s.agents := rfl
@[simp] theorem State.setRing_sched (s : State) (r) (x) : (s.setRing r x).sched = s.sched := rfl
@[simp] theorem State.setRing_comp (s : State) (r) (x) : (s.setRing r x).comp = s.comp := rfl
@[simp] theorem State.setRing_reqs (s : State) (r) (x) : (s.setRing r x).reqs = s.reqs := rfl
@[simp] theorem State.setRing_pager (s : State) (r) (x) : (s.setRing r x).pager = s.pager := rfl
@[simp] theorem State.setRing_sampler (s : State) (r) (x) : (s.setRing r x).sampler = s.sampler := rfl
@[simp] theorem State.setRing_tb (s : State) (r) (x) : (s.setRing r x).tb = s.tb := rfl
@[simp] theorem State.setRing_cyc (s : State) (r) (x) : (s.setRing r x).cyc = s.cyc := rfl
@[simp] theorem State.setRing_interp (s : State) (r) (x) : (s.setRing r x).interp = s.interp := rfl
@[simp] theorem State.setRing_atc (s : State) (r) (x) : (s.setRing r x).atc = s.atc := rfl
@[simp] theorem State.setRing_insts (s : State) (r) (x) : (s.setRing r x).insts = s.insts := rfl
@[simp] theorem State.setRing_fw (s : State) (r) (x) : (s.setRing r x).fw = s.fw := rfl
@[simp] theorem State.setRing_store (s : State) (r) (x) : (s.setRing r x).store = s.store := rfl
@[simp] theorem State.setRing_swarm (s : State) (r) (x) : (s.setRing r x).swarm = s.swarm := rfl
@[simp] theorem State.setRing_cap (s : State) (r) (x) : (s.setRing r x).cap = s.cap := rfl
@[simp] theorem State.setRing_health (s : State) (r) (x) : (s.setRing r x).health = s.health := rfl
@[simp] theorem State.setRing_fences (s : State) (r) (x) : (s.setRing r x).fences = s.fences := rfl
@[simp] theorem State.setRing_hum (s : State) (r) (x) : (s.setRing r x).hum = s.hum := rfl
@[simp] theorem State.setRing_ic (s : State) (r) (x) : (s.setRing r x).ic = s.ic := rfl
@[simp] theorem State.setRing_guard (s : State) (r) (x) : (s.setRing r x).guard = s.guard := rfl
@[simp] theorem State.setRing_power (s : State) (r) (x) : (s.setRing r x).power = s.power := rfl

/-! `modOp` -/

@[simp] theorem State.modOp_pending (s : State) (o) (f) : (s.modOp o f).pending = s.pending := rfl
@[simp] theorem State.modOp_out (s : State) (o) (f) : (s.modOp o f).out = s.out := rfl
@[simp] theorem State.modOp_freeCtr (s : State) (o) (f) : (s.modOp o f).freeCtr = s.freeCtr := rfl
@[simp] theorem State.modOp_cc (s : State) (o) (f) : (s.modOp o f).cc = s.cc := rfl
@[simp] theorem State.modOp_ticks (s : State) (o) (f) : (s.modOp o f).ticks = s.ticks := rfl
@[simp] theorem State.modOp_regs (s : State) (o) (f) : (s.modOp o f).regs = s.regs := rfl
@[simp] theorem State.modOp_comb (s : State) (o) (f) : (s.modOp o f).comb = s.comb := rfl
@[simp] theorem State.modOp_agents (s : State) (o) (f) : (s.modOp o f).agents = s.agents := rfl
@[simp] theorem State.modOp_sched (s : State) (o) (f) : (s.modOp o f).sched = s.sched := rfl
@[simp] theorem State.modOp_comp (s : State) (o) (f) : (s.modOp o f).comp = s.comp := rfl
@[simp] theorem State.modOp_reqs (s : State) (o) (f) : (s.modOp o f).reqs = s.reqs := rfl
@[simp] theorem State.modOp_pager (s : State) (o) (f) : (s.modOp o f).pager = s.pager := rfl
@[simp] theorem State.modOp_sampler (s : State) (o) (f) : (s.modOp o f).sampler = s.sampler := rfl
@[simp] theorem State.modOp_tb (s : State) (o) (f) : (s.modOp o f).tb = s.tb := rfl
@[simp] theorem State.modOp_cyc (s : State) (o) (f) : (s.modOp o f).cyc = s.cyc := rfl
@[simp] theorem State.modOp_forager (s : State) (o) (f) : (s.modOp o f).forager = s.forager := rfl
@[simp] theorem State.modOp_atc (s : State) (o) (f) : (s.modOp o f).atc = s.atc := rfl
@[simp] theorem State.modOp_insts (s : State) (o) (f) : (s.modOp o f).insts = s.insts := rfl
@[simp] theorem State.modOp_fw (s : State) (o) (f) : (s.modOp o f).fw = s.fw := rfl
@[simp] theorem State.modOp_store (s : State) (o) (f) : (s.modOp o f).store = s.store := rfl
@[simp] theorem State.modOp_swarm (s : State) (o) (f) : (s.modOp o f).swarm = s.swarm := rfl
@[simp] theorem State.modOp_cap (s : State) (o) (f) : (s.modOp o f).cap = s.cap := rfl
@[simp] theorem State.modOp_health (s : State) (o) (f) : (s.modOp o f).health = s.health := rfl
@[simp] theorem State.modOp_fences (s : State) (o) (f) : (s.modOp o f).fences = s.fences := rfl
@[simp] theorem State.modOp_hum (s : State) (o) (f) : (s.modOp o f).hum = s.hum := rfl
@[simp] theorem State.modOp_ic (s : State) (o) (f) : (s.modOp o f).ic = s.ic := rfl
@[simp] theorem State.modOp_guard (s : State) (o) (f) : (s.modOp o f).guard = s.guard := rfl
@[simp] theorem State.modOp_power (s : State) (o) (f) : (s.modOp o f).power = s.power := rfl

/-! `setPool` -/

@[simp] theorem State.setPool_pending (s : State) (k) (x) : (s.setPool k x).pending = s.pending := rfl
@[simp] theorem State.setPool_out (s : State) (k) (x) : (s.setPool k x).out = s.out := rfl
@[simp] theorem State.setPool_freeCtr (s : State) (k) (x) : (s.setPool k x).freeCtr = s.freeCtr := rfl
@[simp] theorem State.setPool_cc (s : State) (k) (x) : (s.setPool k x).cc = s.cc := rfl
@[simp] theorem State.setPool_ticks (s : State) (k) (x) : (s.setPool k x).ticks = s.ticks := rfl
@[simp] theorem State.setPool_regs (s : State) (k) (x) : (s.setPool k x).regs = s.regs := rfl
@[simp] theorem State.setPool_comb (s : State) (k) (x) : (s.setPool k x).comb = s.comb := rfl
@[simp] theorem State.setPool_agents (s : State) (k) (x) : (s.setPool k x).agents = s.agents := rfl
@[simp] theorem State.setPool_sched (s : State) (k) (x) : (s.setPool k x).sched = s.sched := rfl
@[simp] theorem State.setPool_comp (s : State) (k) (x) : (s.setPool k x).comp = s.comp := rfl
@[simp] theorem State.setPool_reqs (s : State) (k) (x) : (s.setPool k x).reqs = s.reqs := rfl
@[simp] theorem State.setPool_sampler (s : State) (k) (x) : (s.setPool k x).sampler = s.sampler := rfl
@[simp] theorem State.setPool_tb (s : State) (k) (x) : (s.setPool k x).tb = s.tb := rfl
@[simp] theorem State.setPool_cyc (s : State) (k) (x) : (s.setPool k x).cyc = s.cyc := rfl
@[simp] theorem State.setPool_forager (s : State) (k) (x) : (s.setPool k x).forager = s.forager := rfl
@[simp] theorem State.setPool_interp (s : State) (k) (x) : (s.setPool k x).interp = s.interp := rfl
@[simp] theorem State.setPool_atc (s : State) (k) (x) : (s.setPool k x).atc = s.atc := rfl
@[simp] theorem State.setPool_insts (s : State) (k) (x) : (s.setPool k x).insts = s.insts := rfl
@[simp] theorem State.setPool_fw (s : State) (k) (x) : (s.setPool k x).fw = s.fw := rfl
@[simp] theorem State.setPool_store (s : State) (k) (x) : (s.setPool k x).store = s.store := rfl
@[simp] theorem State.setPool_swarm (s : State) (k) (x) : (s.setPool k x).swarm = s.swarm := rfl
@[simp] theorem State.setPool_cap (s : State) (k) (x) : (s.setPool k x).cap = s.cap := rfl
@[simp] theorem State.setPool_health (s : State) (k) (x) : (s.setPool k x).health = s.health := rfl
@[simp] theorem State.setPool_fences (s : State) (k) (x) : (s.setPool k x).fences = s.fences := rfl
@[simp] theorem State.setPool_hum (s : State) (k) (x) : (s.setPool k x).hum = s.hum := rfl
@[simp] theorem State.setPool_ic (s : State) (k) (x) : (s.setPool k x).ic = s.ic := rfl
@[simp] theorem State.setPool_guard (s : State) (k) (x) : (s.setPool k x).guard = s.guard := rfl
@[simp] theorem State.setPool_power (s : State) (k) (x) : (s.setPool k x).power = s.power := rfl

/-! `modCap` -/

@[simp] theorem State.modCap_pending (s : State) (c) (f) : (s.modCap c f).pending = s.pending := rfl
@[simp] theorem State.modCap_out (s : State) (c) (f) : (s.modCap c f).out = s.out := rfl
@[simp] theorem State.modCap_freeCtr (s : State) (c) (f) : (s.modCap c f).freeCtr = s.freeCtr := rfl
@[simp] theorem State.modCap_cc (s : State) (c) (f) : (s.modCap c f).cc = s.cc := rfl
@[simp] theorem State.modCap_ticks (s : State) (c) (f) : (s.modCap c f).ticks = s.ticks := rfl
@[simp] theorem State.modCap_regs (s : State) (c) (f) : (s.modCap c f).regs = s.regs := rfl
@[simp] theorem State.modCap_comb (s : State) (c) (f) : (s.modCap c f).comb = s.comb := rfl
@[simp] theorem State.modCap_agents (s : State) (c) (f) : (s.modCap c f).agents = s.agents := rfl
@[simp] theorem State.modCap_sched (s : State) (c) (f) : (s.modCap c f).sched = s.sched := rfl
@[simp] theorem State.modCap_comp (s : State) (c) (f) : (s.modCap c f).comp = s.comp := rfl
@[simp] theorem State.modCap_reqs (s : State) (c) (f) : (s.modCap c f).reqs = s.reqs := rfl
@[simp] theorem State.modCap_pager (s : State) (c) (f) : (s.modCap c f).pager = s.pager := rfl
@[simp] theorem State.modCap_sampler (s : State) (c) (f) : (s.modCap c f).sampler = s.sampler := rfl
@[simp] theorem State.modCap_tb (s : State) (c) (f) : (s.modCap c f).tb = s.tb := rfl
@[simp] theorem State.modCap_cyc (s : State) (c) (f) : (s.modCap c f).cyc = s.cyc := rfl
@[simp] theorem State.modCap_forager (s : State) (c) (f) : (s.modCap c f).forager = s.forager := rfl
@[simp] theorem State.modCap_interp (s : State) (c) (f) : (s.modCap c f).interp = s.interp := rfl
@[simp] theorem State.modCap_atc (s : State) (c) (f) : (s.modCap c f).atc = s.atc := rfl
@[simp] theorem State.modCap_insts (s : State) (c) (f) : (s.modCap c f).insts = s.insts := rfl
@[simp] theorem State.modCap_fw (s : State) (c) (f) : (s.modCap c f).fw = s.fw := rfl
@[simp] theorem State.modCap_store (s : State) (c) (f) : (s.modCap c f).store = s.store := rfl
@[simp] theorem State.modCap_swarm (s : State) (c) (f) : (s.modCap c f).swarm = s.swarm := rfl
@[simp] theorem State.modCap_health (s : State) (c) (f) : (s.modCap c f).health = s.health := rfl
@[simp] theorem State.modCap_fences (s : State) (c) (f) : (s.modCap c f).fences = s.fences := rfl
@[simp] theorem State.modCap_hum (s : State) (c) (f) : (s.modCap c f).hum = s.hum := rfl
@[simp] theorem State.modCap_ic (s : State) (c) (f) : (s.modCap c f).ic = s.ic := rfl
@[simp] theorem State.modCap_guard (s : State) (c) (f) : (s.modCap c f).guard = s.guard := rfl
@[simp] theorem State.modCap_power (s : State) (c) (f) : (s.modCap c f).power = s.power := rfl

/-! `setEntry` -/

@[simp] theorem State.setEntry_pending (s : State) (i) (e) : (s.setEntry i e).pending = s.pending := rfl
@[simp] theorem State.setEntry_out (s : State) (i) (e) : (s.setEntry i e).out = s.out := rfl
@[simp] theorem State.setEntry_freeCtr (s : State) (i) (e) : (s.setEntry i e).freeCtr = s.freeCtr := rfl
@[simp] theorem State.setEntry_cc (s : State) (i) (e) : (s.setEntry i e).cc = s.cc := rfl
@[simp] theorem State.setEntry_ticks (s : State) (i) (e) : (s.setEntry i e).ticks = s.ticks := rfl
@[simp] theorem State.setEntry_regs (s : State) (i) (e) : (s.setEntry i e).regs = s.regs := rfl
@[simp] theorem State.setEntry_agents (s : State) (i) (e) : (s.setEntry i e).agents = s.agents := rfl
@[simp] theorem State.setEntry_sched (s : State) (i) (e) : (s.setEntry i e).sched = s.sched := rfl
@[simp] theorem State.setEntry_comp (s : State) (i) (e) : (s.setEntry i e).comp = s.comp := rfl
@[simp] theorem State.setEntry_reqs (s : State) (i) (e) : (s.setEntry i e).reqs = s.reqs := rfl
@[simp] theorem State.setEntry_pager (s : State) (i) (e) : (s.setEntry i e).pager = s.pager := rfl
@[simp] theorem State.setEntry_sampler (s : State) (i) (e) : (s.setEntry i e).sampler = s.sampler := rfl
@[simp] theorem State.setEntry_tb (s : State) (i) (e) : (s.setEntry i e).tb = s.tb := rfl
@[simp] theorem State.setEntry_cyc (s : State) (i) (e) : (s.setEntry i e).cyc = s.cyc := rfl
@[simp] theorem State.setEntry_forager (s : State) (i) (e) : (s.setEntry i e).forager = s.forager := rfl
@[simp] theorem State.setEntry_interp (s : State) (i) (e) : (s.setEntry i e).interp = s.interp := rfl
@[simp] theorem State.setEntry_atc (s : State) (i) (e) : (s.setEntry i e).atc = s.atc := rfl
@[simp] theorem State.setEntry_insts (s : State) (i) (e) : (s.setEntry i e).insts = s.insts := rfl
@[simp] theorem State.setEntry_fw (s : State) (i) (e) : (s.setEntry i e).fw = s.fw := rfl
@[simp] theorem State.setEntry_store (s : State) (i) (e) : (s.setEntry i e).store = s.store := rfl
@[simp] theorem State.setEntry_swarm (s : State) (i) (e) : (s.setEntry i e).swarm = s.swarm := rfl
@[simp] theorem State.setEntry_cap (s : State) (i) (e) : (s.setEntry i e).cap = s.cap := rfl
@[simp] theorem State.setEntry_health (s : State) (i) (e) : (s.setEntry i e).health = s.health := rfl
@[simp] theorem State.setEntry_fences (s : State) (i) (e) : (s.setEntry i e).fences = s.fences := rfl
@[simp] theorem State.setEntry_hum (s : State) (i) (e) : (s.setEntry i e).hum = s.hum := rfl
@[simp] theorem State.setEntry_ic (s : State) (i) (e) : (s.setEntry i e).ic = s.ic := rfl
@[simp] theorem State.setEntry_guard (s : State) (i) (e) : (s.setEntry i e).guard = s.guard := rfl
@[simp] theorem State.setEntry_power (s : State) (i) (e) : (s.setEntry i e).power = s.power := rfl

/-! `setMem` -/

@[simp] theorem State.setMem_pending (s : State) (i) (m) : (s.setMem i m).pending = s.pending := rfl
@[simp] theorem State.setMem_out (s : State) (i) (m) : (s.setMem i m).out = s.out := rfl
@[simp] theorem State.setMem_freeCtr (s : State) (i) (m) : (s.setMem i m).freeCtr = s.freeCtr := rfl
@[simp] theorem State.setMem_cc (s : State) (i) (m) : (s.setMem i m).cc = s.cc := rfl
@[simp] theorem State.setMem_ticks (s : State) (i) (m) : (s.setMem i m).ticks = s.ticks := rfl
@[simp] theorem State.setMem_regs (s : State) (i) (m) : (s.setMem i m).regs = s.regs := rfl
@[simp] theorem State.setMem_comb (s : State) (i) (m) : (s.setMem i m).comb = s.comb := rfl
@[simp] theorem State.setMem_agents (s : State) (i) (m) : (s.setMem i m).agents = s.agents := rfl
@[simp] theorem State.setMem_sched (s : State) (i) (m) : (s.setMem i m).sched = s.sched := rfl
@[simp] theorem State.setMem_comp (s : State) (i) (m) : (s.setMem i m).comp = s.comp := rfl
@[simp] theorem State.setMem_reqs (s : State) (i) (m) : (s.setMem i m).reqs = s.reqs := rfl
@[simp] theorem State.setMem_sampler (s : State) (i) (m) : (s.setMem i m).sampler = s.sampler := rfl
@[simp] theorem State.setMem_tb (s : State) (i) (m) : (s.setMem i m).tb = s.tb := rfl
@[simp] theorem State.setMem_cyc (s : State) (i) (m) : (s.setMem i m).cyc = s.cyc := rfl
@[simp] theorem State.setMem_forager (s : State) (i) (m) : (s.setMem i m).forager = s.forager := rfl
@[simp] theorem State.setMem_interp (s : State) (i) (m) : (s.setMem i m).interp = s.interp := rfl
@[simp] theorem State.setMem_atc (s : State) (i) (m) : (s.setMem i m).atc = s.atc := rfl
@[simp] theorem State.setMem_insts (s : State) (i) (m) : (s.setMem i m).insts = s.insts := rfl
@[simp] theorem State.setMem_fw (s : State) (i) (m) : (s.setMem i m).fw = s.fw := rfl
@[simp] theorem State.setMem_store (s : State) (i) (m) : (s.setMem i m).store = s.store := rfl
@[simp] theorem State.setMem_swarm (s : State) (i) (m) : (s.setMem i m).swarm = s.swarm := rfl
@[simp] theorem State.setMem_cap (s : State) (i) (m) : (s.setMem i m).cap = s.cap := rfl
@[simp] theorem State.setMem_health (s : State) (i) (m) : (s.setMem i m).health = s.health := rfl
@[simp] theorem State.setMem_fences (s : State) (i) (m) : (s.setMem i m).fences = s.fences := rfl
@[simp] theorem State.setMem_hum (s : State) (i) (m) : (s.setMem i m).hum = s.hum := rfl
@[simp] theorem State.setMem_ic (s : State) (i) (m) : (s.setMem i m).ic = s.ic := rfl
@[simp] theorem State.setMem_guard (s : State) (i) (m) : (s.setMem i m).guard = s.guard := rfl
@[simp] theorem State.setMem_power (s : State) (i) (m) : (s.setMem i m).power = s.power := rfl

/-! `setMover` -/

@[simp] theorem State.setMover_pending (s : State) (d) (l) : (s.setMover d l).pending = s.pending := rfl
@[simp] theorem State.setMover_out (s : State) (d) (l) : (s.setMover d l).out = s.out := rfl
@[simp] theorem State.setMover_freeCtr (s : State) (d) (l) : (s.setMover d l).freeCtr = s.freeCtr := rfl
@[simp] theorem State.setMover_cc (s : State) (d) (l) : (s.setMover d l).cc = s.cc := rfl
@[simp] theorem State.setMover_ticks (s : State) (d) (l) : (s.setMover d l).ticks = s.ticks := rfl
@[simp] theorem State.setMover_regs (s : State) (d) (l) : (s.setMover d l).regs = s.regs := rfl
@[simp] theorem State.setMover_comb (s : State) (d) (l) : (s.setMover d l).comb = s.comb := rfl
@[simp] theorem State.setMover_agents (s : State) (d) (l) : (s.setMover d l).agents = s.agents := rfl
@[simp] theorem State.setMover_sched (s : State) (d) (l) : (s.setMover d l).sched = s.sched := rfl
@[simp] theorem State.setMover_comp (s : State) (d) (l) : (s.setMover d l).comp = s.comp := rfl
@[simp] theorem State.setMover_reqs (s : State) (d) (l) : (s.setMover d l).reqs = s.reqs := rfl
@[simp] theorem State.setMover_sampler (s : State) (d) (l) : (s.setMover d l).sampler = s.sampler := rfl
@[simp] theorem State.setMover_tb (s : State) (d) (l) : (s.setMover d l).tb = s.tb := rfl
@[simp] theorem State.setMover_cyc (s : State) (d) (l) : (s.setMover d l).cyc = s.cyc := rfl
@[simp] theorem State.setMover_forager (s : State) (d) (l) : (s.setMover d l).forager = s.forager := rfl
@[simp] theorem State.setMover_interp (s : State) (d) (l) : (s.setMover d l).interp = s.interp := rfl
@[simp] theorem State.setMover_atc (s : State) (d) (l) : (s.setMover d l).atc = s.atc := rfl
@[simp] theorem State.setMover_insts (s : State) (d) (l) : (s.setMover d l).insts = s.insts := rfl
@[simp] theorem State.setMover_fw (s : State) (d) (l) : (s.setMover d l).fw = s.fw := rfl
@[simp] theorem State.setMover_store (s : State) (d) (l) : (s.setMover d l).store = s.store := rfl
@[simp] theorem State.setMover_swarm (s : State) (d) (l) : (s.setMover d l).swarm = s.swarm := rfl
@[simp] theorem State.setMover_cap (s : State) (d) (l) : (s.setMover d l).cap = s.cap := rfl
@[simp] theorem State.setMover_health (s : State) (d) (l) : (s.setMover d l).health = s.health := rfl
@[simp] theorem State.setMover_fences (s : State) (d) (l) : (s.setMover d l).fences = s.fences := rfl
@[simp] theorem State.setMover_hum (s : State) (d) (l) : (s.setMover d l).hum = s.hum := rfl
@[simp] theorem State.setMover_ic (s : State) (d) (l) : (s.setMover d l).ic = s.ic := rfl
@[simp] theorem State.setMover_guard (s : State) (d) (l) : (s.setMover d l).guard = s.guard := rfl
@[simp] theorem State.setMover_power (s : State) (d) (l) : (s.setMover d l).power = s.power := rfl

/-! `setServe` -/

@[simp] theorem State.setServe_pending (s : State) (p) (x) : (s.setServe p x).pending = s.pending := rfl
@[simp] theorem State.setServe_out (s : State) (p) (x) : (s.setServe p x).out = s.out := rfl
@[simp] theorem State.setServe_freeCtr (s : State) (p) (x) : (s.setServe p x).freeCtr = s.freeCtr := rfl
@[simp] theorem State.setServe_cc (s : State) (p) (x) : (s.setServe p x).cc = s.cc := rfl
@[simp] theorem State.setServe_ticks (s : State) (p) (x) : (s.setServe p x).ticks = s.ticks := rfl
@[simp] theorem State.setServe_regs (s : State) (p) (x) : (s.setServe p x).regs = s.regs := rfl
@[simp] theorem State.setServe_comb (s : State) (p) (x) : (s.setServe p x).comb = s.comb := rfl
@[simp] theorem State.setServe_agents (s : State) (p) (x) : (s.setServe p x).agents = s.agents := rfl
@[simp] theorem State.setServe_sched (s : State) (p) (x) : (s.setServe p x).sched = s.sched := rfl
@[simp] theorem State.setServe_pager (s : State) (p) (x) : (s.setServe p x).pager = s.pager := rfl
@[simp] theorem State.setServe_sampler (s : State) (p) (x) : (s.setServe p x).sampler = s.sampler := rfl
@[simp] theorem State.setServe_tb (s : State) (p) (x) : (s.setServe p x).tb = s.tb := rfl
@[simp] theorem State.setServe_cyc (s : State) (p) (x) : (s.setServe p x).cyc = s.cyc := rfl
@[simp] theorem State.setServe_forager (s : State) (p) (x) : (s.setServe p x).forager = s.forager := rfl
@[simp] theorem State.setServe_interp (s : State) (p) (x) : (s.setServe p x).interp = s.interp := rfl
@[simp] theorem State.setServe_atc (s : State) (p) (x) : (s.setServe p x).atc = s.atc := rfl
@[simp] theorem State.setServe_insts (s : State) (p) (x) : (s.setServe p x).insts = s.insts := rfl
@[simp] theorem State.setServe_fw (s : State) (p) (x) : (s.setServe p x).fw = s.fw := rfl
@[simp] theorem State.setServe_store (s : State) (p) (x) : (s.setServe p x).store = s.store := rfl
@[simp] theorem State.setServe_swarm (s : State) (p) (x) : (s.setServe p x).swarm = s.swarm := rfl
@[simp] theorem State.setServe_cap (s : State) (p) (x) : (s.setServe p x).cap = s.cap := rfl
@[simp] theorem State.setServe_health (s : State) (p) (x) : (s.setServe p x).health = s.health := rfl
@[simp] theorem State.setServe_fences (s : State) (p) (x) : (s.setServe p x).fences = s.fences := rfl
@[simp] theorem State.setServe_hum (s : State) (p) (x) : (s.setServe p x).hum = s.hum := rfl
@[simp] theorem State.setServe_ic (s : State) (p) (x) : (s.setServe p x).ic = s.ic := rfl
@[simp] theorem State.setServe_guard (s : State) (p) (x) : (s.setServe p x).guard = s.guard := rfl
@[simp] theorem State.setServe_power (s : State) (p) (x) : (s.setServe p x).power = s.power := rfl

/-! `pushNominee` -/

@[simp] theorem State.pushNominee_pending (s : State) (n) : (s.pushNominee n).pending = s.pending := rfl
@[simp] theorem State.pushNominee_out (s : State) (n) : (s.pushNominee n).out = s.out := rfl
@[simp] theorem State.pushNominee_freeCtr (s : State) (n) : (s.pushNominee n).freeCtr = s.freeCtr := rfl
@[simp] theorem State.pushNominee_cc (s : State) (n) : (s.pushNominee n).cc = s.cc := rfl
@[simp] theorem State.pushNominee_ticks (s : State) (n) : (s.pushNominee n).ticks = s.ticks := rfl
@[simp] theorem State.pushNominee_regs (s : State) (n) : (s.pushNominee n).regs = s.regs := rfl
@[simp] theorem State.pushNominee_comb (s : State) (n) : (s.pushNominee n).comb = s.comb := rfl
@[simp] theorem State.pushNominee_agents (s : State) (n) : (s.pushNominee n).agents = s.agents := rfl
@[simp] theorem State.pushNominee_sched (s : State) (n) : (s.pushNominee n).sched = s.sched := rfl
@[simp] theorem State.pushNominee_comp (s : State) (n) : (s.pushNominee n).comp = s.comp := rfl
@[simp] theorem State.pushNominee_reqs (s : State) (n) : (s.pushNominee n).reqs = s.reqs := rfl
@[simp] theorem State.pushNominee_sampler (s : State) (n) : (s.pushNominee n).sampler = s.sampler := rfl
@[simp] theorem State.pushNominee_tb (s : State) (n) : (s.pushNominee n).tb = s.tb := rfl
@[simp] theorem State.pushNominee_cyc (s : State) (n) : (s.pushNominee n).cyc = s.cyc := rfl
@[simp] theorem State.pushNominee_forager (s : State) (n) : (s.pushNominee n).forager = s.forager := rfl
@[simp] theorem State.pushNominee_interp (s : State) (n) : (s.pushNominee n).interp = s.interp := rfl
@[simp] theorem State.pushNominee_atc (s : State) (n) : (s.pushNominee n).atc = s.atc := rfl
@[simp] theorem State.pushNominee_insts (s : State) (n) : (s.pushNominee n).insts = s.insts := rfl
@[simp] theorem State.pushNominee_fw (s : State) (n) : (s.pushNominee n).fw = s.fw := rfl
@[simp] theorem State.pushNominee_store (s : State) (n) : (s.pushNominee n).store = s.store := rfl
@[simp] theorem State.pushNominee_swarm (s : State) (n) : (s.pushNominee n).swarm = s.swarm := rfl
@[simp] theorem State.pushNominee_cap (s : State) (n) : (s.pushNominee n).cap = s.cap := rfl
@[simp] theorem State.pushNominee_health (s : State) (n) : (s.pushNominee n).health = s.health := rfl
@[simp] theorem State.pushNominee_fences (s : State) (n) : (s.pushNominee n).fences = s.fences := rfl
@[simp] theorem State.pushNominee_hum (s : State) (n) : (s.pushNominee n).hum = s.hum := rfl
@[simp] theorem State.pushNominee_ic (s : State) (n) : (s.pushNominee n).ic = s.ic := rfl
@[simp] theorem State.pushNominee_guard (s : State) (n) : (s.pushNominee n).guard = s.guard := rfl
@[simp] theorem State.pushNominee_power (s : State) (n) : (s.pushNominee n).power = s.power := rfl

/-! `modRegion` -/

@[simp] theorem State.modRegion_pending (s : State) (k) (f) : (s.modRegion k f).pending = s.pending := rfl
@[simp] theorem State.modRegion_out (s : State) (k) (f) : (s.modRegion k f).out = s.out := rfl
@[simp] theorem State.modRegion_freeCtr (s : State) (k) (f) : (s.modRegion k f).freeCtr = s.freeCtr := rfl
@[simp] theorem State.modRegion_cc (s : State) (k) (f) : (s.modRegion k f).cc = s.cc := rfl
@[simp] theorem State.modRegion_ticks (s : State) (k) (f) : (s.modRegion k f).ticks = s.ticks := rfl
@[simp] theorem State.modRegion_regs (s : State) (k) (f) : (s.modRegion k f).regs = s.regs := rfl
@[simp] theorem State.modRegion_comb (s : State) (k) (f) : (s.modRegion k f).comb = s.comb := rfl
@[simp] theorem State.modRegion_agents (s : State) (k) (f) : (s.modRegion k f).agents = s.agents := rfl
@[simp] theorem State.modRegion_sched (s : State) (k) (f) : (s.modRegion k f).sched = s.sched := rfl
@[simp] theorem State.modRegion_comp (s : State) (k) (f) : (s.modRegion k f).comp = s.comp := rfl
@[simp] theorem State.modRegion_reqs (s : State) (k) (f) : (s.modRegion k f).reqs = s.reqs := rfl
@[simp] theorem State.modRegion_sampler (s : State) (k) (f) : (s.modRegion k f).sampler = s.sampler := rfl
@[simp] theorem State.modRegion_tb (s : State) (k) (f) : (s.modRegion k f).tb = s.tb := rfl
@[simp] theorem State.modRegion_cyc (s : State) (k) (f) : (s.modRegion k f).cyc = s.cyc := rfl
@[simp] theorem State.modRegion_forager (s : State) (k) (f) : (s.modRegion k f).forager = s.forager := rfl
@[simp] theorem State.modRegion_interp (s : State) (k) (f) : (s.modRegion k f).interp = s.interp := rfl
@[simp] theorem State.modRegion_atc (s : State) (k) (f) : (s.modRegion k f).atc = s.atc := rfl
@[simp] theorem State.modRegion_insts (s : State) (k) (f) : (s.modRegion k f).insts = s.insts := rfl
@[simp] theorem State.modRegion_fw (s : State) (k) (f) : (s.modRegion k f).fw = s.fw := rfl
@[simp] theorem State.modRegion_store (s : State) (k) (f) : (s.modRegion k f).store = s.store := rfl
@[simp] theorem State.modRegion_swarm (s : State) (k) (f) : (s.modRegion k f).swarm = s.swarm := rfl
@[simp] theorem State.modRegion_cap (s : State) (k) (f) : (s.modRegion k f).cap = s.cap := rfl
@[simp] theorem State.modRegion_health (s : State) (k) (f) : (s.modRegion k f).health = s.health := rfl
@[simp] theorem State.modRegion_fences (s : State) (k) (f) : (s.modRegion k f).fences = s.fences := rfl
@[simp] theorem State.modRegion_hum (s : State) (k) (f) : (s.modRegion k f).hum = s.hum := rfl
@[simp] theorem State.modRegion_ic (s : State) (k) (f) : (s.modRegion k f).ic = s.ic := rfl
@[simp] theorem State.modRegion_guard (s : State) (k) (f) : (s.modRegion k f).guard = s.guard := rfl
@[simp] theorem State.modRegion_power (s : State) (k) (f) : (s.modRegion k f).power = s.power := rfl

/-! `setStack` -/

@[simp] theorem State.setStack_pending (s : State) (k) (x) : (s.setStack k x).pending = s.pending := rfl
@[simp] theorem State.setStack_out (s : State) (k) (x) : (s.setStack k x).out = s.out := rfl
@[simp] theorem State.setStack_freeCtr (s : State) (k) (x) : (s.setStack k x).freeCtr = s.freeCtr := rfl
@[simp] theorem State.setStack_cc (s : State) (k) (x) : (s.setStack k x).cc = s.cc := rfl
@[simp] theorem State.setStack_ticks (s : State) (k) (x) : (s.setStack k x).ticks = s.ticks := rfl
@[simp] theorem State.setStack_regs (s : State) (k) (x) : (s.setStack k x).regs = s.regs := rfl
@[simp] theorem State.setStack_comb (s : State) (k) (x) : (s.setStack k x).comb = s.comb := rfl
@[simp] theorem State.setStack_agents (s : State) (k) (x) : (s.setStack k x).agents = s.agents := rfl
@[simp] theorem State.setStack_sched (s : State) (k) (x) : (s.setStack k x).sched = s.sched := rfl
@[simp] theorem State.setStack_comp (s : State) (k) (x) : (s.setStack k x).comp = s.comp := rfl
@[simp] theorem State.setStack_reqs (s : State) (k) (x) : (s.setStack k x).reqs = s.reqs := rfl
@[simp] theorem State.setStack_pager (s : State) (k) (x) : (s.setStack k x).pager = s.pager := rfl
@[simp] theorem State.setStack_sampler (s : State) (k) (x) : (s.setStack k x).sampler = s.sampler := rfl
@[simp] theorem State.setStack_tb (s : State) (k) (x) : (s.setStack k x).tb = s.tb := rfl
@[simp] theorem State.setStack_cyc (s : State) (k) (x) : (s.setStack k x).cyc = s.cyc := rfl
@[simp] theorem State.setStack_forager (s : State) (k) (x) : (s.setStack k x).forager = s.forager := rfl
@[simp] theorem State.setStack_interp (s : State) (k) (x) : (s.setStack k x).interp = s.interp := rfl
@[simp] theorem State.setStack_atc (s : State) (k) (x) : (s.setStack k x).atc = s.atc := rfl
@[simp] theorem State.setStack_insts (s : State) (k) (x) : (s.setStack k x).insts = s.insts := rfl
@[simp] theorem State.setStack_fw (s : State) (k) (x) : (s.setStack k x).fw = s.fw := rfl
@[simp] theorem State.setStack_store (s : State) (k) (x) : (s.setStack k x).store = s.store := rfl
@[simp] theorem State.setStack_swarm (s : State) (k) (x) : (s.setStack k x).swarm = s.swarm := rfl
@[simp] theorem State.setStack_cap (s : State) (k) (x) : (s.setStack k x).cap = s.cap := rfl
@[simp] theorem State.setStack_health (s : State) (k) (x) : (s.setStack k x).health = s.health := rfl
@[simp] theorem State.setStack_fences (s : State) (k) (x) : (s.setStack k x).fences = s.fences := rfl
@[simp] theorem State.setStack_hum (s : State) (k) (x) : (s.setStack k x).hum = s.hum := rfl
@[simp] theorem State.setStack_ic (s : State) (k) (x) : (s.setStack k x).ic = s.ic := rfl
@[simp] theorem State.setStack_guard (s : State) (k) (x) : (s.setStack k x).guard = s.guard := rfl

/-! `setProc` -/

@[simp] theorem State.setProc_pending (s : State) (p) (x) : (s.setProc p x).pending = s.pending := rfl
@[simp] theorem State.setProc_out (s : State) (p) (x) : (s.setProc p x).out = s.out := rfl
@[simp] theorem State.setProc_freeCtr (s : State) (p) (x) : (s.setProc p x).freeCtr = s.freeCtr := rfl
@[simp] theorem State.setProc_cc (s : State) (p) (x) : (s.setProc p x).cc = s.cc := rfl
@[simp] theorem State.setProc_ticks (s : State) (p) (x) : (s.setProc p x).ticks = s.ticks := rfl
@[simp] theorem State.setProc_regs (s : State) (p) (x) : (s.setProc p x).regs = s.regs := rfl
@[simp] theorem State.setProc_comb (s : State) (p) (x) : (s.setProc p x).comb = s.comb := rfl
@[simp] theorem State.setProc_agents (s : State) (p) (x) : (s.setProc p x).agents = s.agents := rfl
@[simp] theorem State.setProc_sched (s : State) (p) (x) : (s.setProc p x).sched = s.sched := rfl
@[simp] theorem State.setProc_comp (s : State) (p) (x) : (s.setProc p x).comp = s.comp := rfl
@[simp] theorem State.setProc_reqs (s : State) (p) (x) : (s.setProc p x).reqs = s.reqs := rfl
@[simp] theorem State.setProc_pager (s : State) (p) (x) : (s.setProc p x).pager = s.pager := rfl
@[simp] theorem State.setProc_sampler (s : State) (p) (x) : (s.setProc p x).sampler = s.sampler := rfl
@[simp] theorem State.setProc_tb (s : State) (p) (x) : (s.setProc p x).tb = s.tb := rfl
@[simp] theorem State.setProc_cyc (s : State) (p) (x) : (s.setProc p x).cyc = s.cyc := rfl
@[simp] theorem State.setProc_forager (s : State) (p) (x) : (s.setProc p x).forager = s.forager := rfl
@[simp] theorem State.setProc_interp (s : State) (p) (x) : (s.setProc p x).interp = s.interp := rfl
@[simp] theorem State.setProc_atc (s : State) (p) (x) : (s.setProc p x).atc = s.atc := rfl
@[simp] theorem State.setProc_insts (s : State) (p) (x) : (s.setProc p x).insts = s.insts := rfl
@[simp] theorem State.setProc_store (s : State) (p) (x) : (s.setProc p x).store = s.store := rfl
@[simp] theorem State.setProc_swarm (s : State) (p) (x) : (s.setProc p x).swarm = s.swarm := rfl
@[simp] theorem State.setProc_cap (s : State) (p) (x) : (s.setProc p x).cap = s.cap := rfl
@[simp] theorem State.setProc_health (s : State) (p) (x) : (s.setProc p x).health = s.health := rfl
@[simp] theorem State.setProc_fences (s : State) (p) (x) : (s.setProc p x).fences = s.fences := rfl
@[simp] theorem State.setProc_hum (s : State) (p) (x) : (s.setProc p x).hum = s.hum := rfl
@[simp] theorem State.setProc_ic (s : State) (p) (x) : (s.setProc p x).ic = s.ic := rfl
@[simp] theorem State.setProc_guard (s : State) (p) (x) : (s.setProc p x).guard = s.guard := rfl
@[simp] theorem State.setProc_power (s : State) (p) (x) : (s.setProc p x).power = s.power := rfl

/-! `modTb` -/

@[simp] theorem State.modTb_pending (s : State) (f) : (s.modTb f).pending = s.pending := rfl
@[simp] theorem State.modTb_out (s : State) (f) : (s.modTb f).out = s.out := rfl
@[simp] theorem State.modTb_freeCtr (s : State) (f) : (s.modTb f).freeCtr = s.freeCtr := rfl
@[simp] theorem State.modTb_cc (s : State) (f) : (s.modTb f).cc = s.cc := rfl
@[simp] theorem State.modTb_ticks (s : State) (f) : (s.modTb f).ticks = s.ticks := rfl
@[simp] theorem State.modTb_regs (s : State) (f) : (s.modTb f).regs = s.regs := rfl
@[simp] theorem State.modTb_comb (s : State) (f) : (s.modTb f).comb = s.comb := rfl
@[simp] theorem State.modTb_agents (s : State) (f) : (s.modTb f).agents = s.agents := rfl
@[simp] theorem State.modTb_sched (s : State) (f) : (s.modTb f).sched = s.sched := rfl
@[simp] theorem State.modTb_comp (s : State) (f) : (s.modTb f).comp = s.comp := rfl
@[simp] theorem State.modTb_reqs (s : State) (f) : (s.modTb f).reqs = s.reqs := rfl
@[simp] theorem State.modTb_pager (s : State) (f) : (s.modTb f).pager = s.pager := rfl
@[simp] theorem State.modTb_sampler (s : State) (f) : (s.modTb f).sampler = s.sampler := rfl
@[simp] theorem State.modTb_cyc (s : State) (f) : (s.modTb f).cyc = s.cyc := rfl
@[simp] theorem State.modTb_forager (s : State) (f) : (s.modTb f).forager = s.forager := rfl
@[simp] theorem State.modTb_interp (s : State) (f) : (s.modTb f).interp = s.interp := rfl
@[simp] theorem State.modTb_atc (s : State) (f) : (s.modTb f).atc = s.atc := rfl
@[simp] theorem State.modTb_insts (s : State) (f) : (s.modTb f).insts = s.insts := rfl
@[simp] theorem State.modTb_fw (s : State) (f) : (s.modTb f).fw = s.fw := rfl
@[simp] theorem State.modTb_store (s : State) (f) : (s.modTb f).store = s.store := rfl
@[simp] theorem State.modTb_swarm (s : State) (f) : (s.modTb f).swarm = s.swarm := rfl
@[simp] theorem State.modTb_cap (s : State) (f) : (s.modTb f).cap = s.cap := rfl
@[simp] theorem State.modTb_health (s : State) (f) : (s.modTb f).health = s.health := rfl
@[simp] theorem State.modTb_fences (s : State) (f) : (s.modTb f).fences = s.fences := rfl
@[simp] theorem State.modTb_hum (s : State) (f) : (s.modTb f).hum = s.hum := rfl
@[simp] theorem State.modTb_ic (s : State) (f) : (s.modTb f).ic = s.ic := rfl
@[simp] theorem State.modTb_guard (s : State) (f) : (s.modTb f).guard = s.guard := rfl
@[simp] theorem State.modTb_power (s : State) (f) : (s.modTb f).power = s.power := rfl

/-! `fenceAsk` -/

@[simp] theorem State.fenceAsk_pending (s : State) (cls) (index) : (s.fenceAsk cls index).pending = s.pending := rfl
@[simp] theorem State.fenceAsk_out (s : State) (cls) (index) : (s.fenceAsk cls index).out = s.out := rfl
@[simp] theorem State.fenceAsk_freeCtr (s : State) (cls) (index) : (s.fenceAsk cls index).freeCtr = s.freeCtr := rfl
@[simp] theorem State.fenceAsk_cc (s : State) (cls) (index) : (s.fenceAsk cls index).cc = s.cc := rfl
@[simp] theorem State.fenceAsk_ticks (s : State) (cls) (index) : (s.fenceAsk cls index).ticks = s.ticks := rfl
@[simp] theorem State.fenceAsk_regs (s : State) (cls) (index) : (s.fenceAsk cls index).regs = s.regs := rfl
@[simp] theorem State.fenceAsk_comb (s : State) (cls) (index) : (s.fenceAsk cls index).comb = s.comb := rfl
@[simp] theorem State.fenceAsk_agents (s : State) (cls) (index) : (s.fenceAsk cls index).agents = s.agents := rfl
@[simp] theorem State.fenceAsk_sched (s : State) (cls) (index) : (s.fenceAsk cls index).sched = s.sched := rfl
@[simp] theorem State.fenceAsk_comp (s : State) (cls) (index) : (s.fenceAsk cls index).comp = s.comp := rfl
@[simp] theorem State.fenceAsk_reqs (s : State) (cls) (index) : (s.fenceAsk cls index).reqs = s.reqs := rfl
@[simp] theorem State.fenceAsk_pager (s : State) (cls) (index) : (s.fenceAsk cls index).pager = s.pager := rfl
@[simp] theorem State.fenceAsk_sampler (s : State) (cls) (index) : (s.fenceAsk cls index).sampler = s.sampler := rfl
@[simp] theorem State.fenceAsk_tb (s : State) (cls) (index) : (s.fenceAsk cls index).tb = s.tb := rfl
@[simp] theorem State.fenceAsk_cyc (s : State) (cls) (index) : (s.fenceAsk cls index).cyc = s.cyc := rfl
@[simp] theorem State.fenceAsk_forager (s : State) (cls) (index) : (s.fenceAsk cls index).forager = s.forager := rfl
@[simp] theorem State.fenceAsk_interp (s : State) (cls) (index) : (s.fenceAsk cls index).interp = s.interp := rfl
@[simp] theorem State.fenceAsk_atc (s : State) (cls) (index) : (s.fenceAsk cls index).atc = s.atc := rfl
@[simp] theorem State.fenceAsk_insts (s : State) (cls) (index) : (s.fenceAsk cls index).insts = s.insts := rfl
@[simp] theorem State.fenceAsk_fw (s : State) (cls) (index) : (s.fenceAsk cls index).fw = s.fw := rfl
@[simp] theorem State.fenceAsk_store (s : State) (cls) (index) : (s.fenceAsk cls index).store = s.store := rfl
@[simp] theorem State.fenceAsk_swarm (s : State) (cls) (index) : (s.fenceAsk cls index).swarm = s.swarm := rfl
@[simp] theorem State.fenceAsk_cap (s : State) (cls) (index) : (s.fenceAsk cls index).cap = s.cap := rfl
@[simp] theorem State.fenceAsk_health (s : State) (cls) (index) : (s.fenceAsk cls index).health = s.health := rfl
@[simp] theorem State.fenceAsk_hum (s : State) (cls) (index) : (s.fenceAsk cls index).hum = s.hum := rfl
@[simp] theorem State.fenceAsk_ic (s : State) (cls) (index) : (s.fenceAsk cls index).ic = s.ic := rfl
@[simp] theorem State.fenceAsk_guard (s : State) (cls) (index) : (s.fenceAsk cls index).guard = s.guard := rfl
@[simp] theorem State.fenceAsk_power (s : State) (cls) (index) : (s.fenceAsk cls index).power = s.power := rfl

/-! `holdRead` -/

@[simp] theorem State.holdRead_pending (s : State) (fn) (q) : (s.holdRead fn q).pending = s.pending := rfl
@[simp] theorem State.holdRead_out (s : State) (fn) (q) : (s.holdRead fn q).out = s.out := rfl
@[simp] theorem State.holdRead_freeCtr (s : State) (fn) (q) : (s.holdRead fn q).freeCtr = s.freeCtr := rfl
@[simp] theorem State.holdRead_cc (s : State) (fn) (q) : (s.holdRead fn q).cc = s.cc := rfl
@[simp] theorem State.holdRead_ticks (s : State) (fn) (q) : (s.holdRead fn q).ticks = s.ticks := rfl
@[simp] theorem State.holdRead_regs (s : State) (fn) (q) : (s.holdRead fn q).regs = s.regs := rfl
@[simp] theorem State.holdRead_comb (s : State) (fn) (q) : (s.holdRead fn q).comb = s.comb := rfl
@[simp] theorem State.holdRead_agents (s : State) (fn) (q) : (s.holdRead fn q).agents = s.agents := rfl
@[simp] theorem State.holdRead_sched (s : State) (fn) (q) : (s.holdRead fn q).sched = s.sched := rfl
@[simp] theorem State.holdRead_comp (s : State) (fn) (q) : (s.holdRead fn q).comp = s.comp := rfl
@[simp] theorem State.holdRead_reqs (s : State) (fn) (q) : (s.holdRead fn q).reqs = s.reqs := rfl
@[simp] theorem State.holdRead_pager (s : State) (fn) (q) : (s.holdRead fn q).pager = s.pager := rfl
@[simp] theorem State.holdRead_sampler (s : State) (fn) (q) : (s.holdRead fn q).sampler = s.sampler := rfl
@[simp] theorem State.holdRead_tb (s : State) (fn) (q) : (s.holdRead fn q).tb = s.tb := rfl
@[simp] theorem State.holdRead_cyc (s : State) (fn) (q) : (s.holdRead fn q).cyc = s.cyc := rfl
@[simp] theorem State.holdRead_forager (s : State) (fn) (q) : (s.holdRead fn q).forager = s.forager := rfl
@[simp] theorem State.holdRead_interp (s : State) (fn) (q) : (s.holdRead fn q).interp = s.interp := rfl
@[simp] theorem State.holdRead_atc (s : State) (fn) (q) : (s.holdRead fn q).atc = s.atc := rfl
@[simp] theorem State.holdRead_insts (s : State) (fn) (q) : (s.holdRead fn q).insts = s.insts := rfl
@[simp] theorem State.holdRead_fw (s : State) (fn) (q) : (s.holdRead fn q).fw = s.fw := rfl
@[simp] theorem State.holdRead_store (s : State) (fn) (q) : (s.holdRead fn q).store = s.store := rfl
@[simp] theorem State.holdRead_swarm (s : State) (fn) (q) : (s.holdRead fn q).swarm = s.swarm := rfl
@[simp] theorem State.holdRead_cap (s : State) (fn) (q) : (s.holdRead fn q).cap = s.cap := rfl
@[simp] theorem State.holdRead_health (s : State) (fn) (q) : (s.holdRead fn q).health = s.health := rfl
@[simp] theorem State.holdRead_fences (s : State) (fn) (q) : (s.holdRead fn q).fences = s.fences := rfl
@[simp] theorem State.holdRead_hum (s : State) (fn) (q) : (s.holdRead fn q).hum = s.hum := rfl
@[simp] theorem State.holdRead_ic (s : State) (fn) (q) : (s.holdRead fn q).ic = s.ic := rfl
@[simp] theorem State.holdRead_guard (s : State) (fn) (q) : (s.holdRead fn q).guard = s.guard := rfl

/-! What reads back after a write -/

theorem State.reg_setReg_same (s : State) (k : Nat) (v : Word) (h : Tbl.wf resetVal s.regs = true) :
    (s.setReg k v).reg k = v := Tbl.get_put_wf _ _ _ _ h

theorem State.reg_setReg_other (s : State) (k n : Nat) (v : Word) (h : n ≠ k) : (s.setReg k v).reg n = s.reg n :=
  Tbl.get_put_other _ _ _ _ _ h

theorem State.inst_setInst_same (s : State) (i : Nat) (x : Instance) (h : x ≠ instDefault i) :
    (s.setInst i x).inst i = x := Tbl.get_put_same _ _ _ _ h

theorem State.inst_setInst_other (s : State) (i n : Nat) (x : Instance) (h : n ≠ i) :
    (s.setInst i x).inst n = s.inst n := Tbl.get_put_other _ _ _ _ _ h

theorem State.ring_setRing_same (s : State) (r : Nat) (x : Ring) (h : x ≠ ringDefault r) :
    (s.setRing r x).ring r = x := Tbl.get_put_same _ _ _ _ h

theorem State.ring_setRing_other (s : State) (r n : Nat) (x : Ring) (h : n ≠ r) :
    (s.setRing r x).ring n = s.ring n := Tbl.get_put_other _ _ _ _ _ h

theorem State.irq_setIrq_other (s : State) (i n : Nat) (x : IrqSrc) (h : n ≠ i) :
    (s.setIrq i x).irq n = s.irq n := Tbl.get_put_other _ _ _ _ _ h

@[simp] theorem State.inst_setReg (s : State) (k n : Nat) (v : Word) : (s.setReg k v).inst n = s.inst n := rfl
@[simp] theorem State.ring_setReg (s : State) (k n : Nat) (v : Word) : (s.setReg k v).ring n = s.ring n := rfl
@[simp] theorem State.inst_setRing (s : State) (r n : Nat) (x : Ring) : (s.setRing r x).inst n = s.inst n := rfl
@[simp] theorem State.ring_setInst (s : State) (i n : Nat) (x : Instance) : (s.setInst i x).ring n = s.ring n := rfl
@[simp] theorem State.reg_setInst (s : State) (i n : Nat) (x : Instance) : (s.setInst i x).reg n = s.reg n := rfl
@[simp] theorem State.reg_setRing (s : State) (r n : Nat) (x : Ring) : (s.setRing r x).reg n = s.reg n := rfl

/-- A fence asked for waits for the settling of its command, and a read that a freeze holds for the thaw: each behind those
before it. -/
@[simp] theorem State.fenceAsk_demand (s : State) (cls index) :
    (s.fenceAsk cls index).fences.demand = s.fences.demand ++ [(cls, index)] := rfl
@[simp] theorem State.holdRead_heldReads (s : State) (fn q) :
    (s.holdRead fn q).power.heldReads = s.power.heldReads ++ [(fn, q)] := rfl

end Sys2Proof.Machine
end

