-- ==== Sys2Proof/Laws/Work.lean ====
section
/-!
SUPPORT. What a completion, an event and a packet leave as it was: everything that the block works on (Safety's Work); and
that nothing is carried on where nothing waits.
-/

namespace Sys2Proof

open Sys2Proof.Machine

theorem work_foldl {α : Type} {f : State → α → State} (h : ∀ s x, workOf (f s x) = workOf s) (l : List α) (s : State) :
    workOf (l.foldl f s) = workOf s := by
  induction l generalizing s with
  | nil => rfl
  | cons x l ih => rw [List.foldl_cons, ih, h]

theorem work_ite {c : Prop} [Decidable c] {a b s : State} (ha : workOf a = workOf s) (hb : workOf b = workOf s) :
    workOf (if c then a else b) = workOf s := by split <;> assumption

@[simp] theorem work_emit (s : State) (o : Output) : workOf (s.emit o) = workOf s := rfl
@[simp] theorem work_emits (s : State) (o : List Output) : workOf (s.emits o) = workOf s := rfl
@[simp] theorem work_setReg (s : State) (k : Nat) (w : Word) : workOf (s.setReg k w) = workOf s := rfl
@[simp] theorem work_orReg (s : State) (k : Nat) (w : Word) : workOf (s.orReg k w) = workOf s := rfl
@[simp] theorem work_andNotReg (s : State) (k : Nat) (w : Word) : workOf (s.andNotReg k w) = workOf s := rfl
@[simp] theorem work_incReg (s : State) (k : Nat) : workOf (s.incReg k) = workOf s := rfl
@[simp] theorem work_satReg (s : State) (k : Nat) : workOf (s.satReg k) = workOf s := rfl
@[simp] theorem work_setRing (s : State) (k : Nat) (x : Ring) : workOf (s.setRing k x) = workOf s := rfl
@[simp] theorem work_modRing (s : State) (k : Nat) (f : Ring → Ring) : workOf (s.modRing k f) = workOf s := rfl
@[simp] theorem work_setTarget (s : State) (a b : Nat) (t : BusTarget) : workOf (s.setTarget a b t) = workOf s := rfl
@[simp] theorem work_setIrq (s : State) (n : Nat) (x : IrqSrc) : workOf (s.setIrq n x) = workOf s := rfl
@[simp] theorem work_setMember (s : State) (n : Nat) (x : SwarmMember) : workOf (s.setMember n x) = workOf s := rfl
@[simp] theorem work_modMember (s : State) (n : Nat) (f : SwarmMember → SwarmMember) :
    workOf (s.modMember n f) = workOf s := rfl
@[simp] theorem work_healthEvent (s : State) (n : Nat) : workOf (s.healthEvent n) = workOf s := rfl

@[simp] theorem work_msix (s : State) (fn v : Nat) : workOf (s.msix fn v) = workOf s := by
  unfold State.msix
  exact work_ite rfl (work_ite (work_orReg _ _ _) (work_emit _ _))

@[simp] theorem work_errToInst (s : State) (i id : Nat) (st : Byte) : workOf (s.errToInst i id st) = workOf s := by
  unfold State.errToInst
  refine work_ite ((work_msix _ _ _).trans ?_) ?_ <;> rw [work_setReg, work_orReg]

@[simp] theorem work_errToPf (s : State) (id : Nat) (st : Byte) : workOf (s.errToPf id st) = workOf s := by
  unfold State.errToPf
  refine work_ite ((work_msix _ _ _).trans ?_) ?_ <;> rw [work_setReg, work_orReg]

@[simp] theorem work_errMessage (s : State) (a id : Nat) (i : Option Nat) (st : Byte) :
    workOf (s.errMessage a id i st) = workOf s := by
  unfold State.errMessage; split <;> simp

@[simp] theorem work_busEmit (s : State) (a b : Nat) (m : BusMsg) (q : Byte) : workOf (s.busEmit a b m q) = workOf s := rfl

@[simp] theorem work_busPump (s : State) (a b : Nat) : workOf (s.busPump a b) = workOf s := by
  unfold State.busPump; dsimp only; split <;> simp

@[simp] theorem work_busSend (s : State) (a b : Nat) (m : BusMsg) : workOf (s.busSend a b m) = workOf s := by
  unfold State.busSend; dsimp only; split <;> simp

@[simp] theorem work_icSync (s : State) : workOf s.icSync = workOf s := by
  unfold State.icSync
  apply work_foldl
  intro s p
  dsimp only
  split
  · rfl
  · rw [work_busSend]; rfl

@[simp] theorem work_humStop (s : State) (n : Nat) : workOf (s.humStop n) = workOf s := by
  unfold State.humStop; split <;> rfl

@[simp] theorem work_fltMask (s : State) (a b : Nat) : workOf (s.fltMask a b) = workOf s := by
  unfold State.fltMask; repeat' (first | rfl | split)

theorem work_counts (s : State) (l : Tbl FltCount) :
    workOf { s with fences := { s.fences with counts := l } } = workOf s := rfl

theorem work_demand (s : State) (l : List (Nat × Nat)) :
    workOf { s with fences := { s.fences with demand := l } } = workOf s := rfl

@[simp] theorem work_turnSevere (s : State) (e : FltEvent) (c : Word) : workOf (s.turnSevere e c) = workOf s := by
  unfold State.turnSevere
  dsimp only
  repeat' (first | (simp only [work_demand, work_fltMask, work_humStop, work_andNotReg, work_errMessage, work_orReg, work_setReg]; done) | split)

@[simp] theorem work_raiseQuiet (s : State) (e : FltEvent) : workOf (s.raiseQuiet e) = workOf s := by
  unfold State.raiseQuiet
  split
  · rfl
  · refine work_ite rfl ?_
    have fin : ∀ (u : State) (c : Prop) [Decidable c] (d : Prop) [Decidable d] (cfg : Word) (a id : Nat) (i : Option Nat)
        (st : Byte), workOf (if d then State.turnSevere (if c then u.errMessage a id i st else u) e cfg
          else if c then u.errMessage a id i st else u) = workOf u := by
      intro u c _ d _ cfg a id i st
      have : workOf (if c then u.errMessage a id i st else u) = workOf u := work_ite (work_errMessage u a id i st) rfl
      exact work_ite ((work_turnSevere _ _ _).trans this) this
    refine (fin _ _ _ _ _ _ _ _).trans ?_
    rw [work_satReg, work_setReg, work_counts, work_orReg]
    split <;> rfl

@[simp] theorem work_irqLevelCore (s : State) (n : Nat) (b : Bool) : workOf (s.irqLevelCore n b).1 = workOf s := by
  unfold State.irqLevelCore
  dsimp only
  split
  · rfl
  · split
    · exact work_setIrq _ _ _
    · split
      · rw [work_raiseQuiet, work_setReg, work_setIrq]
      · exact work_setIrq _ _ _

@[simp] theorem work_irqLevel (s : State) (n : Nat) (b : Bool) : workOf (s.irqLevel n b) = workOf s := by
  unfold State.irqLevel
  dsimp only
  split <;> simp

@[simp] theorem work_raise (s : State) (e : FltEvent) : workOf (s.raise e) = workOf s := by
  unfold State.raise State.syncLine
  simp

@[simp] theorem work_writeCompl (s : State) (r : Nat) (ws : List Word) : workOf (s.writeCompl r ws) = workOf s := rfl

@[simp] theorem work_complete (s : State) (r : Nat) (e : Entry) (st : Byte) (rs : List Word) (d : Nat) :
    workOf (s.complete r e st rs d) = workOf s := by
  unfold State.complete
  dsimp only
  split <;> rfl

@[simp] theorem work_flushDiscarded (s : State) (r n : Nat) : workOf (s.flushDiscarded r n) = workOf s := by
  induction n generalizing s with
  | zero => rfl
  | succ n ih =>
    unfold State.flushDiscarded
    dsimp only
    split
    · split
      · rw [ih, work_complete, work_setRing]
      · rfl
    · rfl

@[simp] theorem work_sendPktAt (s : State) (m t l : Nat) (p : List Word) : workOf (s.sendPktAt m t l p) = workOf s := by
  unfold State.sendPktAt
  split <;> rfl

@[simp] theorem work_sendPkt (s : State) (m t : Nat) (p : List Word) : workOf (s.sendPkt m t p) = workOf s :=
  work_sendPktAt s m t 0 p

@[simp] theorem work_answerRemote (s : State) (m : Nat) (k : Word) (st : Byte) (rs : List Word) :
    workOf (s.answerRemote m k st rs) = workOf s := by
  unfold State.answerRemote
  simp

@[simp] theorem work_countDone (s : State) (c : Cmd) (st : Byte) (d : Nat) : workOf (s.countDone c st d) = workOf s := by
  unfold State.countDone
  have h : workOf (if st = St.staleHandle then (s.incReg Reg.cmdExecCnt).satReg Reg.combStaleCnt
      else s.incReg Reg.cmdExecCnt) = workOf s := work_ite (work_satReg _ _) (work_incReg _ _)
  refine work_ite h ?_
  rw [work_raise, work_setReg]
  cases c.src with
  | ring r => rw [work_setReg, work_setReg, work_satReg]; exact h
  | remote k => rw [work_setReg, work_satReg]; exact h

/-- A completion, of whatever status, changes nothing that the block works on. -/
@[simp] theorem work_finishCmd (s : State) (c : Cmd) (st : Byte) (rs : List Word) (d : Nat) :
    workOf (s.finishCmd c st rs d) = workOf s := by
  unfold State.finishCmd
  dsimp only
  rw [work_countDone]
  split
  · split
    · rw [work_flushDiscarded, work_complete, work_modRing]; rfl
    · rfl
  · split
    · split
      · rfl
      · rw [work_answerRemote]; rfl
    · rfl

/-- What a later effect could carry on, instance sequences apart (Safety's Quiet). -/
def waitsOf (s : State) : List (Nat × Nat) × Option Word × Option MbxReq × Option CoreUpdate × Option MbxReq :=
  (s.fences.demand, s.fences.busy, s.fw.orphanReq, s.fw.update, s.fw.activate)

theorem waits_foldl {α : Type} {f : State → α → State} (h : ∀ s x, waitsOf (f s x) = waitsOf s) (l : List α) (s : State) :
    waitsOf (l.foldl f s) = waitsOf s := by
  induction l generalizing s with
  | nil => rfl
  | cons x l ih => rw [List.foldl_cons, ih, h]

theorem waits_ite {c : Prop} [Decidable c] {a b s : State} (ha : waitsOf a = waitsOf s) (hb : waitsOf b = waitsOf s) :
    waitsOf (if c then a else b) = waitsOf s := by split <;> assumption

@[simp] theorem waits_emit (s : State) (o : Output) : waitsOf (s.emit o) = waitsOf s := rfl
@[simp] theorem waits_emits (s : State) (o : List Output) : waitsOf (s.emits o) = waitsOf s := rfl
@[simp] theorem waits_setReg (s : State) (k : Nat) (w : Word) : waitsOf (s.setReg k w) = waitsOf s := rfl
@[simp] theorem waits_orReg (s : State) (k : Nat) (w : Word) : waitsOf (s.orReg k w) = waitsOf s := rfl
@[simp] theorem waits_andNotReg (s : State) (k : Nat) (w : Word) : waitsOf (s.andNotReg k w) = waitsOf s := rfl
@[simp] theorem waits_incReg (s : State) (k : Nat) : waitsOf (s.incReg k) = waitsOf s := rfl
@[simp] theorem waits_satReg (s : State) (k : Nat) : waitsOf (s.satReg k) = waitsOf s := rfl
@[simp] theorem waits_setRing (s : State) (k : Nat) (x : Ring) : waitsOf (s.setRing k x) = waitsOf s := rfl
@[simp] theorem waits_modRing (s : State) (k : Nat) (f : Ring → Ring) : waitsOf (s.modRing k f) = waitsOf s := rfl
@[simp] theorem waits_setTarget (s : State) (a b : Nat) (t : BusTarget) : waitsOf (s.setTarget a b t) = waitsOf s := rfl
@[simp] theorem waits_setIrq (s : State) (n : Nat) (x : IrqSrc) : waitsOf (s.setIrq n x) = waitsOf s := rfl
@[simp] theorem waits_setMember (s : State) (n : Nat) (x : SwarmMember) : waitsOf (s.setMember n x) = waitsOf s := rfl
@[simp] theorem waits_modMember (s : State) (n : Nat) (f : SwarmMember → SwarmMember) :
    waitsOf (s.modMember n f) = waitsOf s := rfl
@[simp] theorem waits_healthEvent (s : State) (n : Nat) : waitsOf (s.healthEvent n) = waitsOf s := rfl

@[simp] theorem waits_msix (s : State) (fn v : Nat) : waitsOf (s.msix fn v) = waitsOf s := by
  unfold State.msix
  exact waits_ite rfl (waits_ite (waits_orReg _ _ _) (waits_emit _ _))

@[simp] theorem waits_errToInst (s : State) (i id : Nat) (st : Byte) : waitsOf (s.errToInst i id st) = waitsOf s := by
  unfold State.errToInst
  refine waits_ite ((waits_msix _ _ _).trans ?_) ?_ <;> rw [waits_setReg, waits_orReg]

@[simp] theorem waits_errToPf (s : State) (id : Nat) (st : Byte) : waitsOf (s.errToPf id st) = waitsOf s := by
  unfold State.errToPf
  refine waits_ite ((waits_msix _ _ _).trans ?_) ?_ <;> rw [waits_setReg, waits_orReg]

@[simp] theorem waits_errMessage (s : State) (a id : Nat) (i : Option Nat) (st : Byte) :
    waitsOf (s.errMessage a id i st) = waitsOf s := by
  unfold State.errMessage; split <;> simp

@[simp] theorem waits_busEmit (s : State) (a b : Nat) (m : BusMsg) (q : Byte) : waitsOf (s.busEmit a b m q) = waitsOf s := rfl

@[simp] theorem waits_busPump (s : State) (a b : Nat) : waitsOf (s.busPump a b) = waitsOf s := by
  unfold State.busPump; dsimp only; split <;> simp

@[simp] theorem waits_busSend (s : State) (a b : Nat) (m : BusMsg) : waitsOf (s.busSend a b m) = waitsOf s := by
  unfold State.busSend; dsimp only; split <;> simp

@[simp] theorem waits_icSync (s : State) : waitsOf s.icSync = waitsOf s := by
  unfold State.icSync
  apply waits_foldl
  intro s p
  dsimp only
  split
  · rfl
  · rw [waits_busSend]; rfl

@[simp] theorem waits_humStop (s : State) (n : Nat) : waitsOf (s.humStop n) = waitsOf s := by
  unfold State.humStop; split <;> rfl

@[simp] theorem waits_fltMask (s : State) (a b : Nat) : waitsOf (s.fltMask a b) = waitsOf s := by
  unfold State.fltMask; repeat' (first | rfl | split)

theorem waits_counts (s : State) (l : Tbl FltCount) :
    waitsOf { s with fences := { s.fences with counts := l } } = waitsOf s := rfl

theorem waits_turnSevere (s : State) (e : FltEvent) (c : Word) (h : e.fence = none) :
    waitsOf (s.turnSevere e c) = waitsOf s := by
  unfold State.turnSevere
  rw [h]
  dsimp only
  repeat' (first | (simp only [waits_fltMask, waits_humStop, waits_andNotReg, waits_errMessage, waits_orReg, waits_setReg]; done) | split)

theorem waits_raiseQuiet (s : State) (e : FltEvent) (hf : e.fence = none) :
    waitsOf (s.raiseQuiet e) = waitsOf s := by
  unfold State.raiseQuiet
  split
  · rfl
  · refine waits_ite rfl ?_
    have fin : ∀ (u : State) (c : Prop) [Decidable c] (d : Prop) [Decidable d] (cfg : Word) (a id : Nat) (i : Option Nat)
        (st : Byte), waitsOf (if d then State.turnSevere (if c then u.errMessage a id i st else u) e cfg
          else if c then u.errMessage a id i st else u) = waitsOf u := by
      intro u c _ d _ cfg a id i st
      have : waitsOf (if c then u.errMessage a id i st else u) = waitsOf u := waits_ite (waits_errMessage u a id i st) rfl
      exact waits_ite ((waits_turnSevere _ _ _ hf).trans this) this
    refine (fin _ _ _ _ _ _ _ _).trans ?_
    rw [waits_satReg, waits_setReg, waits_counts, waits_orReg]
    split <;> rfl

theorem waits_irqLevelCore (s : State) (n : Nat) (b : Bool) (hn : stormUnit n = none) :
    waitsOf (s.irqLevelCore n b).1 = waitsOf s := by
  unfold State.irqLevelCore
  dsimp only
  split
  · rfl
  · split
    · exact waits_setIrq _ _ _
    · split
      · rw [waits_raiseQuiet _ _ hn, waits_setReg, waits_setIrq]
      · exact waits_setIrq _ _ _

theorem waits_irqLevel (s : State) (n : Nat) (b : Bool) (hn : stormUnit n = none) :
    waitsOf (s.irqLevel n b) = waitsOf s := by
  unfold State.irqLevel
  dsimp only
  rw [waits_icSync]
  split
  · rw [waits_irqLevelCore _ _ _ (by decide), waits_irqLevelCore _ _ _ hn]
  · exact waits_irqLevelCore _ _ _ hn

/-- An event that names no unit to fence, of a hub block. -/
theorem waits_raise (s : State) (e : FltEvent) (hf : e.fence = none) (hb : e.id / 32 < 32) :
    waitsOf (s.raise e) = waitsOf s := by
  unfold State.raise State.syncLine
  have : stormUnit (704 + e.id / 32) = none := by
    unfold stormUnit
    rw [if_neg (by omega), if_neg (by omega), if_neg (by omega), if_neg (by omega)]
  rw [waits_irqLevel _ _ _ this, waits_raiseQuiet _ _ hf]

@[simp] theorem waits_writeCompl (s : State) (r : Nat) (ws : List Word) : waitsOf (s.writeCompl r ws) = waitsOf s := rfl

@[simp] theorem waits_complete (s : State) (r : Nat) (e : Entry) (st : Byte) (rs : List Word) (d : Nat) :
    waitsOf (s.complete r e st rs d) = waitsOf s := by
  unfold State.complete
  dsimp only
  split <;> rfl

@[simp] theorem waits_flushDiscarded (s : State) (r n : Nat) : waitsOf (s.flushDiscarded r n) = waitsOf s := by
  induction n generalizing s with
  | zero => rfl
  | succ n ih =>
    unfold State.flushDiscarded
    dsimp only
    split
    · split
      · rw [ih, waits_complete, waits_setRing]
      · rfl
    · rfl

@[simp] theorem waits_sendPktAt (s : State) (m t l : Nat) (p : List Word) : waitsOf (s.sendPktAt m t l p) = waitsOf s := by
  unfold State.sendPktAt
  split <;> rfl

@[simp] theorem waits_sendPkt (s : State) (m t : Nat) (p : List Word) : waitsOf (s.sendPkt m t p) = waitsOf s :=
  waits_sendPktAt s m t 0 p

@[simp] theorem waits_answerRemote (s : State) (m : Nat) (k : Word) (st : Byte) (rs : List Word) :
    waitsOf (s.answerRemote m k st rs) = waitsOf s := by
  unfold State.answerRemote
  simp

@[simp] theorem waits_countDone (s : State) (c : Cmd) (st : Byte) (d : Nat) : waitsOf (s.countDone c st d) = waitsOf s := by
  unfold State.countDone
  have h : waitsOf (if st = St.staleHandle then (s.incReg Reg.cmdExecCnt).satReg Reg.combStaleCnt
      else s.incReg Reg.cmdExecCnt) = waitsOf s := waits_ite (waits_satReg _ _) (waits_incReg _ _)
  refine waits_ite h ?_
  rw [waits_raise _ _ rfl (show Flt.refused / 32 < 32 by decide), waits_setReg]
  cases c.src with
  | ring r => rw [waits_setReg, waits_setReg, waits_satReg]; exact h
  | remote k => rw [waits_setReg, waits_satReg]; exact h

/-- A completion, of whatever status, changes nothing that the block works on. -/
@[simp] theorem waits_finishCmd (s : State) (c : Cmd) (st : Byte) (rs : List Word) (d : Nat) :
    waitsOf (s.finishCmd c st rs d) = waitsOf s := by
  unfold State.finishCmd
  dsimp only
  rw [waits_countDone]
  split
  · split
    · rw [waits_flushDiscarded, waits_complete, waits_modRing]; rfl
    · rfl
  · split
    · split
      · rfl
      · rw [waits_answerRemote]; rfl
    · rfl

theorem quiet_of {s t : State} (h : Quiet s) (hw : workOf t = workOf s) (hq : waitsOf t = waitsOf s) : Quiet t := by
  obtain ⟨h1, h2, h3, h4, h5, h6⟩ := h
  have hi : t.insts = s.insts := congrArg Work.insts hw
  simp only [waitsOf, Prod.mk.injEq] at hq
  obtain ⟨e1, e2, e3, e4, e5⟩ := hq
  exact ⟨by rw [e1, h1], by rw [e2, h2], by rw [hi]; exact h3, by rw [e3, h4], by rw [e4, h5], by rw [e5, h6]⟩

/-- Where nothing waits, only the Forager's fetching and the orphan record go on. -/
theorem carryOn_quiet {s : State} (h : Quiet s) : s.carryOn = s.fetchSettle.orphanSettle := by
  obtain ⟨h1, h2, h3, h4, h5, h6⟩ := h
  have hf : s.fenceSettle 16 = s := by unfold State.fenceSettle; rw [h1]
  have hu : s.unfenceSettle = s := by unfold State.unfenceSettle; rw [h2]
  have hr : s.resetsSettle = s := by
    have : (s.insts.filter fun e => e.2.seq.isSome) = [] := by
      rw [List.filter_eq_nil_iff]
      intro e he
      rw [h3 e he]; simp
    unfold State.resetsSettle
    rw [this, List.map_nil, List.foldl_nil]
    dsimp only
    rw [h4]
  have hp : s.updateSettle = s := by unfold State.updateSettle; rw [h5]
  have ha : s.activateNext 8 = s := by unfold State.activateNext; rw [h6]; rfl
  unfold State.carryOn
  rw [hf, hu, hr, hp, ha]

@[simp] theorem work_publish (s : State) (r : Nat) (t : Word) : workOf (s.publish r t) = workOf s := rfl

@[simp] theorem work_takeEntry (s : State) (r : Nat) (e : Entry) : workOf (s.takeEntry r e) = workOf s := rfl

/-- A push taken or discarded changes nothing that the block works on. -/
@[simp] theorem work_takePush (s : State) (r : Nat) : workOf (s.takePush r) = workOf s := by
  unfold State.takePush
  split
  · rfl
  · dsimp only
    refine work_ite rfl (work_ite ?_ (work_ite rfl ?_))
    · rw [work_publish]; exact work_satReg _ _
    · rw [work_incReg, work_takeEntry, work_modRing]; rfl

@[simp] theorem work_fetchIssue (s : State) (r : Nat) : workOf (s.fetchIssue r) = workOf s := rfl

@[simp] theorem work_fetchTurns (s : State) (n : Nat) : workOf (s.fetchTurns n) = workOf s := by
  induction n generalizing s with
  | zero => rfl
  | succ n ih =>
    unfold State.fetchTurns
    split
    · rfl
    · split
      · rfl
      · rw [ih, work_fetchIssue, work_modRing]; rfl

/-- Fetching changes nothing that the block works on. -/
@[simp] theorem work_fetchSettle (s : State) : workOf s.fetchSettle = workOf s := by
  unfold State.fetchSettle
  refine work_ite ?_ rfl
  rw [work_fetchTurns, work_foldl work_takePush]

@[simp] theorem work_orphanSettle (s : State) : workOf s.orphanSettle = workOf s := by
  unfold State.orphanSettle
  exact work_ite rfl rfl

@[simp] theorem work_sendOut (s : State) (q : Queued) : workOf (s.sendOut q) = workOf s := by
  unfold State.sendOut; split <;> rfl

/-- Sending what is queued changes nothing that the block works on. -/
@[simp] theorem work_sendDrain (s : State) : workOf s.sendDrain = workOf s := by
  unfold State.sendDrain
  rw [work_foldl work_sendOut]; rfl

/-- With nothing queued nothing is sent. -/
theorem sendDrain_empty {s : State} (h : s.swarm.sendq = []) : s.sendDrain = s := by
  have e : ({ s with swarm := { s.swarm with sendq := s.swarm.sendq } } : State) = s := rfl
  unfold State.sendDrain
  rw [h] at e ⊢
  exact e

/-- Answers of a command that leaves all that the block works on, and lets nothing wait. -/
def Keeps (s : State) : Answer → Prop
  | .refuse _ _ => True
  | .done t _ => workOf t = workOf s ∧ waitsOf t = waitsOf s
  | .ends _ _ _ | .later _ _ | .long _ _ _ _ _ _ => False

theorem perform_keeps (s : State) (src : Src) (op : Nat) (body : Cmd → State → Answer) (h : ∀ c, Keeps s (body c s)) :
    workOf (s.perform src op body) = workOf s ∧ waitsOf (s.perform src op body) = waitsOf s := by
  unfold State.perform
  split
  · exact ⟨rfl, rfl⟩
  · rename_i c _
    split
    · exact ⟨rfl, rfl⟩
    split
    · exact ⟨work_finishCmd _ _ _ _ _, waits_finishCmd _ _ _ _ _⟩
    · dsimp only
      have hk := h c
      have : Keeps s ((body c s).checked c.statusFail) := by
        unfold Answer.checked
        split
        · exact hk
        · split
          · split <;> trivial
          · trivial
      revert this
      cases (body c s).checked c.statusFail with
      | refuse st d => exact fun _ => ⟨work_finishCmd _ _ _ _ _, waits_finishCmd _ _ _ _ _⟩
      | done t rs => exact fun hk => ⟨(work_finishCmd _ _ _ _ _).trans hk.1, (waits_finishCmd _ _ _ _ _).trans hk.2⟩
      | ends _ _ _ => exact fun hk => hk.elim
      | later _ _ => exact fun hk => hk.elim
      | long _ _ _ _ _ _ => exact fun hk => hk.elim

/-- An effect that leaves all that the block works on, and lets nothing wait, is the whole of what a command does. -/
theorem act_keeps {s t : State} {f : State → State} (hq : Quiet s) (h : workOf (f s) = workOf s ∧ waitsOf (f s) = waitsOf s)
    (e : act s f = .next t) : workOf t = workOf s := by
  unfold act at e
  cases e
  split
  · unfold State.settle; rw [carryOn_quiet (quiet_of hq h.1 h.2), work_sendDrain, work_orphanSettle, work_fetchSettle]; exact h.1
  · rfl

end Sys2Proof
end

