-- ==== Sys2Proof/WellFormed.lean ====
section
/-!
DEFINITION. Which commands are well formed: every operand lies in the range that the spec gives the object it numbers.
-/

namespace Sys2Proof

/-- Functions, instances: 0–63 (R317). -/
def okFn (n : Nat) : Bool := decide (n < 64)

/-- Submission rings and token rings: 0–65 535 (R277, R293). -/
def okRing (n : Nat) : Bool := decide (n < 65536)

/-- Comb entries (R33). -/
def okIndex (n : Nat) : Bool := decide (n < 262144)

/-- Partitions (R196), contexts (R199), frame agents, cores of a cluster, engine kinds, context slots. -/
def okPart (n : Nat) : Bool := decide (n < 128)
def okCtx (n : Nat) : Bool := decide (n < 4096)
def okAgent (n : Nat) : Bool := decide (n < 32)
def okCore (n : Nat) : Bool := decide (n < 64)
def okEngine (n : Nat) : Bool := decide (n < 5)
def okSlot (n : Nat) : Bool := decide (n < 4)

/-- The place of a step on an agent: its context's slot, or 256 + context while that is swapped out. -/
def okStepSlot (n : Nat) : Bool := okSlot n || (decide (256 ≤ n) && okCtx (n - 256))

/-- Brood stacks, dies, cyclic tables and slots, members, link ports, processors, interrupt sources. -/
def okStack (n : Nat) : Bool := decide (n < 12)
def okDie (n : Nat) : Bool := decide (n < 4)
def okTable (n : Nat) : Bool := decide (n < 8)
def okCycSlot (n : Nat) : Bool := decide (n < 1024)
def okMember (n : Nat) : Bool := decide (n < 8192)
def okPort (n : Nat) : Bool := decide (n < 72)
def okProc (n : Nat) : Bool := decide (n < 35)
def okIrq (n : Nat) : Bool := decide (n < 768)

/-- A remote slot (R253) or a ring. -/
def Src.ok : Src → Bool
  | .ring r => okRing r
  | .remote n => decide (n < 64)

/-- A swarm packet's header fields in their widths (R244). -/
def SwarmHdr.ok (h : SwarmHdr) : Bool :=
  okPort h.port && decide (h.ver < 16) && decide (h.len < 32) && okMember h.src && okMember h.dst

/-- A target of the fence bus (R375). -/
def okTarget (cls index : Nat) : Bool :=
  match cls with
  | 0 => okAgent index
  | 1 => okStack index
  | 2 => decide (index < 32)
  | 3 => okPort index
  | _ => false

/-- A command whose every operand lies in its range. Operands of full-width types need no check. -/
def Instr.wellFormed : Instr → Bool
  | .nop src | .ringCreate src | .ringEnable src | .ringDisable src | .ringDestroy src | .tokenRingCreate src
  | .tokenRingDestroy src | .leaseRenew src | .instanceResize src | .instanceReset src
  | .instanceDestroy src | .instanceFreeze src | .instanceSave src | .instanceThaw src
  | .partitionCreate src | .partitionDestroy src | .contextCreate src | .contextSet src | .contextDestroy src
  | .bwrSet src | .pageGeom src | .modelUnload src | .serveBind src | .serveUnbind src | .sampleBind src
  | .sampleTableFree src | .automatonFree src | .admitStream src | .streamSet src | .streamQuery src _
  | .streamPark src | .streamResume src | .streamRetire src | .streamRelease src | .tokenLogRead src
  | .prefixCreate src | .prefixFree src | .runStep src | .cycStart src | .cycStop src | .cycFree src
  | .swarmSelfSet src | .swarmMemberSet src | .swarmMemberClear src | .capBind src | .capUnbind src
  | .capFill src | .capRiskHint src | .waggleSet src => src.ok
  | .instanceCreate src numVfs => src.ok && okFn numVfs
  | .instanceRestore src _ | .modelLoad src _ | .sampleTableLoad src _ | .automatonLoad src _
  | .streamAppend src _ | .cycLoad src _ | .swarmGroupSet src _ | .openRegionRoutine src _ => src.ok
  | .instanceQuiescent i | .hello i | .fwStage i _ | .fwActivate i | .fwCoreUpdate i | .orphanResume i
  | .orphanReset i | .zeroize i | .lifecycleAdvance i _ _ | .openKeySet i | .selfTest i | .openLoad i _
  | .openClear i | .mbxInGo i | .mbxOutAck i | .mbxOutPost i _ | .bootRingEnable i | .bootRingDisable i
  | .tbReacq i | .tbTodArm i | .tbNowCapture i | .swarmPortEnable i _ | .fwRestartForce i | .vfFlr i
  | .flrTimeout i | .fenceCmd i _ | .unfenceCmd i _ | .faultForce i _ _ | .stormUnmask i _
  | .rcCounterRead i _ | .registerWrite i _ _ _ | .softReset i _ | .sleepRequest i | .sleepRequestClear i => okFn i
  | .openRoutineTimeout | .mchkReadbackDone _ | .xlateTrap | .zeroizeDone _ | .inspectionSnapshot
  | .inspectionSnapshotDone | .combInitDone | .firstPagesRetry | .idleSweep | .frameTableSweep | .retireFramePop
  | .ppsEdge _ | .missedSecond | .acquireNoEdge | .holdoverExpire | .riskRecompute | .heartbeatPeriod
  | .secondCopySend | .keyActivate | .bootLoadTimeout | .leaseExpiry | .linkDown | .pfFlr | .humToggle
  | .powerOnReset | .resetRelease | .guardPostDone _ | .entropyRetest _ | .softResetTakeEffect | .sleepEntryDone
  | .wakeTimeReached | .wakeRestoreDone _ _ | .freezePin | .thaw | .idcode | .scanSel _ | .scanDump | .bypass _
  | .fuseProgramAck _ | .stageVerifyDone _ | .htpDcCompletion _ _ | .atsInvalidation _ _
  | .requestRetryTimeout _ | .announceExpiry _ | .narrowPathResponse _ _
  | .narrowPathTimeout _ | .statusBlockUpdate _ | .statusBlockWriteError _ => true
  | .parityMachineCheck addr mask => decide (addr < 16384) && decide (mask < 65536)
  | .getVersion q | .getCapabilities q | .negotiateAlgorithms q _ | .getDigests q | .getCertificate q _
  | .challenge q _ | .getMeasurements q _ | .keyExchange q _ | .finish q _ | .keyUpdate q | .spdmHeartbeat q
  | .endSession q | .swarmKeyLoad q _ _ _ | .ideKmQuery q => okFn q.fn
  | .ideKmKeyProg q st sub set | .ideKmKSetGo q st sub set | .ideKmKSetStop q st sub set =>
    okFn q.fn && decide (st < 8) && decide (sub < 3) && decide (set < 2)
  | .doorbellWrite f r _ | .pushWrite f r _ | .tokenRingDoorbell f r _ => okFn f && okRing r
  | .fetchReadComplete r _ | .fetchRereadTimer r | .specPollTimer r | .entryStart r | .barrierRelease r
  | .headShadowWrite r | .completionWriteError r _ | .ringDrainEnd r => okRing r
  | .hostCopyDone c _ | .stepDispatch c | .contextSwapOut c | .contextSaveDone c _ | .contextLoad c
  | .contextLoadDone c _ | .timedStart c _ | .capPageTransfer c | .stagingCopyDone c _ | .buddyReseek c
  | .fillPageReceived c _ => okCtx c
  | .scrubRow l => l.all fun x => okIndex x.index && decide (x.word < 64) && decide (1 ≤ x.kind ∧ x.kind ≤ 3)
  | .promptFetchDone i _ | .promptFetchFail i => okIndex i
  | .forecast p | .commit p | .commitWaitTimeout p | .draftStepCompose p | .sliceEnd p | .sliceDrainTimeout p
  | .boundaryTest p | .boundaryRetest p => okPart p
  | .pagerMemberReport p i => okPart p && okIndex i
  | .memberTableWriteError p k => okPart p && decide (k < 3)
  | .pressureVictim d => okDie d
  | .dispatchRecord a sl p | .launchExpand a sl p | .preemption a sl p | .slotStopped a sl p =>
    okAgent a && okSlot sl && okPart p
  | .executionFaultReport a sl p | .stepStop a sl p | .endOfStepRecord a sl p => okAgent a && okStepSlot sl && okPart p
  | .programCheckDone a sl p _ _ | .completionRecord a sl p _ => okAgent a && okStepSlot sl && okPart p
  | .engineCommandIssue a c e | .queueCredit a c e | .headIssue a c e | .waitTimeout a c e
  | .gateTimeout a c e => okAgent a && okCore c && okEngine e
  | .fabricReadResponse (.op _) _ => true
  | .fabricReadResponse (.agent a sl p) _ => okAgent a && okSlot sl && okPart p
  | .commandComplete a c e sl _ _ _ q => decide (q < 4) && okAgent a && okCore c && okEngine e && okSlot sl
  | .sampleRowDone p k _ _ _ | .fullScanDone p k _ _ _ => okPart p && decide (k < 3)
  | .memberStepEnd p k _ => okPart p && decide (k < 3)
  | .regulatorRefill cls port => okTarget (cls + 1) port
  | .pageMoveDone d _ => okDie d
  | .demotePage d i => okDie d && okIndex i
  | .regionPoison _ _ | .regionRepairDone _ _ _ _ => true
  | .framePoison k i _ _ => decide (k < 9) && okIndex i
  | .cycleBoundary t => okTable t
  | .slotLead t sl | .slotStart t sl | .slotDeadline t sl => okTable t && okCycSlot sl
  | .stkHotRise k | .stkHotFall k | .stkCritRise k | .stkCritFall k | .throttleHoldRelease k
  | .deferExpire k => okStack k
  | .swarmHello h _ _ | .swarmHelloAck h _ _ | .swarmHeartbeat h | .timeReq h _ _ | .timeResp h _ _ _ _
  | .collAnnounce h _ _ _ _ | .stepSlip h _ _ _ | .stateNotice h | .remoteResult h _ _ _
  | .capOffer h _ _ _ _ | .capAccept h _ _ _ | .capReport h _ _ _ _ _ _ | .capPlan h _ _ _ _ _ _ _
  | .capCut h _ _ _ _ _ _ | .capSeal h _ _ _ _ | .capAck h _ _ _ _ _ _ | .capFillPacket h _ _ _ _ _ => h.ok
  | .collAbandon h _ _ _ m => h.ok && okMember m
  | .remoteCmd h _ f n _ => h.ok && decide (f < n) && decide (n ≤ 8)
  | .absenceTimeout m | .timeTransferPeriod m => okMember m
  | .remoteSlotTimeout n => decide (n < 64)
  | .windowMiss c _ m => okCtx c && okMember m
  | .collArrived p c _ m => okPort p && okCtx c && okMember m
  | .collDone p c _ _ => okPort p && okCtx c
  | .linkHealth p _ _ | .portState p _ | .swarmDrop p => okPort p
  | .watchdogExpiry p | .processorTrapFault p _ _ | .restartLimitExpiry p | .rebuildComplete p
  | .processorLoaded p _ | .icClaim p _ => okProc p
  | .icComplete p _ n => okProc p && okIrq n
  | .wagglePassage n => decide (n < 256)
  | .fenceBusFence c i _ | .fenceBusUnfence c i _ | .fenceBusReg c i _ | .fenceBusAck c i _ | .fenceBusNak c i _
  | .fenceAckTimeout c i => okTarget c i
  | .fenceBusIrq a _ => okAgent a
  | .severeClear f id _ => okFn f && decide (id < 2048)
  | .irqLevelChange n _ => okIrq n
  | .holdoffExpiry g => decide (g < 64)
  | .fuseMapReadDone ws _ => decide (ws.length = 512)
  | .capPageReceived o _ _ _ => okMember o
  | .mcCePulse cls port => decide (cls < 2) && okTarget (cls + 1) port

end Sys2Proof
end

