-- ==== Sys2Proof/Tests/Slice0.lean ====
section
/-!
SUPPORT. Tests: a term that each well-formedness check refuses, values that the spec states, and for each statement a
concrete state and operands that meet its premises.
-/

namespace Sys2Proof.Tests

open Sys2Proof Sys2Proof.Machine

-- One theorem after another: each by itself is small, all of them at once want many threads' stacks.
set_option Elab.async false

/-! ## Ill-formed commands, one for each check -/

theorem test_wf_ring : Instr.wellFormed (.nop (.ring 65536)) = false := by decide
theorem test_wf_remote : Instr.wellFormed (.nop (.remote 64)) = false := by decide
theorem test_wf_fn : Instr.wellFormed (.hello 64) = false := by decide
theorem test_wf_index : Instr.wellFormed (.promptFetchFail 262144) = false := by decide
theorem test_wf_part : Instr.wellFormed (.forecast 128) = false := by decide
theorem test_wf_ctx : Instr.wellFormed (.stepDispatch 4096) = false := by decide
theorem test_wf_agent : Instr.wellFormed (.preemption 32 0 0) = false := by decide
theorem test_wf_core : Instr.wellFormed (.queueCredit 0 64 0) = false := by decide
theorem test_wf_engine : Instr.wellFormed (.queueCredit 0 0 5) = false := by decide
theorem test_wf_slot : Instr.wellFormed (.preemption 0 4 0) = false := by decide
theorem test_wf_step_slot : Instr.wellFormed (.stepStop 0 4352 0) = false := by decide
theorem test_wf_stack : Instr.wellFormed (.stkHotRise 12) = false := by decide
theorem test_wf_die : Instr.wellFormed (.pressureVictim 4) = false := by decide
theorem test_wf_table : Instr.wellFormed (.cycleBoundary 8) = false := by decide
theorem test_wf_cyc_slot : Instr.wellFormed (.slotStart 0 1024) = false := by decide
theorem test_wf_member : Instr.wellFormed (.absenceTimeout 8192) = false := by decide
theorem test_wf_port : Instr.wellFormed (.swarmDrop 72) = false := by decide
theorem test_wf_proc : Instr.wellFormed (.watchdogExpiry 35) = false := by decide
theorem test_wf_irq : Instr.wellFormed (.irqLevelChange 768 true) = false := by decide
theorem test_wf_group : Instr.wellFormed (.holdoffExpiry 64) = false := by decide
theorem test_wf_waggle : Instr.wellFormed (.wagglePassage 256) = false := by decide
theorem test_wf_remote_slot : Instr.wellFormed (.remoteSlotTimeout 64) = false := by decide
theorem test_wf_step_kind : Instr.wellFormed (.memberTableWriteError 0 3) = false := by decide
theorem test_wf_target_class : Instr.wellFormed (.fenceAckTimeout 4 0) = false := by decide
theorem test_wf_target_index : Instr.wellFormed (.fenceAckTimeout 1 12) = false := by decide
theorem test_wf_parity : Instr.wellFormed (.parityMachineCheck 16384 0) = false := by decide
theorem test_wf_parity_mask : Instr.wellFormed (.parityMachineCheck 0 65536) = false := by decide
theorem test_wf_fuses : Instr.wellFormed (.fuseMapReadDone [] false) = false := by decide
theorem test_wf_fault_id : Instr.wellFormed (.severeClear 0 2048 0) = false := by decide
theorem test_wf_strike : Instr.wellFormed (.scrubRow [{ index := 0, word := 0, kind := 4 }]) = false := by decide
theorem test_wf_strike_word : Instr.wellFormed (.scrubRow [{ index := 0, word := 64, kind := 1 }]) = false := by decide
theorem test_wf_credits : Instr.wellFormed (.mcCePulse 2 0) = false := by decide
theorem test_wf_header : Instr.wellFormed (.swarmHeartbeat
    { port := 0, ver := 16, defined := true, reserved := false, len := 0, src := 2, dst := 1, seq := 1, epoch := 0,
      traceable := false, tbState := 0, tagOk := true }) = false := by decide
theorem test_wf_header_len : Instr.wellFormed (.swarmHeartbeat
    { port := 0, ver := 1, defined := true, reserved := false, len := 32, src := 2, dst := 1, seq := 1, epoch := 0, traceable := false,
      tbState := 0, tagOk := true }) = false := by decide
theorem test_wf_fragment : Instr.wellFormed (.remoteCmd
    { port := 0, ver := 1, defined := true, reserved := false, len := 2, src := 2, dst := 1, seq := 1, epoch := 0, traceable := false,
      tbState := 0, tagOk := true } 0 1 1 []) = false := by decide
def doe : DoeReq := { fn := 0, bytes := 4, session := none, ok := true, version := 0x12, test := .passed, key := [] }
theorem test_wf_stream : Instr.wellFormed (.ideKmKeyProg { doe with bytes := 0 } 8 0 0) = false := by
  decide
theorem test_wf_sub_stream :
    Instr.wellFormed (.ideKmKeyProg { doe with bytes := 0 } 0 3 0) = false := by decide
theorem test_wf_key_set :
    Instr.wellFormed (.ideKmKeyProg { doe with bytes := 0 } 0 0 2) = false := by decide

/-! ## Values that the spec states -/

/-- R177 example of spec/17: PRP_F_CFG of fault id 1 699 resets to 0x0480_040A. -/
theorem test_prp_f_cfg : State.reset.reg (prpFCfg 1699) = 0x0480040A#32 := by decide

/-! ## States for the witnesses -/

/-- The block up: fuses read, every processor running, the Comb initialised. -/
def up : State :=
  { power := { phase := .up, fuses := { words := List.replicate 9 0xFFFFFFFF } },
    fw := { phase := .run, procs := (List.range 35).map fun p => (p, { st := .running }) },
    comb := { initDone := true },
    guard := { drbg := true, postDone := true, postPass := true } }

/-- The command of an opcode with the words ps from byte 0x08 on, as ring 0 gives it. -/
def said (op : Nat) (ps : List Word) : Cmd :=
  { src := .ring 0, inst := 0, remote := none, index := 0, ws := [Word.mk (op * 2 ^ 24 + 0x101), 0] ++ ps }

/-- Ring 0 with a started entry. -/
def holding (ws : List Word) : Ring := { st := .enabled, started := some { index := 0, words := ws } }

/-- The interpreter holds that command as the started entry of ring 0. -/
def asking (s : State) (op : Nat) (ps : List Word) : State :=
  { s with
    forager := { s.forager with rings := Tbl.insert s.forager.rings 0 (holding (said op ps).ws) },
    interp := { s.interp with current := some (.ring 0) } }

/-- Entry 5 of the Comb under generation 1, and its handle. -/
def withEntry (s : State) (e : CombEntry) : State := { s with comb := { s.comb with entries := [(5, e)] } }
def five : Word := 0x40005

/-- The state that offers the command meets the premise of the interpreter's statements. -/
abbrev Asked (s : State) (op : Nat) (ps : List Word) : Prop :=
  (asking s op ps).clocked = true ∧ (asking s op ps).cmd (.ring 0) = some (said op ps) ∧ (said op ps).opcode = op ∧
    (said op ps).statusFail = none

theorem asked_offers (s : State) (op : Nat) (ps : List Word) (h : Asked s op ps) :
    Offers (asking s op ps) (.ring 0) op (said op ps) := ⟨h.1, h.2.1, h.2.2.1, h.2.2.2, rfl⟩

/-- The Timebase at n ns; registers with values of their own; function 0's mailbox with a message. -/
def timeAt (s : State) (n : Nat) : State := { s with tb := { s.tb with ctr := BitVec.ofNat 96 (n * 2 ^ 32) } }
def withRegs (s : State) (l : Tbl Word) : State := { s with regs := l ++ s.regs }
def mailed (s : State) (code : Nat) (matched : Option (Nat × Nat)) (words : Tbl Word) : State :=
  withRegs { s with insts := [(0, { st := .active, inBusy := true, matched })] }
    ((pageKey 0 Reg.mbxIn, Word.mk (code * 2 ^ 16)) :: words.map fun e => (pageKey 0 (Reg.mbxIn + 16 + e.1), e.2))

/-- A packet's doubleword at the start of the 64 KiB that instance 0 has in its windows, whatever the integration. -/
def winLo : Word := Word.mk (Config.windowPage 0 * 65536)
def winHi : Word := Word.mk (Config.windowPage 0 * 65536 / 2 ^ 32)

theorem window_addr : (Dword.ofWords winLo winHi).toNat = Config.windowPage 0 * 65536 := by
  have h : Config.windowPage 0 < 2 ^ 32 := Nat.mod_lt _ (by decide)
  simp only [Dword.ofWords, winLo, winHi, Word.mk, BitVec.toNat_ofNat]
  omega

theorem window_in (n : Nat) (h : n ≤ 65536) : Config.inWindows 0 (Dword.ofWords winLo winHi).toNat n = true := by
  rw [window_addr]
  unfold Config.inWindows
  rw [Bool.or_eq_true, Bool.and_eq_true]
  exact Or.inl ⟨by simp, by simp; omega⟩

/-- A ring, a token ring and a long operation of function 0. -/
def withRing (s : State) (r : Nat) (x : Ring) : State :=
  { s with forager := { s.forager with rings := Tbl.insert s.forager.rings r x } }
def tok9 : TokenRing := { inst := 0, base := 0, sizeLog2 := 6, head := 0, tail := 2 }
def tokened : State := { up with forager := { tokens := [(9, tok9)] } }
def longOp : LongOp :=
  { inst := 0, opcode := 0x41, body := .model 1 [], ring := some 64, index := 0, addr := 0x1000, due := true }

/-- A packet from byte 0x08 to byte 0x98, by the words that are not 0. -/
def packet (l : Tbl Word) : List Word := (List.range 37).map fun i => Tbl.get (fun _ => 0) l (8 + 4 * i)

/-- Instance 0 with partition 3 of two quarter-clusters, context 7 resident on it, a binding of MAIN with its sample
binding, model 1, token ring 9, and frames in every pool. -/
def bound : RoleBinding :=
  { model := 1, variants := [{ program := 0, seqs := 4, toks := 64 }], mtBase := 0, tFixedNs := 0, tTokPs := 0, tCtxPs := 0,
    context := 8 }
def smp : SampleBinding :=
  { vocab := 16, width := 16, sumBase := 0, rowsMax := 36, logitBase := 0, lfmt := 0, penWindow := 0 }
def frames : Tbl Pool := (List.range 48).map fun k => (k, { count := 4096 })
def ctx7 : Context := { st := .resident, partition := 3, sliceUs := 50 }
def part3 : Partition := { qcs := [0, 1], slots := [(0, (.resident, 7))] }
def serve3 : ServePart := { main := some bound, mp := { maxSeqs := 4, budget := 64 }, geomP := 16, geomG := 1 }
def site : State :=
  { up with
    sched := { parts := [(3, part3)], ctxs := [(7, ctx7)] },
    comp := { parts := [(3, serve3)] },
    pager := { pools := frames, models := [(1, 0)] },
    sampler := { bindings := [(12, smp)] },
    forager := { tokens := [(9, tok9)] },
    regs := [(Reg.pagCtrl, 3)] }
/-- The same with an open frame of list blocks in each pool of die 0. -/
def carved : State :=
  { site with
    pager := { site.pager with
      pools := ((List.range 3).map fun k => (k, { count := 4096, used := [0] })) ++ frames.drop 3
      carved := (List.range 3).map fun k => (k * 2 ^ 32, ([], false)) } }
def withCtx (s : State) (x : Context) : State := { s with sched := { s.sched with ctxs := [(7, x)] } }
def withPart (s : State) (x : Partition) : State := { s with sched := { s.sched with parts := [(3, x)] } }
def withServe (s : State) (x : ServePart) : State := { s with comp := { s.comp with parts := [(3, x)] } }

/-- Parameters of a stream of partition 3, as ADMIT_STREAM's packet holds them. -/
def admitted : List Word :=
  packet [(0x08, 0x60000), (0x0C, 1), (0x14, 8), (0x24, 10), (0x28, 100), (0x38, 0x3F800000), (0x44, 0x3F800000),
    (0x50, 0xFFFFFFFF), (0x6C, 0xFFFFFFFF), (0x84, 9), (0x88, 0xFFFFFFFF), (0x90, 0x1000)]
def slotWords : List Word := [0x80000007, 0, 0, 10000, 0, 0, 0, 0]
def slot7 : CycSlot :=
  { en := true, policy := .preempt, context := 7, offset := 0, guardUs := 0, length := 10000, program := 0 }
def image7 : CycImage := { cycleNs := 250000, phaseNs := 0, slots := [slot7] }
def withTable (s : State) (t : CycTable) : State := { s with cyc := [(0, t)] }
def table7 : CycTable := { st := .loaded, partition := 3, image := image7 }
def automatonWords : List Word := [1, 0, 1, 0, 32, 64, 96, 0, 0, 0, 1, 0]

/-- A step of context 7 on agent 0, with one launch on the vector engine of the partition's first core. -/
def step7 : Step := { seq := 4, context := 7, agents := [0], awaiting := [0] }
def vxDesc : List Word := [0x12020400, 0, 0x10000, 0, 0, 0, 0, 0, 1]
def mxDesc : List Word :=
  (List.range 56).map fun k => Tbl.get (fun _ => 0) [(0, 0x10620C00), (2, 0x10000), (8, 1), (39, 0x10000000),
    (43, 0x10000000), (47, 0x08000000), (54, 0x10001), (55, 1)] k
def agent7 : AgentStep := { partition := 3, slot := 0, context := 7, seq := 4, program := 0, qcs := [0, 1] }
def ready7 : AgentStep := { agent7 with count := 2, checked := true, descs := [(0, vxDesc), (1, vxDesc)] }
def withAgent (s : State) (t : AgentStep) : State := { s with agents := [(0, { steps := [t] })] }
def running (st : Step) : State := withCtx site { ctx7 with dispatched := some st }

/-- A command of that launch, waiting on counter 0, and core 0 with it. -/
def part7 : CmdPart := { launch := 0, index := 0, src := [2], dst := [], wait := some { ctr := 0, exp := 1 }, signal := none, addrs := [] }
def cmd7 : EngCmd :=
  { engine := .vx, slot := 0, seq := 4, op := 0, empty := false, part := part7, packed := none, mx := none, rsv := none }
def withCore (s : State) (t : AgentStep) (x : CoreState) : State := { s with agents := [(0, { steps := [t], cores := [(0, x)] })] }
/-- The partition whose slot 0 issues. -/
def issuing (s : State) : State := withPart s { part3 with issuing := some 0 }

/-- A member of a committed step with one row at the Sampler, and a clean summary of its one shard. -/
def member5 : Member :=
  { index := 5, gen := 1, startPos := 0, nTok := 1, charge := 1, sample := true, verify := false, specD := 0, decode := true,
    homeDie := 0 }
def batch7 : ServeStep :=
  { seq := 4, kind := .batch, members := [member5], variant := 0, estNs := 0, tokens := 1, smp := some smp }
def sampling (st : RowStage) : State :=
  { withEntry (withServe site { serve3 with batch := some batch7 }) { st := .active, p := { repPenalty := 0x3F800000 } } with
    sampler := { rows := [{ partition := 3, kind := 0, member := 0, row := 0, stage := st }],
                 draws := [{ partition := 3, kind := 0, member := 0 }] } }
/-- The page of the stream's bias table in the arena waits for a repair. -/
def heldTable (s : State) : State :=
  { withEntry s { st := .active, p := { biasTable := 2, repPenalty := 0x3F800000 } } with
    sampler := { s.sampler with tables := [(2, { inst := 0, body := .stop [[1]] })] },
    pager := { s.pager with regions := [(0, { use := .tables, base := 0, pages := 1, replica := 0, st := .held,
                                              repairs := [Config.arenaAt 2 / 65536] })] } }
theorem table_held (st : RowStage) (row : Nat) (ok : RowStage → Bool) (x : RowAt)
    (h : (heldTable (sampling st)).rowAt 3 0 0 row ok = some x) (hx : x.m = member5) :
    (heldTable (sampling st)).rowHeld x = true := by
  have e : (heldTable (sampling st)).tablesOf ((heldTable (sampling st)).entry x.m.index) = [(.tables, 2, 68)] := by
    rw [hx]; cases st <;> decide +kernel
  have r : (heldTable (sampling st)).pager.regions =
      [(0, { use := .tables, base := 0, pages := 1, replica := 0, st := .held, repairs := [Config.arenaAt 2 / 65536] })] := rfl
  unfold State.rowHeld State.arenaHeld
  rw [e, r]
  simp
  omega
def summaryWords : List Word :=
  [0x3F800000, 0x3F800000, 16, 4] ++ (List.range 16).flatMap fun i => [if i = 0 then 0x3F800000 else 0, Word.mk i]
/-- Partition 3 is the first whose forecast is due. -/
def due3 (s : State) : State := { s with comp := { s.comp with fcOrder := [3] } }
def withMem (s : State) (m : StreamMem) : State := { s with pager := { s.pager with mem := [(5, m)] } }

/-- This chip is member 1 of a swarm with member 2, its port enabled under epoch 0. -/
def mate : SwarmMember := { st := .up, rate := 1, burst := 1, bucket := 1000000 }
def swarmed : State :=
  { up with
    swarm := { self := some (1, 0, 0), members := [(2, mate)] },
    guard := { up.guard with current := some { epoch := 0, key := [] } },
    regs := [(Reg.swmCtrl, 1)] }
def withMate (s : State) (x : SwarmMember) : State := { s with swarm := { s.swarm with members := [(2, x)] } }

/-- The header of a packet of n doublewords from member 2, and the state once that packet is heard. -/
def hdr (n : Nat) : SwarmHdr :=
  { port := 0, ver := 1, defined := true, reserved := false, len := n, src := 2, dst := 1, seq := 1, epoch := 0, traceable := false,
    tbState := 0, tagOk := true }
def heardBy (s : State) (h : SwarmHdr) : State :=
  s.heard h ((((s.member h.src).replay h.seq).getD {}).refill s.ns)

/-- What `Heard` asks of a state and a header. -/
abbrev Hears (s : State) (h : SwarmHdr) (len : Nat → Bool) : Prop :=
  s.clocked = true ∧ (s.reg Reg.swmCtrl).bit 0 = true ∧ s.srcOk h = true ∧ s.epochOk h = true ∧ h.ver = 1 ∧
  h.defined = true ∧ h.reserved = false ∧ len h.len = true ∧
  (((s.member h.src).replay h.seq).any fun x => decide (1000000 ≤ (x.refill s.ns).bucket)) = true

theorem hears_heard (s : State) (h : SwarmHdr) (len : Nat → Bool) (H : Hears s h len) :
    Heard s h len (heardBy s h) := by
  obtain ⟨h1, h2, h3, h4, h5, h9, h6, h7, h8⟩ := H
  cases e : (s.member h.src).replay h.seq with
  | none => simp [e] at h8
  | some x =>
    rw [e, Option.any_some] at h8
    refine ⟨h1, h2, h3, h4, h5, h9, h6, h7, x, e, of_decide_eq_true h8, ?_⟩
    unfold heardBy
    rw [e, Option.getD_some]

/-- Member 2 is the only other member of group 1, whose timed step context 7 runs. -/
def timed7 : Step := { step7 with t0 := 1, group := 1, swarmStep := 9, timed := [(0, 0)] }
def timing (st : Step) : State := withCtx { swarmed with swarm := { swarmed.swarm with groups := [(1, [1, 2])] } } { ctx7 with dispatched := some st }

/-- Context 7 bound to capping: one region of one page, member 2 its buddy. -/
def cap7 : CapCtx :=
  { st := .guarded, shard := 9, group := 1, l := 4, want := 1, override := false, lossAddr := 0, regions := [(0, 1)],
    buddies := [{ member := 2 }] }
def capped (x : CapCtx) : State :=
  { withCtx swarmed ctx7 with cap := { ctxs := [(7, x)] }, regs := [(Reg.capCtrl, 3), (Reg.swmCtrl, 1)] }
def heldFor : HeldCap := { owner := 2, shard := 9, pages := 1 }
def keeping (x : HeldCap) : State := { swarmed with cap := { held := [x] } }

/-- The firmware takes function 0's message of a code: what `Taken` asks of a state. -/
abbrev Takes (s : State) (code : Nat) : Prop :=
  s.clocked = true ∧ s.mbxServed 0 = true ∧ s.mbxCode 0 = code ∧ (s.inst 0).matched.isSome = true ∧
  s.mbxDefined 0 code = true

theorem takes_taken (s : State) (code : Nat) (h : Takes s code) : Taken s code (s.mbxRequest 0) (s.setInBusy 0 false) :=
  ⟨h.1, h.2.1, h.2.2.1, h.2.2.2.1, h.2.2.2.2, rfl, rfl⟩

/-- A request's header, and the header of an image of five sections, of 5 464 bytes with its signatures. -/
def req9 : MbxReq := { inst := 0, msg := 0x10, seq := 0, tag := 9 }
def imageWords : List Word :=
  (List.range 28).map fun k => Tbl.get (fun _ => 0)
    [(0, 0x48584657), (1, 0x10000), (2, 1), (4, 5464), (5, 5), (12, 1), (16, 2), (20, 3), (24, 4)] k

/-- An image whose block names key 3, that the guard core accepts of a chip with key 3 fused. -/
def facts3 : ImageFacts := { verified := true, openAbi := 0, release := 0 }
def staged3 : FwImage := { sig := { formed := true, keyIndex := 3, keyHash := List.replicate 12 0 } }
/-- A signature block under key 0, and the block that a fuse map holds the key hash of. -/
def tokenWords : List Word := [0x48585347, 1]
def fusedFor (s : State) : State :=
  { s with
    power := { s.power with fuses := { words := List.replicate 277 0 ++ (sigBlock tokenWords 0).keyHash } },
    guard := { s.guard with fused := 1 } }
def guarded (g : Guard) : State := { up with guard := g }

/-- Function 0's DOE requests, outside a session and in session 5: what `DoeTaken` asks of a state. -/
def doe5 : DoeReq := { doe with session := some 5 }
def sessioned (x : Session) : State := guarded { up.guard with sessions := [x] }
abbrev Talks (s : State) (q : DoeReq) (random : Bool) : Prop :=
  s.clocked = true ∧ s.hasInst q.fn = true ∧ s.guardSealed = false ∧ s.guardFail random = none ∧ q.bytes ≤ 4096 ∧
  q.ok = true ∧ (q.session = none ∨ (s.doeSession q).isSome = true) ∧ q.version = 0x12 ∧ (random = false ∨ q.test ≠ .entropy)

theorem talks_taken (s : State) (q : DoeReq) (random : Bool) (h : Talks s q random) (code : Nat) : DoeTaken s q code random :=
  ⟨h.1, h.2.1, h.2.2.1, h.2.2.2.1, h.2.2.2.2.1, h.2.2.2.2.2.1, h.2.2.2.2.2.2.1, .inr (.inl h.2.2.2.2.2.2.2.1),
    fun r => h.2.2.2.2.2.2.2.2.resolve_left (by simp [r])⟩

/-- What `Reachable` asks of a state, for function 0; a fence-bus target with a message; a source with its level high. -/
abbrev Reaches (s : State) : Prop :=
  s.power.freeze = none ∧ s.power.st = .run ∧ s.barOpen = true ∧ s.served 0 = true

theorem reaches_reachable (s : State) (h : Reaches s) : Reachable s 0 := h

def sentTo (m : BusMsg) : State := { up with fences := { bus := [(0, { sent := some { msg := m, seq := 3, sentCc := 0 } })] } }
def irq70 : IrqSrc := { cfg := 0x80000000, level := true }
def irqs (l : Tbl IrqSrc) : State := { up with ic := { srcs := l } }

/-! ## Premises met, statement by statement -/

theorem witness_StepRunsTheFrontCommand :
    ({ up with pending := [.freezePin, .thaw] } : State).pending = .freezePin :: [.thaw] := by
  decide +kernel

theorem witness_AnEmptyQueuePassesATimebaseCycle :
    State.reset.pending = [] ∧ State.reset.power.phase = .inReset ∧
    up.pending = [] ∧ up.inReset = false :=
  by decide +kernel

theorem witness_UnmatchedMessagesStop :
    (∀ k ∈ codes10 ++ codes11 ++ [0x02], (mailed up k none []).clocked = true ∧ (mailed up k none []).mbxServed 0 = true ∧
    ((mailed up k none []).inst 0).matched = none ∧ (mailed up k none []).mbxCode 0 = k) ∧
    0x02 ≠ 0x01 ∧ 0x02 ∉ codes10 ∧ 0x02 ∉ codes11 :=
  by decide +kernel

theorem witness_StaleHandlesAreRefused :
    (let s := withEntry up { st := .ready, inst := 1 };
    (0x80005 : Word).toNat / 2 ^ 18 ≠ (s.entry 5).gen.toNat ∧ (s.entry 7).st = .free ∧ (s.entry 5).inst.toNat ≠ 0) ∧
    (∀ op ∈ [0x61, 0x62, 0x63, 0x64, 0x66, 0x67], Asked (withEntry up { st := .ready, inst := 1 }) op [five]) ∧
    (∀ op ∈ [0x65, 0x69], Asked (withEntry up { st := .ready, inst := 1 }) op [five, 1]) ∧
    Asked (withEntry up { st := .ready, inst := 1 }) 0x68 [five, 0, 1048576, 0, 0, 0, 64] ∧
    (said 0x61 [five]).word 0x0C = 0 ∧ tableRangeFail 0 (packetParams (said 0x61 [five]) 0x10) = none :=
  by decide +kernel

theorem witness_FreeEntriesAreTakenInOrder :
    (∀ e ∈ State.reset.comb.entries, e.2.st ≠ .unusable) ∧ (State.reset.entry 0).st ≠ .unusable ∧ State.reset.comb.fresh < 262144 ∧
    (let c : Comb := { fresh := 262144, returned := [7] }; c.entries = [] ∧ 262144 ≤ c.fresh ∧ c.returned = 7 :: []) ∧
    (let c : Comb := { fresh := 262144 }; 262144 ≤ c.fresh ∧ c.returned = []) ∧
    (up.entry 5).gen ≠ 16383 ∧ (up.entry 5).gen ≠ 0 :=
  by decide +kernel

theorem witness_CandidateRankIsATotalOrder :
    (∀ a ∈ [((1, .fin false 2) : Logit), (2, .fin false 2), (3, .inf true), (4, .inf false)], a.2 ≠ .nan) ∧
    ((1, .fin false 2) : Logit).2 = ((2, .fin false 2) : Logit).2 ∧ Logit.above (4, .inf false) (1, .fin false 2) = true ∧
    Logit.above (1, .fin false 2) (3, .inf true) = true ∧ FP.key true 0 = FP.key false 0 ∧ FP.key true 2 < FP.key true 1 :=
  by decide +kernel

theorem witness_CompletionsLeaveTheWorkAlone :
    up.fences.demand = [] ∧ up.fences.busy = none ∧ (∀ e ∈ up.insts, e.2.seq = none) ∧ up.fw.orphanReq = none ∧
    up.fw.update = none ∧ up.fw.activate = none := by
  decide +kernel

theorem witness_CompletionsWriteTheEntry :
    (asking up 0 []).orphan = false ∧ (let s := { up with fw := { up.fw with lease := .orphan } }; s.orphan = true) := by
  decide +kernel

theorem witness_ReplayWindowMoves :
    (let x : SwarmMember := { high := 100, map := 1 }; (0 : Dword) < 100 ∧ x.high < 101 ∧ x.high < 163 ∧ x.high < 164) ∧
    (let x : SwarmMember := { high := 100, map := 1 }; (99 : Dword) ≤ x.high ∧ x.high.toNat - 99 < 64 ∧
    x.map.getLsbD (x.high.toNat - 99) = false ∧ x.high.toNat - 37 < 64 ∧ x.map.getLsbD (x.high.toNat - 37) = false) ∧
    (let x : SwarmMember := { high := 100, map := 1 }; (36 : Dword) ≤ x.high ∧ 64 ≤ x.high.toNat - 36 ∧
    x.map.getLsbD (x.high.toNat - 100) = true ∧ (x.replay 101).isSome = true) :=
  by decide +kernel

theorem witness_HighestSourceIsClaimed :
    (let s : State := { up with ic := { srcs := [(3, { cfg := 0x80000000, level := true }), (64, { cfg := 0x80000000, level := true })] } };
    (s.claimable 0 false).isSome = true ∧ s.claimable 1 false = none ∧ s.clocked = true) := by decide +kernel

theorem witness_EventsAreCountedInTheirWindow :
    (let x : FltCount := { c := 0 }; x.c = 0) ∧ (let x : FltCount := { c := 4095, ws := 5 }; x.c ≠ 0 ∧ 10 ≤ 15 - x.ws ∧ 14 - x.ws < 10) ∧
    (let s := withRegs up [(prpFCfg 1699, 0x01000000)]; s.willTurn 1699 0 = true) ∧
    (withRegs up [(prpFCfg 1699, 0x00000000)]).reg (prpFCfg 1699) = 0 :=
  by decide +kernel

theorem witness_NothingHappensBeforeItIsDue :
    up.clocked = true ∧ (up.ring 0).rereadAt = none ∧ (up.ring 0).pollAt = none ∧ Tbl.find up.ic.timers 0 = none ∧
    (up.inst 0).flrDue = none ∧ up.guard.retestAt = none ∧ up.pager.np = [] ∧
    (let s : State := { up with comb := { up.comb with scrubDue := 1 }, fw := { up.fw with expiry := 1 }, swarm := { hbAt := 1, members := [(2, { ttAt := 1 })] } };
    s.cc < s.comb.scrubDue ∧ s.ns < s.fw.expiry ∧ s.ns < s.swarm.hbAt ∧ s.ns < (s.member 2).heardAt + s.absentNs ∧
    s.ns < (s.member 2).ttAt ∧ s.ns < (withRegs s [(Reg.pwrWakeAtLo, 1)]).wakeAt) :=
  by decide +kernel

theorem witness_ForeignObjectsAreRefused :
    (∀ op ∈ [0x02, 0x03, 0x04, 0x06, 0x29, 0x2C, 0x41, 0x43, 0x46, 0x48, 0x6A, 0xA2, 0xA3, 0xC5], Asked up op [100] ∧
    (said op [100]).field 0x08 15 0 = 100) ∧
    (∀ op ∈ [0x2A, 0x2B], ∀ us ∈ [50, 100000], Asked up op [100, Word.mk us] ∧ (said op [100, Word.mk us]).field 0x0C 16 0 = us) ∧
    (∀ op ∈ [0xA1, 0xC6], Asked up op [100, 0, 0, 0, 0x1000, 0]) ∧
    (up.ring 100).st = .free ∧ Tbl.find up.forager.tokens 100 = none ∧ up.part 100 = none ∧ (up.ctx 100).st = .free ∧
    Tbl.find up.pager.models 100 = none ∧ Tbl.find up.sampler.tables 100 = none ∧ Tbl.find up.sampler.automata 100 = none ∧
    Tbl.find up.pager.prefixes 100 = none ∧ (up.table 4).st = .empty :=
  by decide +kernel

theorem witness_FormChecksComeInOrder :
    (said 0 []).ws.map (fun w => w.extractLsb' 8 8) = [1, 0] ∧ openOpcode 0x07 = false ∧ cmdForm 0x07 [] = none ∧
    cmdForm 0x08 [] = some (1, [(0x08, 0xFFFF)]) ∧ openOpcode 0x08 = false ∧
    (let c : Cmd := { said 0x28 [0] with inst := 1 }; c.inst ≠ 0 ∧ c.remote = none ∧ c.opcode = 0x28 ∧ c.field 0x08 29 24 ≠ c.inst) ∧
    (let c : Cmd := { said 0x22 [0] with inst := 1 }; c.opcode = 0x22 ∧ c.field 0x08 5 0 ≠ c.inst) ∧
    (said 0 []).authFail = none ∧ (Word.mk 0x105).field 7 2 + 1 ≠ 1 ∧ (Word.mk 0x20101).field 7 2 + 1 = 1 ∧ (Word.mk 0x20101).field 23 17 ≠ 0 ∧
    (let e : Entry := { index := 0, words := [0x07000101] };
    let s : State := { up with forager := { up.forager with rings := [(0, { st := .enabled, queue := [e] })] } };
    s.clocked = true ∧ s.canStart = true ∧ s.orphan = false ∧ s.active 0 = true ∧ (wordAt e.words 0).bit 16 = false ∧
    Tbl.find s.forager.pushes 0 = none ∧ s.bufRoom 0 64 = true ∧
    s.formFail { src := .ring 0, inst := 0, remote := none, index := 0, ws := e.words } = some (St.badOpcode, 3)) :=
  by decide +kernel

theorem witness_RingCommandsComplete :
    Asked up 0x00 [] ∧
    (let ps : List Word := [64, 0x0F0106, 0x1000, 0, 8, 0, 7]; let s := asking up 0x01 ps; let c := said 0x01 ps
    Asked up 0x01 ps ∧ c.field 0x08 15 0 = 64 ∧ (s.ring 64).st = .free ∧ c.field 0x0C 4 0 = 6 ∧
    (c.dword 0x10).toNat % 4096 = 0 ∧ (c.dword 0x18).toNat % 8 = 0 ∧ s.ringsUsed 0 < s.ringQuota 0) ∧
    (∀ op ∈ [0x02, 0x03, 0x04], Asked up op [64]) ∧ (let s := asking (withRing up 64 { st := .disabled }) 0x02 [64]; (s.ring 64).st = .disabled ∧ (s.ring 64).inst = 0) ∧ (let s := asking (withRing up 64 { st := .enabled }) 0x03 [64]; (s.ring 64).st = .enabled) ∧
    Tbl.wf ringDefault up.forager.rings = true ∧
    (let ps : List Word := [65535, 20, 0, 0, 0]; let s := asking up 0x05 ps; let c := said 0x05 ps
    Asked up 0x05 ps ∧ c.field 0x08 15 0 = 65535 ∧ Tbl.find s.forager.tokens 65535 = none ∧ c.field 0x0C 4 0 = 20 ∧
    (c.dword 0x10).toNat % 4096 = 0 ∧ s.tringsUsed 0 < s.tringQuota 0) ∧
    Asked tokened 0x06 [9] ∧ Tbl.find (asking tokened 0x06 [9]).forager.tokens 9 = some tok9 ∧ tok9.inst = 0 ∧
    (asking tokened 0x06 [9]).comb.entries = [] :=
  by decide +kernel

theorem witness_DoorbellsAndPushesComplete :
    up.power.freeze = none ∧ up.power.st = .run ∧ up.barOpen = true ∧ up.served 0 = true ∧
    (let s := withRing up 64 { st := .enabled, sizeLog2 := 6 }
    (s.ring 64).inst = 0 ∧ (s.inst 0).seq = none ∧ unitsTo (s.ring 64).head 64 ≤ (s.ring 64).size ∧
    ((64 : Word) - (s.ring 64).tail).toNat ≤ (s.ring 64).size ∧ s.fetches 64 = true ∧ Tbl.find s.forager.pushes 64 = none) ∧
    (let ws : List Word := 0x101 :: List.replicate 15 0; ws.length = 16 * entryUnits (wordAt ws 0) ∧ entryMark (wordAt ws 0) = 1 ∧
    wordAt ws 1 = ((withRing up 64 { st := .enabled }).ring 64).fetched ∧ (withRing up 64 { st := .enabled }).bufRoom 64 1 = true ∧
    wordAt ws 1 ≠ ((withRing up 64 { st := .enabled, fetched := 1 }).ring 64).fetched) ∧
    (let e : Entry := { index := 0, words := [0xFD] }
    (withRing up 64 { st := .enabled, queue := [e, e] }).bufRoom 64 1 = false) ∧
    Tbl.find tokened.forager.tokens 9 = some tok9 ∧ tok9.inst = 0 ∧ ((2 : Word) - tok9.head).toNat ≤ (tok9.tail - tok9.head).toNat ∧
    (up.ring 0).st = .disabled ∧ ((withRing up 0 { st := .enabled }).ring 0).st = .enabled :=
  by decide +kernel

theorem witness_ForagerEventsComplete :
    (withRing up 64 { st := .enabled }).clocked = true ∧ Tbl.find up.forager.reads 64 = none ∧
    (∀ b ∈ [true, false], let q : FetchRead := { at_ := 0, units := 8, stale := b }; let u := withRing up 64 { st := .enabled }
    let s : State := { u with forager := { u.forager with reads := [(64, q)] } }
    Tbl.find s.forager.reads 64 = some q ∧ q.stale = b ∧ s.fetches 64 = true ∧ (s.ring 64).st = .enabled) ∧
    (let s := withRing up 64 { st := .enabled, rereadAt := some 0, pollAt := some 0, lastTaken := some 0 }
    s.due (s.ring 64).rereadAt = true ∧ s.due (s.ring 64).pollAt = true ∧ (s.ring 64).lastTaken = some 0) ∧
    (let e : Entry := { index := 0, words := [0x101] }
    let s := withRing up 64 { st := .enabled, queue := [e] }
    (s.ring 64).queue = e :: [] ∧ (s.ring 64).started = none ∧ s.canStart = true ∧ s.orphan = false ∧ s.active 0 = true ∧
    s.bufRoom 64 64 = true ∧ Tbl.find s.forager.pushes 64 = none ∧ s.barrierMet 64 = true ∧
    s.formFail { src := .ring 64, inst := 0, remote := none, index := 0, ws := [0x101] } = none ∧
    s.formFail { src := .ring 64, inst := 0, remote := none, index := 0, ws := [0x10101] } = none) ∧
    ({ up with interp := { ops := [(0, longOp)] } } : State).barrierMet 64 = false ∧
    (let s := withRing up 64 { st := .enabled, shadowDue := true, headAddr := 8, lastDone := [2, 5] }
    (s.ring 64).shadowDue = true ∧ (s.ring 64).headAddr ≠ 0 ∧ s.orphan = false ∧ (s.ring 64).lastDone ≠ [] ∧
    wordAt (s.ring 64).lastDone 1 = 5) ∧
    (let s := withRing up 64 { st := .draining }; (s.ring 64).st = .draining ∧ (s.ring 64).started = none) :=
  by decide +kernel

theorem witness_StatusBlockWritesComplete :
    (let s : State := { up with interp := { ops := [(0, longOp)] } }
    s.clocked = true ∧ Tbl.find s.interp.ops 0 = some longOp ∧ longOp.due = true ∧ longOp.failed = false ∧ s.orphan = false ∧
    longOp.ended = false ∧ (timeAt s s.sbInterval).ns = longOp.shownAt + s.sbInterval) ∧
    { longOp with ended := true }.ended = true ∧
    (let o := { longOp with body := .tokenRead 5 1 0 1 0, upd := 2 }
    let s : State := { withEntry up { st := .ready } with interp := { ops := [(0, o)], owners := [(3, 2)] } }
    Tbl.find s.interp.ops 0 = some o ∧ o.upd ≠ 0 ∧ (s.entry 5).gen.toNat = 1 ∧ (s.entry 5).st ≠ .free ∧
    Tbl.find s.interp.ops 3 = none ∧ Tbl.find s.interp.owners 3 = some 2) :=
  by decide +kernel

theorem witness_InstanceQuotaCommandsComplete :
    (let s := asking up 0x20 [2]; let c := said 0x20 [2]
    Asked up 0x20 [2] ∧ c.field 0x08 5 0 = 2 ∧ quotaRange c = none ∧ s.hasInst 2 = false ∧ s.grantFail 2 {} c.quotas = none ∧
    s.guardFail true = none) ∧
    (let u : State := { up with insts := [(2, { st := .active })] }; let s := asking u 0x21 [2]; let c := said 0x21 [2]
    Asked u 0x21 [2] ∧ Asked u 0x23 [2] ∧ c.field 0x08 5 0 = 2 ∧ quotaRange c = none ∧ s.active 2 = true ∧
    s.instEmpty 2 true = true ∧ s.grantFail 2 (s.inst 2).q c.quotas = none) ∧
    (∀ n ∈ [0, 10, 60000], Asked up 0x08 [Word.mk n] ∧ (said 0x08 [Word.mk n]).field 0x08 15 0 = n) ∧ up.fw.lease ≠ .orphan :=
  by decide +kernel

theorem witness_InstanceSequencesComplete :
    (∀ st ∈ [InstState.active, .freezing, .frozen], let u : State := { up with insts := [(2, { st })] }
    Asked u 0x22 [2, 0, 0x1000] ∧ (u.inst 2).seq = none ∧ (u.inst 2).st = st) ∧ up.longUsed < 4096 ∧
    (let u : State := { up with insts := [(2, { st := .active })] }
    Asked u 0x24 [2] ∧ (said 0x24 [2]).field 0x08 5 0 = 2 ∧ u.active 2 = true ∧ u.instCtxs 2 = []) ∧
    (let u : State := { up with insts := [(2, { st := .freezing })] }
    Asked u 0x27 [2] ∧ u.instStill 2 = true ∧ (u.inst 2).seq = none ∧ u.hasInst 2 = true ∧ u.clocked = true) ∧
    (let u : State := { up with insts := [(2, { st := .active, flrDue := some 0, seq := some { squash := true, op := none } })] }
    (u.inst 2).flrDue = some 0 ∧ 0 ≤ u.ns ∧ (u.inst 2).seq = some { squash := true, op := none }) :=
  by decide +kernel

theorem witness_ImagesAndMailboxesComplete :
    (up.inst 0).inBusy = false ∧ (up.reg (pageKey 0 Reg.mbxIn)).field 15 8 ≤ 62 ∧ up.served 0 = true ∧
    62 < ((withRegs up [(pageKey 0 Reg.mbxIn, 0x3F00)]).reg (pageKey 0 Reg.mbxIn)).field 15 8 ∧
    (let u : State := { up with insts := [(0, { st := .active, outValid := true, outQueue := [[1], [2]] })] }
    (u.inst 0).outQueue = [1] :: [[2]] ∧ (u.inst 0).outValid = true ∧ u.procUp schedulerCore = true ∧ u.fw.phase = .run) ∧
    (up.inst 0).outQueue = [] ∧ (up.inst 0).outValid = false ∧ up.hasInst 0 = true :=
  by decide +kernel

theorem witness_PartitionAndContextCommandsComplete :
    (let ps : List Word := [5, 0, 0x10]; let s := asking site 0x28 ps; let c := said 0x28 ps
    Asked site 0x28 ps ∧ c.field 0x08 6 0 = 5 ∧ c.field 0x08 29 24 = 0 ∧ s.part 5 = none ∧ s.hasInst 0 = true ∧
    c.bit 0x08 8 = false ∧ c.dword 0x10 ≠ 0 ∧ s.partMembers c 0 = .inr ([4], [])) ∧
    (let ps : List Word := [0x105, 1]; let u := { site with power := { site.power with fuses := { words := [0, 1, 0x10, 0, 0, 0, 0x1F] } } }
    let c := said 0x28 ps
    Asked u 0x28 ps ∧ c.bit 0x08 8 = true ∧ c.field 0x08 14 12 ≤ 4 ∧ c.field 0x08 19 16 ≤ 8 ∧ c.field 0x0C 7 0 = 1 ∧
    (asking u 0x28 ps).partMembers c 0 = .inr ([4], [])) ∧
    (let u : State := { site with sched := { parts := [(3, part3)] } }; let s := asking u 0x29 [3]
    Asked u 0x29 [3] ∧ s.ownsPart (said 0x29 [3]) 3 = true ∧ s.partCtxs 3 = []) ∧
    (let ps : List Word := [3, 50]; let u := withPart site { part3 with qcs := [] }; let s := asking u 0x2A ps; let c := said 0x2A ps
    Asked u 0x2A ps ∧ c.field 0x0C 16 0 = 50 ∧ s.ownsPart c 3 = true ∧ s.ctxUsed 0 < s.ctxQuota 0 ∧
    (s.makeCtx 0 3 (c.field 0x08 23 16) 50 none).isSome = true) ∧
    (let ps : List Word := [7, 100000]; let c := said 0x2B ps
    Asked site 0x2B ps ∧ c.field 0x08 11 0 = 7 ∧ c.field 0x0C 16 0 = 100000 ∧ site.ownsCtx c 7 = true) ∧
    Asked site 0x2C [7] ∧ (site.ctx 7).role = none ∧ (site.ctx 7).destroying = false ∧ (site.ctx 7).dispatched = none ∧
    (site.ctx 7).st = .resident ∧
    ((withCtx site { ctx7 with dispatched := some {} }).ctx 7).dispatched ≠ none ∧
    ((withCtx site { ctx7 with st := .loading }).ctx 7).st = .loading ∧
    (let ps : List Word := [3, 0x10001]; let c := said 0x2D ps
    Asked site 0x2D ps ∧ c.field 0x08 9 8 ≠ 3 ∧ c.field 0x0C 11 0 ≠ 0 ∧ site.part 3 = some part3 ∧ part3.inst = 0) :=
  by and_intros <;> decide +kernel

theorem witness_ServingAndRunStepCommandsComplete :
    (let ps : List Word := [3, 0x1000010]; let c := said 0x2E ps; let s := asking site 0x2E ps
    Asked site 0x2E ps ∧ c.field 0x0C 12 0 = 16 ∧ c.field 0x0C 24 16 = 256 ∧ s.ownsPart c 3 = true ∧ s.holdsStreams 3 = false) ∧
    (∀ r ∈ [0, 1, 2], Asked site 0x43 [Word.mk (3 + r * 256)]) ∧ (site.serve 3).role .main = some bound ∧
    bound.unbinding = false ∧ site.anyLive (fun e => e.p.partition.toNat == 3) = false ∧
    (let s := withCtx site { ctx7 with dispatched := some { copying := true } }
    s.clocked = true ∧ s.stepOf 7 = some { copying := true }) ∧
    Asked site 0x41 [1] ∧ (said 0x41 [1]).field 0x08 15 0 ≠ 0xFFFF ∧ Tbl.find site.pager.models 1 = some 0 ∧
    site.modelLoading 1 = false :=
  by decide +kernel

theorem witness_SamplerCommandsComplete :
    (let ps : List Word := [2, 4096]; let c := said 0x45 ps; Asked site 0x45 ps ∧ c.field 0x0C 12 0 = 4096 ∧ c.bit 0x08 16 = false) ∧
    (let ps : List Word := [2, 2]; let l := biasEntries 2 [1, 0, 2, 0x3F800000]
    Asked site 0x45 ps ∧ (said 0x45 ps).field 0x0C 12 0 = 2 ∧ Tbl.find site.sampler.tables 2 = none ∧
    ascends (l.map fun e => e.1) = true ∧ ∀ e ∈ l, finite32 e.2 = true) ∧
    (let ps : List Word := [0x10002, 16]; Asked site 0x45 ps ∧ (said 0x45 ps).bit 0x08 16 = true ∧ (said 0x45 ps).field 0x0C 12 0 = 16 ∧
    (stopSeqs 1 [1, 5]).isSome = true ∧ (stopSeqs 16 ((List.range 272).map fun _ => 1)).isSome = true) ∧
    (let x : SampleTable := { inst := 0, body := .stop [] }; let a : Automaton := { inst := 0, vocab := 1, start := 0, states := [], masks := [], excs := [] }
    let u : State := { site with sampler := { site.sampler with tables := [(2, x)], automata := [(2, a)] } }
    Asked u 0x46 [2] ∧ Asked u 0x48 [2] ∧ Tbl.find u.sampler.tables 2 = some x ∧ Tbl.find u.sampler.automata 2 = some a ∧
    x.inst = 0 ∧ a.inst = 0 ∧ u.comb.entries = []) ∧
    (let ps : List Word := [2, 96, 0, 0, 0x1000]; Asked site 0x47 ps ∧ (said 0x47 ps).field 0x08 11 0 = 2 ∧
    Tbl.find site.sampler.automata 2 = none ∧ site.longUsed < 4096 ∧ site.arenaRoom .automata = true ∧ site.arenaRoom .tables = true ∧
    (readAutomaton 0 96 automatonWords).isSome = true) :=
  by decide +kernel

theorem witness_StreamStateCommandsComplete :
    (let s := withEntry site { st := .ready, p := { maxCtx := 10 } }
    handleIndex five = 5 ∧ s.handleOk 0 five = true ∧ (s.entry 5).poison = false ∧ s.meetsUncorrectable (wholeEntry 5) = false ∧
    (s.entry 5).pos ≠ (s.entry 5).p.maxCtx ∧ s.orphan = false ∧ ({ s with fw := { s.fw with lease := .orphan } } : State).orphan = true ∧
    ∀ op ∈ [0x62, 0x63, 0x64, 0x66, 0x67], Asked s op [five, 0, 0x40, 0] ∧ (said op [five, 0, 0x40, 0]).word 0x08 = five) ∧
    (let s := withEntry site { st := .retired }; let u : State := { s with comb := { s.comb with upsets := [(320, .double)] } }
    (u.entry 5).poison = false ∧ u.meetsUncorrectable (wholeEntry 5) = true ∧ (∀ l ∈ [[0], resumeRows, listRows], u.meetsUncorrectable (entryRows 5 l) = true) ∧
    s.meetsUncorrectable (entryRows 5 [0]) = false ∧ (s.entry 5).st = .retired ∧ s.handleOk 0 five = true ∧ u.handleOk 0 five = true) ∧
    (∀ st ∈ [StreamState.admitted, .ready, .active, .parked, .dormant], let s := withEntry site { st }
    s.handleOk 0 five = true ∧ (s.entry 5).poison = false ∧
    ∀ l ∈ [[0], resumeRows, listRows, setRows], s.meetsUncorrectable (entryRows 5 l) = false) ∧
    (let s := withEntry site { st := .ready, poison := true }; (s.entry 5).poison = true ∧
    ∀ op ∈ [0x62, 0x63, 0x64, 0x66], Asked s op [five, 0, 0x40, 0]) ∧
    (let s := withEntry site { st := .parked, pos := 8, p := { maxCtx := 1048585 } }; let ps : List Word := [five, 1048576, 0x40]
    Asked s 0x65 ps ∧ ((said 0x65 ps).word 0x0C).toNat = 1048576 ∧ (s.entry 5).pos.toNat + 1048576 < (s.entry 5).p.maxCtx.toNat) ∧
    (let s := withEntry site { st := .parked, pos := 8, p := { maxCtx := 100 } }; let ps : List Word := [five, 1, 0x40]
    Asked s 0x65 ps ∧ ((said 0x65 ps).dword 0x10).toNat % 4 = 0 ∧ (s.entry 5).pos.toNat + 1 < (s.entry 5).p.maxCtx.toNat ∧
    (s.extendLog 5 9).isSome = true) :=
  by decide +kernel

theorem witness_StreamMakingCommandsComplete :
    (let c := said 0x60 admitted; let p := packetParams c 0x08; let s := asking site 0x60 admitted
    Asked site 0x60 admitted ∧ c.word 0x14 = 8 ∧ c.word 0x14 < p.maxCtx ∧ samplingFail p = none ∧ tableRangeFail allGroups p = none ∧
    (c.dword 0x90).toNat % 4 = 0 ∧ s.objectFail 0 allGroups p 4 = none ∧ (s.reg Reg.pagCtrl).bit 0 = true ∧
    s.servesFail allGroups p 4 = none ∧ s.kindFail allGroups p 4 = none) ∧
    (let s := asking site 0x60 admitted; s.combUsed 0 < s.combQuota 0 ∧ s.combHead = some 0 ∧
    s.chooseHome 3 0xFFFFFFFF = some 0) ∧
    ((asking carved 0x60 admitted).admitMem 0 1 0 8).isSome = true ∧
    (let s := withEntry site { st := .ready }; let ps := packet [(0x08, five)]; let c := said 0x61 ps
    Asked s 0x61 ps ∧ c.word 0x0C = 0 ∧ s.handleOk 0 five = true ∧ (s.entry 5).live = true ∧
    tableRangeFail 0 ((s.entry 5).p.select (packetParams c 0x10) 0) = none ∧
    s.objectFail 0 0 ((s.entry 5).p.select (packetParams c 0x10) 0) 0x0C = none ∧
    s.servesFail 0 ((s.entry 5).p.select (packetParams c 0x10) 0) 0x0C = none ∧
    s.kindFail 0 ((s.entry 5).p.select (packetParams c 0x10) 0) 0x0C = none) ∧
    (∀ st ∈ [StreamState.ready, .active], let s := withEntry site { st }; let ps := packet [(0x08, five), (0x0C, 1)]; let c := said 0x61 ps
    Asked s 0x61 ps ∧ c.word 0x0C = 1 ∧ (s.entry 5).live = true ∧
    s.objectFail 0 1 ((s.entry 5).p.select (packetParams c 0x10) 1) 0x0C = none ∧
    s.servesFail 0 ((s.entry 5).p.select (packetParams c 0x10) 1) 0x0C = none ∧
    s.kindFail 0 ((s.entry 5).p.select (packetParams c 0x10) 1) 0x0C = none) ∧
    (let s := withEntry site { st := .ready, pos := 1048576 }; let ps := packet [(0x08, five), (0x10, 1048576), (0x20, 0x1000)]
    Asked s 0x68 ps ∧ ((said 0x68 ps).word 0x10).toNat = 1048576 ∧ ((said 0x68 ps).word 0x0C).toNat + 1048576 ≤ (s.entry 5).pos.toNat ∧
    s.handleOk 0 five = true ∧ s.longUsed < 4096) ∧
    (let s := withEntry site { st := .ready, prefillPos := 1, p := { partition := 3, model := 1 } }; let ps : List Word := [five, 1]
    Asked s 0x69 ps ∧ (s.entry 5).prefillPos.toNat = 1 ∧ Tbl.freshFrom s.pager.prefixes 0 < 16384 ∧
    s.prefixUsed 0 < s.prefixQuota 0 ∧ s.pager.shared.length + (s.prefixPages 5 1).length ≤ 1048576 ∧ (s.takePairs 0 0 1).isSome = true) ∧
    (let x : Prefix := { inst := 0, partition := 3, len := 1 }
    let s : State := { site with pager := { site.pager with prefixes := [(16383, x)] } }
    Asked s 0x6A [16383] ∧ (said 0x6A [16383]).field 0x08 13 0 = 16383 ∧ Tbl.find s.pager.prefixes 16383 = some x ∧ x.freed = false) :=
  by and_intros <;> decide +kernel

theorem witness_CyclicTableCommandsComplete :
    cycSlots 1 slotWords = some [slot7] ∧ image7.fits = true ∧ site.slotsOwned 0 image7 = true ∧
    (let s : State := { timeAt (withTable site table7) 1 with tb := { site.tb with lock := .locked } }
    let ps : List Word := [0, 0, 250000, 0, 0x1000]
    Asked s 0xA1 ps ∧ Asked s 0xA1 [0, 0, 0, 0, 0x1000] ∧ (s.table 0).st = .loaded ∧ s.tb.lock ≠ .freeRun ∧ s.tb.lock ≠ .acquiring ∧
    (∀ e ∈ s.cyc, e.1 ≠ 0 → e.2.partition = 3 → e.2.busy = false) ∧ image7.boundaryFrom 250000 = 250000 ∧
    s.ns + s.leadNs ≤ 250000 ∧ s.longUsed < 4096) ∧
    (∀ st ∈ [CycState.armed, .running, .stopping], let s := withTable site { table7 with st }
    Asked s 0xA2 [0] ∧ Asked s 0xA2 [0x100] ∧ (said 0xA2 [0x100]).bit 0x08 8 = true ∧ (said 0xA2 [0]).bit 0x08 8 = false ∧
    (s.table 0).st = st) ∧
    Asked (withTable site table7) 0xA3 [0] ∧
    (let st : Step := { startTime := 1, timed := [(3, 0)] }; let s := timeAt (withCtx site { ctx7 with dispatched := some st }) 1
    s.stepOf 7 = some st ∧ st.origin = .run ∧ st.held = true ∧ st.startTime ≤ s.ns ∧ st.timedStart 3 = some 0 ∧ 3 ∉ st.begun) :=
  by decide +kernel

theorem witness_CyclicTableEventsComplete :
    (∀ st ∈ [CycState.armed, .running, .stopping], let s := timeAt (withTable site { table7 with st, cycleAt := 0 }) 250000
    s.clocked = true ∧ (s.table 0).st = st ∧ (s.table 0).start ≤ s.ns ∧ (s.table 0).next ≤ s.ns) ∧
    (let t : CycTable := { table7 with st := .running }; t.pendingS 0 = some (slot7, 0) ∧ (t.run 0).led = false ∧
    (t.run 0).carried = false ∧ (site.ctx 7).st ≠ .free ∧ (({} : State).ctx 7).st = .free) ∧
    (let t : CycTable := { table7 with st := .running, runs := [(0, { led := true })] }; t.pendingS 0 = some (slot7, 0) ∧
    (t.run 0).begun = false ∧ (t.run 0).led = true ∧ 0 < t.next ∧ (withTable site t).slipOpen 0 0 = false) ∧
    (let t : CycTable := { table7 with st := .running, runs := [(0, { carried := true, seq := some 4 })] }
    t.pendingS 0 = some (slot7, 0) ∧ (t.run 0).led = false ∧ (t.run 0).carried = true ∧ (t.run 0).seq = some 4) ∧
    (let t : CycTable := { table7 with st := .running, runs := [(0, { seq := some 4, begun := true })] }
    (t.run 0).seq = some 4 ∧ t.image.slots[0]? = some slot7 ∧ (t.run 0).deadline ≤ 0 ∧ (t.run 0).done = false ∧
    (t.run 0).overran = false) :=
  by decide +kernel

theorem witness_CombEventsComplete :
    (let s : State := { up with comb := {}, cc := 131072 }; s.clocked = true ∧ s.comb.initDone = false ∧ 131072 ≤ s.cc) ∧
    (up.reg Reg.combCtrl).bit 0 = true ∧ up.comb.scrubDue ≤ up.cc ∧ up.comb.scrubRow = 0 ∧
    up.comb.inspecting = false ∧
    (let s := withRegs (withEntry { up with comb := { up.comb with inspecting := true } } { st := .ready }) [(Reg.combInspSel, five)]
    s.comb.inspecting = true ∧ s.reg Reg.combInspSel = five ∧ handleIndex five = 5 ∧ five.toNat / 2 ^ 18 = (s.entry 5).gen.toNat ∧
    (s.entry 5).used = true) ∧
    (let s := withRegs (withEntry up { st := .ready }) [(Reg.combInspSel, 0x80005), (Reg.combInspCtrl, 2)]
    (0x80005 : Word).toNat / 2 ^ 18 ≠ (s.entry 5).gen.toNat ∧ (s.reg Reg.combInspCtrl).bit 1 = true) :=
  by decide +kernel

theorem witness_ComposerEventsComplete :
    (let x := { serve3 with forecastDue := true }; let s := due3 (withServe site x)
    s.clocked = true ∧ s.serve 3 = x ∧ x.main = some bound ∧ s.composes 3 = true ∧ x.forecastDue = true ∧ x.forecast = none ∧
    s.forecastTurn 3 = true ∧ s.composeBatch 3 bound = []) ∧
    (let x := { serve3 with forecastDue := true, decodeQ := [(0, [5])] }
    let s := due3 (withEntry (withServe site x) { st := .ready, pos := 8, prefillPos := 7, p := { partition := 3 } })
    s.composes 3 = true ∧ s.forecastTurn 3 = true ∧ s.composeBatch 3 bound ≠ []) ∧
    (let m : Member := { index := 5, gen := 1, startPos := 0, nTok := 1, charge := 1, sample := true, verify := false, specD := 0, decode := true, homeDie := 0 }
    let n : Nominee := { partition := 3, index := 5, gen := 1, startPos := 0, nTok := 1, walk := [] }
    let x := { serve3 with forecast := some [m], firstEvent := some 0 }
    let s : State := { withServe site x with pager := { site.pager with nominees := [n] } }
    s.nominee 3 5 = some n ∧ n.done = true ∧ m.report = .none ∧ x.firstEvent = some 0 ∧ 0 + x.mp.commitWaitUs * 1000 ≤ s.ns ∧
    s.commitTurn 3 = true ∧ (∀ y ∈ [{ m with report := .ready }], y.report ≠ .none)) ∧
    (let n : Nominee := { partition := 3, index := 5, gen := 1, startPos := 0, nTok := 1, walk := [], wanted := [0] }; n.done = false ∧ n.late = true) ∧
    (let y : ServeStep := { seq := 4, kind := .draft, members := [], variant := 0, estNs := 0, tokens := 0 }
    let s := withCtx (withServe site { serve3 with draft := some { bound with context := 7 }, drStep := some y }) { ctx7 with queued := [step7] }
    let z := { ctx7 with queued := [step7] }; let u := withCtx (withServe site { serve3 with batch := some y }) z
    (s.serve 3).drStep = some y ∧ s.sched.ctxs.find? (fun e => e.2.queued.any fun q => q.seq == y.seq) = some (7, z) ∧
    (u.serve 3).batch = some y ∧ (u.serve 3).fbStep = none ∧
    u.sched.ctxs.find? (fun e => e.2.queued.any fun q => q.seq == y.seq) = some (7, z)) ∧
    (site.reg Reg.stepCtrl).bit 1 = true ∧ site.orphan = false ∧ site.comp.lastSweep < (timeAt site 1000000).ns / 1000000 ∧
    (let s : State := { withEntry site { st := .parked } with
    comp := { parts := [(3, { serve3 with parkedQ := [(0, [5])] })], victimDue := [(0, 0)] }, pager := { site.pager with pressure := [(0, true)] } }
    s.pressure 0 = true ∧ Tbl.find s.comp.victimDue 0 = some 0 ∧ s.victim (s.parkedHeads 0) = some 5) :=
  by decide +kernel

theorem witness_AgentStepEventsComplete :
    (let s := running step7; s.clocked = true ∧ s.stepOf 7 = some step7 ∧ (s.partD 3).slot 0 = (.resident, 7) ∧ 0 ∈ step7.awaiting ∧
    s.clusterUp 0 = true ∧ (s.agent 0).step 3 0 = none) ∧
    ((withAgent (running step7) agent7).agent 0).step 3 0 = some agent7 ∧ agent7.checked = false ∧ agent7.failed = none ∧
    agent7.stopping = false ∧ programCheck ⟨.error, .error⟩ = .inl St.dataPoisoned ∧
    timingCheck step7 1 .error = .inr [] ∧
    (let s := withAgent (running step7) ready7; let d := Desc.ofWords vxDesc
    (s.agent 0).step 3 0 = some ready7 ∧ ready7.desc 0 = some d ∧ 0 < ready7.count ∧ (s.agent 0).held = none ∧ step7.copying = false ∧
    (d.isMx && d.packable && decide (0 + 1 < ready7.count)) = false ∧
    s.launchFail d (ready7.operandsOf 0) ready7.stallOnly ready7.qcs = none ∧
    s.launchFail { d with dfmt := 2 } (ready7.operandsOf 0) ready7.stallOnly ready7.qcs = some St.badDescriptor) ∧
    (let t := { ready7 with descs := [(0, mxDesc), (1, mxDesc)] }; let s := withAgent (running step7) t; let d := Desc.ofWords mxDesc
    t.desc 0 = some d ∧ t.desc 1 = some d ∧ 0 + 1 < t.count ∧ d.isMx = true ∧ d.packable = true ∧
    (s.reg (frmReg Reg.frmCtrl 0)).bit 0 = true ∧ s.launchFail d (t.operandsOf 0) t.stallOnly t.qcs = none ∧
    s.launchFail d (t.operandsOf 1) t.stallOnly t.qcs = none ∧
    packs d d (coresNamed s d t.qcs) (coresNamed s d t.qcs) ((coresNamed s d t.qcs).map s.width) = true) ∧
    (let t := { ready7 with launches := [{ index := 0, ended := true }], reportDue := true }
    t.launch 0 = some { index := 0, ended := true } ∧ t.reportDue = true) ∧
    ready7.stopping = false ∧ { step7 with stopSent := true }.stopSent = true ∧ step7.seq = ready7.seq ∧
    (let s := running step7; s.agentOver 0 { ready7 with launches := [{ index := 0, recorded := true }] } = true) :=
  by decide +kernel

theorem witness_EngineQueueEventsComplete :
    (let t := { ready7 with launches := [{ index := 0, expanding := true }] }; let s := withAgent (issuing (running step7)) t
    (s.partOfQc ((64 * 0 + 0) / 16)).map (fun x => x.1) = some 3 ∧ s.coreUp 0 = true ∧ s.coreFenced 0 = false ∧ s.power.softDue = none ∧
    (s.partD 3).draining = [] ∧ (s.partD 3).issuing = some 0 ∧ (s.agent 0).step 3 0 = some t ∧ s.mayIssue t = true ∧
    s.turnOf 0 0 = true ∧ s.saveDue 0 0 1 = none ∧
    s.nextWork 0 0 1 t ≠ none ∧ s.capCtx 7 = none) ∧
    (let t := { ready7 with launches := [{ index := 0, expanding := true }] }; let u := (withAgent (issuing (running step7)) t).unpark 0 0 0
    u.resumeNeed 0 0 7 = .none ∧ (u.core 0 0).occupied 1 < u.paceHigh 0 ∧
    (u.nextWork 0 0 1 t).any (fun w => decide (u.workNeed 0 0 1 t w = .none) && u.startOk t w 0 && !(u.workGuard 0 0 1 t w).2) = true ∧
    ∀ e ∈ [0, 2, 3, 4], u.nextWork 0 0 e t = none) ∧
    (let t := { ready7 with preempted := true, saves := [(0, 0)] }; let s := withAgent (running step7) t
    (List.range 5).any (fun e => (s.saveDue 0 0 e).any fun x => decide (x.2 = 0)) = true ∧ (s.core 0 0).occupied 0 < 64 ∧
    s.turnOf 0 0 = true) ∧
    (let x : CoreState := { occ := [(1, 1)] }; (x.queue 1).length < x.occupied 1) ∧
    (let x : CoreState := { queues := [(1, [cmd7])], granules := [(2, { written := true })], slots := [(0, { counters := [(0, 1)] })] }
    x.pick 1 = some cmd7) ∧
    (let s := withCore (issuing (running step7)) { ready7 with launches := [{ index := 0 }] } { running := [(1, [cmd7])] }
    ((s.core 0 0).exec 1).find? (fun z => z.slot == 0 && z.part.launch == 0 && z.part.index == 0) = some cmd7 ∧ cmd7.mx = none ∧
    cmd7.rsv = none ∧ cmd7.packed = none ∧
    ((((s.modCore 0 0 fun x => x.setExec 1 []).partDone 0 0 3 0 part7 false).syncCore 0 0).agent 0).step 3 0 ≠ none) ∧
    (let s := withCore (issuing (running step7)) ready7 { queues := [(1, [cmd7])], waitDue := [(1, 0)] }
    ((s.core 0 0).queue 1).head? = some cmd7 ∧ s.timedOut 0 (Tbl.find (s.core 0 0).waitDue 1) = true ∧
    cmd7.parts.find? (fun q => !(s.core 0 0).waitOk 0 q.wait) = some part7 ∧ part7.wait = some { ctr := 0, exp := 1 }) ∧
    (let s := withCore (issuing (running step7)) ready7 { queues := [(1, [cmd7])], gateDue := [(1, 0)] }
    s.timedOut 0 (Tbl.find (s.core 0 0).gateDue 1) = true ∧ (s.core 0 0).firstInvalid cmd7 = some 2 ∧
    (s.agent 0).step 3 0 = some ready7) :=
  by decide +kernel

theorem witness_SliceEventsComplete :
    (let s := withCtx site { ctx7 with queued := [step7] }
    (s.ctx 7).dispatched = none ∧ (s.ctx 7).queued = step7 :: [] ∧ (s.ctx 7).st = .resident ∧ s.liveAgents (s.partD 3) ≠ [] ∧
    (s.ctx 7).destroying = false ∧ (s.reg Reg.schCtrl).bit 0 = true ∧ s.active 0 = true ∧ s.orphan = false ∧
    s.depsMet step7 = true ∧ s.ctxHeld 7 = false ∧ s.partOpen (s.partD 3) = true ∧ s.capStale 7 step7 = none ∧
    ({ s with cap := { ctxs := [(7, { cap7 with lastStep := some 8, st := .held })] } } : State).capStale 7 { step7 with op := some 0 } ≠ none) ∧
    ((withCtx site { ctx7 with st := .faulted }).ctx 7).st = .faulted ∧ (withPart site { part3 with qcs := [] }).liveAgents { part3 with qcs := [] } = [] ∧
    (let s := issuing (running step7); let t := s.syncConds 3; part3.stopping = [] ∧ (t.partD 3).issuing = some 0 ∧ t.sliceOver 3 0 = true) ∧
    (let s := withPart (running step7) { part3 with issuing := some 0, sliceEnd := 1 }; let t := s.syncConds 3
    (t.partD 3).issuing = some 0 ∧ t.sliceOver 3 0 = false) ∧
    (let s : State := { withCore (withPart (running step7) { part3 with draining := [(0, 0)] }) ready7 { queues := [(1, [cmd7])], waitFrom := [(1, 0)] } with cc := 1048576 }
    (s.partD 3).draining.find? (fun e => s.drainStalled 3 e.1 e.2) = some (0, 0)) ∧
    (let s : State := { site with sched := {
    parts := [(3, { qcs := [0, 1], slots := [(0, (.resident, 7)), (1, (.resident, 9))], issuing := some 0, waiting := some (1, 0) })],
    ctxs := [(7, { ctx7 with dispatched := some step7 }), (9, { ctx7 with slot := 1, prio := 255, dispatched := some { step7 with context := 9 } })] } }
    let t := s.syncConds 3
    (t.partD 3).stopping = [] ∧ (t.partD 3).issuing = some 0 ∧ t.arrival 3 0 = some (1, 9) ∧ (t.ctx 9).cond = .runnable ∧
    (t.ctx 7).band + t.preemptGap ≤ (t.ctx 9).band) ∧
    (let p := { part3 with stopping := [0], stopSlot := 0 }; let s := withAgent (withPart (running step7) p) ready7
    0 ∈ p.stopping ∧ p.stopSlot = 0 ∧ (s.agent 0).step 3 0 = some ready7 ∧ ready7.preempted = false ∧ ready7.saves = [] ∧ s.slotOn 0 3 0 = false) :=
  by decide +kernel

theorem witness_SwapAndRegulatorEventsComplete :
    (let s : State := { site with sched := {
    parts := [(3, { qcs := [0, 1], slots := (List.range 4).map fun k => (k, (SlotState.resident, if k = 0 then 7 else 20 + k)) })],
    ctxs := [(7, ctx7), (9, { st := .swapped, partition := 3, queued := [{ context := 9 }] })] ++
    (List.range 3).map fun k => (21 + k, { ctx7 with slot := k + 1 }) } }
    let t := s.syncConds 3
    s.clocked = true ∧ t.waiter 3 = some 9 ∧ (t.ctx 7).st = .resident ∧ t.swapOk = true ∧ (t.partD 3).slotIn .empty = none ∧
    (t.partD 3).slotIn .saving = none ∧ (t.partD 3).stopping = [] ∧ t.swapVictim 3 9 = some 7) ∧
    (let s := withCtx site { ctx7 with st := .saving }; (s.ctx 7).st = .saving ∧
    ((s.partD 3).places.any fun q => engines.any fun e => ((s.core q.1 q.2).exec e).any fun y => y.slot == 0) = false) ∧
    (let s := withCtx (withPart site { part3 with slots := [] }) { ctx7 with st := .swapped, queued := [step7] }
    (s.partD 3).slotIn .empty = some 0 ∧ s.waiter 3 = some 7 ∧ s.swapOk = true ∧ s.part 3 ≠ none) ∧
    ((withCtx site { ctx7 with st := .loading }).ctx 7).st = .loading ∧
    (11 < (classPorts 0).2 ∧ 31 < (classPorts 1).2 ∧ Tbl.get (fun _ => 0) site.sched.refills (256 + 31) < ({ site with cc := 1200 } : State).cc / 1200) :=
  by decide +kernel

theorem witness_SamplerRowEventsComplete :
    (let s := sampling .pipeline; s.clocked = true ∧ (s.rowAt 3 0 0 0 (fun st => st == .pipeline || st == .held)).isSome = true ∧
    (s.rowAt 3 0 0 0 (fun st => st == .pipeline || st == .held)).any (fun x => !s.rowHeld x) = true ∧ batch7.smp = some smp) ∧
    (∀ st ∈ [RowStage.pipeline, .scan],
    ((heldTable (sampling st)).rowAt 3 0 0 0 (fun z => z == st)).any (fun x => decide (x.m = member5)) = true) ∧
    smp.summaries 4 [] = none ∧ (smp.summaries 4 summaryWords).isSome = true ∧ site.mayScan smp = false ∧
    site.mayScan { smp with logitBase := 0x100 } = true ∧
    (let s := sampling .pipeline; ((s.rowAt 3 0 0 0 (fun st => st == .pipeline || st == .held)).bind fun x => (smp.summaries 4 summaryWords).map fun l =>
    ((s.rowIn x smp).overSummaries l).1) = some true) ∧
    (let s := sampling .scan; (s.rowAt 3 0 0 0 (fun st => st == .scan || st == .scanHeld)).any (fun x => !s.rowHeld x) = true) ∧
    (let y := { batch7 with members := [{ member5 with sample := false }], status := some St.ok }
    let s := withEntry (withServe site { serve3 with batch := some y }) { st := .active }
    (s.serve 3).kindStep 0 = some y ∧ y.status = some St.ok ∧ y.rowsOf { member5 with sample := false } = 0 ∧ member5.ended = false ∧
    (s.readEnd 5).isMember { member5 with sample := false } = true) :=
  by decide +kernel

theorem witness_PagerEventsComplete :
    (let s := withMem (withEntry site { st := .admitted, promptLen := 2, p := { prefixId := 0xFFFFFFFF } }) { fetching := true }
    (s.entry 5).st = .admitted ∧ (s.mem 5).fetching = true ∧ ([1, 2] : List Word).length = (s.entry 5).promptLen.toNat) ∧
    (let m : Move := { owner := .stream 5 1, inst := 0, page := 0, kind := .promote, src := { pool := 16, serial := 0 }, dst := { pool := 0, serial := 0 }, started := true }
    let s : State := { site with pager := { site.pager with movers := [(0, [m])] } }
    s.mover 0 = m :: [] ∧ m.started = true ∧ m.due ≤ s.cc ∧ m.dueNs ≤ s.ns ∧ s.poolFenced m.src.pool = false ∧ s.poolFenced m.dst.pool = false ∧
    { m with owner := .pfx 2 }.owner = .pfx 2 ∧ { m with owner := .settled 5 1 }.owner = .settled 5 1) ∧
    (let s : State := { withMem (withEntry site { st := .parked }) { pages := [(0, { tier := .brood, frame := some { pool := 0, serial := 0 } })] } with
    comp := { site.comp with parkOrder := [5] } }
    let u : State := { s with pager := { s.pager with pools := (List.range 3).map fun k => (k, { count := 4096 }) } }
    u.demotes 0 = true ∧ u.demoteNext 0 = some 5) ∧
    (let q : NpReq := { die := 0, tag := 9, index := 5, page := 0, write := false, sentCc := 0 }
    let s : State := { site with cc := 2048, pager := { site.pager with np := [q] } }
    s.pager.np.find? (fun q => q.tag == 9) = some q ∧ q.sentCc + 2048 ≤ s.cc) ∧
    ({ site.pager with sweep := [(5, 1)] } : Pager).sweep = (5, 1) :: [] :=
  by decide +kernel

theorem witness_MemoryErrorsComplete :
    (let x : Region := { use := .models [1], base := 0x10000, pages := 2, replica := 0x50000 }
    let s : State := { site with pager := { site.pager with regions := [(0, x)] } }
    s.clocked = true ∧ s.region 0 = some x ∧ 0 < x.pages ∧ 1 < x.pages ∧ 1 ∉ x.repairs ∧ 1 ∈ { x with repairs := [1] }.repairs ∧
    { x with repairs := [1], st := .held }.st = .held ∧ { x with repairs := [1], st := .lost }.st = .lost ∧ { x with repairs := [0, 1] }.repairs ≠ [1]) ∧
    (let f : Frame := { pool := 0, serial := 0 }; let b : Block := { first := f, carve1 := 0, second := f, carve2 := 1 }
    let s := withMem (withEntry site { st := .ready }) { log := [(0, { primary := f, mirror := f })], root := some b }
    (s.entry 5).live = true ∧ ((s.mem 5).page 0).shared = false ∧ (Tbl.find (s.mem 5).log 0).isSome = true ∧
    ({ shared := true } : Page).shared = true) ∧
    (let f : Frame := { pool := 16, serial := 0 }; let x : Prefix := { inst := 0, partition := 3, len := 1, log := [(0, { primary := f, mirror := f })] }
    let s : State := { site with pager := { site.pager with prefixes := [(2, x)] } }
    Tbl.find s.pager.prefixes 2 = some x ∧ Tbl.find x.log 0 = some { primary := f, mirror := f }) ∧
    (let f : Frame := { pool := 16, serial := 0 }; let x := { heldFor with frames := [f] }
    (keeping x).cap.held[0]? = some x ∧ x.frames[0]? = some f) ∧ Reaches site ∧
    (let t := { ready7 with descs := [(0, vxDesc)] }; let s := withAgent (running step7) t; (s.agent 0).step 3 0 = some t ∧ t.checked = true ∧
    t.stopping = false ∧ t.failed = none ∧ t.descs.length < t.count ∧ t.descs.length < t.nextLaunch + 8) ∧
    (let o := { longOp with body := .tokenRead 5 1 0 1 0 }; let s : State := { site with interp := { ops := [(2, o)] } }
    Tbl.find s.interp.ops 2 = some o ∧ o.ended = false ∧ o.copying = 0 ∧ s.orphan = false) :=
  by decide +kernel

theorem witness_TimebaseEventsComplete :
    up.inReset = false ∧ (withRegs up [(Reg.tbCtrl, 1)]).ppsEn = true ∧ (withRegs up [(Reg.tbCtrl, 1)]).ppsMinw ≤ 1000 ∧
    (let s : State := { timeAt up 1000002001 with tb := { (timeAt up 1000002001).tb with lock := .locked } }
    s.tb.lock ≠ .freeRun ∧ s.tb.lock ≠ .acquiring ∧ (max s.tb.lastSec s.tb.missSec + 1) * 1000000000 + s.ppsWindow (max s.tb.lastSec s.tb.missSec + 1) < s.ns) ∧
    (let s : State := { timeAt up 2000000000 with tb := { (timeAt up 2000000000).tb with lock := .acquiring, candidate := some 0 } }
    s.tb.candidate = some 0 ∧ s.tb.lock = .acquiring ∧ (0 : Int) + 2000000000 ≤ (s.ns : Int)) ∧
    (let s : State := { up with tb := { up.tb with lock := .holdover, err := 5001 } }
    s.tb.lock = .holdover ∧ (s.reg Reg.tbHoLimit).toNat < s.hoBound) :=
  by decide +kernel

theorem witness_ThermalEventsComplete :
    up.inReset = false ∧ (up.stack 11).stkHot = false ∧ (up.stack 11).stkCrit = false ∧ up.timedOn (11 / 3) = [] ∧
    (let s := running { step7 with timingCount := 1 }; (s.reg Reg.pwrCtrl).bit 1 = true ∧ s.regField Reg.pwrThmDefer 15 0 ≠ 0 ∧
    s.procUp powerCore = true ∧ s.timedOn (0 / 3) ≠ []) ∧
    (let x : StackThm := { stkHot := true, stkCrit := true, hot := true, deferred := true, lowSince := some 0 }
    let s : State := { timeAt up 100000 with power := { up.power with stackSet := [(0, x)] } }
    s.stack 0 = x ∧ x.deferEnd ≤ s.ns ∧ 0 + s.regField Reg.pwrThmHold 15 0 * 1000 ≤ s.ns) ∧
    up.clocked = true ∧ up.health.lastMs < (timeAt up 1000000).ns / 1000000 :=
  by decide +kernel

theorem witness_MembershipCommandsComplete :
    Asked up 0xC0 [5, 0, 7, 0, 1] ∧ (said 0xC0 [5, 0, 7, 0, 1]).field 0x08 12 0 = 5 ∧ (up.reg Reg.swmCtrl).bit 0 = false ∧
    up.guard.lifecycle ≠ 3 ∧ (guarded { up.guard with lifecycle := 3 }).guard.lifecycle = 3 ∧ (up.swarm.members = []) ∧
    (let c := said 0xC1 [5, 0, 7, 0, 1, 0x101]
    Asked up 0xC1 [5, 0, 7, 0, 1, 0x101] ∧ up.selfIndex ≠ some 5 ∧ c.dword 0x10 ≠ 0 ∧ c.field 0x1C 7 0 ≠ 0 ∧ c.field 0x1C 15 8 ≠ 0 ∧
    (up.member 5).st = .empty) ∧
    (withMate swarmed { mate with st := .absent }).member 2 = { mate with st := .absent } ∧
    Asked swarmed 0xC2 [2] ∧ (said 0xC2 [2]).field 0x08 12 0 = 2 ∧ (swarmed.member 2).st ≠ .empty ∧
    Asked up 0xC3 [5, 0, 0x1000] ∧ Asked up 0xD0 [0x105] :=
  by decide +kernel

theorem witness_SwarmPacketsComplete :
    (let s : State := { up with tb := { up.tb with todSet := true } }
    s.power.freeze = none ∧ s.power.st = .run ∧ s.barOpen = true ∧ s.served 0 = true ∧ s.tb.todSet = true ∧
    (s.reg Reg.swmCtrl).bit 0 = false) ∧
    (let s := withMate swarmed { mate with st := .joining, chipId := 7 }; let t := heardBy s (hdr 2)
    Hears s (hdr 2) (fun n => n == 2) ∧ (t.member 2).st = .joining ∧ (t.member 2).chipId = 7) ∧
    (let s := withMate swarmed { mate with st := .absent, chipId := 7 }; let t := heardBy s (hdr 2)
    Hears s (hdr 2) (fun n => n == 2) ∧ (t.member 2).st = .absent ∧ (t.member 2).chipId = 7) ∧
    Hears swarmed (hdr 0) (fun n => n == 0) ∧ Hears swarmed (hdr 1) (fun n => n == 1) ∧
    (let s := withMate swarmed { mate with exchanges := [0] }; let t := heardBy s (hdr 3)
    Hears s (hdr 3) (fun n => n == 3) ∧ 0 ∈ (t.member 2).exchanges ∧ t.ns ≤ 0 + t.absentNs) ∧
    (let s := timing timed7; let t := heardBy s (hdr 3)
    Hears s (hdr 3) (fun n => n == 3) ∧ t.swarmCtx 9 = some 7 ∧ t.swarmCtx 10 = none) ∧
    (let s := timing timed7; let t := heardBy s (hdr 2)
    Hears s (hdr 2) (fun n => n == 2) ∧ (t.swarmCtx 9).isSome = true ∧ t.slipsOf 9 2 = none) ∧
    (let t := heardBy swarmed (hdr 2); Hears swarmed (hdr 2) (fun n => n == 2) ∧ t.swarm.overrun = [] ∧ t.swarm.abandoned = []) :=
  by and_intros <;> decide +kernel

theorem witness_SwarmTimersComplete :
    (let t := heardBy swarmed (hdr 2)
    Hears swarmed (hdr 2) (fun n => decide (2 ≤ n) && decide (n ≤ 28) && decide (([0, 0] : List Word).length = 2 * (n - 1)) &&
    decide (0 < 1) && decide (1 ≤ 8)) ∧ (t.member 2).tickets.find? (fun x => x.ticket == 4) = none ∧
    t.swarm.slots.find? (fun e => e.2.member == 2 && e.2.ticket == 4) = none ∧ Tbl.freshFrom t.swarm.slots 0 = 0) ∧
    Hears swarmed (hdr 3) (fun n => n == 3) ∧
    (let x : RemoteSlot := { member := 2, ticket := 4, frags := 2, got := [], firstAt := 0 }
    let s : State := timeAt { swarmed with swarm := { swarmed.swarm with slots := [(0, x)] } } (4 * swarmed.retryNs)
    s.clocked = true ∧ Tbl.find s.swarm.slots 0 = some x ∧ x.entry = none ∧ x.firstAt + 4 * s.retryNs ≤ s.ns) ∧
    swarmed.clocked = true ∧ (swarmed.reg Reg.swmCtrl).bit 0 = true ∧ swarmed.swarm.hbAt ≤ swarmed.ns ∧
    (let s := timeAt swarmed swarmed.absentNs; (s.member 2).present = true ∧ (s.member 2).heardAt + s.absentNs ≤ s.ns) ∧
    swarmed.canSend 2 = true ∧ (swarmed.member 2).present = true ∧ (swarmed.member 2).ttAt ≤ swarmed.ns ∧
    (∀ n ∈ [0, 3], let q : Request := { member := 2, type := 0x20, ticket := 4, payload := [], sentAt := 0, tries := n }
    let s : State := timeAt { swarmed with swarm := { swarmed.swarm with requests := [q] } } swarmed.retryNs
    s.swarm.requests.find? (fun q => q.ticket == 4) = some q ∧ q.sentAt + s.retryNs ≤ s.ns) ∧
    (let s := timeAt (timing timed7) 1
    s.stepOf 7 = some timed7 ∧ timed7.timedStart 0 = some 0 ∧ timed7.t0 ≠ 0 ∧ timed7.launchEnded 0 = false ∧
    2 ∈ s.others 1 ∧ s.arrived 7 0 2 = false ∧ s.windowOver timed7 0 2 = true) ∧
    (let k : Kept := { member := 2, swarmStep := 9, body := .announce 0 0 0 }
    let s : State := timeAt { swarmed with swarm := { swarmed.swarm with kept := [k] } } 1000000000
    s.swarm.kept[0]? = some k ∧ 0 + 1000000000 ≤ s.ns) :=
  by decide +kernel

theorem witness_CappingCommandsComplete :
    (∀ st ∈ [CapState.guarded, .exposed, .seeking, .held], let s := capped { cap7 with st }; let c := said 0xC6 [7, 0, 1, 0, 0x1000, 0]
    (s.ctx 7).st ≠ .free ∧ (s.ctx 7).inst = c.inst ∧ s.capCtx 7 = some { cap7 with st } ∧ c.field 0x08 11 0 = 7 ∧
    Asked s 0xC5 [7] ∧ Asked s 0xC6 [7, 0, 1, 0, 0x1000, 0] ∧ c.word 0x10 ≠ 0 ∧ s.newestCut { cap7 with st } = 0 ∧ s.longUsed < 4096) ∧
    (let x := { cap7 with closedCut := 3, cuts := [{ number := 3, step := 9, loss := 0 }] }; (capped x).newestCut x = 3) ∧
    Asked up 0xC7 [200] :=
  by decide +kernel

theorem witness_CappingEventsComplete :
    (let f : Fill := { cut := 1, source := 2, auto := false, op := none, left := [0] }; let x := { cap7 with fill := some f }
    (capped x).clocked = true ∧ (capped x).capCtx 7 = some x ∧ 0 ∈ f.left) ∧
    (let b : Buddy := { member := 2, pending := [0], joinCut := 1 }
    let x := { cap7 with cut := some { number := 1, step := 9 }, buddies := [{ member := 3, pending := [0] }, b] }
    (capped x).capCtx 7 = some x ∧ x.buddies.find? (fun b => b.inCut && !b.pending.isEmpty) = some b) ∧
    (let g : Staged := { page := 0, frame := { pool := 0, serial := 0 } }; let x := { cap7 with staged := [g] }
    (capped x).capCtx 7 = some x ∧ g ∈ x.staged ∧ g.page = 0 ∧ g.copied = false) ∧
    (let x := { cap7 with reseekAt := some 0 }; (capped x).capCtx 7 = some x ∧ x.search = none ∧ 0 ≤ (capped x).ns) :=
  by decide +kernel

theorem witness_LinkReportsComplete :
    (timing timed7).clocked = true ∧ ((timing timed7).stepOf 7).isSome = true ∧ (timing timed7).arrived 7 0 2 = false :=
  by decide +kernel

theorem witness_CappingPacketsComplete :
    Hears swarmed (hdr 3) (fun n => n == 3) ∧ (heardBy swarmed (hdr 3)).ticketAnswer 2 4 = none ∧
    (((heardBy swarmed (hdr 3)).dropHeld 2 9).holdCap 2 9 1).isNone = true ∧
    (let s := withMate swarmed { mate with tickets := [{ ticket := 4, result := some (0, []) }] }
    Hears s (hdr 3) (fun n => n == 3) ∧ (heardBy s (hdr 3)).ticketAnswer 2 4 = some (0, 0)) ∧
    (let s : State := { swarmed with pager := { pools := frames }, regs := [(Reg.capCtrl, 3), (Reg.capHeldLimit, 100), (Reg.swmCtrl, 1)] }
    Hears s (hdr 3) (fun n => n == 3) ∧ (((heardBy s (hdr 3)).dropHeld 2 9).holdCap 2 9 1).isSome = true) ∧
    (let q : Request := { member := 2, type := 0x20, ticket := 4, payload := [], sentAt := 0, context := 7 }
    let k : Search := { tried := [2], waiting := some (2, 4) }
    let s : State := { capped { cap7 with search := some k } with swarm := { swarmed.swarm with requests := [q] } }
    let t := heardBy s (hdr 2)
    Hears s (hdr 2) (fun n => n == 2) ∧
    (t.takeRequest 2 4 (fun n => n == 0x20)).any (fun r => decide (r.1 = q ∧ (r.2.capCtx 7).bind (fun k => k.search) = some k)) = true) ∧
    Hears swarmed (hdr 4) (fun n => n == 4) ∧
    (let x := { heldFor with incoming := some { number := 1, step := 9, expect := 1 } }; let t := heardBy (keeping x) (hdr 3)
    Hears (keeping x) (hdr 3) (fun n => n == 3) ∧ t.held 2 9 = some x ∧ (keeping x).held 2 9 = some x ∧
    (keeping x).clocked = true ∧ (heardBy swarmed (hdr 3)).held 2 9 = none ∧ x.frameOf 1 0 = none ∧
    ({ x with frames := [{ pool := 12, serial := 0 }, { pool := 12, serial := 1 }] }.frameOf 1 0).isSome = true) ∧
    (let x := { heldFor with committed := some { number := 1, step := 9, expect := 1, got := [0] } }; let t := heardBy (keeping x) (hdr 3)
    let u := t.modHeld 2 9 (fun x => x.sealed 1 4 7)
    Hears (keeping x) (hdr 3) (fun n => n == 3) ∧ t.ticketAnswer 2 4 = none ∧
    (u.held 2 9).any (fun y => (y.answer 1).isSome) = true) ∧
    (let u := (heardBy swarmed (hdr 3)).modHeld 2 9 (fun x => x.sealed 1 4 7); u.held 2 9 = none) ∧
    (let x := { cap7 with cut := some { number := 1, step := 9 } }; let t := heardBy (capped x) (hdr 3)
    Hears (capped x) (hdr 3) (fun n => n == 3) ∧ (t.takeRequest 2 4 (fun n => n == 0x27)).isNone = true ∧
    (t.takeRequest 2 4 (fun n => n == 0x25)).isNone = true ∧ t.shardCtx 9 = some 7 ∧ t.capCtx 7 = some x) ∧
    (let x := { heldFor with committed := some { number := 1, step := 9, expect := 1, got := [0] } }
    let t := heardBy (keeping x) (hdr 3)
    Hears (keeping x) (hdr 3) (fun n => n == 3 && true) ∧ t.ticketAnswer 2 4 = none ∧ t.heldVersion 9 1 = some (x, [0])) :=
  by and_intros <;> decide +kernel

theorem witness_MailboxMessagesComplete :
    (∀ v ∈ [0x10000, 0x20000], let s := withRegs (mailed up 0x01 none []) [(pageKey 0 (Reg.mbxIn + 4), Word.mk v)]
    s.clocked = true ∧ s.mbxServed 0 = true ∧ s.mbxCode 0 = 0x01) ∧
    (let s := mailed up 0x10 (some (1, 0)) [(8, 5464)]; let t := s.setInBusy 0 false
    Takes s 0x10 ∧ t.guardFail false = none ∧ t.fw.stageReq = none ∧ (t.mbxWord 0 8).toNat = 5464 ∧
    headerFail imageWords 5464 = none ∧ (wordAt imageWords 6).toNat + 5464 = 5464) ∧
    (let s := mailed { up with fw := { up.fw with phase := .rom, stage := .verified } } 0x11 (some (1, 0)) []
    Takes s 0x11 ∧ (s.setInBusy 0 false).guardFail false = none ∧ s.fw.stage = .verified ∧ s.fw.phase = .rom) ∧
    (let s := mailed { up with fw := { up.fw with stage := .verified } } 0x11 (some (1, 0)) [(0, 1)]
    Takes s 0x11 ∧ s.fw.phase = .run ∧ s.fw.activate = none ∧ ((s.setInBusy 0 false).mbxWord 0 0).bit 0 = true) ∧
    (let s := mailed up 0x12 (some (1, 0)) [(0, 0x100)]; let t := s.setInBusy 0 false
    Takes s 0x12 ∧ (t.mbxWord 0 0).field 4 0 = 0 ∧ (t.mbxWord 0 0).bit 8 = true ∧ t.clusterUp 0 = true ∧ t.fw.update = none ∧
    t.procUp 0 = true) ∧
    (∀ k ∈ [0x20, 0x21], let s := mailed { up with fw := { up.fw with lease := .orphan } } k (some (1, 0)) []
    Takes s k ∧ (s.setInBusy 0 false).orphan = true) ∧
    (let ws : List Word := [0x48584F52, 1, 0, 256]; let o := openImage ws
    let s := mailed (guarded { up.guard with openHash := some [] }) 0x30 (some (1, 1)) [(8, 5720)]; let t := s.setInBusy 0 false
    Takes s 0x30 ∧ t.guardFail false = none ∧ t.guard.openHash.isSome = true ∧ t.store.openReq = none ∧
    (t.mbxDword 0 16).toNat % 65536 = 0 ∧ (t.mbxDword 0 16).toNat < 2 ^ 48 ∧
    (t.mbxWord 0 8).toNat = 0x100 + 16 * o.words.length + 5464 ∧ wordAt ws 0 = 0x48584F52#32 ∧
    (wordAt ws 1).field 15 0 = 1 ∧ (wordAt ws 3).toNat + 5464 = (t.mbxWord 0 8).toNat) ∧
    (∀ k ∈ [0x31, 0x40, 0x42, 0x43], let s := mailed up k (some (1, 1)) [(0, 3)]; let t := s.setInBusy 0 false
    Takes s k ∧ t.guardFail false = none ∧ t.guard.openHash = none) ∧
    (let s := mailed (fusedFor up) 0x41 (some (1, 1)) [(0, 3)]; let t := s.setInBusy 0 false
    Takes s 0x41 ∧ t.guardFail false = none ∧ (t.mbxWord 0 0).field 2 0 = 3 ∧ t.guard.lifecycle < 3 ∧
    (sigBlock tokenWords 0).formed = true ∧ (sigBlock tokenWords 0).keyIndex < 3 ∧ t.keyGood (sigBlock tokenWords 0) = true) :=
  by and_intros <;> decide +kernel

theorem witness_FirmwareEventsComplete :
    (let s : State := { guarded { up.guard with fused := 15 } with fw := { up.fw with stageReq := some req9, staged := staged3 } }
    s.fwClocked = true ∧ s.guardUp = true ∧ s.fw.stageReq = some req9 ∧ s.accepts facts3 = true ∧
    s.accepts { facts3 with verified := false } = false) ∧
    (let l : OpenLoad :=
      { req := req9, keep := 0, image := { abi := 0, words := [], entries := [], digest := [] }, sig := staged3.sig, fail := none }
    let s : State := { guarded { up.guard with openHash := some staged3.sig.keyHash } with store := { up.store with openReq := some l } }
    s.guardUp = true ∧ s.fw.stageReq = none ∧ s.store.openReq = some l ∧ facts3.verified = true ∧ l.fail = none ∧
    l.sig.formed = true ∧ s.guard.openHash = some l.sig.keyHash ∧ l.image.abi = s.fw.running.openAbi) ∧
    up.fwClocked = true ∧ up.clocked = true ∧ up.procUp 32 = true ∧
    (let s : State := { up with fw := { up.fw with procs := Tbl.insert up.fw.procs 34 { st := .restarting, due := 5 } } }
    s.fwClocked = true ∧ (s.proc 34).st = .restarting ∧ s.ns ≤ (s.proc 34).due ∧ (34 = 34 → s.guard.postPass = true) ∧
    ((timeAt s 5).proc 34).due ≤ (timeAt s 5).ns) ∧
    (∀ p ∈ [0, schedulerCore, powerCore, guardCore], let s : State := { up with fw := { up.fw with phase := .loading, loads := [p], loadDue := 9 } }
    s.clocked = true ∧ s.fw.phase = .loading ∧ s.fw.bootEnded = false ∧ s.fw.loads = p :: [] ∧ s.ns ≤ s.fw.loadDue ∧
    (timeAt s 9).fw.loadDue ≤ (timeAt s 9).ns) ∧
    (let s : State := { up with fw := { up.fw with lease := .held, expiry := 0 } }
    s.clocked = true ∧ s.fw.lease = .held ∧ s.fw.expiry ≤ s.ns) ∧
    Reaches up :=
  by decide +kernel

theorem witness_GuardEventsComplete :
    (let s : State := { guarded {} with fw := { up.fw with phase := .rom, procs := [] } }
    s.fwClocked = true ∧ s.postRuns = true ∧ (0x3FF : BitVec 10) ≠ 0) ∧
    (let s := guarded { up.guard with zero := some (.zeroize, some req9) }
    s.guard.zero = some (.zeroize, some req9) ∧ s.clocked = true) ∧
    (let f : Freeze := { cause := .pin, captured := false, counter := 0 }
    let s : State := { guarded { up.guard with zero := some (.freeze, none) } with power := { up.power with freeze := some f } }
    s.guard.zero = some (.freeze, none) ∧ s.power.freeze = some f ∧ f.captured = false ∧ s.power.st = .run) ∧
    (let s := guarded { up.guard with retestAt := some 0 }; s.clocked = true ∧ s.due s.guard.retestAt = true) ∧
    (let b : Burn := { kind := .min 1 }; (guarded { up.guard with burn := some b }).guard.burn = some b ∧ b.retry = false ∧ b.req = none) ∧
    (let b : Burn := { kind := .lifecycle 1, req := some req9, retry := true }
    (guarded { up.guard with burn := some b }).guard.burn = some b ∧ b.retry = true ∧ b.req = some req9) ∧
    (let s := guarded { up.guard with waiting := some { epoch := 1, key := [] } }
    s.guard.waiting.isSome = true ∧ s.guard.activateAt.toNat ≤ s.ns) :=
  by decide +kernel

theorem witness_SpdmRequestsComplete :
    (Talks up doe false ∧ Talks up doe true ∧ up.guard.sessions.length < 16 ∧ doe.test ≠ .pct ∧
    Talks up { doe with test := .pct } true ∧ up.store.open_ = none) ∧
    (let x : Session := { fn := 0, id := 5 }
    Talks (sessioned x) doe5 false ∧ (sessioned x).doeSession doe5 = some x ∧ x.finished = false) ∧
    (let s := sessioned { fn := 0, id := 5, finished := true }
    Talks s doe5 false ∧ (s.doeSession doe5).any (fun x => x.finished) = true ∧ doe5.fn = 0 ∧ s.guard.waiting = none ∧
    s.guard.current = none ∧ s.ns + 10000000 ≤ (10000000 : Dword).toNat ∧ (List.replicate 8 (0 : Word)).length = 8) ∧
    (let x : IdeKey := { stream := 7, sub := 2, set := 1 }
    let s := guarded { up.guard with sessions := [{ fn := 0, id := 5, finished := true }], ide := [x] }
    Talks s doe5 false ∧ (s.doeSession doe5).any (fun x => x.finished) = true ∧ x ∈ s.guard.ide ∧ x.stream < 8 ∧ x.set < 2) :=
  ⟨by decide +kernel, by decide +kernel, by decide +kernel, by decide +kernel⟩

theorem witness_OpenStoreComplete :
    Asked up 0xE0 [0] ∧ Asked up 0xFF [0] ∧
    (let s : State := { asking up 0xE0 [0] with store := { up.store with overrun := some (.ring 0, true) } }
    s.clocked = true ∧ s.store.overrun = some (.ring 0, true) ∧ s.holds (.ring 0) = some (said 0xE0 [0])) ∧
    (let s := asking up 0xE0 [0]
    0x3FFF < 0x4000 ∧ 1 % 65536 ≠ 0 ∧ s.store.readback = none ∧ s.store.halted = false ∧ s.interp.current = some (.ring 0) ∧
    s.holds (.ring 0) = some (said 0xE0 [0]) ∧ s.store.overrun = none ∧ s.cmd (.ring 0) = some (said 0xE0 [0]) ∧ s.atc = []) ∧
    (∀ a ∈ [0x2FFF, 0x3000], let s : State := { up with store := { up.store with readback := some { addr := a } } }
    s.clocked = true ∧ s.store.readback = some { addr := a }) ∧
    (let s : State := { up with store := { up.store with trap := some (0, 5) }, interp := { ops := [(0, longOp)] } }
    s.clocked = true ∧ s.store.trap = some (0, 5) ∧ Tbl.find s.interp.ops 0 = some longOp ∧ longOp.ended = false ∧
    longOp.body = .model 1 [] ∧ s.store.heldSquash = false) ∧
    (let s : State := { asking up 0x00 [] with store := { up.store with trap := some (0, 5), heldSquash := true } }
    s.store.trap = some (0, 5) ∧ s.store.heldSquash = true ∧ s.interp.current = some (.ring 0)) :=
  by decide +kernel

theorem witness_FencesAndFaultsComplete :
    Reaches up ∧ up.fences.busy = none ∧ up.fenceCmdFail 0x70000000 = some St.badLength ∧
    up.fenceCmdFail 0xF0000000 = some St.badLength ∧ up.fenceCmdFail 0x10000000 = none ∧ up.fenceCmdFail 0x90000000 = none ∧
    (∀ k ∈ [BusKind.fence, .unfence, .reg, .irq], let s := sentTo { kind := k, payload := 0 }
    s.clocked = true ∧ (s.target 0 0).sent = some { msg := { kind := k, payload := 0 }, seq := 3, sentCc := 0 } ∧
    (s.target 0 0).acted ≠ some 3 ∧ 0 + s.ackLimit ≤ ({ s with cc := s.ackLimit } : State).cc) ∧
    (∀ b ∈ [0, 9], ∃ o ∈ fltSts b, forceBlock (o + 4) = some b) ∧
    (∀ b ∈ [true, false], let s : State := { up with hum := { toggling := true, stopped := b } }
    s.inReset = false ∧ s.hum.toggling = true ∧ s.hum.nextAt ≤ s.ticks ∧ s.power.freeze = none ∧ s.hum.stopped = b) :=
  by decide +kernel

theorem witness_InterruptsAndRegistersComplete :
    up.clocked = true ∧ (∀ n ∈ [65, 99, 165, 280], extSource n = true) ∧
    (irqs [(70, irq70)]).claimable 0 false = some 70 ∧ up.claimable 0 false = none ∧
    ((irqs [(70, { irq70 with active := some (0, false) })]).irq 70).active = some (0, false) ∧
    (let s : State := { up with ic := { timers := [(0, 0)] } }; Tbl.find s.ic.timers 0 = some 0 ∧ 0 ≤ s.cc) ∧
    Reaches up ∧ (0x8 : Word).bit 3 = true ∧ up.regField Reg.icSrcSel 9 0 = 0 ∧
    (∀ k ∈ [0, 4], claimOf 0 (0x5000 + k) = none ∧ claimOf 0 (Reg.swmHbUs + k) = none) ∧ Reg.swmHbUs / 0x10000 ≠ 0x10 ∧
    (∀ e ∈ [(0, 4), (1, 3), (3, 1)], (Reg.swmHbUs + e.1) - (Reg.swmHbUs + e.1) % 4 = Reg.swmHbUs ∧
    (Reg.swmHbUs + e.1) % 4 + e.2 ≤ 4) ∧ (∃ o ∈ [Reg.swmHbUs, Reg.swmHbUs + 4], o % 8 = 0) ∧
    4 < (Reg.swmHbUs + 3) % 4 + 2 ∧ 2 ≠ 8 ∧
    (∀ o ∈ [Reg.swmHbUs, Reg.swmFltInfo], o % 4 = 0 ∧ sees 0 o = true ∧ up.frmOff o = false ∧ prpPage o = none) ∧
    (regSpec Reg.swmHbUs).any (fun x => decide (x.kind = .rw)) = true ∧ (regSpec Reg.swmFltInfo).any (fun x => decide (x.kind = .ro)) = true :=
  by decide +kernel

theorem witness_PowerCommandsComplete :
    State.reset.power.phase = .inReset ∧
    (∀ k ∈ [0, 1], let s : State := { up with power := { up.power with phase := .released, attempts := k } }
    s.clocked = true ∧ s.power.phase = .released ∧ s.power.freezeWaits = false ∧ s.power.attempts = k ∧ fusesOk [] = false) ∧
    (0x5A3D0001 : Word).field 31 16 = 0x5A3D ∧ (0x5A3D0001 : Word).bit 0 = true ∧ up.power.freeze = none ∧ up.power.phase = .up ∧
    up.power.softDue = none ∧
    (let s : State := { up with power := { up.power with softDue := some 0 } }; s.power.softDue = some 0 ∧ s.anyRunning = false) ∧
    up.clocked = true ∧ up.power.st = .run ∧ up.barOpen = true ∧ up.sleepReason = none ∧
    (withRegs up [(Reg.swmCtrl, 1)]).sleepReason = some 6 ∧
    (let s : State := { up with power := { up.power with st := .sleepEntry } }; s.power.st = .sleepEntry ∧ s.power.freeze = none) ∧
    (let s := timeAt (withRegs up [(Reg.pwrWakeAtLo, 5)]) 5; s.wakeAt ≠ 0 ∧ s.wakeAt ≤ s.ns) ∧
    (let s : State := { up with power := { up.power with st := .waking } }
    s.power.st = .waking ∧ s.power.restored = false ∧ s.power.freeze = none) ∧
    (let f : Freeze := { cause := .pin, captured := true, counter := 0, lowSeen := true }
    let s : State := { up with power := { up.power with freeze := some f } }
    s.power.freeze = some f ∧ f.lowSeen = true ∧ s.freezeLocked = false ∧ f.captured = true ∧ s.guard.lifecycle < 4 ∧
    s.chainThere s.power.chain = true ∧ s.power.freeze ≠ none ∧ s.power.heldReads = []) ∧
    (∀ k ∈ [1, 2, 3], let s : State := { up with fw := { up.fw with trace := BitVec.ofNat 256 (k / 2), freeze := BitVec.ofNat 256 (k % 2) } }
    s.clocked = true ∧ (s.fw.freeze.getLsbD 0 = true ∨ (s.fw.freeze.getLsbD 0 = false ∧ s.fw.trace.getLsbD 0 = true))) :=
  by decide +kernel

/-! ## Commands whose packets hold an address in the windows -/

theorem offered (s : State) (op : Nat) (ps : List Word)
    (h : s.clocked = true ∧ s.store.trap = none ∧ s.store.overrun = none)
    (h2 : (said op ps).opcode = op ∧ (said op ps).statusFail = none) :
    Offers (asking s op ps) (.ring 0) op (said op ps) := by
  refine ⟨h.1, ?_, h2.1, h2.2, rfl⟩
  have hr : (asking s op ps).ring 0 = holding (said op ps).ws := Tbl.get_insert_same _ _ _ _
  have e1 : (asking s op ps).store.trap = none := h.2.1
  have e2 : (asking s op ps).store.overrun = none := h.2.2
  have e3 : (asking s op ps).interp.current = some (.ring 0) := rfl
  unfold State.cmd State.holds
  dsimp only
  rw [hr, e1, e2, e3]
  rfl

theorem window_base (n : Nat) (h : 65536 % n = 0) : (Dword.ofWords winLo winHi).toNat % n = 0 := by
  rw [window_addr, Nat.mul_mod, h, Nat.mul_zero, Nat.zero_mod]

theorem window_page : (Dword.ofWords winLo winHi).toNat % 65536 = 0 := window_base _ (by decide)

/-- INSTANCE_SAVE and INSTANCE_RESTORE of instance 2, its image at the window's start. -/
def imagePs : List Word := [2, 0, winLo, winHi, 0x1000, 0]
def saved (st : InstState) : State :=
  { up with insts := [(2, { st })], pager := { up.pager with dlogs := [(2, { en := true })] } }

theorem witness_ImagesAndMailboxesComplete_images :
    (∀ st ∈ [InstState.active, .freezing, .frozen], Offers (asking (saved st) 0x25 imagePs) (.ring 0) 0x25 (said 0x25 imagePs) ∧
      ((saved st).inst 2).seq = none ∧ ((saved st).dlog 2).en = true ∧ (saved st).longUsed < 4096 ∧
      ((saved st).inst 2).st = st) ∧
    Offers (asking (saved .active) 0x26 imagePs) (.ring 0) 0x26 (said 0x26 imagePs) ∧
    (saved .active).active 2 = true ∧ (saved .active).instEmpty 2 false = true ∧
    (said 0x25 imagePs).field 0x08 5 0 = 2 ∧ (said 0x26 imagePs).field 0x08 5 0 = 2 ∧
    ∀ op, Config.inWindows (said op imagePs).inst ((said op imagePs).dword 0x10).toNat 64 = true := by
  refine ⟨fun st hs => ⟨offered _ _ _ ⟨rfl, rfl, rfl⟩ (by decide +kernel), ?_⟩, offered _ _ _ ⟨rfl, rfl, rfl⟩ (by decide +kernel), ?_⟩
  · revert st
    decide +kernel
  · and_intros
    all_goals first | exact fun op => window_in 64 (by decide) | decide +kernel

/-- RUN_STEP of context 7, its program at the window's start. -/
def runPs : List Word := [7, 0, winLo, winHi] ++ (packet [(0x48, 0x1000)]).drop 4

theorem witness_ServingAndRunStepCommandsComplete_run :
    Offers (asking site 0x80 runPs) (.ring 0) 0x80 (said 0x80 runPs) ∧ (said 0x80 runPs).field 0x08 11 0 = 7 ∧
    runStepFail (said 0x80 runPs) = none ∧ (asking site 0x80 runPs).runStepStop (said 0x80 runPs) 7 = none := by
  refine ⟨offered _ _ _ ⟨rfl, rfl, rfl⟩ (by decide +kernel), by decide +kernel, ?_, by decide +kernel⟩
  have h : (said 0x80 runPs).dword 0x10 = Dword.ofWords winLo winHi := rfl
  have h1 : (said 0x80 runPs).field 0x38 8 0 = 0 := by decide +kernel
  have h2 : (said 0x80 runPs).dword 0x30 = 0 := by decide +kernel
  have h3 : (said 0x80 runPs).dword 0x28 = 0 := by decide +kernel
  have h4 : (said 0x80 runPs).dword 0x60 = 0 := by decide +kernel
  have h5 : Config.inWindows (said 0x80 runPs).inst (Dword.ofWords winLo winHi).toNat 64 = true := window_in 64 (by decide)
  unfold runStepFail
  dsimp only
  rw [h, h1, h2, h3, h4, h5, window_base 256 (by decide)]
  decide

/-- SERVE_BIND of MAIN on partition 3, model 1, which binds it already: member table and program at the window's start. -/
def servePs : List Word :=
  [3, 1, winLo, winHi, 0, 1, 0, 4, 64, 64, 0x01000101, 100, 0, 0, winLo, winHi, 4, 64]

theorem variant_passes (i : Nat) (a : Dword) (h : a.toNat % 256 = 0) (h1 : Config.inWindows i a.toNat 64 = true) :
    variantFail i 0 none [{ program := a, seqs := 4, toks := 64 }] = none := by
  simp [variantFail, h, h1]

theorem bind_passes (c : Cmd) (a : Dword) (h : c.dword 0x10 = a) (h0 : a.toNat % 256 = 0)
    (hw : ∀ n, Nat.ble n 65536 = true → Config.inWindows c.inst a.toNat n = true) (h1 : c.field 0x08 9 8 = 0)
    (h2 : c.field 0x0C 15 0 = 1) (h3 : c.word 0x1C = 1) (h4 : c.mainParams.fail = none)
    (h5 : c.variants = [{ program := a, seqs := 4, toks := 64 }]) : serveBindFail c = none := by
  simp [serveBindFail, h, h0, h1, h2, h3, h4, h5, hw 192 rfl, variant_passes c.inst a h0 (hw 64 rfl)]

theorem serve_bind_passes : serveBindFail (said 0x42 servePs) = none :=
  bind_passes _ (Dword.ofWords winLo winHi) rfl (window_base 256 rfl) (fun n h => window_in n (Nat.le_of_ble_eq_true h))
    (by decide +kernel) (by decide +kernel) (by decide +kernel) (by decide +kernel) rfl

theorem witness_ServingAndRunStepCommandsComplete_bind :
    Offers (asking site 0x42 servePs) (.ring 0) 0x42 (said 0x42 servePs) ∧ (said 0x42 servePs).field 0x08 6 0 = 3 ∧
    roleOf ((said 0x42 servePs).field 0x08 9 8) = .main ∧ serveBindFail (said 0x42 servePs) = none ∧
    (asking site 0x42 servePs).ownsPart (said 0x42 servePs) 3 = true ∧
    Tbl.find site.pager.models ((said 0x42 servePs).field 0x0C 15 0) = some (said 0x42 servePs).inst ∧
    (site.serve 3).role .main = some bound ∧ bound.unbinding = false ∧ site.binding 3 .main = some smp ∧
    rowsNeed .main ({ (site.serve 3).setRole .main (some { bound with variants := (said 0x42 servePs).variants }) with
      mp := (said 0x42 servePs).mainParams }.roleS .main) ≤ smp.rowsMax :=
  ⟨offered _ _ _ ⟨rfl, rfl, rfl⟩ (by decide +kernel), by decide +kernel, by decide +kernel, serve_bind_passes,
    by decide +kernel⟩

/-- MODEL_LOAD of model 2 with one region, the window's 64 KiB. -/
def modelPs : List Word := [2, 1, 0, 0, 0x1000, 0]
def modelWords : List Word := [winLo, winHi, 0, 0, 0, 0, 1, 0]

theorem entry_passes (i : Nat) (a : Dword) (e : Nat × Nat × Nat) (h : a.toNat % 65536 = 0)
    (hw : Config.inWindows i a.toNat 65536 = true) (h1 : e.1 = a.toNat) (h2 : e.2.2 = 1) :
    e.2.2 ≠ 0 ∧ e.1 % 65536 = 0 ∧ Config.inWindows i e.1 (e.2.2 * 65536) = true := by
  rw [h1, h2, Nat.one_mul]
  exact ⟨Nat.one_ne_zero, h, hw⟩

theorem witness_ServingAndRunStepCommandsComplete_load :
    Offers (asking site 0x40 modelPs) (.ring 0) 0x40 (said 0x40 modelPs) ∧ (said 0x40 modelPs).field 0x08 15 0 = 2 ∧
    (said 0x40 modelPs).field 0x0C 8 0 = 1 ∧ (said 0x40 modelPs).bit 0x08 16 = false ∧
    Tbl.find site.pager.models 2 = none ∧ site.pager.regions.length + 1 ≤ 8192 ∧ site.longUsed < 4096 ∧
    ∀ e ∈ (List.range 1).map (modelEntry modelWords),
      e.2.2 ≠ 0 ∧ e.1 % 65536 = 0 ∧ Config.inWindows (said 0x40 modelPs).inst e.1 (e.2.2 * 65536) = true := by
  refine ⟨offered _ _ _ ⟨rfl, rfl, rfl⟩ (by decide +kernel), ?_⟩
  and_intros
  on_goal 7 => intro e he
  all_goals try decide +kernel
  have h : dwordAt modelWords (32 * 0) = Dword.ofWords winLo winHi := rfl
  rw [List.range_one, List.map_singleton, List.mem_singleton] at he
  subst he
  exact entry_passes _ _ _ window_page (window_in 65536 (Nat.le_refl _)) (congrArg BitVec.toNat h) (by decide +kernel)

/-- SAMPLE_BIND of MAIN on partition 3, its summaries at the window's start. -/
def smpPs : List Word := [3, 16, 16, 36, winLo, winHi, 0, 0]
def smp3 : SampleBinding := { smp with sumBase := Dword.ofWords winLo winHi }

theorem witness_SamplerCommandsComplete_bind :
    Offers (asking site 0x44 smpPs) (.ring 0) 0x44 (said 0x44 smpPs) ∧ (said 0x44 smpPs).field 0x08 6 0 = 3 ∧
    roleOf ((said 0x44 smpPs).field 0x08 9 8) = .main ∧ (said 0x44 smpPs).field 0x08 9 8 ≠ 3 ∧
    site.part 3 = some part3 ∧ part3.inst = (said 0x44 smpPs).inst ∧
    (said 0x44 smpPs).field 0x0C 20 0 = smp3.vocab ∧ (said 0x44 smpPs).field 0x10 8 0 = smp3.width ∧
    (said 0x44 smpPs).field 0x14 15 0 = smp3.rowsMax ∧ (said 0x44 smpPs).dword 0x20 = smp3.logitBase ∧
    rowsNeed .main ((site.serve 3).roleS .main) ≤ smp3.rowsMax ∧ (said 0x44 smpPs).dword 0x18 = smp3.sumBase ∧
    smp3.sumBase.toNat % 256 = 0 ∧
    Config.inWindows (said 0x44 smpPs).inst smp3.sumBase.toNat (smp3.rowsMax * smp3.shards * (16 + 8 * smp3.width)) = true := by
  have e : smp3.rowsMax * smp3.shards * (16 + 8 * smp3.width) = 5184 := by decide +kernel
  have b : smp3.sumBase = Dword.ofWords winLo winHi := rfl
  have d : (said 0x44 smpPs).dword 0x18 = Dword.ofWords winLo winHi := rfl
  rw [e, d, b]
  refine ⟨offered _ _ _ ⟨rfl, rfl, rfl⟩ (by decide +kernel), ?_⟩
  and_intros
  on_goal 13 => exact window_in _ (by decide)
  on_goal 12 => exact window_base _ (by decide)
  on_goal 11 => rfl
  all_goals decide +kernel

/-- CYC_LOAD of table 0 with one slot, its image at the window's start. -/
def cycPs : List Word := [0, 1, 250000, 0, 0, 0, winLo, winHi]

theorem witness_CyclicTableCommandsComplete_load :
    Offers (asking site 0xA0 cycPs) (.ring 0) 0xA0 (said 0xA0 cycPs) ∧ (said 0xA0 cycPs).field 0x08 2 0 = 0 ∧
    (said 0xA0 cycPs).field 0x0C 10 0 = 1 ∧ ((said 0xA0 cycPs).dword 0x10).toNat = 250000 ∧ 1000000000 % 250000 = 0 ∧
    (said 0xA0 cycPs).field 0x18 29 0 = image7.phaseNs ∧ (site.table 0).st = .empty ∧
    ((said 0xA0 cycPs).dword 0x20).toNat % 32 = 0 ∧
    Config.inWindows (said 0xA0 cycPs).inst ((said 0xA0 cycPs).dword 0x20).toNat (32 * 1) = true := by
  have d : (said 0xA0 cycPs).dword 0x20 = Dword.ofWords winLo winHi := rfl
  rw [d]
  refine ⟨offered _ _ _ ⟨rfl, rfl, rfl⟩ (by decide +kernel), ?_⟩
  and_intros
  on_goal 8 => exact window_in _ (by decide)
  on_goal 7 => exact window_base _ (by decide)
  all_goals decide +kernel

/-- CAP_BIND of context 7: one region of one page and the loss word, both at the window's start. -/
def capPs : List Word := [0x10007, 0x10004, 9, 0, winLo, winHi, winLo, winHi, 1]
def bindable : State := { withCtx swarmed ctx7 with regs := [(Reg.capCtrl, 3), (Reg.swmCtrl, 1)] }

theorem region_passes (s : State) (i : Nat) (a : Dword) (h : a.toNat % 65536 = 0)
    (hw : Config.inWindows i a.toNat 65536 = true) (k : Nat) (hc : s.capOverlap k (a, 1) = false) :
    s.regionFail k i [] 0 0x20 [(a, 1)] = none := by
  simp [State.regionFail, h, hw, hc]

theorem cap_bind_passes (s : State) (c : Cmd) (a : Dword) (h : a.toNat % 65536 = 0)
    (hw : ∀ n, Nat.ble n 65536 = true → Config.inWindows c.inst a.toNat n = true) (hc : s.cap.ctxs = [])
    (h1 : c.field 0x0C 12 0 = 4) (h2 : c.field 0x0C 22 16 = 1) (h3 : c.dword 0x10 ≠ 0) (h4 : c.dword 0x18 = a)
    (h5 : c.regions = [(a, 1)]) : s.capBindFail c = none := by
  have h8 : a.toNat % 8 = 0 := by omega
  have hr := region_passes s c.inst a h (hw 65536 rfl) (c.field 0x08 11 0) (by simp [State.capOverlap, hc])
  have h9 : ¬c.dword 0x10 = 0#64 := h3
  simp [State.capBindFail, h1, h2, h9, h4, h5, h8, hw 8 rfl, hr]

theorem witness_CappingCommandsComplete_bind :
    Offers (asking bindable 0xC4 capPs) (.ring 0) 0xC4 (said 0xC4 capPs) ∧ (said 0xC4 capPs).field 0x08 11 0 = 7 ∧
    (bindable.ctx 7).st ≠ .free ∧ (bindable.ctx 7).inst = (said 0xC4 capPs).inst ∧ (bindable.ctx 7).role = none ∧
    bindable.capCtx 7 = none ∧ bindable.shardCtx ((said 0xC4 capPs).dword 0x10) = none ∧
    (bindable.reg Reg.capCtrl).bit 0 = true ∧ bindable.swarm.self ≠ none ∧
    (asking bindable 0xC4 capPs).capBindFail (said 0xC4 capPs) = none := by
  refine ⟨offered _ _ _ ⟨rfl, rfl, rfl⟩ (by decide +kernel), ?_⟩
  and_intros
  on_goal 9 =>
    exact cap_bind_passes _ _ (Dword.ofWords winLo winHi) window_page
      (fun n h => window_in n (Nat.le_of_ble_eq_true h)) rfl (by decide +kernel) (by decide +kernel)
      (by decide +kernel) rfl rfl
  all_goals decide +kernel

/-! ## Checks of a sum over many words, which the statements' premises hold whatever the sum is -/

/-- The first 507 words of a fuse map of one cluster, and a map with them that passes its check. -/
def fuseHead : List Word := [0x46580001, 1, 1, 0, 0, 0, 0x1F] ++ List.replicate 500 0

def fuseWords : List Word :=
  fuseHead ++ [crc32 fuseHead, 0, 0, 0, 0]

theorem fuse_length : fuseHead.length = 507 := by
  unfold fuseHead
  rw [List.length_append, List.length_replicate]
  decide

theorem witness_PowerCommandsComplete_fuses : fusesOk fuseWords = true := by
  have h : fuseWords.take 507 = fuseHead := List.take_left' fuse_length
  have h1 : wordAt fuseWords 507 = crc32 fuseHead := by
    unfold wordAt fuseWords
    rw [List.getD_append_right _ _ _ _ (by rw [fuse_length]), fuse_length]
    rfl
  have h2 : fuseWords.length = 512 := by rw [fuseWords, List.length_append, fuse_length]; rfl
  have h3 : wordAt fuseWords 0 = 0x46580001 ∧ wordAt fuseWords 1 = 1 ∧ wordAt fuseWords 6 = 0x1F := ⟨rfl, rfl, rfl⟩
  have h4 : ((List.range 128).all fun q => !(wordAt fuseWords (2 + q / 32)).bit (q % 32) || (wordAt fuseWords 1).bit (q / 4)) = true := by
    decide +kernel
  unfold fusesOk
  dsimp only
  rw [h4, h, h1, h2, h3.1, h3.2.1, h3.2.2]
  generalize crc32 _ = c
  simp
  decide

/-- The head of a program of one launch whose descriptor's 64 words are 0. -/
def programWords : List Word := [0x10001, 0, 0, crc32 (List.replicate 64 0)]

theorem program_passes : programCheck ⟨.data programWords, .data []⟩ = .inr { launches := 1, stallOnly := false, summary := false, id := 0 } := by
  have h : ((List.range (64 * 1)).map fun i => wordAt ([] : List Word) i) = List.replicate 64 0 := by decide
  have hn : (wordAt programWords 0).field 15 0 = 1 := rfl
  have hv : (wordAt programWords 0).field 31 16 = 1 := rfl
  have hc : wordAt programWords 3 = crc32 (List.replicate 64 0) := rfl
  have hb : (wordAt programWords 1).bit 1 = false := rfl
  have hs : (wordAt programWords 1).bit 0 = false := rfl
  have hi : wordAt programWords 2 = 0 := rfl
  unfold programCheck; dsimp only
  rw [hn, hv, h, hc, hb, hs, hi]
  generalize crc32 (List.replicate 64 0) = c
  simp

/-! ## Statements over any state -/

theorem witness_HandlesHoldGenerationAboveIndex : 2 ^ 18 - 1 < 2 ^ 18 := by decide

/-- A step takes the first of two commands from a state whose register file is canonical: the premise of both statements
about every step. -/
theorem witness_Steps :
    (∃ t, step { up with pending := [.bypass true, .freezePin] } = .next t) ∧
    RegsCanonical { up with pending := [.bypass true, .freezePin] } = true := ⟨⟨_, rfl⟩, by decide +kernel⟩

theorem witness_RingAndSettingFrame :
    Quiet up ∧ (∃ t, exec (.nop (.ring 0)) up = .next t) ∧ (∃ t, exec (.headShadowWrite 0) up = .next t) ∧
    (∃ t, exec (.doorbellWrite 0 0 1) up = .next t) ∧ up.power.st = .run :=
  ⟨by unfold Quiet; decide +kernel, ⟨_, rfl⟩, ⟨_, rfl⟩, ⟨_, rfl⟩, by decide⟩

/-- FIPS 180-4's example: the SHA-384 of "abc". -/
theorem test_sha384 : (beNat (sha384 [0x61, 0x62, 0x63]) =
    0xcb00753f45a35e8bb5a03d699ac65007272c32ab0eded1631a8b605a43ff5bed8086072ba1e7cc2358baeca134c825a7) := by
  decide +kernel

/-- R407 by a standard library's HMAC (RFC 5869), in either order of the two CHIP_IDs. -/
theorem test_link_key : (linkKey ((List.range 8).map fun i => Word.mk (i * 0x01010101 + 5)) 0xFF00000000000001 0x1122334455667788 =
    [0x814195BA, 0xB76B527E, 0x9D39AB58, 0xD0FC2CEF, 0x5CAE04EB, 0x4B181B07, 0x44E5E03E, 0xC0E3C85D]) := by
  decide +kernel

end Sys2Proof.Tests
end

