-- ==== Sys2Proof/Proofs/Scope.lean ====
section
/-!
PROOFS. What every step keeps: the register file stays canonical (O5).
-/

namespace Sys2Proof.Machine

/-- A step takes the front of the queue, or passes one TB_REF cycle with none waiting; either keeps the register file
canonical and leaves the rest of the queue. -/
theorem step_canon {s t : State} (e : step s = .next t) (h : RegsCanonical s = true) : Canon s.pending.tail t := by
  unfold step at e
  split at e
  case h_1 empty =>
    have start : Canon s.pending.tail s := ⟨h, by simp [empty]⟩
    cases e
    exact tbRefCycle_canon start
  case h_2 c rest front =>
    have start : Canon s.pending.tail { s with pending := rest } := ⟨h, by simp [front]⟩
    exact exec_canon e start

/-- Settles O5: a step is a command's effect or a TB_REF cycle, and each keeps the register file in its canonical form. -/
theorem stepKeepsRegistersCanonical : Obligations.StepKeepsRegistersCanonical :=
  fun _ _ e h => (step_canon e h).1

end Sys2Proof.Machine
end

/-!
PROOFS. An agent's step from its dispatch to its record (O37): what each of its events does where its guards hold.
-/

namespace Sys2Proof.Machine

/-! ## Dispatch and the program (R19, R58, R234) -/

/-- A step dispatched to the agent of a resident slot that awaits it and has none in the slot: the step taken, the
program's head read, and its timing list where it has one. -/
theorem dispatchRecordEffect_taken {s u : State} {a slot p c : Nat} {st : Step}
    (hslot : (s.partD p).slot slot = (.resident, c)) (hst : s.stepOf c = some st) (hawait : a ∈ st.awaiting)
    (hup : s.clusterUp a = true) (hfree : (s.agent a).step p slot = none)
    (hu : u = (s.modAgent a fun x =>
      { x with lastSeq := st.seq, steps := x.steps ++
        [{ partition := p, slot, context := c, seq := st.seq, program := st.program, qcs := (s.partD p).qcs }] }).emit
      (s.vcRead none st.program.toNat 64)) :
    dispatchRecordEffect a slot p s = if st.timingCount = 0 then u
      else u.emit (u.vcRead none st.timing.toNat (8 * st.timingCount)) := by
  subst hu
  simp [dispatchRecordEffect, hslot, hst, hup, hfree, hawait]

section Program

variable {s : State} {a slot p : Nat} {t : AgentStep} {st : Step} (program : ProgramReads) (timing : Reply)
  (hstep : (s.agent a).step p slot = some t) (hst : s.stepOf t.context = some st)
  (hchecked : t.checked = false) (hfailed : t.failed = none) (hstopping : t.stopping = false)
include hstep hst hchecked hfailed hstopping

theorem programCheckEffect_fails {status : Byte} (hcheck : programCheck program = .inl status) :
    programCheckEffect a slot p program timing s = (s.readForCrc t program).programFail a p slot t status := by
  simp [programCheckEffect, hstep, hst, hchecked, hfailed, hstopping, hcheck]

theorem programCheckEffect_passes {h : ProgramHeader} {timed : List (Nat × Nat)} {u : AgentStep}
    (hcheck : programCheck program = .inr h) (htimed : timingCheck st h.launches timing = .inr timed)
    (hu : u = { t with checked := true, count := h.launches, stallOnly := h.stallOnly, summary := h.summary,
                       programId := h.id, launches := (List.range h.launches).map fun i => { index := i } }) :
    programCheckEffect a slot p program timing s =
      (((s.readForCrc t program).modAgentStep a p slot fun _ => u).modStep t.context fun st =>
        { st with launches := h.launches, stallOnly := h.stallOnly, summary := h.summary, timed }).fetchDescs u 0 8 := by
  subst hu
  simp [programCheckEffect, hstep, hst, hchecked, hfailed, hstopping, hcheck, htimed]

end Program

/-! ## Expansion (R63, R82) -/

/-- May launch `t.nextLaunch`, of descriptor d, share a pass with the one after it (R82)? -/
def AgentStep.mayPack (t : AgentStep) (d : Desc) : Bool := d.isMx && d.packable && decide (t.nextLaunch + 1 < t.count)

/-- A step that goes on to its next launch, of descriptor d: its program checked, nothing that stops it, and the
descriptor after it read too where the two may share a pass. -/
structure Expands (s : State) (a p slot : Nat) (t : AgentStep) (d : Desc) : Prop where
  step      : (s.agent a).step p slot = some t
  desc      : t.desc t.nextLaunch = some d
  checked   : t.checked = true
  stopping  : t.stopping = false
  failed    : t.failed = none
  more      : t.nextLaunch < t.count
  held      : (s.agent a).held = none
  uncopied  : (s.stepOf t.context).any (fun st => !st.copying) = true
  nextRead  : t.mayPack d = true → (t.desc (t.nextLaunch + 1)).isSome = true

/-- The agent past n launches of a step: its launch register, the step's next launch, and as many descriptors read ahead. -/
def State.pastLaunches (s : State) (a p slot : Nat) (t : AgentStep) (n : Nat) : State :=
  ((s.modAgent a fun x => { x with launch := t.nextLaunch + n - 1 }).modAgentStep a p slot fun x =>
    { x with nextLaunch := t.nextLaunch + n }).fetchDescs t (t.nextLaunch + 8) (t.nextLaunch + 8 + n)

/-- Do the next launch and the one after it share passes: packing on, and e packs with d and is not refused (R82)? -/
def State.packsWith (s : State) (a : Nat) (t : AgentStep) (d e : Desc) : Bool :=
  (s.reg (frmReg Reg.frmCtrl a)).bit 0 &&
    packs d e (coresNamed s d t.qcs) (coresNamed s e t.qcs) ((coresNamed s d t.qcs).map s.width) &&
    (s.launchFail e (t.operandsOf (t.nextLaunch + 1)) t.stallOnly t.qcs).isNone

/-- The next launch of a step, of descriptor d: refused as a whole, begun with the one after it, or begun alone. -/
def State.expandNext (s : State) (a p slot : Nat) (t : AgentStep) (d : Desc) : State :=
  let l := t.nextLaunch
  match s.launchFail d (t.operandsOf l) t.stallOnly t.qcs with
  | some status => (s.refuseLaunch a p slot t l status).pastLaunches a p slot t 1
  | none =>
    if t.mayPack d && (t.desc (l + 1)).any (s.packsWith a t d) then
      ((s.beginLaunch a p slot l (some (l + 1))).beginLaunch a p slot (l + 1) (some l)).pastLaunches a p slot t 2
    else (s.beginLaunch a p slot l none).pastLaunches a p slot t 1

section Expansion

variable {s : State} {a slot p : Nat} {t : AgentStep} {d : Desc} (h : Expands s a p slot t d)
include h

/-- A step that goes on to its next launch does what becomes of that launch. -/
theorem expandEffect_eq_expandNext : expandEffect a slot p s = s.expandNext a p slot t d := by
  obtain ⟨hstep, hdesc, hchecked, hstopping, hfailed, hmore, hheld, hcopy, hread⟩ := h
  have hready : (t.checked && !t.stopping && t.failed.isNone && decide (t.nextLaunch < t.count) &&
      decide ((s.agent a).held = none) && (s.stepOf t.context).any fun st => !st.copying) = true := by
    simp [hchecked, hstopping, hfailed, hmore, hheld, hcopy]
  have hwait : (t.mayPack d && (t.desc (t.nextLaunch + 1)).isNone) = false := by
    cases hmay : t.mayPack d with
    | false => rfl
    | true => simpa using hread hmay
  unfold AgentStep.mayPack at hwait
  unfold State.expandNext
  simp only [expandEffect, hstep, hready, hdesc, hwait, AgentStep.mayPack]
  cases hfail : s.launchFail d (t.operandsOf t.nextLaunch) t.stallOnly t.qcs with
  | some status => rfl
  | none => cases t.desc (t.nextLaunch + 1) <;> simp [State.packsWith, State.pastLaunches, coresNamed, Bool.and_assoc]

theorem expandEffect_refused {status : Byte}
    (hfail : s.launchFail d (t.operandsOf t.nextLaunch) t.stallOnly t.qcs = some status) :
    expandEffect a slot p s = (s.refuseLaunch a p slot t t.nextLaunch status).pastLaunches a p slot t 1 := by
  rw [expandEffect_eq_expandNext h]
  unfold State.expandNext
  simp only [hfail]

theorem expandEffect_alone
    (hpass : s.launchFail d (t.operandsOf t.nextLaunch) t.stallOnly t.qcs = none)
    (hlone : t.mayPack d = false ∨ ∃ e, t.desc (t.nextLaunch + 1) = some e ∧ s.packsWith a t d e = false) :
    expandEffect a slot p s = (s.beginLaunch a p slot t.nextLaunch none).pastLaunches a p slot t 1 := by
  have hpair : (t.mayPack d && (t.desc (t.nextLaunch + 1)).any (s.packsWith a t d)) = false := by
    obtain hmay | ⟨e, hnext, hpacks⟩ := hlone
    · simp [hmay]
    · simp [hnext, hpacks]
  rw [expandEffect_eq_expandNext h]
  unfold State.expandNext
  simp only [hpass, hpair, Bool.false_eq_true, if_false]

theorem expandEffect_packed {e : Desc}
    (hpass : s.launchFail d (t.operandsOf t.nextLaunch) t.stallOnly t.qcs = none)
    (hmay : t.mayPack d = true) (hnext : t.desc (t.nextLaunch + 1) = some e) (hpacks : s.packsWith a t d e = true) :
    expandEffect a slot p s =
      ((s.beginLaunch a p slot t.nextLaunch (some (t.nextLaunch + 1))).beginLaunch a p slot (t.nextLaunch + 1)
        (some t.nextLaunch)).pastLaunches a p slot t 2 := by
  rw [expandEffect_eq_expandNext h]
  unfold State.expandNext
  simp only [hpass, hmay, hnext, hpacks, Option.any_some, Bool.and_self, if_true]

end Expansion

/-! ## Records, faults, stops and the end (R19, R85, R86) -/

section Step

variable {s : State} {a slot p : Nat} {t : AgentStep} (hstep : (s.agent a).step p slot = some t)
include hstep

theorem completionRecordEffect_records {l : Nat} {x : LaunchState} (hlaunch : t.launch l = some x)
    (hended : x.ended = true) (hrecorded : x.recorded = false) :
    completionRecordEffect a slot p l s = (((s.modLaunch a p slot l fun x =>
      { x with recorded := true }).emit (.control a (x.record a t.seq).words)).modStep t.context fun st =>
        if st.awaiting.contains a then { st with records := st.records ++ [x.record a t.seq] } else st).runProgress
          t.context := by
  simp [completionRecordEffect, hstep, hlaunch, hended, hrecorded]

theorem faultReportEffect_due (hdue : t.reportDue = true) : faultReportEffect a slot p s =
    (s.modAgentStep a p slot fun t => { t with reportDue := false }).stopStep t.context := by
  simp [faultReportEffect, hstep, hdue]

theorem stepStopEffect_sent {st : Step} (hst : s.stepOf t.context = some st) (hstopping : t.stopping = false)
    (hsent : st.stopSent = true) (hseq : st.seq = t.seq) :
    stepStopEffect a slot p s = s.stopAgentStep a p slot t := by
  simp [stepStopEffect, hstep, hst, hstopping, hsent, hseq]

theorem endRecordEffect_over (hover : s.agentOver a t = true) : endRecordEffect a slot p s =
    (s.modAgent a fun x =>
      { x with steps := dropWhere (fun t => t.partition == p && t.slot == slot) x.steps }).agentDone a t.context := by
  simp [endRecordEffect, hstep, hover]

end Step

/-- A command that is an effect on the clocked block, from what that effect does. -/
theorem act_eq_goesOn {s u : State} {f : State → State} (hclk : s.clocked = true) (hf : f s = u) :
    act s f = goesOn u := by
  rw [act_goesOn hclk, hf]

/-- Settles O37: each event is its effect on the clocked block, and each effect does what its guards let it do. -/
theorem agentStepEventsComplete : Obligations.AgentStepEventsComplete := by
  intro s a slot p t st hclk hst
  have hcopied (hcopy : st.copying = false) : (s.stepOf t.context).any (fun st => !st.copying) = true := by
    simp [hst, hcopy]
  refine ⟨fun u hslot hawait hup hfree hu => ?dispatch, fun hstep => ⟨fun program timing hchecked hfailed hstopping =>
    ⟨fun status hcheck => ?fails, fun x timed u hcheck htimed hu => ?passes⟩, ?single, ?packed, ?record, ?report, ?stop,
    ?done⟩⟩
  case dispatch => exact act_eq_goesOn hclk (dispatchRecordEffect_taken hslot hst hawait hup hfree hu)
  case fails =>
    exact act_eq_goesOn hclk (programCheckEffect_fails program timing hstep hst hchecked hfailed hstopping hcheck)
  case passes =>
    exact act_eq_goesOn hclk
      (programCheckEffect_passes program timing hstep hst hchecked hfailed hstopping hcheck htimed hu)
  case single =>
    rintro _ d _ rfl hdesc hchecked hstopping hfailed hmore hheld hcopy hlone rfl
    have hread (hmay : t.mayPack d = true) : (t.desc (t.nextLaunch + 1)).isSome = true := by
      obtain hno | ⟨e, hnext, -⟩ := hlone
      · exact absurd (hmay.symm.trans hno) (by decide)
      · simp [hnext]
    have h : Expands s a p slot t d :=
      ⟨hstep, hdesc, hchecked, hstopping, hfailed, hmore, hheld, hcopied hcopy, hread⟩
    refine act_eq_goesOn hclk ?_
    cases hfail : s.launchFail d (t.operandsOf t.nextLaunch) t.stallOnly t.qcs with
    | some status => exact expandEffect_refused h hfail
    | none => exact expandEffect_alone h hfail (hlone.imp_right fun ⟨e, hnext, hpacks⟩ =>
        ⟨e, hnext, hpacks.resolve_left fun hne => hne hfail⟩)
  case packed =>
    rintro _ d e _ rfl hdesc hnext hchecked hstopping hfailed hmore hheld hcopy hmx hpackable hon hpass hpass' hpacks rfl
    have hmay : t.mayPack d = true := by simp [AgentStep.mayPack, hmx, hpackable, hmore]
    exact act_eq_goesOn hclk (expandEffect_packed
      ⟨hstep, hdesc, hchecked, hstopping, hfailed, by omega, hheld, hcopied hcopy, fun _ => by simp [hnext]⟩
      hpass hmay hnext (by simp [State.packsWith, hon, hpass', hpacks]))
  case record =>
    exact fun l x hlaunch hended hrecorded =>
      act_eq_goesOn hclk (completionRecordEffect_records hstep hlaunch hended hrecorded)
  case report => exact fun hdue => act_eq_goesOn hclk (faultReportEffect_due hstep hdue)
  case stop =>
    exact fun hstopping hsent hseq => act_eq_goesOn hclk (stepStopEffect_sent hstep hst hstopping hsent hseq)
  case done => exact fun hover => act_eq_goesOn hclk (endRecordEffect_over hstep hover)

end Sys2Proof.Machine

/-!
PROOFS. The queue (O1, O6), handles (O8), and what a command on a stream answers from what it reads.
-/

namespace Sys2Proof.Machine

/-! ## The queue -/

/-- Settles O1: with a command waiting, that is what a step is by its definition. -/
theorem stepRunsTheFrontCommand : Obligations.StepRunsTheFrontCommand := by
  intro s c rest front
  unfold step
  rw [front]

/-- Settles O6: a step keeps a canonical state canonical for the queue's rest, and so leaves that rest as it was
(one queue, first in, first out: log 4). -/
theorem stepTakesOneCommandAndNoOther : Obligations.StepTakesOneCommandAndNoOther :=
  fun _ _ e h => (step_canon e h).2

/-! ## Handles (R33–R35) -/

theorem nextGen_ne_zero (g : BitVec 14) : nextGen g ≠ 0 := by
  unfold nextGen
  split
  · decide
  · bv_omega

/-- The number of a handle fits in a word. -/
theorem toNat_handleOf {i : Nat} (e : CombEntry) (hi : i < 2 ^ 18) :
    (Word.mk (handleOf i e)).toNat = e.gen.toNat * 2 ^ 18 + i := by
  have hgen := e.gen.isLt
  simp only [Word.mk, handleOf, BitVec.toNat_ofNat]
  omega

theorem handleIndex_handleOf {i : Nat} (e : CombEntry) (hi : i < 2 ^ 18) :
    handleIndex (Word.mk (handleOf i e)) = i := by
  unfold handleIndex
  rw [toNat_handleOf e hi]
  omega

theorem extractLsb'_handleOf {i : Nat} (e : CombEntry) (hi : i < 2 ^ 18) :
    (Word.mk (handleOf i e)).extractLsb' 18 14 = e.gen := by
  have hgen := e.gen.isLt
  apply BitVec.eq_of_toNat_eq
  rw [BitVec.extractLsb'_toNat, toNat_handleOf e hi, Nat.shiftRight_eq_div_pow]
  omega

/-- Settles O8: GEN and INDEX are read back from the handle's number, which is below 2^32. -/
theorem handlesHoldGenerationAboveIndex : Obligations.HandlesHoldGenerationAboveIndex := by
  intro s i hi
  refine ⟨rfl, nextGen_ne_zero, ?_⟩
  rintro _ rfl
  exact ⟨toNat_handleOf _ hi, extractLsb'_handleOf _ hi, handleIndex_handleOf _ hi⟩

/-- The three cases of R35: a generation gone by, an entry that holds no stream, a stream of another issuer. -/
theorem handleOk_eq_false {s : State} {inst : Nat} {h : Word}
    (stale : h.toNat / 2 ^ 18 ≠ (s.entry (handleIndex h)).gen.toNat ∨ (s.entry (handleIndex h)).st = .free ∨
      (s.entry (handleIndex h)).st = .unusable ∨ (s.entry (handleIndex h)).inst.toNat ≠ inst) :
    s.handleOk inst h = false := by
  unfold State.handleOk CombEntry.used
  obtain hgen | hfree | hbroken | hother := stale
  · simp only [hgen, decide_false, Bool.false_and]
  · simp [hfree]
  · simp [hbroken]
  · simp [hother]

/-! ## Commands on a stream (R35, R51, R54) -/

theorem statusFail_of_offers {s : State} {src : Src} {op : Nat} {c : Cmd} (o : Offers s src op c) :
    c.statusFail = none := by
  obtain ⟨-, -, -, status, -⟩ := o
  exact status

/-- What a command on the stream of its handle answers, from what f answers once some rows of the entry are read. -/
def Cmd.onStream (c : Cmd) (rows : List Nat) (f : State → Answer) (s : State) : Answer :=
  if !s.handleOk c.inst (c.word 0x08) then .refuse St.staleHandle 0x08
  else s.onEntry (handleIndex (c.word 0x08)) (entryRows (handleIndex (c.word 0x08)) rows) f

section OnEntry

variable {s : State} {i : Nat} {sel : Nat → Nat → Bool} {f : State → Answer}

theorem State.onEntry_poisoned (poisoned : (s.entry i).poison = true) :
    s.onEntry i sel f = .refuse St.dataPoisoned noField := by
  simp [State.onEntry, poisoned]

theorem State.onEntry_uncorrectable (sound : (s.entry i).poison = false) (met : s.meetsUncorrectable sel = true) :
    s.onEntry i sel f = .ends (s.readWords sel) St.dataPoisoned [] := by
  simp [State.onEntry, sound, met]

theorem State.onEntry_correctable (sound : (s.entry i).poison = false) (unmet : s.meetsUncorrectable sel = false) :
    s.onEntry i sel f = f (s.readWords sel) := by
  simp [State.onEntry, sound, unmet]

theorem State.onEntry_reads {r : State} {rows : List Nat} (reads : Reads s i rows r) :
    s.onEntry i (entryRows i rows) f = f r := by
  obtain ⟨sound, unmet, rfl⟩ := reads
  exact State.onEntry_correctable sound unmet

end OnEntry

/-- The handle of a command names stream i of its issuer (R35). -/
structure NamesStream (s : State) (c : Cmd) (i : Nat) : Prop where
  index : handleIndex (c.word 0x08) = i
  valid : s.handleOk c.inst (c.word 0x08) = true

section OnStream

variable {s : State} {c : Cmd} {i : Nat} {rows : List Nat} {f : State → Answer}

theorem Cmd.onStream_stale (stale : s.handleOk c.inst (c.word 0x08) = false) :
    c.onStream rows f s = .refuse St.staleHandle 0x08 := by
  simp [Cmd.onStream, stale]

theorem Cmd.onStream_named (names : NamesStream s c i) :
    c.onStream rows f s = s.onEntry i (entryRows i rows) f := by
  simp [Cmd.onStream, names.valid, names.index]

theorem Cmd.onStream_poisoned (names : NamesStream s c i) (poisoned : (s.entry i).poison = true) :
    c.onStream rows f s = .refuse St.dataPoisoned noField := by
  rw [Cmd.onStream_named names, State.onEntry_poisoned poisoned]

theorem Cmd.onStream_uncorrectable (names : NamesStream s c i) (sound : (s.entry i).poison = false)
    (met : s.meetsUncorrectable (entryRows i rows) = true) :
    c.onStream rows f s = .ends (s.readWords (entryRows i rows)) St.dataPoisoned [] := by
  rw [Cmd.onStream_named names, State.onEntry_uncorrectable sound met]

end OnStream

end Sys2Proof.Machine

/-!
PROOFS. Stale handles (O9) and the free list (O10).
-/

namespace Sys2Proof.Machine

/-! ## The range checks that come before the handle (R300, R456) -/

/-- Of a STREAM_SET's sampling fields those of the selected groups are checked (R144, R307). -/
theorem streamSet_inRange {sel : Word} {new : StreamParams} (sampling : sel.bit 8 = false ∨ samplingFail new = none)
    (tables : tableRangeFail sel new = none) :
    (if sel.bit 8 then samplingFail new else none).or (tableRangeFail sel new) = none := by
  obtain unselected | inRange := sampling
  · simp [unselected, tables]
  · simp [inRange, tables]

section Stale

variable {s : State} {c : Cmd} (stale : s.handleOk c.inst (c.word 0x08) = false)
include stale

theorem streamReleaseBody_stale : streamReleaseBody c s = .refuse St.staleHandle 0x08 := by
  simp [streamReleaseBody, stale]

theorem streamQueryBody_stale {mapped : Bool} (aligned : (c.dword 0x10).toNat % 64 = 0) :
    streamQueryBody mapped c s = .refuse St.staleHandle 0x08 := by
  simp [streamQueryBody, aligned, stale]

theorem streamAppendBody_stale {tokens : Reply} (nonempty : c.word 0x0C ≠ 0) (few : (c.word 0x0C).toNat ≤ 1048576)
    (aligned : (c.dword 0x10).toNat % 4 = 0) :
    streamAppendBody tokens c s = .refuse St.staleHandle 0x08 := by
  have range : ¬ ((c.word 0x0C).toNat = 0 ∨ 1048576 < (c.word 0x0C).toNat) := by bv_omega
  simp [streamAppendBody, range, aligned, stale]

theorem tokenLogReadBody_stale (nonempty : c.word 0x10 ≠ 0) (few : (c.word 0x10).toNat ≤ 1048576)
    (aligned : (c.dword 0x18).toNat % 4 = 0) (status : c.statusFail = none) :
    tokenLogReadBody c s = .refuse St.staleHandle 0x08 := by
  have range : ¬ ((c.word 0x10).toNat = 0 ∨ 1048576 < (c.word 0x10).toNat) := by bv_omega
  simp [tokenLogReadBody, range, aligned, status, stale]

theorem prefixCreateBody_stale (nonempty : c.word 0x0C ≠ 0) :
    prefixCreateBody c s = .refuse St.staleHandle 0x08 := by
  have range : (c.word 0x0C).toNat ≠ 0 := by bv_omega
  simp [prefixCreateBody, range, stale]

theorem streamSetBody_stale
    (sampling : (c.word 0x0C).bit 8 = false ∨ samplingFail (packetParams c 0x10) = none)
    (tables : tableRangeFail (c.word 0x0C) (packetParams c 0x10) = none) :
    streamSetBody c s = .refuse St.staleHandle 0x08 := by
  simp [streamSetBody, streamSet_inRange sampling tables, stale]

end Stale

theorem comb_finishCmd (s : State) (c : Cmd) (status : Byte) (rs : List Word) (d : Nat) :
    (s.finishCmd c status rs d).comb = s.comb :=
  congrArg Work.comb (work_finishCmd s c status rs d)

/-- Settles O9: the handle names no stream of the issuer, and each command's earlier checks pass. -/
theorem staleHandlesAreRefused : Obligations.StaleHandlesAreRefused := by
  rintro s src c _ _ rfl rfl hstale
  have stale : s.handleOk c.inst (c.word 0x08) = false := handleOk_eq_false hstale
  refine ⟨fun o => ?park, fun o => ?resume, fun o => ?retire, fun o => ?release, fun m o aligned => ?query,
    fun r o nonempty few aligned => ?append, fun o nonempty few aligned => ?tokenLog, fun o nonempty => ?create,
    fun sel new o hsel hnew sampling tables => ?set, comb_finishCmd _ _ _ _ _⟩
  case park => exact perform_refuse o (Cmd.onStream_stale (rows := [0]) stale)
  case resume => exact perform_refuse o (Cmd.onStream_stale (rows := resumeRows) stale)
  case retire => exact perform_refuse o (Cmd.onStream_stale (rows := listRows) stale)
  case release => exact perform_refuse o (streamReleaseBody_stale stale)
  case query => exact perform_refuse o (streamQueryBody_stale stale aligned)
  case append => exact perform_refuse o (streamAppendBody_stale stale nonempty few aligned)
  case tokenLog =>
    exact perform_refuse o (tokenLogReadBody_stale stale nonempty few aligned (statusFail_of_offers o))
  case create => exact perform_refuse o (prefixCreateBody_stale stale nonempty)
  case set =>
    subst hsel hnew
    exact perform_refuse o (streamSetBody_stale stale sampling tables)

/-! ## The free list (R34, R36) -/

section FreeList

variable {s : State} (usable : ∀ i, (s.entry i).st ≠ .unusable)
include usable

theorem combFresh_of_usable : s.combFresh = s.comb.fresh := by
  unfold State.combFresh
  cases s.comb.entries.length with
  | zero => rfl
  | succ n => simp [State.skipUnusable, State.unusable, usable]

theorem combHead_of_usable :
    s.combHead = if s.comb.fresh < 262144 then some s.comb.fresh else s.comb.returned.head? := by
  rw [State.combHead, combFresh_of_usable usable]

theorem comb_combPop_of_usable : s.combPop.comb =
    if s.comb.fresh < 262144 then { s.comb with fresh := s.comb.fresh + 1 }
    else { s.comb with returned := s.comb.returned.tail } := by
  unfold State.combPop
  rw [combFresh_of_usable usable]
  split <;> rfl

end FreeList

/-- A released entry holds its next generation and nothing else. -/
theorem entry_freeEntry {s : State} {i : Nat} (last : (s.entry i).gen ≠ 16383) (live : (s.entry i).gen ≠ 0) :
    (s.freeEntry i).entry i = { gen := (s.entry i).gen + 1 } := by
  have next : nextGen (s.entry i).gen = (s.entry i).gen + 1 := if_neg last
  have listed : ({ gen := nextGen (s.entry i).gen } : CombEntry) ≠ combDefault i := by
    intro h
    have hgen : nextGen (s.entry i).gen = 1 := congrArg CombEntry.gen h
    rw [next] at hgen
    exact live (by bv_omega)
  rw [← next]
  exact Tbl.get_put_same combDefault s.comb.entries i _ listed

/-- Settles O10: with no entry UNUSABLE the head is the next fresh index while there is one, then the first returned. -/
theorem freeEntriesAreTakenInOrder : Obligations.FreeEntriesAreTakenInOrder := by
  refine ⟨rfl, rfl, fun s usable => ?_, fun s i => ⟨rfl, rfl, entry_freeEntry⟩⟩
  rw [combHead_of_usable usable, comb_combPop_of_usable usable]
  refine ⟨fun left => ?fresh, fun i rest used returned => ?returned, fun used empty => ?empty⟩
  case fresh => simp [left]
  case returned => simp [Nat.not_lt.mpr used, returned]
  case empty => simp [Nat.not_lt.mpr used, empty]

end Sys2Proof.Machine

/-!
PROOFS. The commands that move a stream between its states (O31): what each answers, from what it reads.
-/

namespace Sys2Proof.Machine

section Named

variable {s : State} {c : Cmd} {i : Nat} (names : NamesStream s c i)
include names

/-! ## STREAM_QUERY (R345) -/

section Query

variable {mapped : Bool} (aligned : (c.dword 0x10).toNat % 64 = 0)
include aligned

theorem streamQueryBody_poisoned (poisoned : (s.entry i).poison = true) :
    streamQueryBody mapped c s = .refuse St.dataPoisoned noField := by
  simp [streamQueryBody, aligned, names.index, names.valid, State.onEntry_poisoned poisoned]

variable (sound : (s.entry i).poison = false)
include sound

theorem streamQueryBody_uncorrectable (met : s.meetsUncorrectable (wholeEntry i) = true) :
    streamQueryBody mapped c s = .ends (s.readWords (wholeEntry i)) St.dataPoisoned [] := by
  simp [streamQueryBody, aligned, names.index, names.valid, State.onEntry_uncorrectable sound met]

variable {r : State} (unmet : s.meetsUncorrectable (wholeEntry i) = false) (hr : s.readWords (wholeEntry i) = r)
include unmet hr

theorem streamQueryBody_writes (serving : r.orphan = false) : streamQueryBody true c s =
    .done (r.emit (r.dmaWrite c.inst (c.dword 0x10).toNat (r.entryWords i))) [] := by
  simp [streamQueryBody, aligned, names.index, names.valid, State.onEntry_correctable sound unmet, hr, serving]

theorem streamQueryBody_holds (orphaned : r.orphan = true) : streamQueryBody true c s =
    .done { r with fw := { r.fw with heldWrites := r.fw.heldWrites ++
      [(c.inst, (c.dword 0x10).toNat, r.entryWords i)] } } [] := by
  simp [streamQueryBody, aligned, names.index, names.valid, State.onEntry_correctable sound unmet, hr, orphaned]

end Query

/-! ## STREAM_RELEASE -/

section Release

variable (retired : (s.entry i).st = .retired)
include retired

theorem streamReleaseBody_releases {r : State} (unmet : s.meetsUncorrectable (entryRows i [0]) = false)
    (hr : s.readWords (entryRows i [0]) = r) :
    streamReleaseBody c s = .done (r.release i) [] := by
  simp [streamReleaseBody, names.index, names.valid, retired, unmet, hr]

theorem streamReleaseBody_uncorrectable (met : s.meetsUncorrectable (entryRows i [0]) = true) :
    streamReleaseBody c s = .ends (s.readWords (entryRows i [0])) St.dataPoisoned [] := by
  simp [streamReleaseBody, names.index, names.valid, retired, met]

end Release

/-! ## STREAM_PARK, STREAM_RETIRE (R40) -/

section Park

variable {r : State} (reads : Reads s i [0] r)
include reads

theorem streamParkBody_ready (ready : (r.entry i).st = .ready) :
    streamParkBody c s = .done (r.park i 0x08) [] := by
  simp [streamParkBody, names.index, names.valid, State.onEntry_reads reads, ready]

theorem streamParkBody_parked (parked : (r.entry i).st = .parked) :
    streamParkBody c s = .done r [] := by
  simp [streamParkBody, names.index, names.valid, State.onEntry_reads reads, parked]

theorem streamParkBody_pending (running : (r.entry i).st = .admitted ∨ (r.entry i).st = .active) :
    streamParkBody c s = .done (r.modEntry i fun e => { e with parkPending := true }) [] := by
  obtain st | st := running
  · simp [streamParkBody, names.index, names.valid, State.onEntry_reads reads, st]
  · simp [streamParkBody, names.index, names.valid, State.onEntry_reads reads, st]

end Park

section Retire

variable {r : State} (reads : Reads s i listRows r)
include reads

theorem streamRetireBody_retires
    (idle : (r.entry i).st = .admitted ∨ (r.entry i).st = .ready ∨ (r.entry i).st = .parked ∨
      (r.entry i).st = .dormant) :
    streamRetireBody c s = .done (r.retire i 0x10).pagerSync [] := by
  obtain st | st | st | st := idle
  all_goals simp [streamRetireBody, names.index, names.valid, State.onEntry_reads reads, st]

theorem streamRetireBody_pending (active : (r.entry i).st = .active) :
    streamRetireBody c s = .done (r.modEntry i fun e => { e with retirePending := true }) [] := by
  simp [streamRetireBody, names.index, names.valid, State.onEntry_reads reads, active]

end Retire

/-! ## STREAM_RESUME, STREAM_APPEND (R40, R41, R126) -/

section Resume

variable {r : State} (reads : Reads s i resumeRows r)
  (resting : (r.entry i).st = .parked ∨ (r.entry i).st = .dormant)
include reads resting

theorem streamResumeBody_resumes (room : (r.entry i).pos ≠ (r.entry i).p.maxCtx) :
    streamResumeBody c s = .done (r.resume i) [] := by
  obtain st | st := resting
  · simp [streamResumeBody, names.index, names.valid, State.onEntry_reads reads, st, room]
  · simp [streamResumeBody, names.index, names.valid, State.onEntry_reads reads, st, room]

theorem streamAppendBody_appends {n : Nat} {ws : List Word} {t : State} (hn : (c.word 0x0C).toNat = n)
    (nonempty : 1 ≤ n) (few : n ≤ 1048576) (aligned : (c.dword 0x10).toNat % 4 = 0)
    (room : (r.entry i).pos.toNat + n < (r.entry i).p.maxCtx.toNat)
    (hlog : r.extendLog i ((r.entry i).pos.toNat + n) = some t) :
    streamAppendBody (.data ws) c s =
      .done (((t.writeTokens i (r.entry i).pos.toNat
        ((List.range n).map fun k => (wordAt ws k).toNat)).modEntry i fun e =>
          { e with pos := e.pos + Word.mk n }).resume i) [] := by
  have range : ¬ (n = 0 ∨ 1048576 < n) := by omega
  obtain st | st := resting
  · simp [streamAppendBody, hn, range, aligned, names.index, names.valid, State.onEntry_reads reads, st, room, hlog]
  · simp [streamAppendBody, hn, range, aligned, names.index, names.valid, State.onEntry_reads reads, st, room, hlog]

end Resume

end Named

theorem State.resume_parked {s : State} {i : Nat} (parked : (s.entry i).st = .parked) :
    s.resume i = s.enterReady i := by
  simp [State.resume, parked]

theorem State.resume_dormant {s : State} {i : Nat} (dormant : (s.entry i).st = .dormant) {home : Option (BitVec 2)}
    (hhome : home = (s.chooseHome (s.entry i).p.partition.toNat (s.entry i).p.prefixId).map (BitVec.ofNat 2)) :
    s.resume i = (s.modEntry i fun e =>
      { e with prefillPos := 0, resumes := e.resumes + 1, homeDie := home.getD e.homeDie }).enterReady i := by
  subst hhome
  unfold State.resume
  simp only [dormant, if_true, State.modEntry]
  cases s.chooseHome (s.entry i).p.partition.toNat (s.entry i).p.prefixId <;> rfl

/-- Settles O31: each command on what it reads, for a handle that names a stream of its issuer (the rows that
it reads: log 9; a query's write held in ORPHAN: log 60). -/
theorem streamStateCommandsComplete : Obligations.StreamStateCommandsComplete := by
  rintro s r src c i _ index rfl valid
  have names : NamesStream s c i := ⟨index, valid⟩
  refine ⟨?query, fun o reads => ?park, fun o reads room => ?resume, ?append, fun o reads => ?retire,
    fun o retired => ?release, fun poisoned => ?poisoned, fun sound => ?uncorrectable⟩
  case query =>
    rintro _ o rfl aligned sound
    exact ⟨fun unmet hr =>
        ⟨fun serving => perform_done o (streamQueryBody_writes names aligned sound unmet hr serving),
          fun orphaned => perform_done o (streamQueryBody_holds names aligned sound unmet hr orphaned)⟩,
      fun m met => perform_ends o (streamQueryBody_uncorrectable names aligned sound met)⟩
  case park =>
    exact ⟨fun ready => perform_done o (streamParkBody_ready names reads ready),
      fun parked => perform_done o (streamParkBody_parked names reads parked),
      fun running => perform_done o (streamParkBody_pending names reads running)⟩
  case resume =>
    refine ⟨fun parked => ?_, fun home dormant hhome => ?_⟩
    · rw [← State.resume_parked parked]
      exact perform_done o (streamResumeBody_resumes names reads (.inl parked) room)
    · rw [← State.resume_dormant dormant hhome]
      exact perform_done o (streamResumeBody_resumes names reads (.inr dormant) room)
  case append =>
    exact fun n ws t o reads hn nonempty few aligned resting room hlog =>
      perform_done o (streamAppendBody_appends names reads resting hn nonempty few aligned room hlog)
  case retire =>
    exact ⟨fun idle => perform_done o (streamRetireBody_retires names reads idle),
      fun active => perform_done o (streamRetireBody_pending names reads active)⟩
  case release =>
    exact ⟨fun unmet hr => perform_done o (streamReleaseBody_releases names retired unmet hr),
      fun met => perform_ends o (streamReleaseBody_uncorrectable names retired met)⟩
  case poisoned =>
    exact ⟨fun m o aligned => perform_refuse o (streamQueryBody_poisoned names aligned poisoned),
      fun o => perform_refuse o (Cmd.onStream_poisoned (rows := [0]) names poisoned),
      fun o => perform_refuse o (Cmd.onStream_poisoned (rows := resumeRows) names poisoned),
      fun o => perform_refuse o (Cmd.onStream_poisoned (rows := listRows) names poisoned)⟩
  case uncorrectable =>
    exact ⟨fun o met => perform_ends o (Cmd.onStream_uncorrectable (rows := [0]) names sound met),
      fun o met => perform_ends o (Cmd.onStream_uncorrectable (rows := resumeRows) names sound met),
      fun o met => perform_ends o (Cmd.onStream_uncorrectable (rows := listRows) names sound met)⟩

end Sys2Proof.Machine

/-!
PROOFS. ADMIT_STREAM, STREAM_SET, TOKEN_LOG_READ, PREFIX_CREATE and PREFIX_FREE where their checks pass (O32).
-/

namespace Sys2Proof.Machine

/-! ## ADMIT_STREAM (R456) -/

/-- An ADMIT_STREAM that passes its checks, of parameters p and a prompt of len tokens. -/
structure Admissible (s : State) (c : Cmd) (p : StreamParams) (len : Word) : Prop where
  params   : packetParams c 0x08 = p
  length   : c.word 0x14 = len
  prompt   : len ≠ 0
  room     : len < p.maxCtx
  sampling : samplingFail p = none
  tables   : tableRangeFail allGroups p = none
  aligned  : (c.dword 0x90).toNat % 4 = 0
  objects  : s.objectFail c.inst allGroups p 4 = none
  paging   : (s.reg Reg.pagCtrl).bit 0 = true
  serves   : s.servesFail allGroups p 4 = none
  kinds    : s.kindFail allGroups p 4 = none
  quota    : s.combUsed c.inst < s.combQuota c.inst

/-- The entry of a stream just admitted (R37, R345), its lists those of m, in the state t with its memory taken. -/
def admittedEntry (t : State) (inst home : Nat) (gen : BitVec 14) (p : StreamParams) (len : Word) (m : StreamMem) :
    CombEntry :=
  { st := .admitted, gen, inst := BitVec.ofNat 6 inst, homeDie := BitVec.ofNat 2 home, promptLen := len, pos := len,
    autState := if p.grammarEn then BitVec.ofNat 16 (t.autStart p.automaton.toNat) else 0,
    pageList := (m.root.map t.blockAddr).getD 0, tokenLog := (m.logList.map t.blockAddr).getD 0,
    admitTime := BitVec.ofNat 64 t.ns, p, parkPending := t.orphan, orphanPark := t.orphan }

/-- The memory of an admission has both its list blocks (R180). -/
theorem admitMem_lists {s t : State} {inst gen home len : Nat} {m : StreamMem}
    (h : s.admitMem inst gen home len = some (m, t)) : ∃ root log, m.root = some root ∧ m.logList = some log := by
  simp only [State.admitMem, Option.bind_eq_some_iff, Option.map_eq_some_iff, Prod.exists, Prod.mk.injEq] at h
  obtain ⟨root, log, -, -, -, -, -, rfl, -⟩ := h
  exact ⟨root, log, rfl, rfl⟩

theorem admitBody_admits {s : State} {c : Cmd} {p : StreamParams} {len : Word} {j home : Nat} {m : StreamMem}
    {t u v : State} {x : CombEntry} (h : Admissible s c p len) (hhead : s.combHead = some j)
    (hhome : s.chooseHome p.partition.toNat p.prefixId = some home)
    (hmem : s.admitMem c.inst (s.entry j).gen.toNat home len.toNat = some (m, t))
    (hx : x = admittedEntry t c.inst home (s.entry j).gen p len m)
    (hu : u = (((t.combPop.setEntry j x).setMem j m).madeBlock j 0).madeBlock j 1)
    (hv : v = State.syncPressure { u with pager := { u.pager with waiting := u.pager.waiting ++ [j] } }) :
    admitBody c s = .done (v.emit (v.dmaRead c.inst (c.dword 0x90).toNat (4 * len.toNat))) [Word.mk (handleOf j x)] := by
  obtain ⟨hparams, hlength, hprompt, hroom, hsampling, htables, haligned, hobjects, hpaging, hserves, hkinds,
    hquota⟩ := h
  have short : ¬ p.maxCtx ≤ len := BitVec.not_le.mpr hroom
  have spare : ¬ s.combQuota c.inst ≤ s.combUsed c.inst := Nat.not_le.mpr hquota
  simp only [admitBody, hparams, hlength, hprompt, short, hsampling, htables, haligned, hobjects, hpaging, hserves,
    hkinds, spare, hhead, hhome, hmem, Option.or_self, Bool.not_true, Bool.false_eq_true, ne_eq, not_true_eq_false,
    if_false]
  obtain ⟨root, log, hroot, hlog⟩ := admitMem_lists hmem
  simp only [admittedEntry, hroot, hlog, Option.map_some, Option.getD_some] at hx ⊢
  rw [← hx, ← hu, hv]

/-! ## STREAM_SET (R307) -/

section Set

variable {s r : State} {c : Cmd} {i : Nat} {sel : Word} {new p : StreamParams}
  (names : NamesStream s c i) (hsel : c.word 0x0C = sel) (hnew : packetParams c 0x10 = new)
  (hp : (r.entry i).p.select new sel = p)
include names hsel hnew hp

theorem streamSetGo_passes (live : (r.entry i).live = true) (objects : r.objectFail c.inst sel p 0x0C = none)
    (serves : r.servesFail sel p 0x0C = none) (kinds : r.kindFail sel p 0x0C = none) :
    streamSetGo c r = if sel = 0 then .done r []
      else if (r.entry i).st = .active then .done (r.defer i (.set sel new)) []
      else .done (r.applySet i sel new) [] := by
  simp [streamSetGo, names.index, hsel, hnew, hp, live, objects, serves, kinds]

theorem streamSetBody_reads (reads : Reads s i setRows r)
    (sampling : sel.bit 8 = false ∨ samplingFail new = none) (tables : tableRangeFail sel new = none)
    (room : sel.bit 6 = false ∨ r.maxCtxBad i p.maxCtx.toNat = false) :
    streamSetBody c s = streamSetGo c r := by
  have fits : ¬ (sel.bit 6 && r.maxCtxBad i p.maxCtx.toNat) = true := by
    obtain unselected | long := room
    · simp [unselected]
    · simp [long]
  simp only [streamSetBody, names.index, hsel, hnew, streamSet_inRange sampling tables, names.valid,
    State.onEntry_reads reads, hp, fits, Bool.not_true, Bool.false_eq_true, if_false]

end Set

/-! ## TOKEN_LOG_READ (R46) -/

theorem tokenLogReadBody_opens {s r : State} {c : Cmd} {i first n : Nat} (names : NamesStream s c i)
    (reads : Reads s i listRows r) (hfirst : (c.word 0x0C).toNat = first) (hn : (c.word 0x10).toNat = n)
    (nonempty : 1 ≤ n) (few : n ≤ 1048576) (aligned : (c.dword 0x18).toNat % 4 = 0) (status : c.statusFail = none)
    (holds : (r.entry i).st = .ready ∨ (r.entry i).st = .active ∨ (r.entry i).st = .parked ∨ (r.entry i).st = .dormant)
    (written : first + n ≤ (r.entry i).pos.toNat) :
    tokenLogReadBody c s = .long r 0x20 (.tokenRead i (r.entry i).gen.toNat first n (c.dword 0x18)) (c.word 0x08) []
      fun k s => s.tokenReadAgain k := by
  have range : ¬ (n = 0 ∨ 1048576 < n) := by omega
  have past : ¬ (r.entry i).pos.toNat < first + n := Nat.not_lt.mpr written
  have state : ¬ ((r.entry i).st ≠ .ready ∧ (r.entry i).st ≠ .active ∧ (r.entry i).st ≠ .parked ∧
      (r.entry i).st ≠ .dormant) := by tauto
  simp only [tokenLogReadBody, names.index, hfirst, hn, range, aligned, status, names.valid,
    State.onEntry_reads reads, state, past, Option.isSome_none, Bool.not_true, Bool.false_eq_true, ne_eq,
    not_true_eq_false, if_false]

/-! ## PREFIX_CREATE, PREFIX_FREE (R185, R187) -/

theorem prefixCreateBody_creates {s r t u : State} {c : Cmd} {i l id : Nat} {fresh : List Nat} {log : Tbl LogPair}
    {y : Prefix} (names : NamesStream s c i) (reads : Reads s i listRows r) (hl : (c.word 0x0C).toNat = l)
    (nonempty : 1 ≤ l) (holds : (r.entry i).st = .ready ∨ (r.entry i).st = .parked ∨ (r.entry i).st = .active)
    (written : l ≤ (r.entry i).prefillPos.toNat) (hid : id = Tbl.freshFrom r.pager.prefixes 0) (low : id < 16384)
    (quota : r.prefixUsed c.inst < r.prefixQuota c.inst)
    (hfresh : fresh = (r.prefixPages i l).filter (fun lp => !((r.mem i).page lp).shared))
    (few : r.pager.shared.length + fresh.length ≤ 1048576)
    (hlog : r.takePairs c.inst (r.entry i).homeDie.toNat ((l + 16383) / 16384) = some (log, t))
    (hy : y = { inst := c.inst, partition := (r.entry i).p.partition.toNat, len := l, log })
    (hu : u = { t with pager := { t.pager with prefixes := Tbl.insert t.pager.prefixes id y } }) :
    prefixCreateBody c s = .done
      (if (r.entry i).st = .active then u.defer i (.mkPrefix l id) else u.makePrefix i l id).pagerSync [Word.mk id] := by
  subst hid hfresh hy hu
  have range : l ≠ 0 := by omega
  have past : ¬ (r.entry i).prefillPos.toNat < l := Nat.not_lt.mpr written
  have state : ¬ ((r.entry i).st ≠ .ready ∧ (r.entry i).st ≠ .parked ∧ (r.entry i).st ≠ .active) := by tauto
  have spare : ¬ (16384 ≤ Tbl.freshFrom r.pager.prefixes 0 ∨ r.prefixQuota c.inst ≤ r.prefixUsed c.inst ∨
      1048576 < r.pager.shared.length +
        ((r.prefixPages i l).filter fun lp => !((r.mem i).page lp).shared).length) := by omega
  simp only [prefixCreateBody, names.index, hl, range, names.valid, State.onEntry_reads reads, state, past, spare, hlog,
    Bool.not_true, Bool.false_eq_true, if_false]

theorem prefixFreeBody_frees {s : State} {c : Cmd} {id : Nat} {x : Prefix} (hid : c.field 0x08 13 0 = id)
    (hx : Tbl.find s.pager.prefixes id = some x) (own : x.inst = c.inst) (held : x.freed = false) :
    prefixFreeBody c s = .done (s.freePrefix id x).pagerSync [] := by
  simp [prefixFreeBody, hid, hx, own, held]

/-- Settles O32: each command where its checks pass, from what its body answers (rows read: log 9; an admission in
ORPHAN: log 60; the log frames that PREFIX_CREATE takes: log 54). -/
theorem streamMakingCommandsComplete : Obligations.StreamMakingCommandsComplete := by
  rintro s r src c i _ index rfl
  refine ⟨?admission, ?set, ?tokenLog, ?create, ?free⟩
  case admission =>
    intro p len j home m t u v x o hparams hlength hprompt hroom hsampling htables haligned hobjects hpaging hserves
      hkinds hquota hhead hhome hmem hx hu hv
    exact perform_done o (admitBody_admits ⟨hparams, hlength, hprompt, hroom, hsampling, htables, haligned, hobjects,
      hpaging, hserves, hkinds, hquota⟩ hhead hhome hmem hx hu hv)
  case set =>
    intro sel new p o reads hsel hnew hp valid live room sampling tables objects serves kinds
    have answer := (streamSetBody_reads ⟨index, valid⟩ hsel hnew hp reads sampling tables room).trans
      (streamSetGo_passes ⟨index, valid⟩ hsel hnew hp live objects serves kinds)
    refine ⟨fun nothing => ?_, fun selected idle => ?_, fun selected active => ?_⟩
    · exact perform_done o (answer.trans (if_pos nothing))
    · exact perform_done o (answer.trans ((if_neg selected).trans (if_neg idle)))
    · exact perform_done o (answer.trans ((if_neg selected).trans (if_pos active)))
  case tokenLog =>
    intro first n o reads hfirst hn nonempty few aligned valid holds written quota
    have opens := tokenLogReadBody_opens ⟨index, valid⟩ reads hfirst hn nonempty few aligned
      (statusFail_of_offers o) holds written
    have tracked : s.longFail (.tokenRead i (r.entry i).gen.toNat first n (c.dword 0x18)) = none :=
      if_neg (Nat.not_le.mpr quota)
    exact perform_long (go := fun k u => u.tokenReadAgain k) o opens tracked
  case create =>
    intro l id y fresh log t u o reads hl nonempty valid holds written hid low quota hfresh few hlog hy hu
    exact perform_done o (prefixCreateBody_creates ⟨index, valid⟩ reads hl nonempty holds written hid low quota
      hfresh few hlog hy hu)
  case free =>
    exact fun id x o hid hx own held => perform_done o (prefixFreeBody_frees hid hx own held)

end Sys2Proof.Machine

/-!
PROOFS. The Comb's own events (O35): initialisation, scrubbing and inspection.
-/

namespace Sys2Proof.Machine

variable {s : State}

theorem combInitEffect_due (begun : s.comb.initDone = false) (due : 131072 ≤ s.cc) :
    combInitEffect s = { s with comb := { s.comb with
      initDone := true, scrubDue := s.cc + max 64 (s.regField Reg.combScrubInterval 15 0) } } := by
  have late : ¬ s.cc < combRows := Nat.not_lt.mpr due
  simp only [combInitEffect, begun, late, decide_false, Bool.or_self, Bool.false_eq_true, if_false]
  rfl

/-- Are word w of entry i and row r of each bank in one row (R49)? -/
def inScrubRow (r i w : Nat) : Bool := decide (i / 16 = r / 8) && decide (w / 8 = r % 8)

theorem scrubEffect_due {l : List Strike} {t u : State} (done : s.comb.initDone = true)
    (enabled : (s.reg Reg.combCtrl).bit 0 = true) (due : s.comb.scrubDue ≤ s.cc)
    (ht : t = (l.filter fun x => inScrubRow s.comb.scrubRow x.index x.word).foldl State.strike
      (((l.filter fun x => !inScrubRow s.comb.scrubRow x.index x.word).foldl State.plant s).readWords
        (inScrubRow s.comb.scrubRow)))
    (hu : u = State.scrubRestart { t with comb := { t.comb with scrubRow := (s.comb.scrubRow + 1) % 131072 } }) :
    scrubEffect l s =
      (if (s.comb.scrubRow + 1) % 131072 = 0 then u.incReg Reg.combScrubPasses else u).pagerSync := by
  subst hu ht
  simp only [scrubEffect, done, enabled, due, decide_true, Bool.and_self, if_true]
  rfl

theorem inspectGo_idle (idle : s.comb.inspecting = false) :
    s.inspectGo = { s with comb := { s.comb with inspecting := true } }.setReg Reg.combInspCtrl
      (s.reg Reg.combInspCtrl &&& 2 ||| 1) := by
  simp [State.inspectGo, idle]

/-- COMB_INSP_CTRL once a snapshot is over: RESULT, DONE and RAW (R56). -/
theorem inspCtrl_over (result : Byte) (raw : Bool) :
    Word.mk (result.toNat * 2 ^ 16 + bitAt 8 true + bitAt 1 raw) =
      Word.mk (result.toNat * 2 ^ 16 + 2 ^ 8 + bitAt 1 raw) := rfl

section Inspection

variable (inspecting : s.comb.inspecting = true) (done : s.comb.initDone = true)
  {sel : Word} {i : Nat} {raw : Bool} (hsel : s.reg Reg.combInspSel = sel) (hi : handleIndex sel = i)
  (hraw : (s.reg Reg.combInspCtrl).bit 1 = raw)
include inspecting done hsel hi hraw

theorem inspectEffect_stale (cooked : raw = false)
    (stale : sel.toNat / 2 ^ 18 ≠ (s.entry i).gen.toNat ∨ (s.entry i).used = false) :
    inspectEffect s = { s with comb := { s.comb with inspecting := false } }.setReg Reg.combInspCtrl
      (Word.mk (St.staleHandle.toNat * 2 ^ 16 + 2 ^ 8)) := by
  have fails : (decide (sel.toNat / 2 ^ 18 = (s.entry i).gen.toNat) && (s.entry i).used) = false := by
    obtain hgen | hused := stale
    · simp only [hgen, decide_false, Bool.false_and]
    · simp only [hused, Bool.and_false]
  have ends : (s.comb.inspecting && s.comb.initDone) = true := by simp [inspecting, done]
  simp only [inspectEffect, ends, hsel, hi, hraw, cooked, fails, Bool.or_self, Bool.not_false,
    Bool.false_eq_true, if_true, if_false]
  exact congrArg (State.setReg _ Reg.combInspCtrl) (inspCtrl_over St.staleHandle false)

theorem inspectEffect_copies {t : State}
    (shown : raw = true ∨ (sel.toNat / 2 ^ 18 = (s.entry i).gen.toNat ∧ (s.entry i).used = true))
    (ht : t = (List.range 64).foldl (fun t w => t.setReg (Reg.combInspData + 4 * w)
      (if (s.entryBad i).contains w then 0 else wordAt (s.entryWords i) w)) s) :
    inspectEffect s = { t with comb := { t.comb with inspecting := false } }.setReg Reg.combInspCtrl
      (Word.mk ((if s.entryBad i = [] then St.ok else St.dataPoisoned).toNat * 2 ^ 16 + 2 ^ 8 + bitAt 1 raw)) := by
  have passes : (raw || (decide (sel.toNat / 2 ^ 18 = (s.entry i).gen.toNat) && (s.entry i).used)) = true := by
    simpa using shown
  subst ht
  have ends : (s.comb.inspecting && s.comb.initDone) = true := by simp [inspecting, done]
  simp only [inspectEffect, ends, hsel, hi, hraw, passes, List.isEmpty_iff, Bool.not_true,
    Bool.false_eq_true, if_true, if_false]
  exact congrArg (State.setReg _ Reg.combInspCtrl) (inspCtrl_over _ raw)

end Inspection

/-- Settles O35: each event is its effect on the clocked block, or a BAR write, and each effect is due
(strikes: log 9; when a snapshot takes its words and what RESULT reads: log 45). -/
theorem combEventsComplete : Obligations.CombEventsComplete := by
  intro s
  refine ⟨fun hclk begun due => act_eq_goesOn hclk (combInitEffect_due begun due), ?scrub,
    fun reach idle => (barWrite_goesOn reach).trans (congrArg goesOn (inspectGo_idle idle)), ?snapshot⟩
  case scrub =>
    rintro l _ _ t u hclk done enabled due rfl rfl ht hu
    exact act_eq_goesOn hclk (scrubEffect_due done enabled due ht hu)
  case snapshot =>
    intro sel i raw hclk inspecting done hsel hi hraw
    exact ⟨fun cooked stale => act_eq_goesOn hclk (inspectEffect_stale inspecting done hsel hi hraw cooked stale),
      fun t shown ht => act_eq_goesOn hclk (inspectEffect_copies inspecting done hsel hi hraw shown ht)⟩

end Sys2Proof.Machine

/-!
PROOFS. The engine queues of a core (O38): issue, credit, start, completion and timeouts.
-/

namespace Sys2Proof.Machine

variable {s : State} {a c e p : Nat} {part : Partition}

/-! ## Issue (R65–R71, R80, R81, R422) -/

theorem mem_engines {e : Nat} : e ∈ engines ↔ e ≤ 4 := by
  simp only [engines, List.mem_cons, List.not_mem_nil, or_false]
  omega

/-- May queue e of core c be given a command at all: a core that is there and not fenced, and no soft reset under way? -/
structure TakesCommands (s : State) (a c e : Nat) : Prop where
  core     : c < 64
  up       : s.coreUp (64 * a + c) = true
  unfenced : s.coreFenced (64 * a + c) = false
  engine   : e ≤ 4
  awake    : s.power.softDue = none

section IssueOn

variable (takes : TakesCommands s a c e)
include takes

theorem issueOn_saveDue {t : AgentStep} {n : Nat} (due : s.saveDue a c e = some (t, n))
    (room : (s.core a c).occupied 0 < 64) : s.issueOn a c e =
      ((s.modAgentStep a t.partition t.slot fun t => { t with saves := t.saves.erase (c, n) }).offerSave a c t n, true) := by
  obtain ⟨hc, up, unfenced, he, awake⟩ := takes
  simp [State.issueOn, due, room, up, unfenced, awake, Nat.not_le.mpr hc, Nat.not_lt.mpr he]

/-- With no save due and no slot draining, a core is given what the step of the issuing slot has for it. -/
theorem issueOn_issuing {k : Nat} {t : AgentStep} (hpart : s.partOfQc ((64 * a + c) / 16) = some (p, part))
    (nosave : s.saveDue a c e = none) (undrained : part.draining = []) (issuing : part.issuing = some k)
    (hstep : (s.agent a).step p k = some t) (may : s.mayIssue t = true) : s.issueOn a c e = s.issueFor a c e t := by
  obtain ⟨hc, up, unfenced, he, awake⟩ := takes
  simp [State.issueOn, nosave, hpart, undrained, issuing, hstep, may, Option.filter, up, unfenced, awake,
    Nat.not_le.mpr hc, Nat.not_lt.mpr he]

end IssueOn

/-- The step's next command of a queue goes out, with nothing of the step that must go first on the core. -/
theorem issueFor_work {t : AgentStep} {u v : State} {w : Work} (he : e ≤ 4) (work : s.nextWork a c e t ≠ none)
    (hu : u = s.unpark a c t.slot) (resumed : u.resumeNeed a c t.context = .none)
    (noput : ∀ e' x, s.nextWork a c e' t = some x → ∀ op, u.workNeed a c x.d.engine t x ≠ .put e op)
    (next : u.nextWork a c e t = some w) (ready : u.workNeed a c e t w = .none)
    (room : (u.core a c).occupied e < u.paceHigh a) (start : u.startOk t w c = true)
    (free : u.workGuard a c e t w = (v, false)) : s.issueFor a c e t = (v.issueWork a c e t w, true) := by
  subst hu
  have works : (engines.filterMap fun e => s.nextWork a c e t).isEmpty = false := by
    obtain ⟨x, hx⟩ := Option.ne_none_iff_exists'.mp work
    rw [List.isEmpty_eq_false_iff]
    exact List.ne_nil_of_mem (List.mem_filterMap.mpr ⟨e, mem_engines.mpr he, hx⟩)
  simp only [State.issueFor, works, Bool.false_eq_true, if_false, resumed]
  rw [List.find?_eq_none.mpr ?noput]
  case noput =>
    intro n hn
    obtain ⟨x, hx, rfl⟩ := List.mem_map.mp hn
    obtain ⟨e', -, hx⟩ := List.mem_filterMap.mp hx
    cases need : (s.unpark a c t.slot).workNeed a c x.d.engine t x with
    | none => simp
    | wait => simp
    | put e'' op =>
      have other : e'' ≠ e := fun same => noput e' x hx op (same ▸ need)
      simpa using other
  simp [next, ready, start, free, Nat.not_le.mpr room]

theorem issue_inTurn {u : State} (offered : s.issueOn a c e = (u, true)) (turn : s.turnOf a c = true) :
    s.issue a c e = u.modAgent a fun x => { x with served := c, servedPart := s.corePart a c } := by
  simp [State.issue, offered, turn]

theorem exec_engineCommandIssue : exec (.engineCommandIssue a c e) s = act s fun s => s.issue a c e := rfl

/-! ## Credits (R422) -/

theorem creditEffect_owed (owed : ((s.core a c).queue e).length < (s.core a c).occupied e) :
    creditEffect a c e s = s.modCore a c fun x => x.setOcc e (x.occupied e - 1) := by
  simp only [creditEffect, owed, if_true]

/-! ## Starts and completions (R77, R80, R84, R97, R99) -/

/-- A command that ends ST_OK has left its engine, and the share of each of its launches is done. -/
def State.sharesDone (s : State) (a c e p : Nat) (y : EngCmd) : State :=
  y.parts.foldl (fun s q => s.partDone a c p y.slot q false)
    (s.modCore a c fun x => x.leave e (s.free 23) y (y.parts.flatMap fun q => q.dst)).drew

/-- The shares of a command that ends ST_OK: none of its launches' is at fault. -/
theorem okShares_eq_map_parts (y : EngCmd) :
    (y.part, false) :: y.packed.toList.map (fun q => (q, false)) = y.parts.map fun q => (q, false) := rfl

theorem filter_okShares (y : EngCmd) :
    (y.parts.map fun q => (q, false)).filter (fun v => !v.2) = y.parts.map fun q => (q, false) := by
  simp

section OfPartition

variable (hpart : s.partOfQc ((64 * a + c) / 16) = some (p, part)) {y : EngCmd}
include hpart

theorem headIssueEffect_picks (pick : (s.core a c).pick e = some y) :
    headIssueEffect a c e s = (s.modCore a c fun x => x.start e (part.slot y.slot).2 y).syncCore a c := by
  simp only [headIssueEffect, pick, hpart]

section Completion

variable (runs : ((s.core a c).exec e).find? (fun z =>
  z.slot == y.slot && z.part.launch == y.part.launch && z.part.index == y.part.index) = some y) {quad : Nat}
include runs

theorem completeEffect_launches (launched : y.rsv = none) :
    completeEffect a c e y.slot y.part.launch y.part.index St.ok quad s =
      y.parts.foldl (fun s q => match (s.agent a).step p y.slot with
        | some w => (s.markLaunch a c w q.launch).checkLaunch a p y.slot q.launch
        | none => s) ((s.sharesDone a c e p y).syncCore a c) := by
  simp only [completeEffect, runs, hpart, launched, ne_eq, not_true_eq_false, decide_false, Bool.false_and,
    okShares_eq_map_parts, filter_okShares, List.flatMap_map, List.foldl_map, Option.isSome_none, Bool.false_eq_true,
    if_false, List.foldl_fixed]
  rw [← State.sharesDone]
  cases ((s.sharesDone a c e p y).agent a).step p y.slot with
  | none => rfl
  | some t => rfl

theorem completeEffect_reserved {op : RsvOp} (reserved : y.rsv = some op) :
    completeEffect a c e y.slot y.part.launch y.part.index St.ok quad s =
      ((s.sharesDone a c e p y).rsvDone a c (part.slot y.slot).2 y op).syncCore a c := by
  simp only [completeEffect, runs, hpart, reserved, ne_eq, not_true_eq_false, decide_false, Bool.false_and,
    okShares_eq_map_parts, filter_okShares, List.flatMap_map, List.foldl_map, Option.isSome_some, if_true]
  rw [← State.sharesDone]
  cases (((s.sharesDone a c e p y).rsvDone a c (part.slot y.slot).2 y op).agent a).step p y.slot with
  | none => rfl
  | some t => rfl

end Completion

/-! ## Timeouts (R79, R101, R102) -/

theorem waitTimeoutEffect_due {q : CmdPart} {w : Wait} (head : ((s.core a c).queue e).head? = some y)
    (due : s.timedOut a (Tbl.find (s.core a c).waitDue e) = true)
    (unmet : y.parts.find? (fun q => !(s.core a c).waitOk y.slot q.wait) = some q) (waits : q.wait = some w) {t : State}
    (ht : t = ((((s.modCore a c fun x => { x with waitDue := Tbl.erase x.waitDue e }).waitDiag a c e (part.slot y.slot).2 y
      q w).satReg Reg.schWaitToCnt).execFault a p y.slot q.launch St.waitTimeout (some c))) :
    waitTimeoutEffect a c e s = t.raise
      { id := Flt.waitTimeout, inst := t.ctxInst (part.slot y.slot).2, status := St.waitTimeout } := by
  subst ht
  simp only [waitTimeoutEffect, head, hpart, due, unmet, waits]

theorem gateTimeoutEffect_due {gr l : Nat} {t : AgentStep} (head : ((s.core a c).queue e).head? = some y)
    (due : s.timedOut a (Tbl.find (s.core a c).gateDue e) = true) (invalid : (s.core a c).firstInvalid y = some gr)
    (hstep : (s.agent a).step p y.slot = some t)
    (hl : l = ((y.parts.find? fun q => q.src.contains gr).getD y.part).launch) :
    gateTimeoutEffect a c e s = (((s.modCore a c fun x => { x with gateDue := Tbl.erase x.gateDue e }).setReg
      (frmReg Reg.frmGateInfo a) (Word.mk (gr * 2 ^ 16 + c))).execFault a p y.slot l St.operandTimeout (some c)).frmFault
        a 4 t l St.operandTimeout (some c) := by
  subst hl
  simp only [gateTimeoutEffect, head, hpart, due, invalid, hstep]

end OfPartition

/-- Settles O38: each event is its effect on the clocked block, and each effect does what its guards let it do (the name of
a reserved entry's command: log 23; of two failed waits of a packed pass the first launch's: log 59). -/
theorem engineQueueEventsComplete : Obligations.EngineQueueEventsComplete := by
  intro s a c e p part hclk hpart
  refine ⟨?work, ?save, fun owed => act_eq_goesOn hclk (creditEffect_owed owed),
    fun y pick => act_eq_goesOn hclk (headIssueEffect_picks hpart pick), ?complete, ?wait, ?gate⟩
  case work =>
    intro k t u v w hc up unfenced he awake nosave undrained issuing hstep may turn work hu resumed noput next ready room
      start free
    have offered : s.issueOn a c e = (v.issueWork a c e t w, true) :=
      (issueOn_issuing ⟨hc, up, unfenced, he, awake⟩ hpart nosave undrained issuing hstep may).trans
        (issueFor_work he work hu resumed noput next ready room start free)
    exact exec_engineCommandIssue.trans (act_eq_goesOn hclk (issue_inTurn offered turn))
  case save =>
    rintro t n _ hc up unfenced he awake due room turn rfl
    have offered := issueOn_saveDue ⟨hc, up, unfenced, he, awake⟩ due room
    exact exec_engineCommandIssue.trans (act_eq_goesOn hclk (issue_inTurn offered turn))
  case complete =>
    rintro y quad _ t u _ runs rfl ht hu rfl
    obtain rfl : u = s.sharesDone a c e p y := by
      rw [hu, ht]
      rfl
    exact ⟨fun launched => act_eq_goesOn hclk (completeEffect_launches hpart runs launched),
      fun op reserved => act_eq_goesOn hclk (completeEffect_reserved hpart runs reserved)⟩
  case wait =>
    exact fun y q w t head due unmet waits ht =>
      act_eq_goesOn hclk (waitTimeoutEffect_due hpart head due unmet waits ht)
  case gate =>
    exact fun y gr t l head due invalid hstep hl =>
      act_eq_goesOn hclk (gateTimeoutEffect_due hpart head due invalid hstep hl)

end Sys2Proof.Machine

/-!
PROOFS. Errors of memory, and what a fabric read brings (O43).
-/

namespace Sys2Proof.Machine

variable {s t : State}

/-! ## Regions (R189) -/

section Region

variable {k page : Nat} {x : Region} (hx : s.region k = some x)
include hx

theorem regionPoisonEffect_sound (within : page < x.pages) (sound : page ∉ x.repairs)
    (ht : t = s.pagFault Flt.regionPoison (x.base.toNat + page * 65536) 0 none St.dataPoisoned) :
    regionPoisonEffect k page s =
      if x.st = .lost then t.modRegion k fun x => { x with bad := insertAsc page x.bad }
      else if x.replica = 0 then (t.report Flt.regionPoison false (regionFrame x page).1 (regionFrame x page).2).regionLost k page
      else (t.modRegion k fun x => { x with st := .held, repairs := insertAsc page x.repairs }).repairPage x page := by
  subst ht
  simp [regionPoisonEffect, hx, sound, Nat.not_le.mpr within]

section Repair

variable {hard : Bool} (repairing : page ∈ x.repairs)
  (ht : t = (s.modRegion k fun y => { y with repairs := x.repairs.erase page }).report Flt.regionPoison hard
    (regionFrame x page).1 (regionFrame x page).2)
include repairing ht

theorem regionDoneEffect_fails {ok : Bool} (fails : ok = false ∨ hard = true) :
    regionDoneEffect k page ok hard s =
      if x.st = .lost then t.modRegion k fun x => { x with bad := insertAsc page x.bad } else t.regionLost k page := by
  have bad : (!ok || hard) = true := by simpa using fails
  subst ht
  simp [regionDoneEffect, hx, repairing, bad]

/-- A page repaired: its region goes live once no other of its pages is under repair and nothing was lost. -/
theorem regionDoneEffect_repaired (soft : hard = false) :
    regionDoneEffect k page true hard s =
      if x.repairs = [page] ∧ x.st = .held then t.modRegion k fun x => { x with st := .live } else t := by
  have last : x.repairs.erase page = [] ↔ x.repairs = [page] := by
    rw [List.erase_eq_nil_iff, or_iff_right (List.ne_nil_of_mem repairing)]
  subst ht soft
  simp [regionDoneEffect, hx, repairing, last]

end Repair

end Region

/-! ## Poisoned frames (R190) -/

theorem exec_framePoison_eq_goesOn {k i page : Nat} {hard : Bool} (hclk : s.clocked = true)
    (hf : framePoisonEffect k i page hard s = t) : exec (.framePoison k i page hard) s = goesOn t :=
  have exec_eq : exec (.framePoison k i page hard) s = act s (framePoisonEffect k i page hard) := rfl
  exec_eq.trans (act_eq_goesOn hclk hf)

section Stream

variable {i : Nat} (live : (s.entry i).live = true) {page : Nat} {hard : Bool}
include live

theorem framePoisonEffect_private (own : ((s.mem i).page page).shared = false) :
    framePoisonEffect 0 i page hard s = (s.poisonPage i page hard).pagerSync := by
  unfold framePoisonEffect
  simp [live, own]

theorem framePoisonEffect_shared (shared : ((s.mem i).page page).shared = true) :
    framePoisonEffect 1 i page hard s = (s.poisonPage i page hard).pagerSync := by
  unfold framePoisonEffect
  simp [live, shared]

theorem framePoisonEffect_logCopy : framePoisonEffect 2 i page hard s = (s.repairLog i page hard).pagerSync := by
  unfold framePoisonEffect
  simp [live]

theorem framePoisonEffect_logPair {q : LogPair} (logged : Tbl.find (s.mem i).log page = some q) :
    framePoisonEffect 3 i page hard s = (s.loseBoth i (s.frameAddr q.primary)).pagerSync := by
  unfold framePoisonEffect
  simp [live, logged]

theorem framePoisonEffect_listCopy : framePoisonEffect 4 i page hard s = (s.repairList i page hard).pagerSync := by
  unfold framePoisonEffect
  simp [live]

theorem framePoisonEffect_listPair {b : Block} (block : (s.mem i).block page = some b) :
    framePoisonEffect 5 i page hard s = (s.loseBoth i (s.frameAddr b.first)).pagerSync := by
  unfold framePoisonEffect
  simp [live, block]

end Stream

section PrefixLog

variable {id j : Nat} {x : Prefix} {q : LogPair} (hx : Tbl.find s.pager.prefixes id = some x)
  (hq : Tbl.find x.log j = some q) {hard : Bool}
include hx hq

theorem framePoisonEffect_prefixCopy : framePoisonEffect 6 id j hard s = (s.repairPrefixLog id j hard).pagerSync := by
  unfold framePoisonEffect
  simp [State.prefixLogPoison, hx, hq]

theorem framePoisonEffect_prefixPair :
    framePoisonEffect 7 id j hard s = (s.losePrefix id x (s.frameAddr q.primary)).pagerSync := by
  unfold framePoisonEffect
  simp [State.prefixLogPoison, hx, hq]

end PrefixLog

theorem framePoisonEffect_held {i j : Nat} {x : HeldCap} {f : Frame} {hard : Bool} (hx : s.cap.held[i]? = some x)
    (hf : x.frames[j]? = some f) : framePoisonEffect 8 i j hard s =
      ((((s.loseHeld x).withhold f).report Flt.heldPoison hard .super f.number).setReg Reg.capFltInfo
        (Word.mk x.owner)).raise { id := Flt.heldPoison } := by
  unfold framePoisonEffect
  simp [State.heldPoison, hx, hf]

/-! ## Reports (R191) -/

theorem exec_retireFramePop_reads (reach : Reachable s 0) (ht : t = s.emit (.readData 0 (retireWord s.pager.retire))) :
    exec .retireFramePop s = goesOn { t with pager := { t.pager with retire := t.pager.retire.tail } } := by
  have exec_eq : exec .retireFramePop s = execRetireFramePop s := rfl
  rw [exec_eq, execRetireFramePop, barRead_goesOn reach, ht]

/-! ## Responses of the fabric (R58, R190) -/

theorem fabricAgent_arrives {a slot p : Nat} {t : AgentStep} {ws : List Word} (hstep : (s.agent a).step p slot = some t)
    (checked : t.checked = true) (stopping : t.stopping = false) (failed : t.failed = none)
    (more : t.descs.length < t.count) (near : t.descs.length < t.nextLaunch + 8) :
    fabricAgent a slot p (.data ws) s =
      s.modAgentStep a p slot fun u => { u with descs := Tbl.insert u.descs t.descs.length (ws.take 64) } := by
  simp [fabricAgent, hstep, checked, stopping, failed, Nat.not_le.mpr more, Nat.not_le.mpr near]

theorem fabricOp_tokens {k i gen first n : Nat} {o : LongOp} {dest : Dword} {read : Reply}
    (ho : Tbl.find s.interp.ops k = some o) (runs : o.ended = false) (body : o.body = .tokenRead i gen first n dest)
    (idle : o.copying = 0) (leased : s.orphan = false) :
    fabricOp k read s = s.tokenData k o i gen first n dest read := by
  simp [fabricOp, ho, runs, body, idle, leased]

/-- Settles O43: each event is its effect on the clocked block, or a BAR access, and each effect does what its guards let
it do (poisoned logs of kinds 6 and 7, and a page of a LOST region: log 54). -/
theorem memoryErrorsComplete : Obligations.MemoryErrorsComplete := by
  intro s k i page hard hclk
  refine ⟨fun x t hx within sound ht => act_eq_goesOn hclk (regionPoisonEffect_sound hx within sound ht), ?repair,
    fun live => ?stream, ?prefixLog, fun x f hx hf => exec_framePoison_eq_goesOn hclk (framePoisonEffect_held hx hf),
    fun t reach ht => exec_retireFramePop_reads reach ht, ?desc, ?tokens⟩
  case repair =>
    intro x t hx repairing ht
    refine ⟨fun ok fails => ⟨fun kept => ?_, fun lost => ?_⟩, fun soft last held => ?_, fun soft more => ?_⟩
    · exact act_eq_goesOn hclk ((regionDoneEffect_fails hx repairing ht fails).trans (if_neg kept))
    · exact act_eq_goesOn hclk ((regionDoneEffect_fails hx repairing ht fails).trans (if_pos lost))
    · exact act_eq_goesOn hclk ((regionDoneEffect_repaired hx repairing ht soft).trans (if_pos ⟨last, held⟩))
    · exact act_eq_goesOn hclk ((regionDoneEffect_repaired hx repairing ht soft).trans (if_neg fun h => more h.1))
  case stream =>
    exact ⟨fun own => exec_framePoison_eq_goesOn hclk (framePoisonEffect_private live own),
      fun shared => exec_framePoison_eq_goesOn hclk (framePoisonEffect_shared live shared),
      exec_framePoison_eq_goesOn hclk (framePoisonEffect_logCopy live),
      fun q logged => exec_framePoison_eq_goesOn hclk (framePoisonEffect_logPair live logged),
      exec_framePoison_eq_goesOn hclk (framePoisonEffect_listCopy live),
      fun b block => exec_framePoison_eq_goesOn hclk (framePoisonEffect_listPair live block)⟩
  case prefixLog =>
    exact fun x q hx hq => ⟨exec_framePoison_eq_goesOn hclk (framePoisonEffect_prefixCopy hx hq),
      exec_framePoison_eq_goesOn hclk (framePoisonEffect_prefixPair hx hq)⟩
  case desc =>
    exact fun a slot p t ws hstep checked stopping failed more near =>
      act_eq_goesOn hclk (fabricAgent_arrives hstep checked stopping failed more near)
  case tokens =>
    exact fun o n first m dest ws ho runs body idle leased =>
      act_eq_goesOn hclk (fabricOp_tokens ho runs body idle leased)

end Sys2Proof.Machine

/-!
PROOFS. Page geometry, serving roles, RUN_STEP and the model commands where their checks pass (O29).
-/

namespace Sys2Proof.Machine

variable {s t : State} {c : Cmd} {p : Nat}

/-! ## PAGE_GEOM (R172) -/

theorem pageGeomBody_sets (hp : c.field 0x08 6 0 = p)
    (tokens : c.field 0x0C 12 0 ∈ [16, 32, 64, 128, 256, 512, 1024, 2048, 4096]) (nonempty : 1 ≤ c.field 0x0C 24 16)
    (few : c.field 0x0C 24 16 ≤ 256) (own : s.ownsPart c p = true) (unused : s.holdsStreams p = false) :
    pageGeomBody c s =
      .done (s.modServe p fun x => { x with geomP := c.field 0x0C 12 0, geomG := c.field 0x0C 24 16 }) [] := by
  have sized := List.contains_iff_mem.mpr tokens
  have range : ¬ (c.field 0x0C 24 16 = 0 ∨ 256 < c.field 0x0C 24 16) := by omega
  unfold State.ownsPart at own
  simp only [pageGeomBody, hp, sized, range, own, unused, Bool.not_true, Bool.false_eq_true, if_false]

/-! ## SERVE_BIND (R106, R107) -/

/-- The binding that a SERVE_BIND describes, its context not known yet. -/
def Cmd.roleBinding (c : Cmd) : RoleBinding :=
  { model := c.field 0x0C 15 0, variants := c.variants, mtBase := c.dword 0x10, tFixedNs := (c.word 0x18).toNat,
    tTokPs := (c.word 0x1C).toNat, tCtxPs := (c.word 0x20).toNat, context := 0 }

/-- Role r of partition p bound as b with context n: MAIN brings its own fields and the plain slice ratio, and a forecast
that was held is taken again. -/
def State.putRole (t : State) (c : Cmd) (p : Nat) (r : Role) (b : RoleBinding) (n : Nat) : State :=
  (if r = .main then ((t.discardForecast p).modServe p fun x =>
      { x.setRole r (some { b with context := n }) with mp := c.mainParams }).modPart p fun q => { q with ratio := 256 }
    else (t.discardForecast p).modServe p fun x => x.setRole r (some { b with context := n })).wakeForecast p

section Bind

variable {r : Role} {b : RoleBinding}

theorem State.bindRole_bound {old : RoleBinding} (bound : (s.serve p).role r = some old) :
    s.bindRole c p r b = some (old.context, s.putRole c p r b old.context) := by
  simp only [State.bindRole, bound, State.putRole]
  cases r <;> rfl

/-- A role bound anew takes a context; its slice length is a free value (log 30). -/
theorem State.bindRole_new {n : Nat} (unbound : (s.serve p).role r = none) (quota : s.ctxUsed c.inst < s.ctxQuota c.inst)
    (made : s.drew.makeCtx c.inst p (if r = .fallback then 224 else 160) (50 + s.free 30 % 99951) (some r) =
      some (n, t)) :
    s.bindRole c p r b = some (n, t.putRole c p r b n) := by
  simp only [State.bindRole, unbound, Nat.not_le.mpr quota, made, Option.map_some, State.putRole, if_false]
  cases r <;> rfl

theorem serveBindBody_binds {x : ServePart} {n : Nat} (hp : c.field 0x08 6 0 = p) (hr : roleOf (c.field 0x08 9 8) = r)
    (passes : serveBindFail c = none) (own : s.ownsPart c p = true)
    (model : Tbl.find s.pager.models (c.field 0x0C 15 0) = some c.inst)
    (hx : x = (s.serve p).setRole r (some c.roleBinding))
    (rows : ∀ y, s.binding p r = some y →
      rowsNeed r ((if r = .main then { x with mp := c.mainParams } else x).roleS r) ≤ y.rowsMax)
    (kept : ∀ old, (s.serve p).role r = some old → old.unbinding = false)
    (binds : s.bindRole c p r c.roleBinding = some (n, t)) :
    serveBindBody c s = .done t [Word.mk n] := by
  have few : (s.binding p r).any (fun y =>
      decide (y.rowsMax < rowsNeed r ((if r = .main then { x with mp := c.mainParams } else x).roleS r))) = false := by
    cases binding : s.binding p r with
    | none => rfl
    | some y => exact decide_eq_false (Nat.not_lt.mpr (rows y binding))
  have unbinding : ((s.serve p).role r).any (fun old => old.unbinding) = false := by
    cases role : (s.serve p).role r with
    | none => rfl
    | some old => exact kept old role
  subst hx
  unfold Cmd.roleBinding at few binds
  simp only [serveBindBody, hp, hr, passes, own, model, few, unbinding, binds, Bool.not_true, Bool.false_eq_true,
    ne_eq, not_true_eq_false, if_false]

/-! ## SERVE_UNBIND (R107) -/

theorem serveUnbindBody_unbinds {old : RoleBinding} (hp : c.field 0x08 6 0 = p) (hr : roleOf (c.field 0x08 9 8) = r)
    (role : c.field 0x08 9 8 ≠ 3) (own : s.ownsPart c p = true) (bound : (s.serve p).role r = some old)
    (kept : old.unbinding = false) (unused : r ≠ .main ∨ s.anyLive (fun e => e.p.partition.toNat == p) = false)
    (ht : t = s.modServe p fun x => x.setRole r (some { old with unbinding := true })) :
    serveUnbindBody c s = .done ((if r = .main then t.discardForecast p else t).tryUnbind p r) [] := by
  have free : ¬ (r = .main ∧ s.anyLive (fun e => e.p.partition.toNat == p) = true) := by
    rintro ⟨main, live⟩
    simp [main, live] at unused
  subst ht
  simp only [serveUnbindBody, hp, hr, role, own, bound, kept, free, Bool.not_true, Bool.false_eq_true, if_false]

end Bind

/-! ## RUN_STEP and its host copy (R258, R308) -/

theorem Answer.unless_of_none {x : Option (Byte × Nat)} {a : Answer} (h : x = none) : Answer.unless x a = a := by
  subst h
  rfl

theorem runStepBody_accepts {k : Nat} {n : Word} (hk : c.field 0x08 11 0 = k) (passes : runStepFail c = none)
    (unstopped : s.runStepStop c k = none) (hn : n = (s.ctx k).lastNo + 1)
    (ht : t = s.setCtx k { s.ctx k with lastNo := n }) :
    runStepBody c s = .long t 0x48 (.runStep k n) n [n] fun o u => u.queueStep k { c.step k n with op := some o } := by
  subst hk
  have ranges := (Option.map_eq_none_iff (f := fun d => (St.badLength, d))).mpr passes
  have accepts : runStepBody c s = s.acceptStep c (c.field 0x08 11 0) :=
    (Answer.unless_of_none ranges).trans (Answer.unless_of_none unstopped)
  rw [accepts, ht, hn]
  rfl

section HostCopy

variable {k : Nat} {st : Step} (dispatched : s.stepOf k = some st) (copying : st.copying = true)
  (ht : t = (s.modStep k fun st => { st with copying := false }).capMarkAll st.hostDst.toNat
    (st.hostDst.toNat + st.hostLen.toNat))
include dispatched copying ht

theorem hostCopyEffect_copied : hostCopyEffect k true s = t := by
  subst ht
  simp [hostCopyEffect, dispatched, copying]

/-- A copy that fails has marked its destination all the same (log 56). -/
theorem hostCopyEffect_failed : hostCopyEffect k false s =
    (t.modStep k fun st => { st with forced := some (st.forced.getD St.badAddress) }).stopStep k := by
  subst ht
  simp [hostCopyEffect, dispatched, copying]

end HostCopy

/-! ## MODEL_LOAD, MODEL_UNLOAD (R188) -/

/-- The regions of a model's list made in turn, with their numbers. -/
def State.addRegions (s : State) (m : Nat) (replica : Bool) (es : List (Nat × Nat × Nat)) : State × List Nat :=
  es.foldl (fun (x : State × List Nat) e =>
    ((x.1.addRegion m e replica).1, x.2 ++ [(x.1.addRegion m e replica).2])) (s, [])

section Model

variable {m : Nat} (hm : c.field 0x08 15 0 = m) (numbered : m ≠ 0xFFFF)
include hm numbered

theorem modelLoadBody_loads {ws : List Word} {es : List (Nat × Nat × Nat)} {u : State × List Nat}
    (nonempty : 1 ≤ c.field 0x0C 8 0) (few : c.field 0x0C 8 0 ≤ 256)
    (hes : es = (List.range (c.field 0x0C 8 0)).map (modelEntry ws))
    (valid : ∀ e ∈ es, e.2.2 ≠ 0 ∧ e.1 % 65536 = 0 ∧ Config.inWindows c.inst e.1 (e.2.2 * 65536) = true ∧
      (c.bit 0x08 16 = true → e.2.1 % 65536 = 0 ∧ Config.inWindows c.inst e.2.1 (e.2.2 * 65536) = true))
    (fresh : Tbl.find s.pager.models m = none) (hu : u = s.addRegions m (c.bit 0x08 16) es)
    (room : u.1.pager.regions.length ≤ 8192) :
    modelLoadBody (.data ws) c s =
      .long { u.1 with pager := { u.1.pager with models := Tbl.insert u.1.pager.models m c.inst } } 0x18 (.model m u.2)
        (Word.mk m) [] fun _ t => t.emit (t.dmaRead c.inst (dwordAt ws 16).toNat 65536) := by
  have range : ¬ (c.field 0x0C 8 0 = 0 ∨ 256 < c.field 0x0C 8 0) := by omega
  have good : es.any (fun e => decide (e.2.2 = 0) || decide (e.1 % 65536 ≠ 0) ||
      !Config.inWindows c.inst e.1 (e.2.2 * 65536) || (c.bit 0x08 16 && (decide (e.2.1 % 65536 ≠ 0) ||
        !Config.inWindows c.inst e.2.1 (e.2.2 * 65536)))) = false := by
    rw [List.any_eq_false]
    intro e he
    obtain ⟨pages, base, window, replica⟩ := valid e he
    cases hrep : c.bit 0x08 16 with
    | false => simp [pages, base, window]
    | true => simp [pages, base, window, replica hrep]
  have spare := Nat.not_lt.mpr room
  subst hes hu
  unfold State.addRegions at spare ⊢
  simp only [modelLoadBody, hm, numbered, range, good, fresh, spare, Bool.false_eq_true, if_false]

theorem modelUnloadBody_drops (own : Tbl.find s.pager.models m = some c.inst) (loaded : s.modelLoading m = false) :
    modelUnloadBody c s = .done (s.dropModel m) [] := by
  simp [modelUnloadBody, hm, numbered, own, loaded]

end Model

/-- Settles O29: each command where its checks pass, from what its body answers, and the end of a step's host copy (a role
bound anew takes a free slice length: log 30; a copy that fails marks its destination, R258: log 56). -/
theorem servingAndRunStepCommandsComplete : Obligations.ServingAndRunStepCommandsComplete := by
  intro s src c p k m r hp hk hm hr
  refine ⟨?geometry, ?bind, ?unbind, ?run, ?copy, ?load, ?unload⟩
  case geometry =>
    exact fun o tokens nonempty few own unused =>
      perform_done o (pageGeomBody_sets hp tokens nonempty few own unused)
  case bind =>
    rintro _ x t n o passes own model rfl hx rows (⟨old, bound, kept, rfl, rfl⟩ | ⟨unbound, quota, made⟩)
    · have keeps : ∀ y, (t.serve p).role r = some y → y.unbinding = false := by
        rintro y hy
        rwa [Option.some.inj (hy.symm.trans bound)]
      exact perform_done o (serveBindBody_binds hp hr passes own model hx rows keeps (State.bindRole_bound bound))
    · have keeps : ∀ y, (s.serve p).role r = some y → y.unbinding = false := by
        simp [unbound]
      exact perform_done o
        (serveBindBody_binds hp hr passes own model hx rows keeps (State.bindRole_new unbound quota made))
  case unbind =>
    exact fun old t o role own bound kept unused ht =>
      perform_done o (serveUnbindBody_unbinds hp hr role own bound kept unused ht)
  case run =>
    intro n t o passes unstopped hn ht
    have number : s.interp.nextOp = t.interp.nextOp := by
      rw [ht]
      rfl
    rw [number]
    exact perform_long (go := fun k' u => u.queueStep k { c.step k n with op := some k' }) o
      (runStepBody_accepts hk passes unstopped hn ht) rfl
  case copy =>
    exact fun st ctx t hclk dispatched copying ht =>
      ⟨act_eq_goesOn hclk (hostCopyEffect_copied dispatched copying ht),
        act_eq_goesOn hclk (hostCopyEffect_failed dispatched copying ht)⟩
  case load =>
    rintro ws es u _ o numbered nonempty few hes valid fresh quota hu room rfl
    have tracked : s.longFail (.model m u.2) = none := if_neg (Nat.not_le.mpr quota)
    exact perform_long (go := fun _ t => t.emit (t.dmaRead c.inst (dwordAt ws 16).toNat 65536)) o
      (modelLoadBody_loads hm numbered nonempty few hes valid fresh hu room) tracked
  case unload =>
    exact fun o numbered own loaded => perform_done o (modelUnloadBody_drops hm numbered own loaded)

end Sys2Proof.Machine

/-!
PROOFS. The composer's events (O36): forecasts and the pager's reports, the commit, member tables that cannot be written,
draft steps, the idle sweep and the victims of pressure.
-/

namespace Sys2Proof.Machine

variable {s t u : State} {p : Nat}

/-! ## Forecasts (R111, R112, R132) -/

section Forecast

variable {b : RoleBinding} {r : State} (main : (s.serve p).main = some b) (composes : s.composes p = true)
  (due : (s.serve p).forecastDue = true) (unheld : (s.serve p).forecast = none) (turn : s.forecastTurn p = true)
  (hr : r = s.readRows forecastRows ((s.candidates p true ++ s.candidates p false).map fun c => c.index))
include main composes due unheld turn hr

theorem forecastEffect_due : forecastEffect p s =
    if (r.composeBatch p b).isEmpty then r.modServe p fun x => { x with forecastDue := false, fresh := false }
    else r.holdForecast p (r.composeBatch p b) := by
  have taken : (s.composes p && (s.serve p).forecastDue && decide ((s.serve p).forecast = none) &&
      s.forecastTurn p) = true := by
    simp [composes, due, unheld, turn]
  subst hr
  simp only [forecastEffect, main, taken, if_true]

theorem forecastEffect_nothing (nothing : r.composeBatch p b = []) :
    forecastEffect p s = r.modServe p fun x => { x with forecastDue := false, fresh := false } := by
  rw [forecastEffect_due main composes due unheld turn hr, nothing]
  rfl

theorem forecastEffect_holds (eligible : r.composeBatch p b ≠ []) :
    forecastEffect p s = r.holdForecast p (r.composeBatch p b) := by
  rw [forecastEffect_due main composes due unheld turn hr, List.isEmpty_eq_false_iff.mpr eligible]
  rfl

end Forecast

/-- The commit of a held forecast waits from now where no step runs that it must wait for (R113). -/
theorem State.holdForecast_eq {ms : List Member} {y : ServePart} (hy : y = s.serve p)
    (ht : t = s.setServe p { y with
      forecast := some ms, forecastDue := false, fresh := false,
      firstEvent := if y.batch = none ∧ y.fbStep = none then some s.ns else none }) :
    s.holdForecast p ms = (ms.foldl (fun s m => State.nominate s p m) t).pagerSync := by
  have idle : (if decide (y.batch ≠ none) || decide (y.fbStep ≠ none) then none else some s.ns) =
      if y.batch = none ∧ y.fbStep = none then some s.ns else none := by
    by_cases batch : y.batch = none <;> by_cases fallback : y.fbStep = none <;> simp [batch, fallback]
  rw [← idle] at ht
  subst hy ht
  rfl

/-! ## Reports (R183, R184) -/

section Reports

variable {i : Nat} {n : Nominee} {ms : List Member} (nominee : s.nominee p i = some n)
  (held : (s.serve p).forecast = some ms) (owed : ∃ m ∈ ms, m.index = i ∧ m.report = .none)
include held owed

theorem State.reportOwed_of_mem : s.reportOwed p i = true := by
  simpa [State.reportOwed, held] using owed

include nominee

theorem reportEffect_done (done : n.done = true) : reportEffect p i s = s.setServe p { s.serve p with
    forecast := some (ms.map fun m => if m.index = i then { m with report := .ready } else m), reportAt := s.ns } := by
  simp [reportEffect, nominee, State.reportOwed_of_mem held owed, done, State.setReport, State.modServe, held]

theorem reportEffect_late (pending : n.done = false) (late : n.late = true) :
    reportEffect p i s = s.reportLate p i := by
  simp [reportEffect, nominee, State.reportOwed_of_mem held owed, pending, late]

end Reports

/-! ## Commit (R113) -/

theorem commitEffect_reported (turn : s.commitTurn p = true)
    (reported : ∀ m ∈ (s.serve p).forecast.getD [], m.report ≠ .none ∨ s.nominee p m.index = none) :
    commitEffect p s = (s.commitStep p).pagerSync := by
  have all : s.allReported p = true := by simpa [State.allReported] using reported
  simp [commitEffect, turn, all]

theorem commitWaitEffect_due {first : Nat} (turn : s.commitTurn p = true) (event : (s.serve p).firstEvent = some first)
    (due : first + (s.serve p).mp.commitWaitUs * 1000 ≤ s.ns) :
    commitWaitEffect p s = (s.commitStep p).pagerSync := by
  simp [commitWaitEffect, turn, event, State.due, due]

/-! ## Member tables that cannot be written (R121) -/

/-- Step seq waits in the queue of context k, the first that holds it; z is that context. -/
def State.QueuedAt (s : State) (seq : Word) (k : Nat) (z : Context) : Prop :=
  s.sched.ctxs.find? (fun e => e.2.queued.any fun q => q.seq == seq) = some (k, z)

/-- Step seq out of the queue of context k. -/
def State.unqueueAt (s : State) (seq : Word) (k : Nat) : State :=
  s.modCtx k fun c => { c with queued := dropWhere (fun q => q.seq == seq) c.queued }

/-- The members of a step that is not run back to READY. -/
def State.failMembers (s : State) (ms : List Member) : State := ms.foldl (fun s m => s.memberFailed m.index) s

/-- The fault of a member table of step seq of partition p. -/
def State.raiseTableErr (s : State) (p inst : Nat) (seq : Word) : State :=
  ((s.setReg Reg.stepFltInfo (Word.mk (St.dataPoisoned.toNat * 2 ^ 24 + p))).setReg Reg.stepFltSeq seq).raise
    { id := Flt.tableErr, inst := some inst, status := St.dataPoisoned }

section TableError

variable {y : ServeStep} {k : Nat} {z : Context} (queued : s.QueuedAt y.seq k z)
include queued

theorem State.stepWaits_of_queuedAt : s.stepWaits y.seq = true := by
  unfold State.QueuedAt at queued
  have holds := List.find?_some queued
  exact List.any_eq_true.mpr ⟨(k, z), List.mem_of_find?_eq_some queued, holds⟩

theorem State.unqueue_of_queuedAt : s.unqueue y.seq = s.unqueueAt y.seq k := by
  unfold State.QueuedAt at queued
  simp only [State.unqueue, State.unqueueAt, queued]

theorem tableErrorEffect_draft (drafting : (s.serve p).drStep = some y)
    (hu : u = ((s.unqueueAt y.seq k).failMembers y.members).modServe p fun x => { x with drStep := none }) :
    tableErrorEffect p 1 s = (u.raiseTableErr p (s.partD p).inst y.seq).tryUnbind p .draft := by
  subst hu
  simp only [tableErrorEffect, drafting, Option.any_some, State.stepWaits_of_queuedAt queued,
    State.unqueue_of_queuedAt queued, if_true]
  rfl

theorem tableErrorEffect_batch (running : (s.serve p).batch = some y) (plain : (s.serve p).fbStep = none)
    (ht : t = (s.unqueueAt y.seq k).failMembers y.members)
    (hu : u = t.modServe p fun x => { x with
      batch := none, fbStep := none, forecastDue := x.forecastDue || decide (x.forecast = none),
      firstEvent := if x.forecast = none then none else some t.ns }) :
    tableErrorEffect p 0 s =
      ((u.raiseTableErr p (s.partD p).inst y.seq).tryUnbind p .main).tryUnbind p .fallback := by
  subst hu ht
  simp only [tableErrorEffect, running, plain, Option.isSome_some, Option.all_some, Option.all_none,
    State.stepWaits_of_queuedAt queued, State.unqueue_of_queuedAt queued, zero_ne_one, Bool.and_self, if_true, if_false]
  rfl

end TableError

/-! ## Draft steps, the idle sweep and victims (R123, R128, R129) -/

theorem draftEffect_composes (composes : s.composes p = true) : draftEffect p s = s.composeDraft p := by
  simp only [draftEffect, composes, if_true]

theorem idleSweepEffect_due (enabled : (s.reg Reg.stepCtrl).bit 1 = true) (leased : s.orphan = false)
    (due : s.comp.lastSweep < s.ns / 1000000)
    (ht : t = { s with comp := { s.comp with lastSweep := s.ns / 1000000 } }) :
    idleSweepEffect s = (s.comp.parts.foldl (fun t e =>
      if e.2.mp.idleMs = 0 then t
      else e.2.parkedQ.foldl (fun t q => t.sweepList (e.2.mp.idleMs * 1000000) q.2) t) t).pagerSync := by
  subst ht
  simp only [idleSweepEffect, enabled, leased, due, Bool.not_false, decide_true, Bool.and_self, if_true]

theorem victimEffect_due {d i dueAt : Nat} (pressed : s.pressure d = true)
    (pending : Tbl.find s.comp.victimDue d = some dueAt) (due : dueAt ≤ s.cc)
    (chosen : s.victim (s.parkedHeads d) = some i) (hu : u = s.dormant i 0x0B) :
    victimEffect d s = State.pagerSync { u with comp := { u.comp with
      victimDue := Tbl.insert u.comp.victimDue d (u.cc + 64) } } := by
  subst hu
  simp only [victimEffect, pressed, pending, Nat.not_lt.mpr due, chosen, if_false]

/-- Settles O36: each event is its effect on the clocked block, and each effect is due (rows that a forecast reads: log 9;
a table's write meets its step still queued: log 55). -/
theorem composerEventsComplete : Obligations.ComposerEventsComplete := by
  rintro s p _ hclk rfl
  refine ⟨?forecast, ?report, fun turn reported => act_eq_goesOn hclk (commitEffect_reported turn reported),
    fun first turn event due => act_eq_goesOn hclk (commitWaitEffect_due turn event due), ?draftTable, ?batchTable,
    fun composes => act_eq_goesOn hclk (draftEffect_composes composes),
    fun t enabled leased due ht => act_eq_goesOn hclk (idleSweepEffect_due enabled leased due ht),
    fun d i dueAt u pressed pending due chosen hu =>
      act_eq_goesOn hclk (victimEffect_due pressed pending due chosen hu)⟩
  case forecast =>
    intro b r main composes due unheld turn hr
    refine ⟨fun nothing => ?_, fun y t eligible hy ht => ?_⟩
    · exact act_eq_goesOn hclk (forecastEffect_nothing main composes due unheld turn hr nothing)
    · exact act_eq_goesOn hclk ((forecastEffect_holds main composes due unheld turn hr eligible).trans
        (State.holdForecast_eq hy ht))
  case report =>
    exact fun i n ms nominee held owed =>
      ⟨fun done => act_eq_goesOn hclk (reportEffect_done nominee held owed done),
        fun pending late => act_eq_goesOn hclk (reportEffect_late nominee held owed pending late)⟩
  case draftTable =>
    rintro y k z _ u drafting queued rfl hu
    exact act_eq_goesOn hclk (tableErrorEffect_draft queued drafting hu)
  case batchTable =>
    exact fun y k z t u running plain queued ht hu =>
      act_eq_goesOn hclk (tableErrorEffect_batch queued running plain ht hu)

end Sys2Proof.Machine

/-!
PROOFS. The rank of candidates (O11): a lexicographic order of their values' places, highest first, and their token ids.
-/

namespace Sys2Proof.Machine

/-- The place of a value among the numbers and both infinities, where −0 and +0 share one; NaN, which is never ranked
(R145, R147), stands with −∞. -/
def FP.place : FP → WithBot (WithTop ℤ)
  | .nan => ⊥
  | .inf true => ⊥
  | .inf false => ⊤
  | .fin neg mag => ((FP.key neg mag : WithTop ℤ) : WithBot (WithTop ℤ))

@[simp] theorem FP.place_neg_inf : (FP.inf true).place = ⊥ := rfl
@[simp] theorem FP.place_pos_inf : (FP.inf false).place = ⊤ := rfl

theorem FP.bot_lt_place_fin (neg : Bool) (mag : Nat) : ⊥ < (FP.fin neg mag).place := WithBot.bot_lt_coe _

theorem FP.place_fin_lt_top (neg : Bool) (mag : Nat) : (FP.fin neg mag).place < ⊤ :=
  WithBot.coe_lt_coe.mpr (WithTop.coe_lt_top _)

theorem FP.place_fin_lt_iff {neg neg' : Bool} {mag mag' : Nat} :
    (FP.fin neg mag).place < (FP.fin neg' mag').place ↔ FP.key neg mag < FP.key neg' mag' := by
  simp [FP.place]

theorem FP.place_fin_eq_iff {neg neg' : Bool} {mag mag' : Nat} :
    (FP.fin neg mag).place = (FP.fin neg' mag').place ↔ FP.key neg mag = FP.key neg' mag' := by
  simp [FP.place]

theorem FP.bot_lt_place {x : FP} (hx : x ≠ .nan) (finite : x ≠ .inf true) : ⊥ < x.place := by
  cases x with
  | nan => exact absurd rfl hx
  | inf low =>
    cases low with
    | true => exact absurd rfl finite
    | false => exact bot_lt_top
  | fin neg mag => exact FP.bot_lt_place_fin neg mag

theorem FP.place_lt_top {x : FP} (finite : x ≠ .inf false) : x.place < ⊤ := by
  cases x with
  | nan => exact bot_lt_top
  | inf low =>
    cases low with
    | true => exact bot_lt_top
    | false => exact absurd rfl finite
  | fin neg mag => exact FP.place_fin_lt_top neg mag

theorem FP.lt_iff_place_lt {x y : FP} (hx : x ≠ .nan) (hy : y ≠ .nan) : FP.lt x y = true ↔ x.place < y.place := by
  cases x with
  | nan => exact absurd rfl hx
  | inf low =>
    cases y with
    | nan => exact absurd rfl hy
    | inf low' => cases low <;> cases low' <;> simp [FP.lt, FP.place]
    | fin neg' mag' =>
      cases low with
      | true => simpa [FP.lt] using FP.bot_lt_place_fin neg' mag'
      | false => simp [FP.lt]
  | fin neg mag =>
    cases y with
    | nan => exact absurd rfl hy
    | inf low' =>
      cases low' with
      | true => simp [FP.lt, FP.place]
      | false => simpa [FP.lt] using FP.place_fin_lt_top neg mag
    | fin neg' mag' => simp [FP.lt, FP.place_fin_lt_iff]

/-- What candidates are ordered by: the higher value first, then the lower token id (R146). -/
def Logit.rank (a : Logit) : (WithBot (WithTop ℤ))ᵒᵈ ×ₗ ℕ := toLex (OrderDual.toDual a.2.place, a.1)

theorem Logit.rank_lt_iff {a b : Logit} :
    Logit.rank a < Logit.rank b ↔ b.2.place < a.2.place ∨ a.2.place = b.2.place ∧ a.1 < b.1 := by
  simp [Logit.rank, Prod.Lex.toLex_lt_toLex]

theorem Logit.above_iff_rank_lt {a b : Logit} (ha : a.2 ≠ .nan) (hb : b.2 ≠ .nan) :
    Logit.above a b = true ↔ Logit.rank a < Logit.rank b := by
  have below : FP.lt a.2 b.2 = false ↔ b.2.place ≤ a.2.place := by
    rw [Bool.eq_false_iff, ne_eq, FP.lt_iff_place_lt ha hb, not_lt]
  rw [Logit.rank_lt_iff]
  simp only [Logit.above, Bool.or_eq_true, Bool.and_eq_true, Bool.not_eq_true', decide_eq_true_eq, below,
    FP.lt_iff_place_lt hb ha]
  constructor
  · rintro (higher | ⟨notLower, first⟩)
    · exact .inl higher
    · exact notLower.lt_or_eq.imp_right fun same => ⟨same.symm, first⟩
  · exact Or.imp_right fun ⟨same, first⟩ => ⟨same.ge, first⟩

section Ranked

variable {a b : Logit} (ha : a.2 ≠ .nan) (hb : b.2 ≠ .nan)
include ha hb

theorem Logit.above_of_place_lt (higher : b.2.place < a.2.place) : Logit.above a b = true :=
  (Logit.above_iff_rank_lt ha hb).mpr (Logit.rank_lt_iff.mpr (.inl higher))

theorem Logit.above_iff_of_place_eq (same : a.2.place = b.2.place) : Logit.above a b = true ↔ a.1 < b.1 := by
  simp [Logit.above_iff_rank_lt ha hb, Logit.rank_lt_iff, same]

end Ranked

/-- Settles O11: `Logit.above` is the strict order of ranks, a linear order. -/
theorem candidateRankIsATotalOrder : Obligations.CandidateRankIsATotalOrder := by
  intro a b c ha hb hc
  refine ⟨fun m n i j hm hn => ⟨fun higher => ?higher, fun same => ?same⟩,
    fun same => Logit.above_iff_of_place_eq ha hb (congrArg FP.place same), fun finite least => ?least,
    fun most finite => ?most, ?irrefl, fun first second => ?trans, fun other => ?total⟩
  case higher =>
    refine Logit.above_of_place_lt ha hb ?_
    rw [hm, hn]
    exact FP.place_fin_lt_iff.mpr higher
  case same =>
    refine Logit.above_iff_of_place_eq ha hb ?_
    rw [hm, hn]
    exact FP.place_fin_eq_iff.mpr same
  case least =>
    refine Logit.above_of_place_lt ha hb ?_
    rw [least]
    exact FP.bot_lt_place ha finite
  case most =>
    refine Logit.above_of_place_lt ha hb ?_
    rw [most]
    exact FP.place_lt_top finite
  case irrefl =>
    exact Bool.eq_false_iff.mpr fun self => lt_irrefl _ ((Logit.above_iff_rank_lt ha ha).mp self)
  case trans =>
    rw [Logit.above_iff_rank_lt ha hb] at first
    rw [Logit.above_iff_rank_lt hb hc] at second
    exact (Logit.above_iff_rank_lt ha hc).mpr (first.trans second)
  case total =>
    rw [Logit.above_iff_rank_lt ha hb, Logit.above_iff_rank_lt hb ha]
    refine lt_or_gt_of_ne fun same => other ?_
    exact congrArg (fun r => (ofLex r).2) same

end Sys2Proof.Machine

/-!
PROOFS. The Sampler's binding, table and automaton commands where their checks pass (O30).
-/

namespace Sys2Proof.Machine

variable {s : State} {c : Cmd}

/-! ## SAMPLE_BIND (R136, R137) -/

/-- The binding that a SAMPLE_BIND describes. -/
def Cmd.sampleBinding (c : Cmd) : SampleBinding :=
  { vocab := c.field 0x0C 20 0, width := c.field 0x10 8 0, sumBase := c.dword 0x18, rowsMax := c.field 0x14 15 0,
    logitBase := c.dword 0x20, lfmt := c.field 0x10 19 16, penWindow := c.field 0x14 26 16 }

/-- The fields of a binding are in their ranges, and its rows in the windows of its issuer (R136). -/
structure SampleBinding.InRange (b : SampleBinding) (inst : Nat) : Prop where
  vocabPos  : 1 ≤ b.vocab
  vocabMax  : b.vocab ≤ 1048576
  widthMin  : 16 ≤ b.width
  widthMax  : b.width ≤ 256
  width16   : b.width % 16 = 0
  format    : b.lfmt = 0 ∨ b.lfmt = 6
  rowsPos   : 1 ≤ b.rowsMax
  rowsMax   : b.rowsMax ≤ 36864
  penalty   : b.penWindow ≤ 1024
  sumAlign  : b.sumBase.toNat % 256 = 0
  sumWindow : Config.inWindows inst b.sumBase.toNat (b.rowsMax * b.shards * (16 + 8 * b.width)) = true
  logits    : b.logitBase = 0 ∨ (b.logitBase.toNat % 256 = 0 ∧
    Config.inWindows inst b.logitBase.toNat (b.logitAddr b.rowsMax - b.logitBase.toNat) = true)

/-- A binding agrees with what partition p has for role r: the rows that the bound role needs, MAIN's VOCAB, and a DRAFT
only with drafts enabled (R136, R137). -/
structure SampleBinding.Fits (b : SampleBinding) (s : State) (p : Nat) (r : Role) : Prop where
  rows  : (s.serve p).role r = none ∨ rowsNeed r ((s.serve p).roleS r) ≤ b.rowsMax
  vocab : r = .main ∨ ∀ m, Tbl.find s.sampler.bindings (p * 4) = some m → m.vocab = b.vocab
  draft : r = .draft → (s.reg Reg.smpCtrl).bit 1 = true

theorem SampleBinding.InRange.logits_pass {b : SampleBinding} {inst : Nat} (range : b.InRange inst) :
    ¬ (b.logitBase ≠ 0 ∧ (b.logitBase.toNat % 256 ≠ 0 ∨
      Config.inWindows inst b.logitBase.toNat (b.logitAddr b.rowsMax - b.logitBase.toNat) = false)) := by
  rintro ⟨present, misplaced⟩
  obtain absent | ⟨align, window⟩ := range.logits
  · exact present absent
  · simp [align, window] at misplaced

section Fits

variable {b : SampleBinding} {p : Nat} {r : Role} (fits : b.Fits s p r)
include fits

theorem SampleBinding.Fits.rows_pass :
    ¬ (((s.serve p).role r).isSome = true ∧ b.rowsMax < rowsNeed r ((s.serve p).roleS r)) := by
  rintro ⟨bound, few⟩
  obtain unbound | enough := fits.rows
  · simp [unbound] at bound
  · exact Nat.not_lt.mpr enough few

theorem SampleBinding.Fits.vocab_pass :
    ¬ (r ≠ .main ∧ ((Tbl.find s.sampler.bindings (p * 4)).any fun m => m.vocab != b.vocab) = true) := by
  rintro ⟨other, differs⟩
  cases bound : Tbl.find s.sampler.bindings (p * 4) with
  | none => simp [bound] at differs
  | some m => simp [bound, fits.vocab.resolve_left other m bound] at differs

theorem SampleBinding.Fits.draft_pass : ¬ (r = .draft ∧ (s.reg Reg.smpCtrl).bit 1 = false) := by
  rintro ⟨drafts, off⟩
  simp [fits.draft drafts] at off

end Fits

theorem sampleBindBody_binds {p : Nat} {r : Role} {part : Partition} {b : SampleBinding} (hp : c.field 0x08 6 0 = p)
    (hr : roleOf (c.field 0x08 9 8) = r) (role : c.field 0x08 9 8 ≠ 3) (hpart : s.part p = some part)
    (own : part.inst = c.inst) (hb : c.sampleBinding = b) (range : b.InRange c.inst) (fits : b.Fits s p r) :
    sampleBindBody c s =
      .done { s with sampler := { s.sampler with bindings := Tbl.insert s.sampler.bindings (p * 4 + r.code) b } } [] := by
  have logits := range.logits_pass
  have rows := fits.rows_pass
  have vocab := fits.vocab_pass
  have draft := fits.draft_pass
  obtain ⟨vocabPos, vocabMax, widthMin, widthMax, width16, format, rowsPos, rowsMax, penalty, sumAlign, sumWindow, -⟩ :=
    range
  have okVocab : ¬ (b.vocab = 0 ∨ 1048576 < b.vocab) := by omega
  have okWidth : ¬ (b.width < 16 ∨ 256 < b.width ∨ b.width % 16 ≠ 0) := by omega
  have okFormat : ¬ (b.lfmt ≠ 0 ∧ b.lfmt ≠ 6) := by tauto
  have okRows : ¬ (b.rowsMax = 0 ∨ 36864 < b.rowsMax) := by omega
  have okPenalty : ¬ 1024 < b.penWindow := Nat.not_lt.mpr penalty
  have okSums : ¬ (b.sumBase.toNat % 256 ≠ 0 ∨
      Config.inWindows c.inst b.sumBase.toNat (b.rowsMax * b.shards * (16 + 8 * b.width)) = false) := by
    simp [sumAlign, sumWindow]
  subst hp hr hb
  unfold Cmd.sampleBinding at *
  simp only [sampleBindBody, role, okVocab, okWidth, okFormat, okRows, okPenalty, okSums, logits, hpart, own, rows,
    vocab, draft, ne_eq, not_true_eq_false, if_false]

/-! ## SAMPLE_TABLE_LOAD, SAMPLE_TABLE_FREE (R140–R142) -/

/-- Sampler table n of an issuer written to its arena as ws, and held (R140). -/
def State.storeTable (s : State) (inst n : Nat) (body : TableBody) (ws : List Word) : State :=
  let t := (s.needArena .tables 65536 32).writeArena .tables n ws
  { t with sampler := { t.sampler with tables := Tbl.insert t.sampler.tables n { inst, body } } }

section TableLoad

variable {n k : Nat} {ws : List Word} (hn : c.field 0x0C 12 0 = n) (hk : c.field 0x08 15 0 = k) (nonempty : 1 ≤ n)
  (fresh : Tbl.find s.sampler.tables k = none) (room : s.arenaRoom .tables = true)
include hn hk nonempty fresh room

theorem tableLoadBody_stop {l : List (List Nat)} (kind : c.bit 0x08 16 = true) (few : n ≤ 16)
    (hl : stopSeqs n ws = some l) :
    tableLoadBody (.data ws) c s = .done (s.storeTable c.inst k (.stop l) (ws.take (17 * n))) [] := by
  have range : ¬ (n = 0 ∨ 16 < n) := by omega
  simp only [tableLoadBody, hn, hk, kind, range, fresh, hl, room, if_true, if_false, Bool.not_true, Bool.false_eq_true]
  rfl

theorem tableLoadBody_bias {l : List (Nat × Word)} (kind : c.bit 0x08 16 = false) (few : n ≤ 4096)
    (hl : l = biasEntries n ws) (ascending : ascends (l.map fun e => e.1) = true) (finite : ∀ e ∈ l, finite32 e.2 = true) :
    tableLoadBody (.data ws) c s = .done
      (s.storeTable c.inst k (.bias l (l.any fun e => FP.lt FP.zero (FP.ofWord e.2))) (ws.take (2 * n))) [] := by
  have range : ¬ (n = 0 ∨ 4096 < n) := by omega
  have good : (ascends (l.map fun e => e.1) && l.all fun e => finite32 e.2) = true := by
    rw [ascending, List.all_eq_true.mpr finite, Bool.and_self]
  subst hl
  simp only [tableLoadBody, hn, hk, kind, range, fresh, good, room, if_true, if_false, Bool.not_true, Bool.false_eq_true]
  rfl

end TableLoad

theorem State.anyLive_eq_false_iff {f : CombEntry → Bool} :
    s.anyLive f = false ↔ ∀ e ∈ s.comb.entries, e.2.live = true → f e.2 = false := by
  simp [State.anyLive]

theorem tableFreeBody_frees {k : Nat} {x : SampleTable} (hk : c.field 0x08 15 0 = k)
    (hx : Tbl.find s.sampler.tables k = some x) (own : x.inst = c.inst)
    (unnamed : ∀ e ∈ s.comb.entries, e.2.live = true → e.2.p.biasTable.toNat ≠ k ∧ e.2.p.stopSeq.toNat ≠ k) :
    tableFreeBody c s = .done { s with sampler := { s.sampler with tables := Tbl.erase s.sampler.tables k } } [] := by
  have idle : (s.anyLive fun e => decide (e.p.biasTable.toNat = k) || decide (e.p.stopSeq.toNat = k)) = false :=
    State.anyLive_eq_false_iff.mpr fun e he live => by simp [unnamed e he live]
  simp [tableFreeBody, hk, hx, own, idle]

/-! ## AUTOMATON_LOAD, AUTOMATON_FREE (R143) -/

/-- Automaton a, laid out in ws, written to its arena and held, and the long operation o that read it ended (R140, R143). -/
def State.storeAutomaton (u : State) (a o bytes : Nat) (x : Automaton) (ws : List Word) : State :=
  let v := (u.opProgress o (BitVec.ofNat 64 bytes) 0).writeArena .automata a (ws.take ((bytes + 3) / 4))
  ({ v with sampler := { v.sampler with automata := Tbl.insert v.sampler.automata a x } }).opEnd o St.ok

theorem automatonLoadBody_loads {a : Nat} {ws : List Word} {x : Automaton} (ha : c.field 0x08 11 0 = a)
    (fresh : Tbl.find s.sampler.automata a = none) (room : s.arenaRoom .automata = true)
    (hx : readAutomaton c.inst (c.word 0x0C).toNat ws = some x) :
    automatonLoadBody (.data ws) c s = .long (s.needArena .automata (2 ^ 20) 34) 0x18
      (.automaton a (c.word 0x0C).toNat) (Word.mk a) [] fun o u => u.storeAutomaton a o (c.word 0x0C).toNat x ws := by
  simp only [automatonLoadBody, ha, fresh, room, hx, Bool.not_true, Bool.false_eq_true, if_false]
  rfl

theorem automatonFreeBody_frees {a : Nat} {x : Automaton} (ha : c.field 0x08 11 0 = a)
    (hx : Tbl.find s.sampler.automata a = some x) (own : x.inst = c.inst)
    (unnamed : ∀ e ∈ s.comb.entries, e.2.live = true → e.2.p.grammarEn = true → e.2.p.automaton.toNat ≠ a) :
    automatonFreeBody c s =
      .done { s with sampler := { s.sampler with automata := Tbl.erase s.sampler.automata a } } [] := by
  have idle : (s.anyLive fun e => e.p.grammarEn && decide (e.p.automaton.toNat = a)) = false :=
    State.anyLive_eq_false_iff.mpr fun e he live => by simpa using unnamed e he live
  simp [automatonFreeBody, ha, hx, own, idle]

/-- Settles O30: each command where its checks pass, from what its body answers (the arenas that the first load makes:
log 26). -/
theorem samplerCommandsComplete : Obligations.SamplerCommandsComplete := by
  intro s src c
  refine ⟨?bind, ?table, ?tableFree, ?automaton, ?automatonFree⟩
  case bind =>
    intro p r part b o hp hr role hpart own hb vocabPos vocabMax widthMin widthMax width16 format rowsPos rowsMax penalty
      sumAlign sumWindow logits rows vocab draft
    exact perform_done o (sampleBindBody_binds hp hr role hpart own hb.symm
      ⟨vocabPos, vocabMax, widthMin, widthMax, width16, format, rowsPos, rowsMax, penalty, sumAlign, sumWindow, logits⟩
      ⟨rows, vocab, draft⟩)
  case table =>
    intro n k ws t o hn hk nonempty fresh room
    refine ⟨?_, ?_⟩
    · rintro l kind few hl rfl
      exact perform_done o (tableLoadBody_stop hn hk nonempty fresh room kind few hl)
    · rintro l kind few hl ascending finite rfl
      exact perform_done o (tableLoadBody_bias hn hk nonempty fresh room kind few hl ascending finite)
  case tableFree =>
    exact fun k x o hk hx own unnamed => perform_done o (tableFreeBody_frees hk hx own unnamed)
  case automaton =>
    rintro a ws x _ _ _ _ o ha fresh room quota hx rfl rfl rfl rfl
    have tracked : s.longFail (.automaton a (c.word 0x0C).toNat) = none := if_neg (Nat.not_le.mpr quota)
    exact perform_long (go := fun k u => u.storeAutomaton a k (c.word 0x0C).toNat x ws) o
      (automatonLoadBody_loads ha fresh room hx) tracked
  case automatonFree =>
    exact fun a x o ha hx own unnamed => perform_done o (automatonFreeBody_frees ha hx own unnamed)

end Sys2Proof.Machine

/-!
PROOFS. Rows at the Sampler, and the step end of a member without rows (O41).
-/

namespace Sys2Proof.Machine

variable {s : State}

/-! ## Rows whose summaries are read (R139, R154–R156, R170) -/

section RowRead

variable {p k j row : Nat} {x : RowAt} {read : RowRead}

theorem exec_sampleRowDone_at (hclk : s.clocked = true)
    (hx : s.rowAt p k j row (fun st => st == .pipeline || st == .held) = some x) :
    exec (.sampleRowDone p k j row read) s = goesOn (s.rowDone x read.data read.io) := by
  have exec_eq : exec (.sampleRowDone p k j row read) s = execSampleRowDone p k j row read s := rfl
  rw [exec_eq, execSampleRowDone]
  exact act_eq_goesOn hclk (by simp only [hx])

theorem exec_fullScanDone_at (hclk : s.clocked = true)
    (hx : s.rowAt p k j row (fun st => st == .scan || st == .scanHeld) = some x) :
    exec (.fullScanDone p k j row read) s = goesOn (s.scanDone x read.data read.io) := by
  have exec_eq : exec (.fullScanDone p k j row read) s = execFullScanDone p k j row read s := rfl
  rw [exec_eq, execFullScanDone]
  exact act_eq_goesOn hclk (by simp only [hx])

end RowRead

section RowData

variable {x : RowAt} {io : RowIo} {read : Reply}

theorem State.rowDone_held (held : s.rowHeld x = true) : s.rowDone x read io = s.holdRow x .held := by
  unfold State.rowDone
  simp only [held, if_true]

theorem State.scanDone_held (held : s.rowHeld x = true) : s.scanDone x read io = s.holdRow x .scanHeld := by
  unfold State.scanDone
  simp only [held, if_true]

variable (sound : s.rowHeld x = false)
include sound

theorem State.rowDone_unreadable (failed : read ∈ [Reply.error, Reply.poison]) :
    s.rowDone x read io = s.rowLost x Flt.smpPoison St.dataPoisoned := by
  obtain rfl | rfl : read = .error ∨ read = .poison := by simpa using failed
  · exact if_neg (ne_true_of_eq_false sound)
  · exact if_neg (ne_true_of_eq_false sound)

theorem State.scanDone_unreadable (failed : read ∈ [Reply.error, Reply.poison]) :
    s.scanDone x read io = s.rowLost x Flt.smpPoison St.dataPoisoned := by
  obtain rfl | rfl : read = .error ∨ read = .poison := by simpa using failed
  · exact if_neg (ne_true_of_eq_false sound)
  · exact if_neg (ne_true_of_eq_false sound)

variable {b : SampleBinding} {ws : List Word} (bound : x.y.smp = some b)
include bound

theorem State.scanDone_sampled : s.scanDone x (.data ws) io =
    s.sampleRow x (s.rowIn x b) ((s.rowIn x b).overLogits (b.scan ws)) io := by
  unfold State.scanDone
  simp only [sound, bound, Bool.false_eq_true, if_false]

theorem State.rowDone_malformed (malformed : b.summaries x.y.seq ws = none) : s.rowDone x (.data ws) io =
    if s.mayScan b then (s.smpFault Flt.sumBad St.summaryBad x).scanRow x b
    else s.rowLost x Flt.sumBad St.summaryBad := by
  unfold State.rowDone
  simp only [sound, bound, malformed, Bool.false_eq_true, if_false]

variable {l : List Summary} {o : RowOut} (clean : b.summaries x.y.seq ws = some l)
include clean

theorem State.rowDone_conclusive (conclusive : (s.rowIn x b).overSummaries l = (true, o)) :
    s.rowDone x (.data ws) io = s.sampleRow x (s.rowIn x b) o io := by
  unfold State.rowDone
  simp only [sound, bound, clean, conclusive, Bool.false_eq_true, if_true, if_false]

/-- Summaries that do not suffice: the row is scanned where it may be, else sampled over them as INEXACT (R155, R156). -/
theorem State.rowDone_inconclusive (inconclusive : (s.rowIn x b).overSummaries l = (false, o)) :
    s.rowDone x (.data ws) io =
      if s.mayScan b then s.scanRow x b else s.sampleRow x (s.rowIn x b) { o with inexact := true } io := by
  unfold State.rowDone
  simp only [sound, bound, clean, inconclusive, Bool.false_eq_true, if_false]

end RowData

/-! ## Members without rows (R115, R164, R165) -/

theorem memberStepEndEffect_quiet {p k j : Nat} {y : ServeStep} {m : Member}
    (hy : (s.serve p).kindStep k = some y) (hm : y.members[j]? = some m) (ok : y.status = some St.ok)
    (unended : m.ended = false) (rowless : y.rowsOf m = 0)
    (turn : ∀ n ∈ y.members.take j, n.ended = true ∨ 0 < y.rowsOf n) :
    memberStepEndEffect p k j s = s.quietEnd p k j m := by
  have before : ((y.members.take j).all fun n => n.ended || decide (0 < y.rowsOf n)) = true := by
    simpa only [List.all_eq_true, Bool.or_eq_true, decide_eq_true_eq] using turn
  simp only [memberStepEndEffect, hy, hm, ok, unended, rowless, before, and_self, if_true]

theorem State.quietEnd_member {p k j : Nat} {m : Member} {r t : State} (hr : r = s.readEnd m.index)
    (holds : r.isMember m = true)
    (ht : t = r.modEntry m.index (fun e =>
      { e with prefillPos := Word.mk (m.startPos + m.nTok), steps := e.steps + 1, lastStepTime := BitVec.ofNat 64 s.ns,
               fails := 0, fallbacks := if k = 2 then e.fallbacks + 1 else e.fallbacks })) :
    s.quietEnd p k j m = ((t.wroteBlocks p m true).leave m.index (t.leaveOf m.index 0)).memberEnded p k j := by
  subst hr ht
  simp only [State.quietEnd, holds, Bool.not_true, Bool.false_eq_true, if_false]

/-- Settles O41: each event is its effect on the clocked block, and what becomes of a row is told by its data (the rows
that a step end reads: log 9). -/
theorem samplerRowEventsComplete : Obligations.SamplerRowEventsComplete := by
  intro s p k j row hclk
  refine ⟨fun x io hx => ?row, fun x io hx => ?scan, ?quiet⟩
  case row =>
    have done (read : Reply) := exec_sampleRowDone_at (read := ⟨read, io⟩) hclk hx
    refine ⟨fun read held => ?_, fun sound => ⟨fun read failed => ?_, fun b ws bound => ⟨fun malformed => ?_,
      fun l o clean => ⟨fun conclusive => ?_, fun inconclusive may => ?_, fun inconclusive mayNot => ?_⟩⟩⟩⟩
    · rw [done, State.rowDone_held held]
    · rw [done, State.rowDone_unreadable sound failed]
    · rw [done, State.rowDone_malformed sound bound malformed]
    · rw [done, State.rowDone_conclusive sound bound clean conclusive]
    · rw [done, State.rowDone_inconclusive sound bound clean inconclusive, if_pos may]
    · rw [done, State.rowDone_inconclusive sound bound clean inconclusive, mayNot, if_neg Bool.false_ne_true]
  case scan =>
    have done (read : Reply) := exec_fullScanDone_at (read := ⟨read, io⟩) hclk hx
    refine ⟨fun read held => ?_, fun sound => ⟨fun b ws bound => ?_, fun read failed => ?_⟩⟩
    · rw [done, State.scanDone_held held]
    · rw [done, State.scanDone_sampled sound bound]
    · rw [done, State.scanDone_unreadable sound failed]
  case quiet =>
    rintro y m hy hm ok unended rowless turn r t _ hr holds ht rfl
    exact act_eq_goesOn hclk ((memberStepEndEffect_quiet hy hm ok unended rowless turn).trans
      (State.quietEnd_member hr holds ht))

end Sys2Proof.Machine

/-!
PROOFS. The pager's events when due (O42): prompts fetched, first pages, moves, demotion, the narrow path, the sweep.
-/

namespace Sys2Proof.Machine

variable {s : State}

/-! ## Prompt fetches (R180, R186) -/

section Prompt

variable {i : Nat} (admitted : (s.entry i).st = .admitted) (fetching : (s.mem i).fetching = true)
include admitted fetching

/-- A whole prompt fetched: its tokens go to the log, and its entry takes on the prefix that it begins with or forgets the
one that it named. -/
theorem promptDoneEffect_fetched {ws : List Word} {t : State} (whole : ws.length = (s.entry i).promptLen.toNat)
    (ht : t = (s.writeTokens i 0 (ws.map BitVec.toNat)).modMem i fun m => { m with fetching := false }) :
    (∀ id x, t.prefixHit i = some (id, x) →
      promptDoneEffect i ws s = ((t.attachPrefix i x).leaveAdmitted i).pagerSync) ∧
    (t.prefixHit i = none → promptDoneEffect i ws s =
      ((t.modEntry i fun e => { e with p := { e.p with prefixId := 0xFFFFFFFF } }).leaveAdmitted i).pagerSync) := by
  subst ht
  refine ⟨fun id x hit => ?_, fun miss => ?_⟩
  · simp only [promptDoneEffect, admitted, fetching, whole, hit, and_self, if_true]
  · simp only [promptDoneEffect, admitted, fetching, whole, miss, and_self, if_true]

theorem promptFailEffect_fetching : promptFailEffect i s = (s.retire i 0x12).pagerSync :=
  if_pos ⟨admitted, fetching⟩

end Prompt

/-! ## Moves (R182, R192) -/

/-- The front move of die d's mover is started, and its bytes can have moved by now: m, with the moves in rest behind it
(R192). -/
structure MoveDue (s : State) (d : Nat) (m : Move) (rest : List Move) : Prop where
  front   : s.mover d = m :: rest
  started : m.started = true
  cc      : m.due ≤ s.cc
  ns      : m.dueNs ≤ s.ns

/-- Die d's mover past its front move, which is counted. -/
def State.passMove (s : State) (d : Nat) (rest : List Move) : State :=
  let t := s.setMover d rest
  { t with pager := { t.pager with moveCnt := t.pager.moveCnt + 1 } }

section Move

variable {d : Nat} {m : Move} {rest : List Move} (due : MoveDue s d m rest)
include due

/-- A stream's page lands clean or poisoned as its source was read, where neither port is fenced (R372). -/
theorem moveDoneEffect_stream {k gen : Nat} (ok : Bool) (owner : m.owner = .stream k gen)
    (readable : s.poolFenced m.src.pool = false) (writable : s.poolFenced m.dst.pool = false) :
    moveDoneEffect d ok s = (((s.passMove d rest).landMove m k gen ok).startMove d).pagerSync := by
  obtain ⟨front, started, cc, ns⟩ := due
  simp only [moveDoneEffect, State.passMove, front, started, cc, ns, owner, readable, writable, Bool.not_false,
    Bool.and_true, and_self, if_true]

theorem moveDoneEffect_prefix {id : Nat} (ok : Bool) (owner : m.owner = .pfx id) :
    moveDoneEffect d ok s = (((s.passMove d rest).giveFrame m.src).startMove d).pagerSync := by
  obtain ⟨front, started, cc, ns⟩ := due
  simp only [moveDoneEffect, State.passMove, front, started, cc, ns, owner, and_self, if_true]

/-- A page whose list entry names the destination already has nothing to see to after a clean move (log 18). -/
theorem moveDoneEffect_settled {k gen : Nat} (owner : m.owner = .settled k gen)
    (readable : s.poolFenced m.src.pool = false) (writable : s.poolFenced m.dst.pool = false) :
    moveDoneEffect d true s = ((s.passMove d rest).startMove d).pagerSync := by
  obtain ⟨front, started, cc, ns⟩ := due
  simp only [moveDoneEffect, State.passMove, front, started, cc, ns, owner, readable, writable, Bool.not_false,
    Bool.not_true, Bool.and_true, Bool.false_and, Bool.false_eq_true, and_self, if_true, if_false]

end Move

/-! ## Demotion (R181) -/

theorem demoteEffect_next {d i : Nat} (runs : s.demotes d = true) (next : s.demoteNext d = some i) :
    demoteEffect d i s = ((((s.mem i).pages.filter fun p => p.2.demotable).map fun p => p.1).foldl
      (fun s lp => (s.demote i lp).getD s) s).syncPressure :=
  if_pos ⟨runs, next⟩

/-! ## The narrow path (R420) -/

section NarrowPath

variable {tag : Nat} {q : NpReq} (asked : s.pager.np.find? (fun q => q.tag == tag) = some q)
include asked

theorem narrowEffect_answered (ok : Bool) : narrowEffect tag ok s = s.narrowDone q ok := by
  simp only [narrowEffect, asked]

theorem narrowTimeoutEffect_late (late : q.sentCc + 2048 ≤ s.cc) :
    narrowTimeoutEffect tag s = s.narrowDone q false := by
  simp only [narrowTimeoutEffect, asked, late, if_true]

end NarrowPath

/-! ## The sweep (R190) -/

theorem frameSweepEffect_owes {k gen : Nat} {rest : List (Nat × Nat)} (owes : s.pager.sweep = (k, gen) :: rest) :
    frameSweepEffect s = (State.sweepKey { s with pager := { s.pager with sweep := rest } } k gen).pagerSync := by
  simp only [frameSweepEffect, owes]

/-- Settles O42: each event is its effect on the clocked block, and each effect does what its guards let it do (a move
whose list entry changed within the command that needed it: log 18). -/
theorem pagerEventsComplete : Obligations.PagerEventsComplete := by
  intro s i d hclk
  refine ⟨?prompt, fun admitted fetching => act_eq_goesOn hclk (promptFailEffect_fetching admitted fetching),
    act_goesOn hclk, ?move, fun runs next => act_eq_goesOn hclk (demoteEffect_next runs next),
    fun tag q asked => ⟨fun ok => act_eq_goesOn hclk (narrowEffect_answered asked ok),
      fun late => act_eq_goesOn hclk (narrowTimeoutEffect_late asked late)⟩,
    fun k gen rest owes => act_eq_goesOn hclk (frameSweepEffect_owes owes)⟩
  case prompt =>
    intro ws t u admitted fetching whole ht hu
    obtain ⟨onHit, onMiss⟩ := promptDoneEffect_fetched admitted fetching whole ht
    refine act_eq_goesOn hclk ?_
    cases hit : t.prefixHit i with
    | some found =>
      rw [hit] at hu
      rw [hu, onHit found.1 found.2 hit]
    | none =>
      rw [hit] at hu
      rw [hu, onMiss hit]
  case move =>
    rintro m rest ok _ _ front started cc ns rfl rfl
    have due : MoveDue s d m rest := ⟨front, started, cc, ns⟩
    refine ⟨fun k gen owner readable writable => ?_, fun id owner => ?_, fun k gen owner clean readable writable => ?_⟩
    · exact act_eq_goesOn hclk (moveDoneEffect_stream due ok owner readable writable)
    · exact act_eq_goesOn hclk (moveDoneEffect_prefix due ok owner)
    · subst clean
      exact act_eq_goesOn hclk (moveDoneEffect_settled due owner readable writable)

end Sys2Proof.Machine

/-!
PROOFS. Commands on partitions, contexts and regulators where their checks pass (O28).
-/

namespace Sys2Proof.Machine

variable {s t : State} {c : Cmd} {p k : Nat}

/-! ## PARTITION_CREATE, PARTITION_DESTROY (R197, R198, R321) -/

/-- A PARTITION_CREATE lists its quarter-clusters, or counts them with each count in its range (R197). -/
def Cmd.choosesMembers (c : Cmd) : Prop :=
  if c.bit 0x08 8 then c.field 0x08 14 12 ≤ 4 ∧ c.field 0x08 19 16 ≤ 8 ∧ 1 ≤ c.field 0x0C 7 0 ∧ c.field 0x0C 7 0 ≤ 128
  else c.dword 0x10 ≠ 0 ∨ c.dword 0x18 ≠ 0

theorem partitionCreateBody_forms {inst : Nat} {qcs spares : List Nat} (hp : c.field 0x08 6 0 = p)
    (hinst : c.field 0x08 29 24 = inst) (fresh : s.part p = none) (there : s.hasInst inst = true)
    (chosen : c.choosesMembers) (members : s.partMembers c inst = .inr (qcs, spares)) :
    partitionCreateBody c s = .done (State.shareBw { s with sched := { s.sched with
      parts := Tbl.insert s.sched.parts p { inst, wide := c.bit 0x08 8 && c.bit 0x08 9, qcs, spares } } } inst) [] := by
  unfold Cmd.choosesMembers at chosen
  cases counted : c.bit 0x08 8 with
  | true =>
    rw [counted, if_pos rfl] at chosen
    obtain ⟨die, spare, pos, few⟩ := chosen
    have okDie := Nat.not_lt.mpr die
    have okSpare := Nat.not_lt.mpr spare
    have okCount : ¬ (c.field 0x0C 7 0 = 0 ∨ 128 < c.field 0x0C 7 0) := by omega
    simp only [partitionCreateBody, hp, hinst, counted, okDie, okSpare, okCount, fresh, there, members,
      Bool.true_eq_false, and_false, false_and, Option.isSome_none, Bool.false_eq_true, if_false]
  | false =>
    rw [counted, if_neg Bool.false_ne_true] at chosen
    have listed : ¬ (c.dword 0x10 = 0 ∧ c.dword 0x18 = 0) := not_and_or.mpr chosen
    simp only [partitionCreateBody, hp, hinst, counted, listed, fresh, there, members, Bool.true_eq_false, false_and,
      and_false, Option.isSome_none, Bool.false_eq_true, if_false]

theorem partitionDestroyBody_dissolves (hp : c.field 0x08 6 0 = p) (own : s.ownsPart c p = true)
    (unused : s.partCtxs p = []) :
    partitionDestroyBody c s = .done ((s.dropPartition p).shareBw c.inst) [] := by
  simp only [partitionDestroyBody, hp, own, unused, Bool.not_true, Bool.false_eq_true, ne_eq, not_true_eq_false, if_false]

/-! ## CONTEXT_CREATE, CONTEXT_SET, CONTEXT_DESTROY (R199, R203) -/

section Slice

variable (long : 50 ≤ c.field 0x0C 16 0) (short : c.field 0x0C 16 0 ≤ 100000)
include long short

theorem contextCreateBody_makes {n : Nat} (hp : c.field 0x08 6 0 = p) (own : s.ownsPart c p = true)
    (quota : s.ctxUsed c.inst < s.ctxQuota c.inst)
    (made : s.makeCtx c.inst p (c.field 0x08 23 16) (c.field 0x0C 16 0) none = some (n, t)) :
    contextCreateBody c s = .done t [Word.mk n] := by
  have slice : ¬ (c.field 0x0C 16 0 < 50 ∨ 100000 < c.field 0x0C 16 0) := by omega
  simp only [contextCreateBody, hp, slice, own, Nat.not_le.mpr quota, made, Bool.not_true, Bool.false_eq_true, if_false]

theorem contextSetBody_keeps (hk : c.field 0x08 11 0 = k) (own : s.ownsCtx c k = true) :
    contextSetBody c s =
      .done (s.modCtx k fun x => { x with nextSet := some (c.field 0x08 23 16, c.field 0x0C 16 0) }) [] := by
  have slice : ¬ (c.field 0x0C 16 0 < 50 ∨ 100000 < c.field 0x0C 16 0) := by omega
  simp only [contextSetBody, hk, slice, own, Bool.not_true, Bool.false_eq_true, if_false]

end Slice

section Destroy

variable (hk : c.field 0x08 11 0 = k) (own : s.ownsCtx c k = true) (roleless : (s.ctx k).role = none)
  (kept : (s.ctx k).destroying = false)
include hk own roleless kept

theorem contextDestroyBody_frees (idle : (s.ctx k).dispatched = none) (loaded : (s.ctx k).st ≠ .loading)
    (saved : (s.ctx k).st ≠ .saving) : contextDestroyBody c s = .done (s.freeCtx k) [] := by
  simp [contextDestroyBody, hk, own, roleless, kept, idle, loaded, saved]

/-- A context in a transition is freed by the event that ends it. -/
theorem contextDestroyBody_moving (moving : (s.ctx k).st = .loading ∨ (s.ctx k).st = .saving) :
    contextDestroyBody c s = .later (s.setCtx k { s.ctx k with destroying := true }) (.ctxDestroy k) := by
  obtain loading | saving := moving
  · simp [contextDestroyBody, hk, own, roleless, kept, loading]
  · simp [contextDestroyBody, hk, own, roleless, kept, saving]

/-- A dispatched step is stopped; its end frees the context. -/
theorem contextDestroyBody_running (running : (s.ctx k).dispatched ≠ none) (loaded : (s.ctx k).st ≠ .loading)
    (saved : (s.ctx k).st ≠ .saving) : contextDestroyBody c s =
      .later ((s.setCtx k { s.ctx k with destroying := true }).stopStep k) (.ctxDestroy k) := by
  simp [contextDestroyBody, hk, own, roleless, kept, Option.isSome_iff_ne_none.mpr running, loaded, saved]

end Destroy

/-! ## BWR_SET (R215, R321) -/

/-- The rates that the partitions of inst other than p have of a class of ports (R321). -/
def State.othersBw (s : State) (p inst cls : Nat) : Nat :=
  BwrSet.sum (fun y => y.bwr cls) (s.sched.parts.filter fun e => e.2.inst == inst && e.1 != p)

theorem bwrSetBody_sets {x : Partition} (hp : c.field 0x08 6 0 = p) (port : c.field 0x08 9 8 ≠ 3)
    (burst : c.field 0x0C 11 0 ≠ 0) (hx : s.part p = some x)
    (share : x.inst = 0 ∨ (s.inst x.inst).q.bw (c.field 0x08 9 8) = 0 ∨
      s.othersBw p x.inst (c.field 0x08 9 8) + c.field 0x0C 31 16 ≤ (s.inst x.inst).q.bw (c.field 0x08 9 8)) :
    bwrSetBody c s = .done (s.setBwr p (c.field 0x08 9 8) (c.field 0x0C 31 16) (c.field 0x0C 11 0)) [] := by
  have within : ¬ (x.inst ≠ 0 ∧ (s.inst x.inst).q.bw (c.field 0x08 9 8) ≠ 0 ∧
      (s.inst x.inst).q.bw (c.field 0x08 9 8) < s.othersBw p x.inst (c.field 0x08 9 8) + c.field 0x0C 31 16) := by
    omega
  unfold State.othersBw at within
  simp only [bwrSetBody, hp, port, burst, hx, within, if_false]

/-- Settles O28: each command where its checks pass, from what its body answers. -/
theorem partitionAndContextCommandsComplete : Obligations.PartitionAndContextCommandsComplete := by
  intro s src c p k hp hk
  refine ⟨?create, fun o own unused => perform_done o (partitionDestroyBody_dissolves hp own unused), ?context,
    fun o long short own => perform_done o (contextSetBody_keeps long short hk own), ?destroy, ?regulator⟩
  case create =>
    exact fun inst qcs spares o hinst fresh there chosen members =>
      perform_done o (partitionCreateBody_forms hp hinst fresh there chosen members)
  case context =>
    exact fun n t o long short own quota made =>
      perform_done o (contextCreateBody_makes long short hp own quota made)
  case destroy =>
    intro o own roleless kept
    refine ⟨fun idle loaded saved => ?_, fun moving => ?_, fun running loaded saved => ?_⟩
    · exact perform_done o (contextDestroyBody_frees hk own roleless kept idle loaded saved)
    · exact perform_later o (contextDestroyBody_moving hk own roleless kept moving)
    · exact perform_later o (contextDestroyBody_running hk own roleless kept running loaded saved)
  case regulator =>
    exact fun x o port burst hx share => perform_done o (bwrSetBody_sets hp port burst hx share)

end Sys2Proof.Machine

/-!
PROOFS. The scheduler's events on a partition when due (O39): dispatch, slices, drains, the boundary test, preemption.
-/

namespace Sys2Proof.Machine

variable {s t u v : State} {p : Nat} {part : Partition}

/-! ## Dispatch (R205) -/

/-- Nothing holds back the dispatch of the resident context c's first queued step st (R205). -/
structure DispatchOpen (s : State) (c : Nat) (st : Step) : Prop where
  resident : (s.ctx c).st = .resident
  live     : s.liveAgents (s.partD (s.ctx c).partition) ≠ []
  kept     : (s.ctx c).destroying = false
  enabled  : (s.reg Reg.schCtrl).bit 0 = true
  active   : s.active (s.ctx c).inst = true
  leased   : s.orphan = false
  awake    : s.power.softDue = none
  deps     : s.depsMet st = true
  unheld   : s.ctxHeld c = false
  opened   : s.partOpen (s.partD (s.ctx c).partition) = true

section Dispatch

variable {c : Nat} {st : Step} {rest : List Step} (undispatched : (s.ctx c).dispatched = none)
  (queued : (s.ctx c).queued = st :: rest)
include undispatched queued

theorem stepDispatchEffect_faulted (faulted : (s.ctx c).st = .faulted) :
    stepDispatchEffect c s = s.endUnsent c St.dataPoisoned := by
  simp only [stepDispatchEffect, undispatched, queued, faulted, if_true]

theorem stepDispatchEffect_fenced (resident : (s.ctx c).st = .resident)
    (fenced : s.liveAgents (s.partD (s.ctx c).partition) = []) :
    stepDispatchEffect c s = s.endUnsent c St.fenced := by
  simp [stepDispatchEffect, undispatched, queued, resident, fenced]

variable (opens : DispatchOpen s c st)
include opens

theorem stepDispatchEffect_open : stepDispatchEffect c s = (s.capStale c st).elim
    (if s.lossHeld c st then s.lossHold c else s.dispatch c st rest) (s.endUnsent c) := by
  obtain ⟨resident, live, kept, enabled, active, leased, awake, deps, unheld, opened⟩ := opens
  simp only [stepDispatchEffect, undispatched, queued, resident, live, kept, enabled, active, leased, awake, deps, unheld,
    opened, reduceCtorEq, Bool.true_eq_false, Bool.false_eq_true, ne_eq, not_true_eq_false, and_false, or_self, if_false]
  cases s.capStale c st with
  | none => rfl
  | some status => rfl

/-- A RUN_STEP that no longer follows its capped context's last step ends undispatched (log 56). -/
theorem stepDispatchEffect_stale {status : Byte} (stale : s.capStale c st = some status) :
    stepDispatchEffect c s = s.endUnsent c status := by
  rw [stepDispatchEffect_open undispatched queued opens, stale, Option.elim_some]

theorem stepDispatchEffect_follows (follows : s.capStale c st = none) :
    stepDispatchEffect c s = if s.lossHeld c st then s.lossHold c else s.dispatch c st rest := by
  rw [stepDispatchEffect_open undispatched queued opens, follows, Option.elim_none]

end Dispatch

/-! ## Slices (R206) -/

section Unstopped

variable (unstopped : (s.partD p).stopping = [])
include unstopped

theorem sliceEndEffect_chooses (ht : t = s.syncConds p)
    (ended : (t.partD p).issuing = none ∨ ∃ k, (t.partD p).issuing = some k ∧ t.sliceOver p k = true) :
    sliceEndEffect p s = t.chooseIssue p := by
  subst ht
  obtain idle | ⟨k, issuing, ended⟩ := ended
  · simp [sliceEndEffect, unstopped, idle]
  · simp [sliceEndEffect, unstopped, issuing, ended]

theorem sliceEndEffect_issuing {k : Nat} (ht : t = s.syncConds p) (issuing : (t.partD p).issuing = some k)
    (within : t.sliceOver p k = false) : sliceEndEffect p s = t := by
  subst ht
  simp [sliceEndEffect, unstopped, issuing, within]

theorem drainTimeoutEffect_stalled {k since : Nat} (hpart : s.partD p = part)
    (stalled : part.draining.find? (fun e => s.drainStalled p e.1 e.2) = some (k, since)) :
    drainTimeoutEffect p s = ((s.schInfo 0 (part.slot k).2 p
      (((s.stepOf (part.slot k).2).map fun st => st.seq).getD 0)).raise
        { id := Flt.drainConvert, inst := some part.inst }).preempt p k part.issuing := by
  subst hpart
  simp [drainTimeoutEffect, unstopped, stalled]

/-! ## The boundary test (R212) -/

theorem boundaryRetestEffect_due {k n at_ : Nat} (hpart : s.partD p = part) (issuing : part.issuing = some k)
    (waiting : part.waiting = some (n, at_)) (due : at_ ≤ s.ns) (ht : t = s.syncConds p) :
    boundaryRetestEffect p s =
      if (part.slot n).1 = .resident ∧ (t.ctx (part.slot n).2).cond = .runnable ∧
          (t.ctx (part.slot k).2).band + t.preemptGap ≤ (t.ctx (part.slot n).2).band
        then t.boundary p k n false else t.modPart p fun q => { q with waiting := none } := by
  subst hpart ht
  simp only [boundaryRetestEffect, unstopped, issuing, waiting, Nat.not_lt.mpr due, if_false]

end Unstopped

/-- A slot that arrives anew is tested against the one that issues. -/
theorem boundaryTestEffect_arrives {k n w : Nat} (ht : t = s.syncConds p) (unstopped : (t.partD p).stopping = [])
    (issuing : (t.partD p).issuing = some k) (arrives : t.arrival p k = some (n, w))
    (anew : ∀ v, (t.partD p).waiting = some v → v.1 ≠ n) : boundaryTestEffect p s = t.boundary p k n true := by
  have other : ((t.partD p).waiting.any fun w => w.1 == n) = false := by
    cases waiting : (t.partD p).waiting with
    | none => rfl
    | some v => simpa using anew v waiting
  subst ht
  simp only [boundaryTestEffect, unstopped, issuing, arrives, other, Bool.false_eq_true, if_false]

/-! ## Preemption (R210) -/

section Preemption

variable {a k : Nat} (hpart : s.partD p = part) (stopping : a ∈ part.stopping) (stopped : part.stopSlot = k)
include hpart stopping stopped

theorem preemptionEffect_withdraws {y : AgentStep} (hstep : (s.agent a).step p k = some y)
    (running : y.preempted = false)
    (hu : u = (part.coresOf a).foldl (fun s c => (s.withdrawFor a c p k y.context).disposePass a c p k y) s)
    (hv : v = u.modAgentStep a p k fun y => { y with preempted := true }) :
    preemptionEffect a k p s = (part.coresOf a).foldl (fun s c => s.syncCore a c) v := by
  subst hpart hu hv
  simp [preemptionEffect, stopping, stopped, hstep, running]

theorem slotStoppedEffect_stopped
    (ready : ∀ y, (s.agent a).step p k = some y →
      (y.preempted = true ∨ y.stopping = true) ∧ y.saves = [] ∧ s.slotOn a p k = false)
    (ht : t = s.modPart p fun q => { q with stopping := part.stopping.erase a }) :
    slotStoppedEffect a k p s = if part.stopping.erase a = [] then t.takeOver p else t := by
  subst hpart ht
  cases hstep : (s.agent a).step p k with
  | none => simp [slotStoppedEffect, stopping, stopped, hstep]
  | some y =>
    obtain ⟨halted, saved, off⟩ := ready y hstep
    simp [slotStoppedEffect, stopping, stopped, hstep, halted, saved, off]

end Preemption

/-- Settles O39: each event is its effect on the clocked block, and each effect does what its guards let it do (a queued
RUN_STEP of a capped context that ends undispatched: log 56). -/
theorem sliceEventsComplete : Obligations.SliceEventsComplete := by
  intro s p c part hclk hpart
  have unstop (h : part.stopping = []) : (s.partD p).stopping = [] := hpart ▸ h
  refine ⟨?dispatch, ?slice, ?drain, ?test, ?retest, ?preemption, ?stopped⟩
  case dispatch =>
    intro st rest undispatched queued
    refine ⟨fun faulted => act_eq_goesOn hclk (stepDispatchEffect_faulted undispatched queued faulted),
      fun resident fenced => act_eq_goesOn hclk (stepDispatchEffect_fenced undispatched queued resident fenced),
      fun resident live kept enabled active leased awake deps unheld opened => ?_⟩
    have opens : DispatchOpen s c st :=
      ⟨resident, live, kept, enabled, active, leased, awake, deps, unheld, opened⟩
    exact ⟨fun status stale => act_eq_goesOn hclk (stepDispatchEffect_stale undispatched queued opens stale),
      fun follows => act_eq_goesOn hclk (stepDispatchEffect_follows undispatched queued opens follows)⟩
  case slice =>
    exact fun t unstopped ht =>
      ⟨fun ended => act_eq_goesOn hclk (sliceEndEffect_chooses (unstop unstopped) ht ended),
        fun k issuing within => act_eq_goesOn hclk (sliceEndEffect_issuing (unstop unstopped) ht issuing within)⟩
  case drain =>
    exact fun k since unstopped stalled =>
      act_eq_goesOn hclk (drainTimeoutEffect_stalled (unstop unstopped) hpart stalled)
  case test =>
    exact fun t k n w ht unstopped issuing arrives anew =>
      act_eq_goesOn hclk (boundaryTestEffect_arrives ht unstopped issuing arrives anew)
  case retest =>
    intro t k n at_ unstopped issuing waiting due ht
    have effect := boundaryRetestEffect_due (unstop unstopped) hpart issuing waiting due ht
    split
    case isTrue passes => exact act_eq_goesOn hclk (effect.trans (if_pos passes))
    case isFalse fails => exact act_eq_goesOn hclk (effect.trans (if_neg fails))
  case preemption =>
    exact fun a k y u v stopping stopped hstep running hu hv =>
      act_eq_goesOn hclk (preemptionEffect_withdraws hpart stopping stopped hstep running hu hv)
  case stopped =>
    exact fun a k t stopping stopped ready ht =>
      act_eq_goesOn hclk (slotStoppedEffect_stopped hpart stopping stopped ready ht)

end Sys2Proof.Machine

/-!
PROOFS. Swaps of contexts and the refill of the regulators when due (O40).
-/

namespace Sys2Proof.Machine

variable {s t u v : State} {c p k : Nat}

/-! ## Saves (R203, R207, R208) -/

/-- The resident context c is the victim of the waiter w of partition p, and the scheduler may save it now: no slot of p is
EMPTY or SAVING, and none is stopped (R207, R208). -/
structure SwapsOut (s : State) (c p w : Nat) : Prop where
  waiter    : s.waiter p = some w
  resident  : (s.ctx c).st = .resident
  swaps     : s.swapOk = true
  full      : (s.partD p).slotIn .empty = none
  settled   : (s.partD p).slotIn .saving = none
  unstopped : (s.partD p).stopping = []
  victim    : s.swapVictim p w = some c

theorem swapOutEffect_victim {w : Nat} (hp : (s.ctx c).partition = p) (ht : t = s.syncConds p) (due : SwapsOut t c p w)
    (hk : (t.ctx c).slot = k)
    (hu : u = (t.setCtx c { t.ctx c with st := .saving }).modPart p fun q => q.setSlot k (.saving, c))
    (hv : v = (t.partD p).agents.foldl (fun s a =>
      (s.modAgentStep a p k fun y => { y with preempted := true }).emit (.agentSave a k c))
      ((t.partD p).places.foldl (fun s q => s.withdrawFor q.1 q.2 p k c) u)) :
    swapOutEffect c s = ((t.partD p).places.foldl (fun s q => s.syncCore q.1 q.2) v).leaveSlot p k := by
  obtain ⟨waiter, resident, swaps, full, settled, unstopped, victim⟩ := due
  subst hp ht hk hu hv
  simp only [swapOutEffect, waiter, resident, swaps, full, settled, unstopped, victim, ne_eq, not_true_eq_false,
    Bool.true_eq_false, Option.isSome_none, Bool.false_eq_true, or_self, if_false]

section Save

variable (hp : (s.ctx c).partition = p) (saving : (s.ctx c).st = .saving) (hk : (s.ctx c).slot = k)
  (still : ((s.partD p).places.any fun q => engines.any fun e =>
    ((s.core q.1 q.2).exec e).any fun y => y.slot == k) = false)
include hp saving hk still

theorem saveDoneEffect_lost : saveDoneEffect c false s = (s.ctxFaulted c).destroyDue c := by
  subst hp hk
  simp only [saveDoneEffect, saving, still, ne_eq, not_true_eq_false, Bool.false_eq_true, or_self, Bool.not_false,
    if_true, if_false]

theorem saveDoneEffect_saved
    (ht : t = (((s.partD p).places.foldl (fun s q => (s.saveCore q.1 q.2 c k).clearSlot q.1 q.2 p k) s).placeSteps c
      (256 + c)).modCtx c fun x => { x with st := .swapped, cond := .idle }) :
    saveDoneEffect c true s =
      (t.modPart p fun q => { q.setSlot k (.empty, 0) with swaps := q.swaps + 1 }).destroyDue c := by
  subst hp hk ht
  simp only [saveDoneEffect, saving, still, ne_eq, not_true_eq_false, Bool.false_eq_true, or_self, Bool.not_true,
    if_false]

end Save

/-! ## Loads (R203, R207) -/

theorem contextLoadEffect_waiter (hp : (s.ctx c).partition = p) (empty : (s.partD p).slotIn .empty = some k)
    (waiter : s.waiter p = some c) (swaps : s.swapOk = true) (formed : s.part p ≠ none)
    (ht : t = (s.modCtx c fun x => { x with st := .loading, slot := k }).modPart p fun q => q.setSlot k (.loading, c)) :
    contextLoadEffect c s = (s.partD p).cores.foldl (fun s g => s.readRecord c p g)
      ((s.partD p).agents.foldl (fun s a => s.emit (.agentLoad a k c)) t) := by
  subst hp ht
  simp [contextLoadEffect, empty, waiter, swaps, formed]

section Load

variable (loading : (s.ctx c).st = .loading)
include loading

theorem loadDoneEffect_lost : loadDoneEffect c false s = (s.ctxFaulted c).destroyDue c :=
  (if_neg (not_not.mpr loading)).trans (if_pos rfl)

theorem loadDoneEffect_loaded (hp : (s.ctx c).partition = p) (hk : (s.ctx c).slot = k)
    (ht : t = if (s.ctx c).loadedOnce then s else s.releaseGranules c)
    (hu : u = ((s.partD p).places.foldl (fun v q => v.loadCore q.1 q.2 c k (!(s.ctx c).loadedOnce)) t).placeSteps c k) :
    loadDoneEffect c true s = (((u.modCtx c fun x =>
      { x with st := .resident, loadedOnce := true, cond := .idle, condSince := u.ns }).modPart p fun q =>
        q.setSlot k (.resident, c)).destroyDue c).syncConds p := by
  subst hp hk ht
  rw [hu]
  exact (if_neg (not_not.mpr loading)).trans (if_neg Bool.false_ne_true)

end Load

/-! ## Regulators (R216) -/

/-- A bucket given 64 times its rate, up to its depth (R216): e is its key, rate and depth. -/
def fillBucket (t : Tbl Int) (e : Nat × Nat × Nat) : Tbl Int :=
  Tbl.put (fun _ => 0) t e.1 (min ((e.2.2 * 4096 : Nat) : Int)
    ((Tbl.get (fun _ => 0) t e.1 : Int) + ((e.2.1 * 64 : Nat) : Int)))

theorem refillEffect_due {cls port key : Nat} (hkey : cls * 256 + port = key) (there : port < (classPorts cls).2)
    (due : Tbl.get (fun _ => 0) s.sched.refills key < s.cc / 1200) :
    refillEffect cls port s = State.admitHeld { s with sched := { s.sched with
      buckets := (s.sched.portSet.filter fun e => e.1 % 256 == bucketPort cls port).foldl fillBucket s.sched.buckets,
      refills := Tbl.put (fun _ => 0) s.sched.refills key (Tbl.get (fun _ => 0) s.sched.refills key + 1) } } := by
  subst hkey
  simp only [refillEffect, Nat.not_le.mpr due, Nat.not_le.mpr there, or_self, if_false]
  rfl

/-- Settles O40: each event is its effect on the clocked block, and each effect does what its guards let it do. -/
theorem swapAndRegulatorEventsComplete : Obligations.SwapAndRegulatorEventsComplete := by
  intro s c p hclk hp
  refine ⟨?out, ?saved, ?load, fun loading => ⟨act_eq_goesOn hclk (loadDoneEffect_lost loading),
    fun k t u hk ht hu => act_eq_goesOn hclk (loadDoneEffect_loaded loading hp hk ht hu)⟩,
    fun cls port key hkey there due => act_eq_goesOn hclk (refillEffect_due hkey there due)⟩
  case out =>
    intro t w k u v ht waiter resident swaps full settled unstopped victim hk hu hv
    have due : SwapsOut t c p w := ⟨waiter, resident, swaps, full, settled, unstopped, victim⟩
    exact act_eq_goesOn hclk (swapOutEffect_victim hp ht due hk hu hv)
  case saved =>
    exact fun k saving hk still => ⟨act_eq_goesOn hclk (saveDoneEffect_lost hp saving hk still),
      fun t ht => act_eq_goesOn hclk (saveDoneEffect_saved hp saving hk still ht)⟩
  case load =>
    exact fun k t empty waiter swaps formed ht =>
      act_eq_goesOn hclk (contextLoadEffect_waiter hp empty waiter swaps formed ht)

end Sys2Proof.Machine

/-!
PROOFS. Fence commands, the fence bus at both its ends, forced events, SEVERE latches and HUM_OUT (O56).
-/

namespace Sys2Proof.Machine

variable {s t u : State} {cls index : Nat} {w : Word} {m : BusSent}

theorem barWrite_eq_goesOn {fn : Nat} {f : State → State} (reach : Reachable s fn) (hf : f s = u) :
    barWrite s fn f = goesOn u := by
  rw [barWrite_goesOn reach, hf]

/-! ## PRP_FENCE_CMD (R372, R374, R391) -/

section Command

variable (idle : s.fences.busy = none)
include idle

section Fence

variable (fence : w.bit 31 = false)
include fence

theorem fenceCmdEffect_fails {r : Byte} (fails : s.fenceCmdFail w = some r) :
    fenceCmdEffect 0 w s = s.fenceResult r := by
  simp only [fenceCmdEffect, fence, idle, fails, Option.isSome_none, ne_eq, not_true_eq_false, Bool.false_eq_true,
    or_self, if_false]

theorem fenceCmdEffect_asks (passes : s.fenceCmdFail w = none) :
    fenceCmdEffect 0 w s = (s.fenceResult St.ok).fenceAsk (w.field 30 28) (w.field 10 0) := by
  simp only [fenceCmdEffect, fence, idle, passes, Option.isSome_none, ne_eq, not_true_eq_false, Bool.false_eq_true,
    or_self, if_false]

end Fence

section Unfence

variable (unfence : w.bit 31 = true)
include unfence

theorem unfenceCmdEffect_fails {r : Byte} (fails : s.fenceCmdFail w = some r) :
    unfenceCmdEffect 0 w s = s.fenceResult r := by
  simp only [unfenceCmdEffect, unfence, idle, fails, Option.isSome_none, ne_eq, not_true_eq_false, Bool.true_eq_false,
    Bool.false_eq_true, or_self, if_false]

/-- An unfence that passes makes the unit BUSY until the fence's own stop has drained. -/
theorem unfenceCmdEffect_waits (passes : s.fenceCmdFail w = none) :
    unfenceCmdEffect 0 w s = { s with fences := { s.fences with busy := some w } } := by
  simp only [unfenceCmdEffect, unfence, idle, passes, Option.isSome_none, ne_eq, not_true_eq_false, Bool.true_eq_false,
    Bool.false_eq_true, or_self, if_false]

end Unfence

end Command

/-! ## The targets (R375–R377) -/

/-- A target that has acted on message m: once for a SEQ (R376). -/
def State.markActed (s : State) (cls index : Nat) (m : BusSent) : State :=
  if (s.target cls index).acted = some m.seq then s
  else s.setTarget cls index { s.target cls index with acted := some m.seq }

section Target

variable {mine : BusKind → Bool} {f : BusMsg → State → State} (sent : (s.target cls index).sent = some m)
  (kind : mine m.msg.kind = true)
include sent kind

theorem State.busTake_check_fails :
    s.busTake cls index mine false f = s.busAnswer cls index 6 m.seq := by
  simp only [State.busTake, sent, kind, Bool.not_true, Bool.not_false, Bool.false_eq_true, if_true, if_false]

/-- A message that does no more than its mark is answered in the same way at each repetition. -/
theorem State.busTake_marks :
    s.busTake cls index mine true (fun _ s => s) = (s.markActed cls index m).busAnswer cls index 5 m.seq := by
  simp only [State.busTake, State.markActed, sent, kind, Bool.not_true, Bool.false_eq_true, if_false]

theorem State.busTake_acts (anew : (s.target cls index).acted ≠ some m.seq) :
    s.busTake cls index mine true f = (f m.msg (s.markActed cls index m)).busAnswer cls index 5 m.seq := by
  simp only [State.busTake, State.markActed, sent, kind, anew, Bool.not_true, Bool.false_eq_true, if_false]

end Target

theorem exec_fenceBusFence (ok : Bool) : exec (.fenceBusFence cls index ok) s =
    act s fun s => s.busTake cls index (· == .fence) ok fun _ s => s := rfl

theorem exec_fenceBusUnfence (ok : Bool) : exec (.fenceBusUnfence cls index ok) s =
    act s fun s => s.busTake cls index (· == .unfence) ok fun _ s => s := rfl

theorem exec_fenceBusReg (ok : Bool) : exec (.fenceBusReg cls index ok) s =
    act s fun s => s.busTake cls index (· == .reg) ok (applyReg cls index) := rfl

section Irq

variable (sent : (s.target 0 index).sent = some m) (kind : m.msg.kind = .irq)
include sent kind

theorem busIrqEffect_check_fails : busIrqEffect index false s = s.busAnswer 0 index 6 m.seq := by
  simp only [busIrqEffect, sent, kind, ne_eq, not_true_eq_false, Bool.not_false, if_true, if_false]

theorem busIrqEffect_takes : busIrqEffect index true s = (s.setTarget 0 index { s.target 0 index with
    sent := none, acted := some m.seq, lines := m.msg.payload.toNat % 4 }).busPump 0 index := by
  simp only [busIrqEffect, sent, kind, ne_eq, not_true_eq_false, Bool.not_true, Bool.false_eq_true, if_false]

end Irq

/-! ## The hub (R376) -/

section Hub

variable (sent : (s.target cls index).sent = some m)
include sent

/-- One message at a time is on its way to a target: its ACK lets the next go (log 13). -/
theorem busAckEffect_sent {seq : Byte} (hseq : m.seq = seq) (kind : m.msg.kind ≠ .irq) :
    busAckEffect cls index seq s =
      (s.setTarget cls index { s.target cls index with sent := none }).busPump cls index := by
  simp [busAckEffect, sent, hseq, kind]

theorem busNakEffect_sent {seq : Byte} (hseq : m.seq = seq) : busNakEffect cls index seq s = s.busRetry cls index := by
  simp [busNakEffect, sent, hseq]

theorem ackTimeoutEffect_late (kind : m.msg.kind ≠ .irq) (late : m.sentCc + s.ackLimit ≤ s.cc) :
    ackTimeoutEffect cls index s = s.busRetry cls index := by
  simp [ackTimeoutEffect, sent, kind, late]

end Hub

/-! ## Forced events and SEVERE latches (R368, R370) -/

theorem faultForceEffect_block {off b : Nat} (block : forceBlock off = some b) :
    faultForceEffect 0 off w s =
      (List.range 32).foldl (fun s i => if w.getLsbD i then s.forceOne (32 * b + i) else s) s := by
  simp only [faultForceEffect, block, ne_eq, not_true_eq_false, if_false]

theorem severeClearEffect_clears {id : Nat} (source : id < 2048) (severe : w.bit 31 = true)
    (ht : t = s.andNotReg (prpFSev id) 0x80000000)
    (hu : u = { t with fences := { t.fences with counts := dropWhere (fun e => e.1 / 8192 == id) t.fences.counts } }) :
    severeClearEffect 0 id w s = u.syncLine (id / 32) := by
  subst ht hu
  simp only [severeClearEffect, severe, Nat.not_le.mpr source, ne_eq, not_true_eq_false, Bool.true_eq_false, or_self,
    if_false]

/-! ## HUM_OUT (R378–R380) -/

section Hum

variable (toggling : s.hum.toggling = true) (due : s.hum.nextAt ≤ s.ticks) (thawed : s.power.freeze = none)
include toggling due thawed

theorem humToggleEffect_stopped (stopped : s.hum.stopped = true) :
    humToggleEffect s = { s with hum := { s.hum with level := false, toggling := false } } := by
  simp only [humToggleEffect, toggling, Nat.not_lt.mpr due, thawed, stopped, ne_eq, not_true_eq_false,
    Bool.true_eq_false, or_self, if_true, if_false]

theorem humToggleEffect_running (running : s.hum.stopped = false) :
    humToggleEffect s = { s with hum := { s.hum with
      level := !s.hum.level,
      nextAt := if s.hum.nextAt + s.humHalf ≤ s.ticks then s.ticks + s.humHalf else s.hum.nextAt + s.humHalf } } := by
  simp only [humToggleEffect, toggling, Nat.not_lt.mpr due, thawed, running, ne_eq, not_true_eq_false,
    Bool.true_eq_false, Bool.false_eq_true, or_self, if_false]

end Hum

/-- Settles O56: each row is its effect where it is taken, and each effect does what its guards let it do (one message at a
time on its way to a target: log 13). -/
theorem fencesAndFaultsComplete : Obligations.FencesAndFaultsComplete := by
  intro s cls index w
  refine ⟨fun reach idle => ?command, ?bus, ?irq, fun reach => ?faults, fun up toggling due thawed => ?hum⟩
  case command =>
    refine ⟨fun r fails => ⟨fun fence => ?_, fun unfence => ?_⟩, ?_, fun unfence passes => ?_⟩
    · exact barWrite_eq_goesOn reach (fenceCmdEffect_fails idle fence fails)
    · exact barWrite_eq_goesOn reach (unfenceCmdEffect_fails idle unfence fails)
    · rintro _ fence passes rfl
      exact barWrite_eq_goesOn reach (fenceCmdEffect_asks idle fence passes)
    · exact barWrite_eq_goesOn reach (unfenceCmdEffect_waits idle unfence passes)
  case bus =>
    intro m seq answer hclk sent hanswer
    obtain rfl : answer = fun kind t => t.busAnswer cls index kind m.seq := funext fun kind => funext (hanswer kind)
    refine ⟨?takes, fun kind => ?_, fun kind => ?_, fun kind => ?_, fun hseq => ⟨fun kind => ?_, ?_⟩,
      fun kind late => ?_⟩
    case takes =>
      rintro _ rfl
      refine ⟨fun kind => ?_, fun kind => ?_, fun kind anew => ?_⟩
      · rw [exec_fenceBusFence]
        exact act_eq_goesOn hclk (State.busTake_marks sent (beq_iff_eq.mpr kind))
      · rw [exec_fenceBusUnfence]
        exact act_eq_goesOn hclk (State.busTake_marks sent (beq_iff_eq.mpr kind))
      · rw [exec_fenceBusReg]
        exact act_eq_goesOn hclk (State.busTake_acts sent (beq_iff_eq.mpr kind) anew)
    · rw [exec_fenceBusFence]
      exact act_eq_goesOn hclk (State.busTake_check_fails sent (beq_iff_eq.mpr kind))
    · rw [exec_fenceBusUnfence]
      exact act_eq_goesOn hclk (State.busTake_check_fails sent (beq_iff_eq.mpr kind))
    · rw [exec_fenceBusReg]
      exact act_eq_goesOn hclk (State.busTake_check_fails sent (beq_iff_eq.mpr kind))
    · exact act_eq_goesOn hclk (busAckEffect_sent sent hseq kind)
    · exact act_eq_goesOn hclk (busNakEffect_sent sent hseq)
    · exact act_eq_goesOn hclk (ackTimeoutEffect_late sent kind late)
  case irq =>
    rintro _ m hclk rfl sent kind
    exact ⟨act_eq_goesOn hclk (busIrqEffect_takes sent kind),
      act_eq_goesOn hclk (busIrqEffect_check_fails sent kind)⟩
  case faults =>
    refine ⟨fun off b block => ?_, fun id t u source severe ht hu => ?_⟩
    · exact barWrite_eq_goesOn reach (faultForceEffect_block block)
    · exact barWrite_eq_goesOn reach (severeClearEffect_clears source severe ht hu)
  case hum =>
    refine ⟨fun stopped => ?_, fun running => ?_⟩
    · exact (actRef_goesOn up).trans (congrArg goesOn (humToggleEffect_stopped toggling due thawed stopped))
    · exact (actRef_goesOn up).trans (congrArg goesOn (humToggleEffect_running toggling due thawed running))

end Sys2Proof.Machine

/-!
PROOFS. Time (O2), the values that reset leaves (O3), and the Timebase's events outside reset (O44).
-/

namespace Sys2Proof.Machine

variable {s t : State}

/-! ## A cycle of TB_REF (R220) -/

theorem step_of_empty (empty : s.pending = []) : step s = .next (tbRefCycle s) := by
  unfold step
  rw [empty]

theorem tbRefCycle_inReset (held : s.inReset = true) : tbRefCycle s = s := by
  unfold tbRefCycle
  rw [if_pos held]

theorem tbRefCycle_up (up : s.inReset = false) : tbRefCycle s = { s with
    tb := { s.tb with ctr := s.tb.ctr + s.tb.incr.setWidth 96 },
    ticks := s.ticks + 1,
    cc := if s.clocked then s.cc + Config.ccPerRef s.ticks else s.cc } := by
  unfold tbRefCycle
  rw [if_neg (Bool.eq_false_iff.mp up)]

/-- Settles O2: the step on an empty queue is a TB_REF cycle (log 1), which stands still in reset and else
advances the counts. -/
theorem anEmptyQueuePassesATimebaseCycle : Obligations.AnEmptyQueuePassesATimebaseCycle := by
  refine fun s empty => ⟨fun held => ?_, fun up => ?_⟩
  · rw [step_of_empty empty, tbRefCycle_inReset held]
  · rw [step_of_empty empty, tbRefCycle_up up]

/-! ## Reset (R412, R432): nothing is listed, so that each entry is at its default -/

theorem entry_reset (i : Nat) : State.reset.entry i = combDefault i := rfl
theorem ring_reset (r : Nat) : State.reset.ring r = ringDefault r := rfl
theorem inst_reset (i : Nat) : State.reset.inst i = instDefault i := rfl
theorem member_reset (m : Nat) : State.reset.member m = {} := rfl
theorem irq_reset (n : Nat) : State.reset.irq n = {} := rfl
theorem reg_reset (k : Nat) : State.reset.reg k = resetVal k := rfl

theorem ringDefault_boot {r : Nat} (boot : r < 64) : (ringDefault r).st = .disabled := by
  rw [ringDefault, if_pos boot]

theorem ringDefault_other {r : Nat} (other : 64 ≤ r) : (ringDefault r).st = .free := by
  rw [ringDefault, if_neg (Nat.not_lt.mpr other)]

theorem instDefault_physical : (instDefault 0).st = .active := by
  rw [instDefault, if_pos rfl]

theorem instDefault_virtual {i : Nat} (virtual : i ≠ 0) : (instDefault i).st = .none := by
  rw [instDefault, if_neg virtual]

/-- The free list begins at entry 0 where no entry has been taken from it (R36, R50). -/
theorem combHead_reset : State.reset.combHead = some 0 := by decide

/-- Settles O3: what the reset state holds outright, what its empty tables answer, and what its registers show
(R455, log 6). -/
theorem resetLeavesTheStatedValues : Obligations.ResetLeavesTheStatedValues := by
  refine ⟨rfl, rfl, rfl, rfl, rfl, rfl, rfl, rfl, ?entries, ?boot, ?rings, ?physical, ?instances, ?members, ?free,
    ⟨rfl, rfl, rfl⟩, ?icCtrl, ?storm, ?sampler, ?lines⟩
  case entries => exact entry_reset
  case boot => exact fun r boot => by rw [ring_reset, ringDefault_boot boot]
  case rings => exact fun r other => by rw [ring_reset, ringDefault_other other]
  case physical => rw [inst_reset, instDefault_physical]
  case instances => exact fun i virtual => by rw [inst_reset, instDefault_virtual virtual]
  case members => exact fun m => by rw [member_reset]
  case free => exact fun k head => (Option.some.inj (combHead_reset.symm.trans head)).symm
  case icCtrl => rw [reg_reset]; decide
  case storm => rw [reg_reset]; decide
  case sampler => rw [reg_reset]; decide
  case lines => exact fun n => by rw [irq_reset]; exact ⟨rfl, rfl⟩

/-! ## Edges and missed seconds (R221, R224) -/

/-- An event of the TB_REF island, from what its effect does. -/
theorem actRef_eq_goesOn {f : State → State} (up : s.inReset = false) (hf : f s = t) : actRef s f = goesOn t := by
  rw [actRef_goesOn up, hf]

theorem ppsEdgeEffect_qualified {phase : Nat} (enabled : s.ppsEn = true) (wide : s.ppsMinw ≤ phase) :
    ppsEdgeEffect phase s = s.ppsEdge (s.edge phase) := by
  simp only [ppsEdgeEffect, enabled, Nat.not_lt.mpr wide, Bool.true_eq_false, or_self, if_false]

/-- Past a lock, the second after the last that was accepted or missed is missed once its window has passed. -/
theorem missDue_of_past {sec : Nat} (begun : s.tb.lock ≠ .freeRun) (found : s.tb.lock ≠ .acquiring)
    (hsec : sec = max s.tb.lastSec s.tb.missSec + 1) (past : sec * 1000000000 + s.ppsWindow sec < s.ns) :
    s.missDue = true := by
  subst hsec
  unfold State.missDue
  split
  case h_4 none => exact absurd none begun
  case h_5 none => exact absurd none found
  all_goals exact decide_eq_true past

theorem missedSecondEffect_due (due : s.missDue = true) : missedSecondEffect s = s.missSecond := by
  rw [missedSecondEffect, if_pos due]

theorem acquireNoEdgeEffect_late {at_ : Int} (candidate : s.tb.candidate = some at_) (acquiring : s.tb.lock = .acquiring)
    (late : at_ + 2000000000 ≤ (s.ns : Int)) : acquireNoEdgeEffect s =
      { s with tb := { s.tb with candidate := none, acquired := false, lockCount := 0 } } := by
  simp only [acquireNoEdgeEffect, candidate, acquiring, late, and_self, if_true, State.modTb]

/-! ## HOLDOVER (R225) -/

theorem holdoverExpireEffect_past (holdover : s.tb.lock = .holdover)
    (past : (s.reg Reg.tbHoLimit).toNat < s.hoBound) :
    holdoverExpireEffect s = (s.setLock .expired).tbFault Flt.tbExpired s.tb.err := by
  rw [holdoverExpireEffect, if_pos ⟨holdover, past⟩]

/-! ## The physical function's accesses (R224, R226, R239) -/

theorem tbReacqEffect_physical : tbReacqEffect 0 s = State.setLock
    { s with tb := { s.tb with candidate := none, acquired := false, lockCount := 0 } }
    (if s.ppsEn then .acquiring else .freeRun) := rfl

theorem tbTodArmEffect_physical : tbTodArmEffect 0 s = s.orReg Reg.tbTodCtrl 1 := rfl

theorem nowCaptureEffect_physical : nowCaptureEffect 0 s =
    { s with tb := { s.tb with capHi := Word.mk (s.ns / 2 ^ 32), capFrac := s.tb.ctr.setWidth 32 } } := rfl

theorem exec_tbNowCapture_physical (reach : Reachable s 0) (ht : t = s.emit (.readData 0 (Word.mk s.ns))) :
    exec (.tbNowCapture 0) s = goesOn { t with
      tb := { t.tb with capHi := Word.mk (t.ns / 2 ^ 32), capFrac := t.tb.ctr.setWidth 32 } } := by
  subst ht
  exact (barRead_goesOn reach).trans (congrArg goesOn nowCaptureEffect_physical)

/-- Settles O44: each event is its effect outside reset, each access of the physical function its effect where the function is
reached, and each effect does what its guards let it do (the window's t and the whole seconds of the bound: log 58). -/
theorem timebaseEventsComplete : Obligations.TimebaseEventsComplete := by
  intro s up
  refine ⟨?edge, ?missed, ?dropped, ?expires, fun reach => ⟨?reacquires, ?arms, ?captures⟩⟩
  case edge => exact fun phase enabled wide => actRef_eq_goesOn up (ppsEdgeEffect_qualified enabled wide)
  case missed =>
    exact fun sec begun found hsec past =>
      actRef_eq_goesOn up (missedSecondEffect_due (missDue_of_past begun found hsec past))
  case dropped =>
    exact fun at_ candidate acquiring late => actRef_eq_goesOn up (acquireNoEdgeEffect_late candidate acquiring late)
  case expires => exact fun holdover past => actRef_eq_goesOn up (holdoverExpireEffect_past holdover past)
  case reacquires => exact barWrite_eq_goesOn reach tbReacqEffect_physical
  case arms => exact barWrite_eq_goesOn reach tbTodArmEffect_physical
  case captures => exact fun t ht => exec_tbNowCapture_physical reach ht

end Sys2Proof.Machine

/-!
PROOFS. Commands on cyclic tables where their checks pass, and the starts of steps and launches (O33).
-/

namespace Sys2Proof.Machine

variable {s : State} {c : Cmd} {k : Nat} {t : CycTable}

/-! ## CYC_LOAD (R227, R228) -/

/-- The fields of a CYC_LOAD of n slots and a cycle are in their ranges. -/
structure Cmd.CycLoadInRange (c : Cmd) (n cycle : Nat) : Prop where
  slots   : c.field 0x0C 10 0 = n
  length  : (c.dword 0x10).toNat = cycle
  any     : 1 ≤ n
  few     : n ≤ 1024
  long    : 250000 ≤ cycle
  short   : cycle ≤ 10000000000
  seconds : 1000000000 % cycle = 0 ∨ cycle % 1000000000 = 0
  phase   : c.field 0x18 29 0 < min cycle 1000000000
  aligned : (c.dword 0x20).toNat % 32 = 0
  mapped  : Config.inWindows c.inst (c.dword 0x20).toNat (32 * n) = true

theorem cycLoadFail_inRange {n cycle : Nat} (range : c.CycLoadInRange n cycle) : cycLoadFail c = none := by
  obtain ⟨slots, length, any, few, long, short, seconds, phase, aligned, mapped⟩ := range
  have slotsPass : ¬ (n = 0 ∨ 1024 < n) := by omega
  have cyclePass : ¬ (cycle < 250000 ∨ 10000000000 < cycle ∨ 1000000000 % cycle ≠ 0 ∧ cycle % 1000000000 ≠ 0) := by
    omega
  simp only [cycLoadFail, slots, length, slotsPass, cyclePass, Nat.not_le.mpr phase, aligned, mapped, ne_eq,
    not_true_eq_false, Bool.true_eq_false, or_self, if_false]

theorem cycLoadBody_takes {n cycle : Nat} {ws : List Word} {l : List CycSlot} {x : CycImage} (hk : c.field 0x08 2 0 = k)
    (ht : s.table k = t) (range : c.CycLoadInRange n cycle) (own : t.st = .empty ∨ t.inst = c.inst)
    (disarmed : t.st ≠ .armed) (unstopped : t.st ≠ .stopping) (read : cycSlots n ws = some l)
    (hx : x = { cycleNs := cycle, phaseNs := c.field 0x18 29 0, slots := l }) (fits : x.fits = true)
    (owned : s.slotsOwned c.inst x = true) :
    cycLoadBody (.data ws) c s =
      .done ((s.emit (s.vcRead none (c.dword 0x20).toNat (32 * l.length))).cycStore k c.inst x) [] := by
  have ownPass : ¬ (t.st ≠ .empty ∧ t.inst ≠ c.inst) := not_and_or.mpr (own.imp not_not.mpr not_not.mpr)
  subst hx
  simp only [cycLoadBody, hk, ht, cycLoadFail_inRange range, range.slots, range.length, ownPass, disarmed, unstopped, read,
    fits, owned, or_self, Bool.true_eq_false, if_false]

/-! ## CYC_START (R229) -/

theorem longFail_cycStart (room : s.longUsed < 4096) : s.longFail (.cycStart k) = none := by
  simp only [State.longFail, Nat.not_le.mpr room, if_false]

/-- No other busy table is of table k's partition. -/
theorem cyc_any_busy_eq_false {p : Nat}
    (alone : ∀ e ∈ s.cyc, e.1 ≠ k → e.2.partition = p → e.2.busy = false) :
    (s.cyc.any fun e => e.1 != k && e.2.busy && e.2.partition == p) = false := by
  rw [List.any_eq_false]
  rintro e listed busy
  simp only [Bool.and_eq_true, bne_iff_ne, beq_iff_eq] at busy
  obtain ⟨⟨other, busy⟩, same⟩ := busy
  rw [alone e listed other same] at busy
  exact Bool.false_ne_true busy

theorem cycStartBody_arms {start at_ : Nat} (hk : c.field 0x08 2 0 = k) (ht : s.table k = t)
    (hstart : (c.dword 0x10).toNat = start) (loaded : t.st = .loaded) (own : t.inst = c.inst)
    (begun : s.tb.lock ≠ .freeRun) (found : s.tb.lock ≠ .acquiring)
    (alone : ∀ e ∈ s.cyc, e.1 ≠ k → e.2.partition = t.partition → e.2.busy = false)
    (ahead : start = 0 ∨ t.image.boundaryFrom start = start ∧ s.ns + s.leadNs ≤ start)
    (hat : at_ = if start = 0 then t.image.boundaryFrom (s.ns + 2 * s.leadNs) else start) :
    cycStartBody c s = .long s 0x18 (.cycStart k) (Word.mk k) [0, 0, Word.mk at_, Word.mk (at_ / 2 ^ 32)] fun o s =>
      s.setTable k { t with st := .armed, start := at_, cycles := 0, overruns := 0, skips := 0, runs := [], op := some o } := by
  have boundary : ¬ (start ≠ 0 ∧ t.image.boundaryFrom start ≠ start) := by tauto
  have past : ¬ (start ≠ 0 ∧ start < s.ns + s.leadNs) := by omega
  subst hat
  simp only [cycStartBody, hk, ht, hstart, loaded, own, boundary, begun, found, cyc_any_busy_eq_false alone, past,
    reduceCtorEq, ne_eq, not_true_eq_false, not_false_eq_true, true_and, or_self, Bool.false_eq_true, if_false]

/-! ## CYC_STOP, CYC_FREE (R229) -/

section Loaded

variable (hk : c.field 0x08 2 0 = k) (ht : s.table k = t) (own : t.inst = c.inst)
include hk ht own

theorem cycStopBody_armed (armed : t.st = .armed) : cycStopBody c s = .done (s.stopTable k (c.bit 0x08 8)) [] := by
  simp [cycStopBody, hk, ht, own, armed]

/-- A stop at the boundary waits for it. -/
theorem cycStopBody_boundary (running : t.st = .running) (later : c.bit 0x08 8 = false) :
    cycStopBody c s = .later (s.stopTable k false) (.cycStop k) := by
  simp [cycStopBody, hk, ht, own, running, later]

theorem cycStopBody_now (busy : t.st = .running ∨ t.st = .stopping) (now : c.bit 0x08 8 = true) :
    cycStopBody c s = .done (s.stopTable k true) [] := by
  obtain running | stopping := busy
  · simp [cycStopBody, hk, ht, own, running, now]
  · simp [cycStopBody, hk, ht, own, stopping, now]

theorem cycFreeBody_frees (loaded : t.st = .loaded) :
    cycFreeBody c s = .done { s with cyc := Tbl.erase s.cyc k } [] := by
  simp [cycFreeBody, hk, ht, own, loaded]

end Loaded

/-! ## Starts (R234) -/

section Start

variable {ctx : Nat} {st : Step} (dispatched : s.stepOf ctx = some st)
include dispatched

theorem timedStartEffect_step (run : st.origin = .run) (held : st.held = true) (due : st.startTime ≤ s.ns) :
    timedStartEffect ctx 65536 s = (s.modStep ctx fun st => { st with released := true }).bandEight ctx := by
  simp [timedStartEffect, dispatched, run, held, Nat.not_lt.mpr due]

theorem timedStartEffect_launch {l at_ : Nat} (launch : l ≠ 65536) (timed : st.timedStart l = some at_) (due : at_ ≤ s.ns)
    (fresh : l ∉ st.begun) : timedStartEffect ctx l s = (s.modStep ctx fun st =>
      { st with begun := insertAsc l st.begun, released := st.released || decide (st.startTime = 0) }).bandEight ctx := by
  simp [timedStartEffect, dispatched, launch, timed, Nat.not_lt.mpr due, fresh]

end Start

/-- Settles O33: each command where its checks pass, from what its body answers, and each start that is reached (a RUNNING
table's image of another partition: log 58). -/
theorem cyclicTableCommandsComplete : Obligations.CyclicTableCommandsComplete := by
  intro s src c k t hk ht
  refine ⟨?load, ?start, fun o own => ⟨fun armed => ?_, fun running later => ?_, fun busy now => ?_⟩,
    fun o loaded own => perform_done o (cycFreeBody_frees hk ht own loaded), fun ctx st hclk dispatched =>
      ⟨fun run held due => ?_, fun l at_ launch timed due fresh => ?_⟩⟩
  case load =>
    exact fun n cycle ws l x o slots length any few long short seconds phase aligned mapped own disarmed unstopped read hx
      fits owned => perform_done o (cycLoadBody_takes hk ht
        ⟨slots, length, any, few, long, short, seconds, phase, aligned, mapped⟩ own disarmed unstopped read hx fits owned)
  case start =>
    intro start at_ o hstart loaded own begun found alone ahead room hat
    have arms := cycStartBody_arms hk ht hstart loaded own begun found alone ahead hat
    exact (perform_long o arms (longFail_cycStart room) :)
  · exact perform_done o (cycStopBody_armed hk ht own armed)
  · exact perform_later o (cycStopBody_boundary hk ht own running later)
  · exact perform_done o (cycStopBody_now hk ht own busy now)
  · exact act_eq_goesOn hclk (timedStartEffect_step dispatched run held due)
  · exact act_eq_goesOn hclk (timedStartEffect_launch dispatched launch timed due fresh)

end Sys2Proof.Machine

/-!
PROOFS. What a cyclic table does at its times (O34): cycles, leads, starts and deadlines.
-/

namespace Sys2Proof.Machine

variable {s u v : State} {k i : Nat} {t : CycTable}

theorem State.modTable_at (ht : s.table k = t) (f : CycTable → CycTable) : s.modTable k f = s.setTable k (f t) := by
  rw [State.modTable, ht]

/-! ## Cycles (R229, R230) -/

section Boundary

variable (ht : s.table k = t)
include ht

theorem cycleBoundaryEffect_armed (armed : t.st = .armed) (due : t.start ≤ s.ns) :
    cycleBoundaryEffect k s = s.setTable k (t.begin_ t.start) := by
  simp only [cycleBoundaryEffect, ht, armed, due, if_true, State.modTable_at ht]

theorem cycleBoundaryEffect_running (running : t.st = .running) (due : t.next ≤ s.ns) (hu : u = s.skipUnbegun k)
    (hv : v = u.modTable k (fun t => { t with cycles := t.cycles + 1 })) :
    cycleBoundaryEffect k s = (v.cycProgress k).modTable k fun x => x.begin_ t.next := by
  subst hu hv
  simp only [cycleBoundaryEffect, ht, running, Nat.not_lt.mpr due, if_false]

theorem cycleBoundaryEffect_stopping (stopping : t.st = .stopping) (due : t.next ≤ s.ns) :
    cycleBoundaryEffect k s = (s.skipUnbegun k).tryStop k := by
  simp only [cycleBoundaryEffect, ht, stopping, Nat.not_lt.mpr due, if_false]

end Boundary

/-! ## Leads and starts (R230) -/

section Occurrence

variable {y : CycSlot} {at_ : Nat} (ht : s.table k = t) (pending : t.pendingS i = some (y, at_))
include ht pending

section Lead

variable (near : at_ ≤ s.ns + s.leadNs) (unled : (t.run i).led = false)
include near unled

/-- A carried step is called, so that its context is loaded. -/
theorem slotLeadEffect_calls {n : Word} (hu : u = s.modRun k i fun r => { r with led := true, ledSeq := none })
    (carried : (t.run i).carried = true) (stepped : (t.run i).seq = some n) :
    slotLeadEffect k i s = u.modSlotStep y.context n fun st => { st with called := true } := by
  subst hu
  simp [slotLeadEffect, ht, pending, Nat.not_lt.mpr near, unled, carried, stepped]

/-- Without a step that is carried, and without a context to queue one for, nothing is called. -/
theorem slotLeadEffect_alone (hu : u = s.modRun k i fun r => { r with led := true, ledSeq := none })
    (nothing : (t.run i).carried = true ∧ (t.run i).seq = none ∨
      (t.run i).carried = false ∧ (s.ctx y.context).st = .free) :
    slotLeadEffect k i s = u := by
  subst hu
  obtain ⟨carried, stepless⟩ | ⟨fresh, free⟩ := nothing
  · simp [slotLeadEffect, ht, pending, Nat.not_lt.mpr near, unled, carried, stepless]
  · simp [slotLeadEffect, ht, pending, Nat.not_lt.mpr near, unled, fresh, free]

theorem slotLeadEffect_queues (fresh : (t.run i).carried = false) (there : (s.ctx y.context).st ≠ .free) :
    slotLeadEffect k i s = (s.takeSeq.2.modRun k i fun r =>
      { r with led := true, ledSeq := some s.takeSeq.1 }).queueStep y.context
        { seq := s.takeSeq.1, context := y.context, origin := .cyclic k i, program := y.program, startTime := at_ } := by
  simp [slotLeadEffect, ht, pending, Nat.not_lt.mpr near, unled, fresh, there]

end Lead

theorem slotStartEffect_begins (disarmed : t.st ≠ .armed) (unbegun : (t.run i).begun = false)
    (led : (t.run i).led = true) (due : at_ ≤ s.ns) (within : at_ < t.next) (clear : s.slipOpen k i = false) :
    slotStartEffect k i s = s.slotBegin k i y at_ := by
  simp only [slotStartEffect, ht, pending, disarmed, unbegun, led, Nat.not_lt.mpr due, Nat.not_le.mpr within, clear,
    Bool.true_eq_false, Bool.false_eq_true, or_self, if_false]

end Occurrence

/-! ## Deadlines (R232) -/

theorem slotDeadlineEffect_overruns {y : CycSlot} {seq : Word} (ht : s.table k = t) (stepped : (t.run i).seq = some seq)
    (slot : t.image.slots[i]? = some y) (due : (t.run i).deadline ≤ s.ns) (open_ : (t.run i).done = false)
    (first : (t.run i).overran = false) (fresh : (t.run i).carried = false)
    (hu : u = s.modTable k (fun t => t.modRun i fun r =>
      { r with lastStatus := St.slotOverrun, overran := true, overruns := r.overruns + 1 }))
    (hv : v = u.modTable k (fun t => { t with overruns := t.overruns + 1 })) :
    slotDeadlineEffect k i s =
      ((v.cycProgress k).cycFault Flt.slotOverrun k i St.slotOverrun).overrun k i y seq := by
  subst hu hv
  simp only [slotDeadlineEffect, ht, stepped, slot, Nat.not_lt.mpr due, open_, first, fresh, Bool.false_eq_true, or_self,
    if_false]

/-- Settles O34: each event is its effect on the clocked block, and each effect does what its guards let it do (occurrences
that are skipped or slip: log 58). -/
theorem cyclicTableEventsComplete : Obligations.CyclicTableEventsComplete := by
  intro s k i t hclk ht
  refine ⟨?begins, ?renews, ?stops, fun y at_ pending near unled => ⟨fun u hu => ⟨?calls, ?alone⟩, ?queues⟩, ?starts,
    ?overruns⟩
  case begins => exact fun armed due => act_eq_goesOn hclk (cycleBoundaryEffect_armed ht armed due)
  case renews => exact fun u v running due hu hv => act_eq_goesOn hclk (cycleBoundaryEffect_running ht running due hu hv)
  case stops => exact fun stopping due => act_eq_goesOn hclk (cycleBoundaryEffect_stopping ht stopping due)
  case calls =>
    exact fun n carried stepped => act_eq_goesOn hclk (slotLeadEffect_calls ht pending near unled hu carried stepped)
  case alone => exact fun nothing => act_eq_goesOn hclk (slotLeadEffect_alone ht pending near unled hu nothing)
  case queues => exact fun fresh there => act_eq_goesOn hclk (slotLeadEffect_queues ht pending near unled fresh there)
  case starts =>
    exact fun y at_ pending disarmed unbegun led due within clear =>
      act_eq_goesOn hclk (slotStartEffect_begins ht pending disarmed unbegun led due within clear)
  case overruns =>
    exact fun y seq u v stepped slot due open_ first fresh hu hv =>
      act_eq_goesOn hclk (slotDeadlineEffect_overruns ht stepped slot due open_ first fresh hu hv)

end Sys2Proof.Machine

/-!
PROOFS. The replay window and the bucket of a swarm member (O15).
-/

namespace Sys2Proof.Machine

/-! ## The replay window (R245): bit n of the map stands for HIGH − n -/

section Window

variable {x y : SwarmMember} {seq : Dword}

/-- Past HIGH a SEQ becomes HIGH, and the map moves up by as much as HIGH does. -/
theorem SwarmMember.replay_above (above : x.high < seq) : x.replay seq = some { x with
    high := seq,
    map := if seq.toNat - x.high.toNat < 64 then (x.map <<< (seq.toNat - x.high.toNat)) ||| 1 else 1 } := by
  have nonzero : ¬ seq.toNat = 0 := Nat.ne_zero_of_lt above
  exact (if_neg nonzero).trans (if_pos above)

/-- Up to HIGH a SEQ passes within the last 64, and there once. -/
theorem SwarmMember.replay_within (nonzero : seq ≠ 0) (upTo : seq ≤ x.high) : x.replay seq =
    if x.high.toNat - seq.toNat < 64 ∧ x.map.getLsbD (x.high.toNat - seq.toNat) = false
    then some { x with map := x.map ||| (1#64 <<< (x.high.toNat - seq.toNat)) } else none := by
  have nonzero : ¬ seq.toNat = 0 := fun h => nonzero (BitVec.eq_of_toNat_eq h)
  exact (if_neg nonzero).trans (if_neg (Nat.not_lt.mpr upTo))

theorem SwarmMember.replay_zero : x.replay 0 = none := rfl

theorem SwarmMember.replay_seen (upTo : seq ≤ x.high)
    (seen : 64 ≤ x.high.toNat - seq.toNat ∨ x.map.getLsbD (x.high.toNat - seq.toNat) = true) : x.replay seq = none := by
  by_cases nonzero : seq = 0
  · rw [nonzero, SwarmMember.replay_zero]
  · rw [SwarmMember.replay_within nonzero upTo, if_neg]
    rintro ⟨recent, unseen⟩
    obtain old | seen := seen
    · exact absurd recent (Nat.not_lt.mpr old)
    · exact absurd (seen.symm.trans unseen) (by decide)

/-- The map moved up by d, with bit 0 set. -/
theorem getLsbD_moved (map : Dword) {d k : Nat} (hk : k < 64) :
    (if d < 64 then (map <<< d) ||| 1 else 1 : Dword).getLsbD k =
      (decide (k = 0) || (decide (d ≤ k) && map.getLsbD (k - d))) := by
  have one : (1 : Dword).getLsbD k = decide (k = 0) := by simp [BitVec.getLsbD_one]
  split
  case isTrue within =>
    simp only [BitVec.getLsbD_or, BitVec.getLsbD_shiftLeft, hk, one, decide_true, Bool.true_and, ← Nat.not_le, decide_not,
      Bool.not_not, Bool.or_comm]
  case isFalse beyond =>
    have below : ¬ d ≤ k := by omega
    simp [below]

theorem getLsbD_marked (map : Dword) {d k : Nat} (hk : k < 64) :
    (map ||| (1#64 <<< d)).getLsbD k = (map.getLsbD k || decide (k = d)) := by
  have bit : (1#64 <<< d).getLsbD k = decide (k = d) := by
    rw [BitVec.getLsbD_shiftLeft, BitVec.getLsbD_one, Bool.eq_iff_iff]
    simp only [Bool.and_eq_true, Bool.not_eq_true', decide_eq_true_eq, decide_eq_false_iff_not]
    omega
  rw [BitVec.getLsbD_or, bit]

/-- What has passed stands in the window, and does not pass again. -/
theorem SwarmMember.replay_replay (passes : x.replay seq = some y) : y.replay seq = none := by
  by_cases above : x.high < seq
  · rw [SwarmMember.replay_above above, Option.some.injEq] at passes
    subst passes
    refine SwarmMember.replay_seen (BitVec.le_refl seq) (.inr ?_)
    rw [Nat.sub_self, getLsbD_moved x.map (by decide)]
    rfl
  · have upTo : seq ≤ x.high := BitVec.not_lt.mp above
    have nonzero : seq ≠ 0 := by
      rintro rfl
      exact absurd (SwarmMember.replay_zero.symm.trans passes) (by simp)
    rw [SwarmMember.replay_within nonzero upTo, Option.ite_none_right_eq_some, Option.some.injEq] at passes
    obtain ⟨⟨recent, -⟩, rfl⟩ := passes
    refine SwarmMember.replay_seen upTo (.inr ?_)
    rw [getLsbD_marked x.map recent, decide_eq_true rfl, Bool.or_true]

end Window

/-- Settles O15: a SEQ is 0, past HIGH, or up to HIGH, and a map's bits after it are those of a map moved up or marked. -/
theorem replayWindowMoves : Obligations.ReplayWindowMoves := by
  intro x seq
  refine ⟨?zero, ?above, ?within, fun upTo seen => SwarmMember.replay_seen upTo seen,
    fun y passes => SwarmMember.replay_replay passes, ?bucket⟩
  case zero => rintro rfl; exact SwarmMember.replay_zero
  case above =>
    intro above
    refine ⟨_, SwarmMember.replay_above above, rfl, ?_, fun k positive hk => ?_⟩
    · rw [getLsbD_moved x.map (by decide)]; rfl
    · rw [getLsbD_moved x.map hk, decide_eq_false (by omega), Bool.false_or]
  case within =>
    intro nonzero upTo recent unseen
    refine ⟨_, (SwarmMember.replay_within nonzero upTo).trans (if_pos ⟨recent, unseen⟩), rfl, fun k hk => ?_⟩
    exact getLsbD_marked x.map hk
  case bucket =>
    rintro t _ rfl
    rw [Nat.mul_comm]
    rfl

end Sys2Proof.Machine

/-!
PROOFS. The swarm membership commands and WAGGLE_SET (O46): what each answers where its checks pass.
-/

namespace Sys2Proof.Machine

variable {s : State} {c : Cmd} {i : Nat}

/-! ## SWARM_SELF_SET (R241, R397) -/

theorem swarmSelfSetBody_locked (locked : s.guard.lifecycle = 3) :
    swarmSelfSetBody c s = .refuse St.auth noField := if_pos locked

theorem members_any_eq_false (alone : ∀ e ∈ s.swarm.members, e.1 ≠ i → e.2.st = .empty) :
    (s.swarm.members.any fun e => e.1 != i && e.2.st != .empty) = false := by
  rw [List.any_eq_false]
  rintro e listed other
  simp only [Bool.and_eq_true, bne_iff_ne] at other
  obtain ⟨other, filled⟩ := other
  exact filled (alone e listed other)

theorem swarmSelfSetBody_sets (hi : c.field 0x08 12 0 = i) (unlocked : s.guard.lifecycle ≠ 3)
    (disabled : (s.reg Reg.swmCtrl).bit 0 = false) (alone : ∀ e ∈ s.swarm.members, e.1 ≠ i → e.2.st = .empty) :
    swarmSelfSetBody c s = .done
      { s with swarm := { s.swarm with self := some (i, c.dword 0x10, c.word 0x18) } } [] := by
  simp only [swarmSelfSetBody, hi, unlocked, disabled, members_any_eq_false alone, Bool.or_self, Bool.false_eq_true,
    if_false]

/-! ## SWARM_MEMBER_SET, SWARM_MEMBER_CLEAR (R241, R242) -/

/-- A field of eight bits that is not 0 is not 0 as a byte. -/
theorem ofNat_field_ne_zero {byte h l : Nat} (width : h + 1 - l = 8) (nonzero : c.field byte h l ≠ 0) :
    BitVec.ofNat 8 (c.field byte h l) ≠ 0 := by
  have below : c.field byte h l < 2 ^ 8 := width ▸ Nat.mod_lt _ (Nat.two_pow_pos _)
  intro zero
  have same : c.field byte h l % 2 ^ 8 = 0 := congrArg BitVec.toNat zero
  rw [Nat.mod_eq_of_lt below] at same
  exact nonzero same

theorem swarmMemberSetBody_joins (hi : c.field 0x08 12 0 = i) (other : s.selfIndex ≠ some i) (chip : c.dword 0x10 ≠ 0)
    (burst : c.field 0x1C 7 0 ≠ 0) (rate : c.field 0x1C 15 8 ≠ 0)
    (unjoined : (s.member i).st = .empty ∨ (s.member i).st = .absent ∨ (s.member i).st = .barred) :
    swarmMemberSetBody c s = .done (s.setMember i
      { st := .joining, chipId := c.dword 0x10, domain := c.word 0x18, permit := BitVec.ofNat 3 (c.field 0x1C 30 28),
        inst := BitVec.ofNat 6 (c.field 0x1C 27 22), rate := BitVec.ofNat 8 (c.field 0x1C 15 8),
        burst := BitVec.ofNat 8 (c.field 0x1C 7 0), bucket := c.field 0x1C 7 0 * 1000000, bucketAt := s.ns }) [] := by
  simp only [swarmMemberSetBody, hi, other, chip, ofNat_field_ne_zero rfl burst, ofNat_field_ne_zero rfl rate, if_false]
  obtain st | st | st := unjoined <;> rw [st]

theorem swarmMemberClearBody_clears (hi : c.field 0x08 12 0 = i) (listed : (s.member i).st ≠ .empty) :
    swarmMemberClearBody c s = .done (s.memberClear i) [] := by
  simp only [swarmMemberClearBody, hi, listed, if_false]

/-! ## SWARM_GROUP_SET (R241), WAGGLE_SET (R351, R442) -/

theorem swarmGroupSetBody_takes {ws : List Word} {ms : List Nat}
    (hms : ms = (List.range 8192).filter (fun m => (wordAt ws (m / 32)).getLsbD (m % 32))) :
    swarmGroupSetBody (.data ws) c s = .done { s with swarm := { s.swarm with
      groups := Tbl.put (fun _ => []) s.swarm.groups (c.field 0x08 7 0) ms } } [] := by
  rw [hms]
  rfl

theorem waggleSetBody_arms {bit : BitVec 256} (hbit : bit = 1#256 <<< c.field 0x08 7 0) :
    waggleSetBody c s = .done { s with fw := { s.fw with
      trace := if c.bit 0x08 8 then s.fw.trace ||| bit else s.fw.trace &&& ~~~bit,
      freeze := if c.bit 0x08 9 then s.fw.freeze ||| bit else s.fw.freeze &&& ~~~bit } } [] := by
  subst hbit
  rfl

/-- Settles O46: each command where its checks pass, from what its body answers (lifecycle state 3 refuses SWARM_SELF_SET:
R397; WAGGLE_SET's two arms: R351). -/
theorem membershipCommandsComplete : Obligations.MembershipCommandsComplete := by
  intro s src c i hi
  refine ⟨?locked, ?self, ?joins, ?clears, ?group, ?waggle⟩
  case locked => exact fun o locked => perform_refuse o (swarmSelfSetBody_locked locked)
  case self => exact fun o unlocked disabled alone => perform_done o (swarmSelfSetBody_sets hi unlocked disabled alone)
  case joins =>
    exact fun o other chip burst rate unjoined =>
      perform_done o (swarmMemberSetBody_joins hi other chip burst rate unjoined)
  case clears => exact fun o listed => perform_done o (swarmMemberClearBody_clears hi listed)
  case group => exact fun ws ms o hms => perform_done o (swarmGroupSetBody_takes hms)
  case waggle => exact fun bit o hbit => perform_done o (waggleSetBody_arms hbit)

end Sys2Proof.Machine

/-!
PROOFS. What the link engines and the collective engines report (O60).
-/

namespace Sys2Proof.Machine

theorem collArrivedEffect_first {s : State} {c l m : Nat} (dispatched : (s.stepOf c).isSome = true)
    (first : s.arrived c l m = false) : collArrivedEffect c l m s = { s with swarm := { s.swarm with
      arrivals := { context := c, launch := l, member := m } :: s.swarm.arrivals } } := by
  have there : (s.stepOf c).isNone = false := Option.isNone_eq_false_iff.mpr dispatched
  simp only [collArrivedEffect, there, first, Bool.false_eq_true, or_self, if_false]

/-- Settles O60: each report is its effect on the clocked block. -/
theorem linkReportsComplete : Obligations.LinkReportsComplete := by
  intro s k p hclk
  refine ⟨?done, ?arrived, ?health, fun _ => act_eq_goesOn hclk rfl, act_eq_goesOn hclk rfl⟩
  case done => exact fun base n => act_eq_goesOn (f := fun s => s.capMark k base (base + n)) hclk rfl
  case arrived =>
    exact fun l m dispatched first => act_eq_goesOn hclk (collArrivedEffect_first dispatched first)
  case health =>
    rintro spare retrain _ rfl
    exact act_eq_goesOn (f := linkHealthEffect spare retrain) hclk rfl

end Sys2Proof.Machine

/-!
PROOFS. SWM_CTRL, and the packets of a swarm that are heard (O47): what each does where its guards hold.
-/

namespace Sys2Proof.Machine

variable {s t u v : State} {h : SwarmHdr}

/-- A packet that is heard, from what its effect does on the state in which it is heard. -/
theorem receive_eq_goesOn {len : Nat → Bool} {f : State → State} (heard : Heard s h len t) (hf : f t = u) :
    act s (fun s => s.receive h len f) = goesOn u := by
  rw [receive_heard heard, hf]

/-! ## SWM_CTRL (R246, R255) -/

theorem portEnableEffect_disables {w : Word} (off : w.bit 0 = false) :
    portEnableEffect 0 w s = s.setReg Reg.swmCtrl 0 := by
  simp only [portEnableEffect, off, ne_eq, not_true_eq_false, if_true, if_false]

theorem portEnableEffect_enables {w : Word} (on : w.bit 0 = true) (todSet : s.tb.todSet = true)
    (disabled : (s.reg Reg.swmCtrl).bit 0 = false) : portEnableEffect 0 w s = State.setReg { s with swarm := { s.swarm with
      seqBase := some (s.swarm.seqBase.getD (4 * s.ns)), hbAt := s.ns + s.hbNs } } Reg.swmCtrl 1 := by
  simp only [portEnableEffect, on, todSet, disabled, ne_eq, not_true_eq_false, Bool.true_eq_false, Bool.false_eq_true,
    or_self, if_false]

/-! ## Greetings (R242, R247) -/

theorem State.greeted_up {chip : Dword} (unmet : (t.member h.src).st = .joining ∨ (t.member h.src).st = .absent)
    (same : (t.member h.src).chipId = chip) (ack : Bool) : t.greeted h chip ack =
      if ack then (t.memberUp h.src).sendPkt h.src 0x02 (t.memberUp h.src).helloPayload else t.memberUp h.src := by
  unfold State.greeted
  obtain st | st := unmet <;> simp only [st, same, ne_eq, not_true_eq_false, if_false] <;> rfl

/-! ## Time transfer (R252) -/

theorem State.timeAnswer_at {t1 t2 : Dword} {t3 : Nat} (ht3 : t3 = t.ns + t.ttLaunchNs) :
    t.timeAnswer h t1 t2 = t.sendPktAt h.src 0x09 (t3 - leDelayNs)
      (dwordWords t1 ++ nsWords (t2.toNat + leDelayNs) ++ nsWords t3) := by
  subst ht3
  rfl

/-- θ and δ of an exchange stored; a long round trip makes the member SUSPECT, a large θ is a skew. -/
theorem State.timeResult_stores {t1 t2 t3 t4 theta delta : Int} {skew : Bool}
    (htheta : theta = ((t2 - t1) - (t4 - t3)).tdiv 2) (hdelta : delta = (t4 - t1) - (t3 - t2))
    (hskew : skew = true ↔ ((t.reg Reg.swmTtLimitNs).toNat : Int) < (theta.natAbs : Int))
    (hu : u = t.modMember h.src fun x => { x with theta := BitVec.ofInt 32 theta, delta, skew })
    (hv : v = if ((u.reg Reg.swmSlowRttNs).toNat : Int) < delta then u.suspect h.src else u) :
    t.timeResult h t1 t2 t3 t4 = if skew then (v.swmInfo 0 h.port h.src).raise { id := Flt.swmSkew } else v := by
  have decided : skew = decide (((t.reg Reg.swmTtLimitNs).toNat : Int) < (theta.natAbs : Int)) :=
    Bool.eq_iff_iff.mpr (hskew.trans decide_eq_true_iff.symm)
  subst htheta hdelta decided hu hv
  rfl

theorem State.timeReply_open {t1 t2 t3 t4 : Dword} {sent : Nat} (asked : sent ∈ (t.member h.src).exchanges)
    (within : t.ns ≤ sent + t.absentNs) (same : t1.toNat = sent) : t.timeReply h t1 t2 t3 t4 =
      (t.modMember h.src fun x => { x with exchanges := x.exchanges.erase sent }).timeResult h t1.toNat t2.toNat t3.toNat
        ((t4.toNat : Int) + leDelayNs) := by
  subst same
  refine if_pos (List.any_eq_true.mpr ⟨_, asked, ?_⟩)
  simp only [beq_self_eq_true, within, decide_true, Bool.and_self]

/-! ## Announcements, slips, abandonments (R236, R250, R251) -/

theorem State.announced_dispatched {k : Kept} {c : Nat} (dispatched : t.swarmCtx k.swarmStep = some c) :
    t.announced k = t.keptApply c k := by
  simp only [State.announced, dispatched]

theorem State.announced_ahead {k : Kept} (ahead : t.swarmCtx k.swarmStep = none) : t.announced k = t.keep k := by
  simp only [State.announced, ahead]

theorem State.slipped_first {m n serial : Nat} {step : Dword} {r : SlipRec} (dispatched : (t.swarmCtx step).isSome = true)
    (hr : r = (t.slipsOf step m).getD { swarmStep := step, member := m, serials := [], sumNs := 0 })
    (first : serial ∉ r.serials) : t.slipped m step n serial = { t with swarm := { t.swarm with
      slips := { r with serials := serial :: r.serials, sumNs := r.sumNs + n } ::
        dropWhere (fun (r : SlipRec) => r.swarmStep == step && r.member == m) t.swarm.slips } } := by
  have there : (t.swarmCtx step).isNone = false := Option.isNone_eq_false_iff.mpr dispatched
  subst hr
  simp only [State.slipped, there, List.contains_iff_mem, first, Bool.false_eq_true, if_false]

theorem State.abandonedBy_first {m : Nat} {step : Dword} (running : step ∉ t.swarm.overrun)
    (first : (m, step) ∉ t.swarm.abandoned) : t.abandonedBy m step =
      State.announced { t with swarm := { t.swarm with abandoned := (m, step) :: t.swarm.abandoned } }
        { member := m, swarmStep := step, body := .abandon } := by
  simp only [State.abandonedBy, List.contains_iff_mem, running, first, or_self, if_false]

/-- Settles O47: the port's register is a BAR write; each packet that is heard is its effect, and each effect does what its
guards let it do. -/
theorem swarmPacketsComplete : Obligations.SwarmPacketsComplete := by
  intro s t h
  refine ⟨fun w reach => ⟨?disables, ?enables⟩, ?greets, ?noted, ?answers, ?closes, ?announces, ?slips, ?abandons⟩
  case disables => exact fun off => barWrite_eq_goesOn reach (portEnableEffect_disables off)
  case enables => exact fun on todSet disabled => barWrite_eq_goesOn reach (portEnableEffect_enables on todSet disabled)
  case greets =>
    exact fun chip dom heard unmet same => ⟨receive_eq_goesOn heard (State.greeted_up unmet same true),
      receive_eq_goesOn heard (State.greeted_up unmet same false)⟩
  case noted => exact fun heard => ⟨receive_eq_goesOn heard rfl, receive_eq_goesOn heard rfl⟩
  case answers => exact fun t1 t2 t3 heard ht3 => receive_eq_goesOn heard (State.timeAnswer_at ht3)
  case closes =>
    exact fun t1 t2 t3 t4 sent theta delta skew u v heard asked within same htheta hdelta hskew hu hv =>
      receive_eq_goesOn heard ((State.timeReply_open asked within same).trans
        (State.timeResult_stores htheta hdelta hskew hu hv))
  case announces =>
    rintro step t0 window timed _ heard rfl
    exact ⟨fun c dispatched => receive_eq_goesOn heard (State.announced_dispatched dispatched),
      fun ahead => receive_eq_goesOn heard (State.announced_ahead ahead)⟩
  case slips =>
    exact fun step slip serial r heard dispatched hr first =>
      receive_eq_goesOn heard (State.slipped_first dispatched hr first)
  case abandons =>
    exact fun step launch status absent heard running first =>
      receive_eq_goesOn heard (State.abandonedBy_first running first)

end Sys2Proof.Machine

/-!
PROOFS. Remote commands, and the Swarm Port's periods and timeouts when due (O48).
-/

namespace Sys2Proof.Machine

variable {s t u : State} {m : Nat}

/-! ## Remote commands (R253) -/

theorem State.remoteTaken_new {h : SwarmHdr} {ticket : Word} {frag frags k : Nat} {ws : List Word}
    (unanswered : (t.member h.src).tickets.find? (fun x => x.ticket == ticket) = none)
    (unslotted : t.swarm.slots.find? (fun e => e.2.member == h.src && e.2.ticket == ticket) = none)
    (hk : k = Tbl.freshFrom t.swarm.slots 0) (room : k < 64) : t.remoteTaken h ticket frag frags ws =
      t.remoteFrag h k { member := h.src, ticket, frags, got := [], firstAt := t.ns } frag ws := by
  subst hk
  simp only [State.remoteTaken, unanswered, unslotted, Nat.not_le.mpr room, if_false]

theorem remoteSlotTimeoutEffect_late {k : Nat} {x : RemoteSlot} (hx : Tbl.find s.swarm.slots k = some x)
    (unfinished : x.entry = none) (late : x.firstAt + 4 * s.retryNs ≤ s.ns) : remoteSlotTimeoutEffect k s =
      { s with swarm := { s.swarm with slots := Tbl.erase s.swarm.slots k } } := by
  simp only [remoteSlotTimeoutEffect, hx, unfinished, late, Option.isNone_none, decide_true, Bool.and_self, if_true]

/-! ## Heartbeats and absence (R242, R243) -/

theorem heartbeatEffect_due (due : s.swarm.hbAt ≤ s.ns)
    (hu : u = (s.swarm.members.map fun e => e.1).foldl (fun s m => s.beat m) s) :
    heartbeatEffect s = { u with swarm := { u.swarm with
      hbAt := if u.swarm.hbAt + u.hbNs ≤ u.ns then u.ns + u.hbNs else u.swarm.hbAt + u.hbNs } } := by
  subst hu
  exact if_neg (Nat.not_lt.mpr due)

theorem absenceEffect_silent (present : (s.member m).present = true) (silent : (s.member m).heardAt + s.absentNs ≤ s.ns) :
    absenceEffect m s = s.memberAbsent m := if_pos ⟨present, silent⟩

/-! ## Time transfer (R252) -/

/-- An exchange that falls due: the next one comes at the member's part of the next period (log 57). -/
theorem timePeriodEffect_due {t1 next : Nat} (sends : s.canSend m = true) (present : (s.member m).present = true)
    (due : (s.member m).ttAt ≤ s.ns) (ht1 : t1 = s.ns + s.ttLaunchNs)
    (hnext : next = (s.ns / s.ttPeriodNs + 1) * s.ttPeriodNs + (s.member m).ttPart)
    (ht : t = s.sendPktAt m 0x08 (t1 - leDelayNs) (nsWords t1)) : timePeriodEffect m s = t.modMember m fun x =>
      { x with exchanges := t1 :: (s.member m).exchanges.filter fun e => decide (t.ns ≤ e + t.absentNs),
               ttAt := next, ttRun := some t.ns } := by
  rw [Nat.succ_mul] at hnext
  subst ht1 hnext ht
  simp only [timePeriodEffect, sends, present, Nat.not_lt.mpr due, Bool.true_eq_false, or_self, if_false]
  rfl

/-! ## Requests and second copies (R248) -/

section Request

variable {ticket : Word} {q : Request} (hq : s.swarm.requests.find? (fun q => q.ticket == ticket) = some q)
  (late : q.sentAt + s.retryNs ≤ s.ns)
include hq late

theorem retryEffect_again {rs : List Request} (few : q.tries < 3)
    (hrs : rs = updateFirst (fun r => r.ticket == ticket)
      (fun r => { r with tries := r.tries + 1, sentAt := s.ns }) s.swarm.requests)
    (ht : t = { s with swarm := { s.swarm with requests := rs } }) :
    retryEffect ticket s = t.sendPkt q.member q.type q.payload := by
  subst hrs ht
  simp only [retryEffect, hq, Nat.not_lt.mpr late, few, if_true, if_false]

theorem retryEffect_lost (last : 3 ≤ q.tries) (ht : t = { s with swarm := { s.swarm with
      requests := dropWhere (fun r => r.ticket == ticket) s.swarm.requests } }) :
    retryEffect ticket s = t.requestLost q := by
  subst ht
  simp only [retryEffect, hq, Nat.not_lt.mpr late, Nat.not_lt.mpr last, if_false]

end Request

theorem secondCopyEffect_sends
    (ht : t = { s with swarm := { s.swarm with copies := s.swarm.copies.filter fun q => !decide (q.due ≤ s.ns) } }) :
    secondCopyEffect s = (s.swarm.copies.filter fun q => decide (q.due ≤ s.ns)).foldl
      (fun s q => s.sendPkt q.member q.type q.payload) t := by
  subst ht
  rfl

/-! ## Windows and announcements (R251) -/

theorem windowMissEffect_over {c l at_ : Nat} {st : Step} (hst : s.stepOf c = some st) (timed : st.timedStart l = some at_)
    (begun : st.t0 ≠ 0) (running : st.launchEnded l = false) (other : m ∈ s.others st.group)
    (missing : s.arrived c l m = false) (past : s.windowOver st at_ m = true) :
    windowMissEffect c l m s = s.missWindow c m := by
  have named : (s.others st.group).contains m = true := List.contains_iff_mem.mpr other
  simp only [windowMissEffect, hst, timed, begun, running, named, missing, past, Bool.true_eq_false, Bool.false_eq_true,
    or_self, if_false]

theorem announceExpiryEffect_late {i t0 w n : Nat} {k : Kept} (hk : s.swarm.kept[i]? = some k)
    (announces : k.body = .announce t0 w n) (late : t0 + 1000000000 ≤ s.ns) : announceExpiryEffect i s =
      { s with swarm := { s.swarm with kept := s.swarm.kept.eraseIdx i } } := by
  simp only [announceExpiryEffect, hk, announces, late, if_true]

/-- Settles O48: each packet that is heard and each period is its effect, and each effect is due (the instant of the next
exchange, and the several that may await a reply: log 57). -/
theorem swarmTimersComplete : Obligations.SwarmTimersComplete := by
  intro s t h m
  refine ⟨?command, fun ticket status ws heard => receive_eq_goesOn heard rfl, fun hclk => ⟨?slot, ?beats, ?absent,
    ?exchange, ?request, ?copies, ?window, ?announce⟩⟩
  case command =>
    exact fun ticket frag frags ws k heard unanswered unslotted hk room =>
      receive_eq_goesOn heard (State.remoteTaken_new unanswered unslotted hk room)
  case slot =>
    exact fun k x hx unfinished late => act_eq_goesOn hclk (remoteSlotTimeoutEffect_late hx unfinished late)
  case beats => exact fun u due hu => act_eq_goesOn hclk (heartbeatEffect_due due hu)
  case absent => exact fun present silent => act_eq_goesOn hclk (absenceEffect_silent present silent)
  case exchange =>
    exact fun t1 next sends present due ht1 hnext ht =>
      act_eq_goesOn hclk (timePeriodEffect_due sends present due ht1 hnext ht)
  case request =>
    exact fun ticket q hq late => ⟨fun rs few hrs ht => act_eq_goesOn hclk (retryEffect_again hq late few hrs ht),
      fun last ht => act_eq_goesOn hclk (retryEffect_lost hq late last ht)⟩
  case copies => exact fun ht => act_eq_goesOn hclk (secondCopyEffect_sends ht)
  case window =>
    exact fun c l st at_ hst timed begun running other missing past =>
      act_eq_goesOn hclk (windowMissEffect_over hst timed begun running other missing past)
  case announce =>
    exact fun i k t0 w n hk announces late => act_eq_goesOn hclk (announceExpiryEffect_late hk announces late)

end Sys2Proof.Machine

/-!
PROOFS. The capping packets that are heard, and a page of another chip's cut (O50).
-/

namespace Sys2Proof.Machine

variable {s t u : State} {m : Nat} {shard : Dword} {ticket : Word}

/-! ## CAP_OFFER, CAP_ACCEPT (R265) -/

section Offer

variable {pages : Nat} {say : State → Byte → State} (hsay : ∀ (u : State) (status : Byte),
  say u status = u.sendPkt m 0x21 ([ticket, Word.mk status.toNat] ++ dwordWords shard))
include hsay

theorem State.offerTaken_again {status : Byte} {held : Nat} (answered : t.ticketAnswer m ticket = some (status, held)) :
    t.offerTaken m shard pages ticket = say t status := by
  simp only [State.offerTaken, answered, hsay]
  rfl

variable (anew : t.ticketAnswer m ticket = none)
include anew

theorem State.offerTaken_holds (holds : (t.dropHeld m shard).holdCap m shard pages = some u) :
    t.offerTaken m shard pages ticket = say (u.ticketDone m ticket 0 0) 0 := by
  simp only [State.offerTaken, anew, holds, hsay]
  rfl

theorem State.offerTaken_refuses (short : (t.dropHeld m shard).holdCap m shard pages = none) :
    t.offerTaken m shard pages ticket = say ((t.dropHeld m shard).ticketDone m ticket 0x20 0) 0x20 := by
  simp only [State.offerTaken, anew, short, hsay]
  rfl

end Offer

theorem State.acceptTaken_waiting {status : Byte} {q : Request} {x : Search}
    (taken : t.takeRequest m ticket (fun n => n == 0x20) = some (q, u))
    (searching : (u.capCtx q.context).bind (fun k => k.search) = some x) (waiting : x.waiting = some (m, ticket)) :
    t.acceptTaken m ticket status = (if status = 0 then u.capTake q.context m else u).capSeek q.context x.tried := by
  have taken : t.takeRequest m ticket (fun n => n == Pkt.capOffer) = some (q, u) := taken
  simp only [State.acceptTaken, taken, searching, waiting, ne_eq, not_true_eq_false, if_false]
  rfl

/-! ## CAP_REPORT (R261) -/

theorem State.reportTaken_eq {g : Nat} {r : CapReport} {x : LeaderState} (hx : x = t.leader g) :
    t.reportTaken g m r = if t.leads g then t.leaderReport g m r else t.setLeader g
      { x with reports := Tbl.insert x.reports m r, risk := max x.risk r.risk, urgent := x.urgent || r.urgent } := by
  subst hx
  rfl

/-! ## CAP_SEAL, CAP_ACK (R260, R263) -/

section Seal

variable {n : Nat} {loss : Dword}

theorem State.sealTaken_again {status : Byte} {w : Nat} (answered : t.ticketAnswer m ticket = some (status, w)) :
    t.sealTaken m shard n ticket loss = t.sendAck m shard n (w % 2 ^ 23) (w.testBit 23) status ticket := by
  simp only [State.sealTaken, answered]

variable (anew : t.ticketAnswer m ticket = none) (hu : u = t.modHeld m shard (fun x => x.sealed n ticket loss))
include anew hu

theorem State.sealTaken_holds {x : HeldCap} {held : Nat} {closed : Bool} (hx : u.held m shard = some x)
    (holds : x.answer n = some (held, closed)) : t.sealTaken m shard n ticket loss =
      (u.ticketDone m ticket 0 (held % 2 ^ 23 + bitAt 23 closed)).sendAck m shard n held closed 0 ticket := by
  subst hu
  simp only [State.sealTaken, anew, hx, Option.bind_some, holds]
  rfl

/-- A cut of a cap that is not held is answered ST_CAP_NONE (log 56). -/
theorem State.sealTaken_unheld (unheld : u.held m shard = none) : t.sealTaken m shard n ticket loss =
    (u.ticketDone m ticket 0x53 0).sendAck m shard n 0 false 0x53 ticket := by
  subst hu
  simp only [State.sealTaken, anew, unheld, Option.bind_none]
  rfl

end Seal

/-- An acknowledgement without a request that it answers is one of pages of the open cut. -/
theorem State.capAcked_pages {n pages c : Nat} {closed : Bool} {x : CapCtx} {u : OpenCut}
    (fills : t.takeRequest m ticket (fun n => n == 0x27) = none) (seals : t.takeRequest m ticket (fun n => n == 0x25) = none)
    (bound : t.shardCtx shard = some c) (hx : t.capCtx c = some x) (cut : x.cut = some u) (number : u.number = n) :
    t.capAcked m shard n pages closed 0 ticket = t.ackTaken c m pages closed := by
  have fills : t.takeRequest m ticket (fun n => n == Pkt.capFill) = none := fills
  have seals : t.takeRequest m ticket (fun n => n == Pkt.capSeal) = none := seals
  have cuts : (t.capCtx c).any (fun k => k.cut.any fun u => u.number == n) = true := by
    simp only [hx, cut, number, Option.any_some, beq_self_eq_true]
  simp only [State.capAcked, fills, seals, bound, cuts, St.ok, ne_eq, not_true_eq_false, Bool.true_eq_false, if_false]

/-! ## CAP_FILL (R266, R270) -/

section Fill

variable {g first : Nat} (anew : t.ticketAnswer m ticket = none)
include anew

theorem State.fillTaken_serves {y : HeldCap} {ps : List Nat} (holds : t.heldVersion shard g = some (y, ps)) :
    t.fillTaken m shard g ticket first 0 = (ps.filter fun p => decide (first ≤ p)).foldl
      (fun s p => s.emit (.capPage m shard g p (s.vc1 none (((y.frameOf g p).map s.frameAddr).getD 0))))
      ((t.ticketDone m ticket 0 ps.length).sendAck m shard g ps.length false 0 ticket) := by
  simp only [State.fillTaken, anew, holds, if_true]
  rfl

theorem State.fillTaken_releases : t.fillTaken m shard g ticket first 1 =
    ((t.dropHeld m shard).ticketDone m ticket 0 0).sendAck m shard g 0 false 0 ticket := by
  simp only [State.fillTaken, anew, one_ne_zero, if_true, if_false]
  rfl

end Fill

/-! ## Pages of a cut (R260) -/

theorem capPageInEffect_incoming {n page : Nat} {x : HeldCap} {u : HeldCut} {v : State} (hx : s.held m shard = some x)
    (incoming : x.incoming = some u) (number : u.number = n)
    (hv : v = s.modHeld m shard (fun x => { x with incoming := x.incoming.map fun u =>
      { u with got := insertAsc page u.got } })) :
    capPageInEffect m shard n page s = (((v.held m shard).bind (fun y => y.frameOf n page)).elim v fun f =>
      v.emit (.capStore m page (v.vc1 none (v.frameAddr f)))).ackHeld m shard := by
  subst hv
  simp only [capPageInEffect, hx, Option.bind_some, incoming, number, ne_eq, not_true_eq_false, if_false]
  cases ((s.modHeld m shard _).held m shard).bind (fun y => y.frameOf n page) <;> rfl

/-- Settles O50: each packet that is heard is its effect, a page is its effect on the clocked block, and each effect does what
its guards let it do (a CAP_SEAL for a cut that is not held, and a TICKET's answer given again: log 56). -/
theorem cappingPacketsComplete : Obligations.CappingPacketsComplete := by
  intro s t h
  refine ⟨?offer, ?accept, ?report, fun gs gc g nv void p n heard => receive_eq_goesOn heard rfl,
    fun shard n commit step pages void heard => receive_eq_goesOn heard rfl, ?sealed, ?ack, ?fill, ?page⟩
  case offer =>
    exact fun shard pages ticket domain say heard hsay =>
      ⟨fun status held answered => receive_eq_goesOn heard (State.offerTaken_again hsay answered),
        fun u anew holds => receive_eq_goesOn heard (State.offerTaken_holds hsay anew holds),
        fun anew short => receive_eq_goesOn heard (State.offerTaken_refuses hsay anew short)⟩
  case accept =>
    exact fun ticket status shard q u x heard taken searching waiting =>
      receive_eq_goesOn heard (State.acceptTaken_waiting taken searching waiting)
  case report =>
    rintro step closed risk urgent missed g x _ heard rfl hx
    exact receive_eq_goesOn heard (State.reportTaken_eq hx)
  case sealed =>
    exact fun shard n ticket loss heard =>
      ⟨fun status w answered => receive_eq_goesOn heard (State.sealTaken_again answered),
        fun u anew hu => ⟨fun x held closed hx holds => receive_eq_goesOn heard (State.sealTaken_holds anew hu hx holds),
          fun unheld => receive_eq_goesOn heard (State.sealTaken_unheld anew hu unheld)⟩⟩
  case ack =>
    exact fun shard n pages closed ticket c x u heard fills seals bound hx cut number =>
      receive_eq_goesOn heard (State.capAcked_pages fills seals bound hx cut number)
  case fill =>
    exact fun shard g ticket first anew =>
      ⟨fun y ps heard holds => receive_eq_goesOn heard (State.fillTaken_serves anew holds),
        fun heard => receive_eq_goesOn heard (State.fillTaken_releases anew)⟩
  case page =>
    intro m shard n page x u v hclk hx incoming number hv
    have effect := capPageInEffect_incoming hx incoming number hv
    refine ⟨fun f framed => act_eq_goesOn hclk ?_, fun unframed => act_eq_goesOn hclk ?_⟩
    · rw [effect, framed, Option.elim_some]
    · rw [effect, unframed, Option.elim_none]

end Sys2Proof.Machine

/-!
PROOFS. The capping commands where no rule refuses them (O49): what each answers where its checks pass.
-/

namespace Sys2Proof.Machine

variable {s : State} {c : Cmd} {k : Nat} {x : CapCtx}

/-! ## CAP_BIND, CAP_UNBIND (R256, R265) -/

theorem capBindBody_binds (hk : c.field 0x08 11 0 = k) (range : s.capBindFail c = none) (live : (s.ctx k).st ≠ .free)
    (own : (s.ctx k).inst = c.inst) (plain : (s.ctx k).role = none) (unbound : s.capCtx k = none)
    (unused : s.shardCtx (c.dword 0x10) = none) (enabled : (s.reg Reg.capCtrl).bit 0 = true) (self : s.swarm.self ≠ none)
    (hx : x = { st := .seeking, shard := c.dword 0x10, group := c.field 0x08 23 16, l := c.field 0x0C 12 0,
                want := c.field 0x08 24 24 + 1, override := c.bit 0x08 28, lossAddr := c.dword 0x18,
                regions := c.regions }) :
    capBindBody c s = .done
      (State.capSeek { s with cap := { s.cap with ctxs := Tbl.insert s.cap.ctxs k x } } k []) [] := by
  subst hx
  simp only [capBindBody, hk, range, live, own, plain, unbound, unused, enabled, self, Option.isSome_none, ne_eq,
    not_true_eq_false, Bool.true_eq_false, Bool.false_eq_true, or_self, if_false]

theorem capUnbindBody_releases (hk : c.field 0x08 11 0 = k) (live : (s.ctx k).st ≠ .free)
    (own : (s.ctx k).inst = c.inst) (bound : (s.capCtx k).isSome = true) :
    capUnbindBody c s = .done (s.capRelease k) [] := by
  have there : (s.capCtx k).isNone = false := Option.isNone_eq_false_iff.mpr bound
  simp only [capUnbindBody, hk, live, own, there, ne_eq, not_true_eq_false, Bool.false_eq_true, or_self, if_false]

/-! ## CAP_FILL (R270) -/

theorem longFail_capFill (room : s.longUsed < 4096) : s.longFail (.capFill k) = none := if_neg (Nat.not_le.mpr room)

/-- A fill from a cut that is not past the newest known; where none is known the sources answer (log 56). -/
theorem capFillBody_fills (hk : c.field 0x08 11 0 = k) (range : c.statusFail = none) (live : (s.ctx k).st ≠ .free)
    (own : (s.ctx k).inst = c.inst) (hx : s.capCtx k = some x)
    (state : x.st = .seeking ∨ x.st = .guarded ∨ x.st = .exposed ∨ x.st = .held) (named : c.word 0x10 ≠ 0)
    (made : s.newestCut x = 0 ∨ (c.word 0x10).toNat ≤ s.newestCut x) :
    capFillBody c s = .long s 0x18 (.capFill k) (c.word 0x10) [] fun o t =>
      t.fillStart k o (c.word 0x10).toNat (c.bit 0x08 16) (c.field 0x0C 12 0) := by
  have past : ¬ (s.newestCut x ≠ 0 ∧ s.newestCut x < (c.word 0x10).toNat) := by omega
  obtain st | st | st | st := state <;>
    simp only [capFillBody, hk, range, live, own, hx, st, named, past, Option.isSome_none, ne_eq, not_true_eq_false,
      Bool.false_eq_true, or_self, if_false]

/-- Settles O49: each command where its checks pass, from what its body answers (the newest cut that bounds a CAP_FILL:
log 56). -/
theorem cappingCommandsComplete : Obligations.CappingCommandsComplete := by
  intro s src c k hk
  refine ⟨?bind, ?unbind, ?fill, fun o => perform_done o rfl⟩
  case bind =>
    exact fun x o range live own plain unbound unused enabled self hx =>
      perform_done o (capBindBody_binds hk range live own plain unbound unused enabled self hx)
  case unbind => exact fun o live own bound => perform_done o (capUnbindBody_releases hk live own bound)
  case fill =>
    intro x o live own hx state named made room
    have fills := capFillBody_fills hk (statusFail_of_offers o) live own hx state named made
    exact (perform_long o fills (longFail_capFill room) :)

end Sys2Proof.Machine

/-!
PROOFS. What goes on for a capped context (O59): pages of its cut, staging copies, searches for buddies, fills.
-/

namespace Sys2Proof.Machine

section Bound

variable {s t u : State} {k page : Nat} {x : CapCtx} (hx : s.capCtx k = some x)
include hx

/-! ## Pages of the open cut (R258–R260) -/

theorem pageTransferEffect_sends {v : OpenCut} {b : Buddy} {move : Buddy → Buddy} (cut : x.cut = some v)
    (next : x.buddies.find? (fun b => b.inCut && !b.pending.isEmpty) = some b) (hpage : page = b.pending.headD 0)
    (hmove : ∀ z, move z = if z.member = b.member then
      { z with pending := z.pending.drop 1, sent := z.sent ++ [page] } else z) :
    pageTransferEffect k s =
      ((s.modCap k fun y => { y with buddies := y.buddies.map move }).capSend k x b page v.number).pendingChanged k := by
  obtain rfl := funext hmove
  subst hpage
  simp only [pageTransferEffect, hx, cut, next]

/-- A page copied into its staging frame waits for the buddies that have yet to be sent it or to acknowledge it: those
acknowledged are the first in the order sent (log 56). -/
theorem stagingEffect_copied {g : Staged} {lack : List Nat} {put : Staged → Staged} (staged : g ∈ x.staged)
    (same : g.page = page) (uncopied : g.copied = false)
    (hlack : lack = ((x.buddies.filter fun b =>
      b.inCut && (b.pending.contains page || (b.sent.drop b.acked).contains page)).map fun b => b.member))
    (hput : ∀ g, put g = if g.page = page then { g with copied := true, waiting := lack } else g) :
    stagingEffect k page s = (s.modCap k fun y => { y with staged := y.staged.map put }).pendingChanged k := by
  have due : x.staged.any (fun g => g.page == page && !g.copied) = true :=
    List.any_eq_true.mpr ⟨g, staged, by simp only [same, uncopied, beq_self_eq_true, Bool.not_false, Bool.and_self]⟩
  obtain rfl := funext hput
  subst hlack
  simp only [stagingEffect, hx, due, Bool.true_eq_false, if_false]

/-! ## Searches (R265) -/

theorem reseekEffect_due {at_ : Nat} (idle : x.search = none) (again : x.reseekAt = some at_) (due : at_ ≤ s.ns) :
    reseekEffect k s = (s.modCap k fun y => { y with reseekAt := none }).capSeek k [] := by
  simp only [reseekEffect, hx, idle, again, due, Option.isNone_none, Option.any_some, decide_true, Bool.and_self, if_true]

/-! ## Fills (R268, R270) -/

/-- A page that a fill has yet to write is written, with the step and the loss word that its source tells (log 56). -/
theorem fillPageEffect_writes {f f' : Fill} {step loss : Dword} (filling : x.fill = some f) (asked : page ∈ f.left)
    (hf : f' = { f with left := f.left.erase page, written := f.written + 1, step := some step, loss := some loss })
    (ht : t = (s.modCap k fun y => { y with fill := some f' }).fillWrite k x f.source page)
    (tracked : ∀ o, f.op = some o →
      u = t.opProgress o (BitVec.ofNat 64 f'.written) (t.cutStep { x with fill := some f' } f.cut))
    (untracked : f.op = none → u = t) :
    fillPageEffect k ⟨page, step, loss⟩ s = if f'.left = [] then u.fillDone k f' else u := by
  have left : f.left.contains page = true := List.contains_iff_mem.mpr asked
  subst hf ht
  cases op : f.op with
  | some o =>
    obtain rfl := tracked o op
    simp only [fillPageEffect, hx, filling, left, op, Bool.true_eq_false, if_false, List.isEmpty_iff]
  | none =>
    obtain rfl := untracked op
    simp only [fillPageEffect, hx, filling, left, op, Bool.true_eq_false, if_false, List.isEmpty_iff]

end Bound

/-- Settles O59: each event is its effect on the clocked block, and each effect has something to do (pages acknowledged in
the order sent, and the step and loss word that a fill's pages bring: log 56). -/
theorem cappingEventsComplete : Obligations.CappingEventsComplete := by
  intro s k x hclk hx
  refine ⟨?page, ?staging, ?reseek, ?fill⟩
  case page =>
    exact fun v b page move cut next hpage hmove =>
      act_eq_goesOn hclk (pageTransferEffect_sends hx cut next hpage hmove)
  case staging =>
    exact fun page g lack put staged same uncopied hlack hput =>
      act_eq_goesOn hclk (stagingEffect_copied hx staged same uncopied hlack hput)
  case reseek => exact fun at_ idle again due => act_eq_goesOn hclk (reseekEffect_due hx idle again due)
  case fill =>
    exact fun f f' page step loss t u filling asked hf ht tracked untracked =>
      act_eq_goesOn hclk (fillPageEffect_writes hx filling asked hf ht tracked untracked)

end Sys2Proof.Machine

/-!
PROOFS. The commands on rings and token rings (O21): what each answers where its checks pass.
-/

namespace Sys2Proof.Machine

variable {s t : State} {c : Cmd} {r : Nat}

/-! ## Rings that the issuer may name (R302) -/

/-- A ring that is bound, in whatever state, is its instance's own. -/
theorem ownsRing_of_bound (hr : c.field 0x08 15 0 = r) (bound : (s.ring r).st ≠ .free) (own : (s.ring r).inst = c.inst) :
    s.ownsRing c = true := by
  simp [State.ownsRing, hr, bound, own]

theorem RingState.ne_free_of_stopped {x : RingState} (stopped : x = .disabled ∨ x = .error) : x ≠ .free := by
  obtain rfl | rfl := stopped <;> decide

theorem Ring.canEnable_of_stopped {x : Ring} (stopped : x.st = .disabled ∨ x.st = .error) : x.canEnable = true := by
  obtain disabled | error := stopped
  · simp [Ring.canEnable, disabled]
  · simp [Ring.canEnable, error]

/-! ## What the commands answer (R277, R287, R293) -/

theorem ringCreateBody_creates (hr : c.field 0x08 15 0 = r) (ring : 64 ≤ r) (free : (s.ring r).st = .free)
    (small : 6 ≤ c.field 0x0C 4 0) (large : c.field 0x0C 4 0 ≤ 16) (base : (c.dword 0x10).toNat % 4096 = 0)
    (shadow : (c.dword 0x18).toNat % 8 = 0) (quota : s.ringsUsed c.inst < s.ringQuota c.inst) :
    ringCreateBody c s = .done (s.setRing r
      { st := .disabled, inst := c.inst, base := c.dword 0x10, sizeLog2 := c.field 0x0C 4 0, headAddr := c.dword 0x18,
        spec := c.bit 0x0C 8, weight := c.field 0x0C 19 16 + 1, head := c.word 0x20, tail := c.word 0x20,
        fetched := c.word 0x20 }) [] := by
  have size : ¬ (c.field 0x0C 4 0 < 6 ∨ 16 < c.field 0x0C 4 0) := by omega
  have unbound : ¬ (r < 64 ∨ (s.ring r).st ≠ .free) := by simp [free, ring]
  simp only [ringCreateBody, hr, size, base, shadow, unbound, Nat.not_le.mpr quota, ne_eq, not_true_eq_false, if_false]

section Bound

variable (hr : c.field 0x08 15 0 = r) (own : (s.ring r).inst = c.inst)
include hr own

theorem ringEnableBody_enables (stopped : (s.ring r).st = .disabled ∨ (s.ring r).st = .error) :
    ringEnableBody c s = .done (s.enableRing r) [] := by
  have owns := ownsRing_of_bound hr (RingState.ne_free_of_stopped stopped) own
  simp [ringEnableBody, hr, owns, Ring.canEnable_of_stopped stopped]

theorem ringDisableBody_drains (enabled : (s.ring r).st = .enabled) :
    ringDisableBody c s = .done (s.drainRing r (c.bit 0x08 16 && decide (c.src ≠ .ring r)) false) [] := by
  have owns := ownsRing_of_bound hr (by simp [enabled]) own
  simp only [ringDisableBody, hr, owns, enabled, Bool.not_true, Bool.false_eq_true, ne_eq, not_true_eq_false, if_false]

theorem ringDestroyBody_erases (ring : 64 ≤ r) (stopped : (s.ring r).st = .disabled ∨ (s.ring r).st = .error) :
    ringDestroyBody c s = .done (s.eraseRing r) [] := by
  have owns := ownsRing_of_bound hr (RingState.ne_free_of_stopped stopped) own
  simp [ringDestroyBody, hr, owns, Ring.canEnable_of_stopped stopped, Nat.not_lt.mpr ring]

end Bound

theorem tokenRingCreateBody_creates (hr : c.field 0x08 15 0 = r) (free : Tbl.find s.forager.tokens r = none)
    (small : 6 ≤ c.field 0x0C 4 0) (large : c.field 0x0C 4 0 ≤ 20) (base : (c.dword 0x10).toNat % 4096 = 0)
    (quota : s.tringsUsed c.inst < s.tringQuota c.inst) :
    tokenRingCreateBody c s = .done { s with forager := { s.forager with
      tokens := Tbl.insert s.forager.tokens r
        { inst := c.inst, base := c.dword 0x10, sizeLog2 := c.field 0x0C 4 0, head := c.word 0x18,
          tail := c.word 0x18 } } } [] := by
  have size : ¬ (c.field 0x0C 4 0 < 6 ∨ 20 < c.field 0x0C 4 0) := by omega
  simp only [tokenRingCreateBody, hr, size, base, free, Nat.not_le.mpr quota, Option.isSome_none, Bool.false_eq_true,
    ne_eq, not_true_eq_false, if_false]

theorem tokenRingDestroyBody_erases {x : TokenRing} (hr : c.field 0x08 15 0 = r)
    (hx : Tbl.find s.forager.tokens r = some x) (own : x.inst = c.inst)
    (unused : ∀ e ∈ s.comb.entries, e.2.live = true → e.2.p.tokenRing.toNat ≠ r) :
    tokenRingDestroyBody c s =
      .done { s with forager := { s.forager with tokens := Tbl.erase s.forager.tokens r } } [] := by
  have idle : (s.comb.entries.any fun e => e.2.live && e.2.p.tokenRing.toNat == r) = false := by
    simpa [List.any_eq_false] using fun k e mem live => unused (k, e) mem live
  simp only [tokenRingDestroyBody, hr, hx, own, idle, Bool.false_eq_true, ne_eq, not_true_eq_false, if_false]

/-! ## A ring given up (R287) -/

/-- Operations that name ring r leave every other ring as it was, and keep the rings listed in their form. -/
structure OnlyRing (r : Nat) (s t : State) : Prop where
  others : ∀ k, k ≠ r → t.ring k = s.ring k
  wf     : Tbl.wf ringDefault s.forager.rings = true → Tbl.wf ringDefault t.forager.rings = true

theorem OnlyRing.trans {u : State} (h : OnlyRing r s t) (h' : OnlyRing r t u) : OnlyRing r s u :=
  ⟨fun k hk => (h'.others k hk).trans (h.others k hk), fun hs => h'.wf (h.wf hs)⟩

theorem OnlyRing.of_rings (same : t.forager.rings = s.forager.rings) : OnlyRing r s t :=
  ⟨fun _ _ => by unfold State.ring; rw [same], fun h => by rwa [same]⟩

theorem onlyRing_setRing (s : State) (x : Ring) : OnlyRing r s (s.setRing r x) :=
  ⟨fun _ hk => State.ring_setRing_other s r _ x hk, fun h => Tbl.wf_put h⟩

theorem onlyRing_writeShadow (s : State) : OnlyRing r s (s.writeShadow r) := by
  unfold State.writeShadow
  dsimp only
  split
  · exact .of_rings rfl
  · exact (onlyRing_setRing s _).trans (.of_rings rfl)

theorem onlyRing_drainEnd (s : State) : OnlyRing r s (s.drainEnd r) := by
  unfold State.drainEnd
  dsimp only
  split
  · exact (onlyRing_setRing s _).trans (onlyRing_writeShadow _)
  · exact .of_rings rfl

theorem onlyRing_dropFetched (s : State) : OnlyRing r s (s.dropFetched r) := by
  unfold State.dropFetched
  refine OnlyRing.trans ?_ (onlyRing_setRing _ _)
  refine .of_rings ?_
  dsimp only
  split <;> rfl

theorem onlyRing_loadBoot (s : State) : OnlyRing r s (s.loadBoot r) := by
  unfold State.loadBoot
  dsimp only
  split
  · exact onlyRing_setRing s _
  · exact .of_rings rfl

/-- The state in which the binding of ring r is erased: stopped, its head published, what it had fetched dropped. -/
def State.unboundRing (s : State) (r : Nat) : State :=
  let s := s.drainEnd r
  let s := if (s.ring r).shadowDue then s.writeShadow r else s
  let ops := s.interp.ops.map fun e => if e.2.ring = some r then (e.1, { e.2 with ring := none }) else e
  { s with interp := { s.interp with ops } }.dropFetched r

theorem eraseRing_eq (s : State) (r : Nat) :
    s.eraseRing r = ((s.unboundRing r).setRing r (ringDefault r)).loadBoot r := rfl

theorem onlyRing_unboundRing (s : State) : OnlyRing r s (s.unboundRing r) := by
  unfold State.unboundRing
  refine OnlyRing.trans ?_ (onlyRing_dropFetched _)
  refine (onlyRing_drainEnd s).trans ?_
  dsimp only
  split
  · exact (onlyRing_writeShadow _).trans (.of_rings rfl)
  · exact .of_rings rfl

theorem ring_eraseRing_other {k : Nat} (other : k ≠ r) : (s.eraseRing r).ring k = s.ring k := by
  rw [eraseRing_eq]
  exact (((onlyRing_unboundRing s).trans (onlyRing_setRing _ _)).trans (onlyRing_loadBoot _)).others k other

/-- No registers bind a ring that is not a boot ring: erased, it is at its default, FREE. -/
theorem ring_eraseRing_same (ring : 64 ≤ r) (wf : Tbl.wf ringDefault s.forager.rings = true) :
    (s.eraseRing r).ring r = {} := by
  have unnamed : ((s.unboundRing r).setRing r (ringDefault r)).loadBoot r =
      (s.unboundRing r).setRing r (ringDefault r) := if_neg (Nat.not_lt.mpr ring)
  have default : ringDefault r = {} := if_neg (Nat.not_lt.mpr ring)
  rw [eraseRing_eq, unnamed, ← default]
  exact Tbl.get_put_wf _ _ _ _ ((onlyRing_unboundRing s).wf wf)

/-- Settles O21: each command where its checks pass, from what its body answers. -/
theorem ringCommandsComplete : Obligations.RingCommandsComplete := by
  intro s src c r hr
  refine ⟨fun o => perform_done o rfl, ?create, fun o own stopped => perform_done o (ringEnableBody_enables hr own stopped),
    fun o own enabled => perform_done o (ringDisableBody_drains hr own enabled),
    fun o ring own stopped => perform_done o (ringDestroyBody_erases hr own ring stopped), ring_eraseRing_same,
    fun k other => ring_eraseRing_other other, ?tokenCreate,
    fun x o hx own unused => perform_done o (tokenRingDestroyBody_erases hr hx own unused)⟩
  case create =>
    exact fun o ring free small large base shadow quota =>
      perform_done o (ringCreateBody_creates hr ring free small large base shadow quota)
  case tokenCreate =>
    exact fun o free small large base quota =>
      perform_done o (tokenRingCreateBody_creates hr free small large base quota)

end Sys2Proof.Machine

/-!
PROOFS. Doorbells, pushes and the boot ring's enable bit (O22): what each access does where R290 to R294 accept it.
-/

namespace Sys2Proof.Machine

variable {s t : State} {fn r : Nat} {v : Word} {ws : List Word}

/-! ## Doorbells (R290, R293) -/

/-- A tail within the ring is published where it lies ahead. -/
theorem publish_within (within : unitsTo (s.ring r).head v ≤ (s.ring r).size) : s.publish r v =
    s.modRing r fun x => if unitsTo x.head x.tail < unitsTo x.head v then { x with tail := v } else x := by
  simp only [State.publish, State.modRing, within, true_and]

theorem doorbellEffect_accepted (ring : r < 65536) (own : (s.ring r).inst = fn) (enabled : (s.ring r).st = .enabled)
    (still : (s.inst fn).seq = none) (within : unitsTo (s.ring r).head v ≤ (s.ring r).size)
    (ahead : (v - (s.ring r).tail).toNat ≤ (s.ring r).size) :
    doorbellEffect fn r v s = (s.publish r v).modRing r fun x => { x with probe := x.spec } := by
  simp only [doorbellEffect, Nat.not_le.mpr ring, own, enabled, still, within, ahead, ne_eq,
    not_true_eq_false, and_false, Option.isSome_none, Bool.false_eq_true, and_self, if_false, if_true]

theorem tokenDoorbellEffect_accepted {x : TokenRing} (hx : Tbl.find s.forager.tokens r = some x) (own : x.inst = fn)
    (written : (v - x.head).toNat ≤ (x.tail - x.head).toNat) :
    tokenDoorbellEffect fn r v s = { s with forager := { s.forager with
      tokens := Tbl.insert s.forager.tokens r { x with head := v } } } := by
  simp only [tokenDoorbellEffect, hx, own, written, ne_eq, not_true_eq_false, if_false, if_true]

/-! ## The push window (R291, R292) -/

/-- A ring that fetches is ENABLED, its instance ACTIVE, and the device is not in ORPHAN. -/
theorem fetches_iff : s.fetches r = true ↔ (s.ring r).st = .enabled ∧ (s.reg Reg.forCtrl).bit 0 = true ∧
    s.orphan = false ∧ s.active (s.ring r).inst = true ∧ s.power.softDue = none := by
  simp [State.fetches, and_assoc]

/-- A push in the window of a ring. -/
def State.withPush (s : State) (r : Nat) (ws : List Word) : State :=
  { s with forager := { s.forager with pushes := Tbl.insert s.forager.pushes r ws } }

/-- A push taken leaves the window as it was, which held none. -/
theorem withPush_erase (none : Tbl.find s.forager.pushes r = none) :
    ({ s.withPush r ws with forager := { (s.withPush r ws).forager with
      pushes := Tbl.erase (s.withPush r ws).forager.pushes r } } : State) = s := by
  unfold State.withPush
  dsimp only
  rw [Tbl.erase_insert _ _ _ none]

section Push

variable (fetches : s.fetches r = true)
include fetches

theorem pushEffect_windowed (ring : r < 65536) (own : (s.ring r).inst = fn)
    (none : Tbl.find s.forager.pushes r = none) (few : ws.length ≤ 64)
    (whole : ws.length = 16 * entryUnits (wordAt ws 0)) (mark : entryMark (wordAt ws 0) = 1) :
    pushEffect fn r ws s = (s.withPush r ws).takePush r := by
  obtain ⟨enabled, -, orphan, active, -⟩ := fetches_iff.mp fetches
  rw [own] at active
  have long : ¬ 64 < 16 * entryUnits (wordAt ws 0) := by omega
  simp only [pushEffect, State.withPush, Nat.not_le.mpr ring, own, none, enabled, active, orphan, whole, long, mark,
    ne_eq, not_true_eq_false, and_false, Option.isSome_none, Bool.false_eq_true, Bool.true_eq_false,
    or_self, if_false]

variable (none : Tbl.find s.forager.pushes r = none)

include none in
theorem takePush_taken (next : wordAt ws 1 = (s.ring r).fetched) (room : s.bufRoom r (entryUnits (wordAt ws 0)) = true) :
    (s.withPush r ws).takePush r = ((s.modRing r fun x => { x with asm := .none }).takeEntry r
      { index := wordAt ws 1, words := ws, pushed := true }).incReg Reg.forPushCnt := by
  have there : Tbl.find (s.withPush r ws).forager.pushes r = some ws := Tbl.find_insert_same _ _ _
  have goes : (s.withPush r ws).fetches r = true := fetches
  have at_ : wordAt ws 1 = ((s.withPush r ws).ring r).fetched := next
  have fits : (s.withPush r ws).bufRoom r (entryUnits (wordAt ws 0)) = true := room
  simp only [State.takePush, there, goes, ← at_, fits, withPush_erase none, Bool.not_true, Bool.false_eq_true, ne_eq,
    not_true_eq_false, if_false]

theorem takePush_waits (next : wordAt ws 1 = (s.ring r).fetched)
    (full : s.bufRoom r (entryUnits (wordAt ws 0)) = false) : (s.withPush r ws).takePush r = s.withPush r ws := by
  have there : Tbl.find (s.withPush r ws).forager.pushes r = some ws := Tbl.find_insert_same _ _ _
  have goes : (s.withPush r ws).fetches r = true := fetches
  have at_ : wordAt ws 1 = ((s.withPush r ws).ring r).fetched := next
  have lacks : (s.withPush r ws).bufRoom r (entryUnits (wordAt ws 0)) = false := full
  simp only [State.takePush, there, goes, ← at_, lacks, Bool.not_true, Bool.not_false, Bool.false_eq_true, ne_eq,
    not_true_eq_false, if_false, if_true]

include none in
theorem takePush_discarded (other : wordAt ws 1 ≠ (s.ring r).fetched) : (s.withPush r ws).takePush r =
    (s.satReg Reg.forPushDropCnt).publish r (wordAt ws 1 + Word.mk (entryUnits (wordAt ws 0))) := by
  have there : Tbl.find (s.withPush r ws).forager.pushes r = some ws := Tbl.find_insert_same _ _ _
  have goes : (s.withPush r ws).fetches r = true := fetches
  have past : wordAt ws 1 ≠ ((s.withPush r ws).ring r).fetched := other
  simp only [State.takePush, State.pushDrop, there, goes, past, withPush_erase none, Bool.not_true, Bool.false_eq_true,
    ne_eq, not_false_eq_true, if_false, if_true]

end Push

/-! ## The boot ring (R294) -/

theorem ring_orReg (s : State) (k n : Nat) (w : Word) : (s.orReg k w).ring n = s.ring n := State.ring_setReg s k n _

theorem ring_andNotReg (s : State) (k n : Nat) (w : Word) : (s.andNotReg k w).ring n = s.ring n :=
  State.ring_setReg s k n _

theorem bootEnableEffect_starts (ht : t = s.orReg (pageKey fn Reg.forBootCtrl) 1)
    (stopped : (s.ring fn).st = .disabled ∨ (s.ring fn).st = .error) : bootEnableEffect fn s = t.enableRing fn := by
  unfold bootEnableEffect
  dsimp only
  rw [ht, ring_orReg, if_pos (Ring.canEnable_of_stopped stopped)]

theorem bootDisableEffect_stops (enabled : (s.ring fn).st = .enabled) :
    bootDisableEffect fn s = (s.andNotReg (pageKey fn Reg.forBootCtrl) 1).drainRing fn false false := by
  unfold bootDisableEffect
  dsimp only
  rw [ring_andNotReg, if_pos enabled]

/-- Settles O22: each access is its effect where the function is reached, and each effect does what its guards let it. -/
theorem doorbellsAndPushesComplete : Obligations.DoorbellsAndPushesComplete := by
  intro s fn r v ws reach
  refine ⟨?doorbell, ?push, fun x hx own written => ?token, fun t ht stopped => ?enable, fun enabled => ?disable⟩
  case doorbell =>
    intro ring own enabled still within ahead
    rw [← publish_within within]
    exact barWrite_eq_goesOn reach (doorbellEffect_accepted ring own enabled still within ahead)
  case push =>
    intro ring own fetches none few whole mark
    have windowed := pushEffect_windowed fetches ring own none few whole mark
    refine ⟨fun next room => ?_, fun next full => ?_, fun other => ?_⟩
    · exact barWrite_eq_goesOn reach (windowed.trans (takePush_taken fetches none next room))
    · exact barWrite_eq_goesOn reach (windowed.trans (takePush_waits fetches next full))
    · exact barWrite_eq_goesOn reach (windowed.trans (takePush_discarded fetches none other))
  case token => exact barWrite_eq_goesOn reach (tokenDoorbellEffect_accepted hx own written)
  case enable => exact barWrite_eq_goesOn reach (bootEnableEffect_starts ht stopped)
  case disable => exact barWrite_eq_goesOn reach (bootDisableEffect_stops enabled)

end Sys2Proof.Machine

/-!
PROOFS. The Forager's own events (O23): what each does where what it waits for has come.
-/

namespace Sys2Proof.Machine

variable {s t u : State} {r : Nat} {q : FetchRead} {d : Reply}

/-! ## Reads (R281, R283, R289) -/

theorem fetchEffect_unread (unread : Tbl.find s.forager.reads r = none) : fetchEffect r d s = s := by
  simp only [fetchEffect, unread]

section Read

variable (read : Tbl.find s.forager.reads r = some q)
  (ht : t = { s with forager := { s.forager with reads := Tbl.erase s.forager.reads r } })
include read ht

theorem fetchEffect_discards (dropped : q.stale = true ∨ (s.ring r).st ≠ .enabled) : fetchEffect r d s = t := by
  have same : t.ring r = s.ring r := by rw [ht]; rfl
  simp only [fetchEffect, read, ← ht, same, dropped, if_true]

variable (fresh : q.stale = false)
include fresh

theorem fetchEffect_takes {ws : List Word} (fetches : s.fetches r = true)
    (hu : u = t.takeUnits r (((splitUnits 8 ws).take q.units).drop (unitsTo q.at_ (s.ring r).next))) :
    fetchEffect r (.data ws) s =
      if (u.ring r).turn < (u.ring r).weight ∧ u.fetchWants r = true then u.fetchIssue r else u := by
  obtain ⟨enabled, -⟩ := fetches_iff.mp fetches
  have same : t.ring r = s.ring r := by rw [ht]; rfl
  have goes : t.fetches r = true := by rw [ht]; exact fetches
  simp only [fetchEffect, State.fetchDone, read, ← ht, same, fresh, enabled, goes, ← hu, Bool.false_eq_true, ne_eq,
    not_true_eq_false, or_self, if_false, if_true]

theorem fetchEffect_fails (enabled : (s.ring r).st = .enabled) (lost : d ∈ [Reply.error, Reply.poison]) :
    fetchEffect r d s = t.failRing r Flt.fetchErr (s.ring r).fetched := by
  have same : t.ring r = s.ring r := by rw [ht]; rfl
  have kept : ¬ (q.stale = true ∨ (s.ring r).st ≠ .enabled) := by simp [fresh, enabled]
  simp only [List.mem_cons, List.not_mem_nil, or_false] at lost
  obtain rfl | rfl := lost <;> simp only [fetchEffect, read, ← ht, same, kept, if_false]

end Read

/-! ## Timers (R283) -/

theorem rereadEffect_due (due : s.due (s.ring r).rereadAt = true) :
    rereadEffect r s = s.setRing r { s.ring r with rereadAt := none } := if_pos due

/-- Polling goes on while the ring's last entry is less than FOR_POLL_IDLE_US old. -/
theorem pollEffect_due {at_ : Nat} (due : s.due (s.ring r).pollAt = true) (last : (s.ring r).lastTaken = some at_) :
    pollEffect r s = s.setRing r { s.ring r with
      pollAt := none, probe := decide (s.ns - at_ < s.regField Reg.forPollIdleUs 19 0 * 1000) } := by
  simp only [pollEffect, State.pollGoes, due, last, Option.any_some, if_true]

/-! ## Starts (R284, R300, R303) -/

/-- The form of a command depends on the open region's image alone. -/
theorem formFail_setRing (s : State) (r : Nat) (x : Ring) (c : Cmd) : (s.setRing r x).formFail c = s.formFail c := rfl

/-- Ring r has entry e in front, and the interpreter may start it. -/
structure MayStart (s : State) (r : Nat) (e : Entry) (rest : List Entry) : Prop where
  front   : (s.ring r).queue = e :: rest
  between : (s.ring r).started = none
  free    : s.canStart = true
  orphan  : s.orphan = false
  enabled : (s.ring r).st = .enabled
  active  : s.active (s.ring r).inst = true

/-- The command that an entry of ring r holds. -/
def State.cmdOf (s : State) (r : Nat) (e : Entry) : Cmd :=
  { src := .ring r, inst := (s.ring r).inst, remote := none, index := e.index, ws := e.words }

theorem exec_entryStart (hclk : s.clocked = true) : exec (.entryStart r) s = goesOn (s.startEntry r) :=
  act_goesOn (f := (·.startEntry r)) hclk

section Start

variable {e : Entry} {rest : List Entry} (may : MayStart s r e rest)
include may

section Free

variable (free : (wordAt e.words 0).bit 16 = false ∨ s.barrierMet r = true)
include free

/-- The condition of a start holds unless the entry's barrier holds it. -/
theorem MayStart.goes : (s.canStart && !s.orphan && decide ((s.ring r).st = .enabled) && s.active (s.ring r).inst &&
    (!(wordAt e.words 0).bit 16 || s.barrierMet r)) = true := by
  obtain ⟨-, -, room, orphan, enabled, active⟩ := may
  obtain none | met := free
  · simp [room, orphan, enabled, active, none]
  · simp [room, orphan, enabled, active, met]

theorem startEntry_executes (formed : s.formFail (s.cmdOf r e) = none) :
    s.startEntry r = { s.setRing r { s.ring r with queue := rest, started := some e } with
      interp := { s.interp with current := some (.ring r) } } := by
  unfold State.cmdOf at formed
  unfold State.startEntry
  simp only [may.front, may.between, may.goes free, formFail_setRing, formed, if_true]
  rfl

/-- An entry that fails a check of its form completes at once with that status (R300, R305). -/
theorem startEntry_refused {status : Byte} {n : Nat} (fails : s.formFail (s.cmdOf r e) = some (status, n)) :
    s.startEntry r =
      (s.setRing r { s.ring r with queue := rest, started := some e }).finishCmd (s.cmdOf r e) status [] n := by
  unfold State.cmdOf at fails ⊢
  unfold State.startEntry
  simp only [may.front, may.between, may.goes free, formFail_setRing, fails, if_true]

end Free

theorem startEntry_held (barrier : (wordAt e.words 0).bit 16 = true) (unmet : s.barrierMet r = false) :
    s.startEntry r = s := by
  simp [State.startEntry, may.front, may.between, barrier, unmet]

theorem barrierEffect_met (barrier : (wordAt e.words 0).bit 16 = true) (met : s.barrierMet r = true) :
    barrierEffect r s = s.startEntry r := by
  simp only [barrierEffect, may.front, barrier, met, Bool.and_self, if_true]

end Start

/-! ## Shadows, failed completion writes, drains (R285, R287, R289) -/

theorem shadowEffect_due (due : (s.ring r).shadowDue = true) (shadow : (s.ring r).headAddr ≠ 0)
    (orphan : s.orphan = false) : shadowEffect r s = (s.setRing r { s.ring r with shadowDue := false }).emit
      (s.dmaWrite (s.ring r).inst (s.ring r).headAddr.toNat [(s.ring r).head, Word.mk (s.ring r).st.code]) := by
  simp only [shadowEffect, State.writeShadow, due, shadow, orphan, Bool.false_eq_true, or_self, if_false, if_true]

/-- The failed write is that of the ring's last completion (log 17). -/
theorem complErrorEffect_last {index : Word} (bound : (s.ring r).st ≠ .free) (some_ : (s.ring r).lastDone ≠ [])
    (last : wordAt (s.ring r).lastDone 1 = index)
    (ht : t = s.setRing r { s.ring r with
      head := (if (s.ring r).stuck = true then (s.ring r).head else index),
      compl := (if (s.ring r).stuck = true then (s.ring r).compl else (s.ring r).lastDone),
      lastDone := [], stuck := true }) :
    complErrorEffect r index s =
      (((if (s.ring r).st = .enabled then t.drainRing r false true else t).modRing r fun x =>
        { x with st := if x.st = .disabled then .error else x.st, failing := true }).forFault Flt.complErr
          (s.ring r).inst r index) := by
  simp only [complErrorEffect, bound, some_, last, ← ht, ne_eq, not_false_eq_true, and_self, if_true]

theorem drainEnd_stops (draining : (s.ring r).st = .draining) (between : (s.ring r).started = none) :
    s.drainEnd r = (s.setRing r { s.ring r with
      st := if (s.ring r).failing then .error else .disabled, failing := false }).writeShadow r :=
  if_pos ⟨draining, between⟩

/-- Settles O23: each event is its effect on the clocked block, and each effect does what its guards let it. The turns of
fetch arbitration are log 44's, the failed write log 17's, a read answer with no read outstanding log 37's. -/
theorem foragerEventsComplete : Obligations.ForagerEventsComplete := by
  intro s r hclk
  refine ⟨fun unread d => act_eq_goesOn hclk (fetchEffect_unread unread), fun q t read ht => ⟨?discards, ?takes, ?fails⟩,
    fun due => act_eq_goesOn hclk (rereadEffect_due due), fun at_ due last => act_eq_goesOn hclk (pollEffect_due due last),
    ?start, ?shadow, ?error, fun draining between => act_eq_goesOn hclk (drainEnd_stops draining between)⟩
  case discards => exact fun dropped d => act_eq_goesOn hclk (fetchEffect_discards read ht dropped)
  case takes => exact fun ws u fresh fetches hu => act_eq_goesOn hclk (fetchEffect_takes read ht fresh fetches hu)
  case fails => exact fun fresh enabled d lost => act_eq_goesOn hclk (fetchEffect_fails read ht fresh enabled lost)
  case start =>
    intro e rest front between free orphan enabled active formed
    have may : MayStart s r e rest := ⟨front, between, free, orphan, enabled, active⟩
    refine ⟨fun held => ?_, fun barrier met => ?_, fun barrier unmet => ?_⟩
    · exact (exec_entryStart hclk).trans (congrArg goesOn (startEntry_executes may held formed))
    · rw [exec_entryStart hclk]
      exact act_eq_goesOn hclk (barrierEffect_met may barrier met)
    · exact (exec_entryStart hclk).trans (congrArg goesOn (startEntry_held may barrier unmet))
  case shadow => exact fun due shadow orphan => act_eq_goesOn hclk (shadowEffect_due due shadow orphan)
  case error => exact fun index t bound some_ last ht => act_eq_goesOn hclk (complErrorEffect_last bound some_ last ht)

end Sys2Proof.Machine

/-!
PROOFS. Checks 1 to 4 of R300 (O20): the order in which a command's form is checked, and an entry that fails one.
-/

namespace Sys2Proof.Machine

variable {s : State} {c : Cmd} {w : Word} {units : Nat} {m : ParamMask}

/-- The n + 1 bits of a word from bit l are the number of their field. -/
theorem field_eq_extractLsb' (w : Word) (l n : Nat) : w.field (l + n) l = (w.extractLsb' l (n + 1)).toNat := by
  rw [BitVec.extractLsb'_toNat, Nat.shiftRight_eq_div_pow, Word.field]
  congr 2
  omega

theorem field_version (w : Word) : w.field 15 8 = 1 ↔ w.extractLsb' 8 8 = 1 := by
  rw [show w.field 15 8 = (w.extractLsb' 8 8).toNat from field_eq_extractLsb' w 8 7]
  exact ⟨fun h => BitVec.eq_of_toNat_eq h, fun h => congrArg BitVec.toNat h⟩

/-! ## The order of the checks (R300) -/

theorem formFail_version (hw : w = wordAt c.ws 0) (other : w.extractLsb' 8 8 ≠ 1) :
    s.formFail c = some (St.version, 0x01) := by
  have version : (wordAt c.ws 0).field 15 8 ≠ 1 := hw ▸ mt (field_version w).mp other
  exact if_pos version

section Version

variable (hw : w = wordAt c.ws 0) (version : w.extractLsb' 8 8 = 1) (standard : openOpcode c.opcode = false)
include hw version standard

theorem formFail_undefined (undefined : cmdForm c.opcode c.ws = none) :
    s.formFail c = some (St.badOpcode, 0x03) := by
  have current : (wordAt c.ws 0).field 15 8 = 1 := hw ▸ (field_version w).mpr version
  simp only [State.formFail, current, standard, undefined, ne_eq, not_true_eq_false, Bool.false_eq_true, if_false]

variable (form : cmdForm c.opcode c.ws = some (units, m))
include form

theorem formFail_issuer {d : Nat} (issuer : c.authFail = some d) : s.formFail c = some (St.auth, d) := by
  have current : (wordAt c.ws 0).field 15 8 = 1 := hw ▸ (field_version w).mpr version
  simp only [State.formFail, current, standard, form, issuer, ne_eq, not_true_eq_false, Bool.false_eq_true, if_false]

variable (issuer : c.authFail = none)
include issuer

theorem formFail_units (length : w.field 7 2 + 1 ≠ units) : s.formFail c = some (St.badLength, 0x00) := by
  subst hw
  have current := (field_version _).mpr version
  simp only [State.formFail, entryUnits, current, standard, form, issuer, length, ne_eq, not_true_eq_false,
    not_false_eq_true, Bool.false_eq_true, if_false, if_true]

theorem formFail_reserved (length : w.field 7 2 + 1 = units) (reserved : w.field 23 17 ≠ 0) :
    s.formFail c = some (St.badLength, 0x02) := by
  subst hw
  have current := (field_version _).mpr version
  simp only [State.formFail, entryUnits, current, standard, form, issuer, length, reserved, ne_eq, not_true_eq_false,
    not_false_eq_true, Bool.false_eq_true, if_false, if_true]

end Version

/-! ## The issuers (R301) -/

section Issuer

variable (virtual : c.inst ≠ 0) (here : c.remote = none)
include virtual here

theorem authFail_pfOnly (own : pfOnly c.opcode = true) : c.authFail = some noField := by
  simp [Cmd.authFail, here, virtual, own]

/-- An instance resets itself alone. -/
theorem authFail_reset (op : c.opcode = 0x22) (other : c.field 0x08 5 0 ≠ c.inst) : c.authFail = some 0x08 := by
  have open_ : pfOnly 0x22 = false := by decide
  simp [Cmd.authFail, here, virtual, op, open_, other]

/-- An instance forms partitions of its own alone; INST is at 0x08 [29:24], and so in byte 0x0B (log 46). -/
theorem authFail_partition (op : c.opcode = 0x28) (other : c.field 0x08 29 24 ≠ c.inst) : c.authFail = some 0x0B := by
  have open_ : pfOnly 0x28 = false := by decide
  simp [Cmd.authFail, here, virtual, op, open_, other]

end Issuer

/-- Settles O20: each check is the first that fails, and an entry that fails one is started and completes with it (DETAIL
of a field that does not begin at bit 0: log 46). -/
theorem formChecksComeInOrder : Obligations.FormChecksComeInOrder := by
  intro s c w units m hw
  refine ⟨formFail_version hw, fun version => ⟨formFail_undefined hw version, fun standard form =>
    ⟨fun virtual here => ⟨fun op => ?pfOnly, fun op other => ?reset, fun op other => ?partition⟩,
      formFail_units hw version standard form, formFail_reserved hw version standard form⟩⟩, ?entry⟩
  case pfOnly =>
    have own : pfOnly c.opcode = true := by
      simp only [pfOnly, List.contains_eq_mem, decide_eq_true_eq]
      simp only [List.mem_cons, List.not_mem_nil, or_false] at op ⊢
      omega
    exact formFail_issuer hw version standard form (authFail_pfOnly virtual here own)
  case reset => exact formFail_issuer hw version standard form (authFail_reset virtual here op other)
  case partition => exact formFail_issuer hw version standard form (authFail_partition virtual here op other)
  case entry =>
    rintro r _ e rest t status d rfl front between enabled hclk free orphan active unbarred rfl rfl fails
    have may : MayStart s r e rest := ⟨front, between, free, orphan, enabled, active⟩
    rw [formFail_setRing] at fails
    exact (exec_entryStart hclk).trans (congrArg goesOn (startEntry_refused may (.inl unbarred) fails))

end Sys2Proof.Machine

/-!
PROOFS. Status blocks (O24): the three writes of an update, and a block that a write error ends.
-/

namespace Sys2Proof.Machine

variable {s : State} {k : Nat} {o y z : LongOp}

/-! ## Updates (R310, R311) -/

/-- What an update shows is of the same operation: its status and PARTIAL alone may be newer (R312). -/
theorem opPartial_frame (s : State) (o : LongOp) : (s.opPartial o).failed = o.failed ∧
    (s.opPartial o).ended = o.ended ∧ (s.opPartial o).addr = o.addr ∧ (s.opPartial o).inst = o.inst := by
  unfold State.opPartial
  split
  · dsimp only
    split <;> exact ⟨rfl, rfl, rfl, rfl⟩
  · exact ⟨rfl, rfl, rfl, rfl⟩

/-- Where every key has one default, what a key holds is what is listed of it, or that default. -/
theorem Tbl.find_getD {α : Type} (d : α) (t : Tbl α) (k : Nat) :
    (Tbl.find t k).getD d = Tbl.get (fun _ => d) t k := by
  induction t with
  | nil => rfl
  | cons e t ih =>
    obtain ⟨j, v⟩ := e
    unfold Tbl.find Tbl.get
    split
    · rfl
    · exact ih

/-- PARTIAL of a TOKEN_LOG_READ is POS, while the handle names its stream (R46, R312). -/
theorem part_opPartial {i gen first n : Nat} {dest : Dword} (body : o.body = .tokenRead i gen first n dest)
    (again : o.upd ≠ 0) (same : (s.entry i).gen.toNat = gen) (used : (s.entry i).st ≠ .free) :
    (s.opPartial o).part = BitVec.ofNat 64 (s.entry i).pos.toNat := by
  have entry : (Tbl.find s.comb.entries i).getD {} = s.entry i := Tbl.find_getD _ _ _
  simp only [State.opPartial, body, entry, again, same, used, ne_eq, not_true_eq_false, or_self, if_false]

theorem interp_blockWrite (s : State) (o : LongOp) (byte : Nat) (ws : List Word) :
    (s.blockWrite o byte ws).interp = s.interp := by
  unfold State.blockWrite
  dsimp only
  split <;> rfl

/-- The three writes of one update that shows y: SYNC odd, the fields, SYNC even with the status. -/
def State.blockWrites (s : State) (y : LongOp) : State :=
  ((s.blockWrite y 0 [y.head (y.upd + 1) y.shown, y.index]).blockWrite y 8
    [y.progress.lo, y.progress.hi, y.part.lo, y.part.hi, y.aux, Word.mk (s.ns % 2 ^ 32)]).blockWrite y 0
    [y.head (y.upd + 2) y.status, y.index]

theorem interp_blockWrites (s : State) (y : LongOp) : (s.blockWrites y).interp = s.interp := by
  simp only [State.blockWrites, interp_blockWrite]

theorem ns_blockWrite (s : State) (o : LongOp) (byte : Nat) (ws : List Word) : (s.blockWrite o byte ws).ns = s.ns := by
  unfold State.blockWrite
  dsimp only
  split <;> rfl

theorem ns_blockWrites (s : State) (y : LongOp) : (s.blockWrites y).ns = s.ns := by
  simp only [State.blockWrites, ns_blockWrite]

/-- Operation k after an update that leaves o: forgotten once its final status is written, its instance kept (R315). -/
def State.updated (s : State) (k : Nat) (o : LongOp) : State :=
  if o.ended then { s with interp := { s.interp with ops := Tbl.erase s.interp.ops k,
                                                     owners := Tbl.insert s.interp.owners k o.inst } }
  else { s with interp := { s.interp with ops := Tbl.insert s.interp.ops k o } }

theorem blockUpdate_writes (found : Tbl.find s.interp.ops k = some o) (sound : o.failed = false)
    (reached : s.orphan = false ∨ o.addr.getLsbD 0 = true) (hy : y = s.opPartial o)
    (hz : z = { y with upd := (y.upd + 2) % 65536, shown := y.status, shownAt := (s.blockWrites y).ns, due := false }) :
    s.blockUpdate k = (s.blockWrites y).updated k z := by
  obtain ⟨hfailed, -, haddr, -⟩ := opPartial_frame s o
  have kept : ¬ (s.opPartial o).failed = true := by simp [hfailed, sound]
  have open_ : ¬ (s.orphan && !(s.opPartial o).addr.getLsbD 0) = true := by
    rw [haddr]
    obtain lease | device := reached
    · simp [lease]
    · simp [device]
  subst hz hy
  simp only [State.blockUpdate, found]
  rw [if_neg kept, if_neg open_]
  rfl

theorem blockUpdateEffect_writes (found : Tbl.find s.interp.ops k = some o) (due : o.due = true)
    (sound : o.failed = false) (now : o.ended = true ∨ o.shownAt + s.sbInterval ≤ s.ns)
    (reached : s.orphan = false ∨ o.addr.getLsbD 0 = true) (hy : y = s.opPartial o)
    (hz : z = { y with upd := (y.upd + 2) % 65536, shown := y.status, shownAt := s.ns, due := false }) :
    blockUpdateEffect k s = { s.blockWrites y with
      interp := (if o.ended then
        { s.interp with ops := Tbl.erase s.interp.ops k, owners := Tbl.insert s.interp.owners k o.inst }
        else { s.interp with ops := Tbl.insert s.interp.ops k z }) } := by
  obtain ⟨-, hended, -, hinst⟩ := opPartial_frame s o
  have zended : z.ended = o.ended := by rw [hz, hy]; exact hended
  have zinst : z.inst = o.inst := by rw [hz, hy]; exact hinst
  have goes : (o.due && (o.ended || decide (o.shownAt + s.sbInterval ≤ s.ns))) = true := by
    obtain ended | late := now
    · simp [due, ended]
    · simp [due, late]
  simp only [blockUpdateEffect, found, goes, if_true]
  rw [← ns_blockWrites s y] at hz
  rw [blockUpdate_writes found sound reached hy hz, State.updated, zended, zinst, interp_blockWrites]
  split <;> rfl

/-! ## Failed blocks (R315) -/

theorem blockErrorEffect_goesOn (found : Tbl.find s.interp.ops k = some o) (more : o.ended = false) :
    blockErrorEffect k s = State.raise { s with interp := { s.interp with
      ops := Tbl.insert s.interp.ops k { o with failed := true } } } { id := Flt.sbErr, inst := some o.inst } := by
  simp only [blockErrorEffect, found, more, Bool.false_eq_true, if_false]

theorem blockErrorEffect_ended (found : Tbl.find s.interp.ops k = some o) (ended : o.ended = true) :
    blockErrorEffect k s = State.raise { s with interp := { s.interp with
      ops := Tbl.erase s.interp.ops k } } { id := Flt.sbErr, inst := some o.inst } := by
  simp only [blockErrorEffect, found, ended, if_true]

/-- The write of a final status may fail after its operation is forgotten. -/
theorem blockErrorEffect_forgotten {i : Nat} (gone : Tbl.find s.interp.ops k = none)
    (owner : Tbl.find s.interp.owners k = some i) :
    blockErrorEffect k s = s.raise { id := Flt.sbErr, inst := some i } := by
  simp only [blockErrorEffect, gone, owner]

/-- Settles O24: an update and a write error are their effects on the clocked block. -/
theorem statusBlockWritesComplete : Obligations.StatusBlockWritesComplete := by
  intro s k o hclk found
  refine ⟨fun y z due sound now reached hy hz => ⟨?_, ?_⟩, fun more => ?_, fun ended => ?_, fun n i gone owner => ?_⟩
  · rintro i gen first n dest body again same used
    rw [hy]
    exact part_opPartial body again same used
  · exact act_eq_goesOn hclk (blockUpdateEffect_writes found due sound now reached hy hz)
  · exact act_eq_goesOn hclk (blockErrorEffect_goesOn found more)
  · exact act_eq_goesOn hclk (blockErrorEffect_ended found ended)
  · exact act_eq_goesOn hclk (blockErrorEffect_forgotten gone owner)

end Sys2Proof.Machine

/-!
PROOFS. Instances made, resized and given up, and the lease (O25): what each command answers where its checks pass.
-/

namespace Sys2Proof.Machine

variable {s u : State} {c : Cmd} {i : Nat}

/-! ## Quotas (R319–R322) -/

section Quotas

variable (hi : c.field 0x08 5 0 = i) (range : quotaRange c = none)
include hi range

theorem instanceCreateBody_creates {vfs : Nat} (absent : s.hasInst i = false) (function : i ≤ vfs)
    (grant : s.grantFail i {} c.quotas = none) (guard : s.guardFail true = none) :
    instanceCreateBody vfs c s = .done (((s.setInst i
      { st := .active, wairon := c.bit 0x08 8, q := c.quotas, flrCnt := (s.inst i).flrCnt }).setRing i
        (ringDefault i)).newMemKey i) [] := by
  simp only [instanceCreateBody, hi, range, absent, Nat.not_lt.mpr function, grant, guard, Bool.false_eq_true, if_false]

theorem instanceResizeBody_resizes (active : s.active i = true)
    (may : (s.inst i).wairon = true ∨ s.instEmpty i true = true) (grant : s.grantFail i (s.inst i).q c.quotas = none) :
    instanceResizeBody c s = .done ((s.setInst i { s.inst i with q := c.quotas }).shareBw i) [] := by
  have allowed : ¬ ((s.inst i).wairon = false ∧ s.instEmpty i true = false) := by
    rintro ⟨plain, held⟩
    obtain wairon | empty := may
    · simp [plain] at wairon
    · simp [held] at empty
  simp only [instanceResizeBody, hi, range, active, allowed, grant, Bool.not_true, Bool.false_eq_true, if_false]

end Quotas

/-! ## Destruction (R323) -/

theorem instanceDestroyBody_destroys (hi : c.field 0x08 5 0 = i) (virtual : i ≠ 0) (active : s.active i = true)
    (empty : s.instEmpty i true = true)
    (hu : u = ((s.clearMbx i).setInst i { flrCnt := (s.inst i).flrCnt }).eraseRing i) :
    instanceDestroyBody c s =
      .done { u with guard := { u.guard with memKeys := Tbl.erase u.guard.memKeys (i + 1) } } [] := by
  subst hu
  simp only [instanceDestroyBody, hi, virtual, active, empty, Bool.true_eq_false, or_self, if_false]

/-! ## The lease (R344) -/

theorem leaseRenewBody_renews {n : Nat} (hn : c.field 0x08 15 0 = n) (range : n = 0 ∨ (10 ≤ n ∧ n ≤ 60000))
    (leased : s.fw.lease ≠ .orphan) :
    leaseRenewBody c s = .done { s with fw := { s.fw with
      lease := .held, periodMs := if n = 0 then s.fw.periodMs else n,
      expiry := s.ns + (if n = 0 then s.fw.periodMs else n) * 1000000 } } [] := by
  have inRange : ¬ (n ≠ 0 ∧ (n < 10 ∨ 60000 < n)) := by omega
  have period : (if n ≠ 0 then n else s.fw.periodMs) = if n = 0 then s.fw.periodMs else n := by
    rw [ite_not]
  simp only [leaseRenewBody, hn, inRange, period, if_false]
  cases lease : s.fw.lease with
  | orphan => exact absurd lease leased
  | inactive => rfl
  | held => rfl

/-- Settles O25: each command where its checks pass, from what its body answers. -/
theorem instanceQuotaCommandsComplete : Obligations.InstanceQuotaCommandsComplete := by
  intro s src c i hi
  refine ⟨?create, fun o range active may grant => ?resize, fun u o virtual active empty hu => ?destroy,
    fun n o hn range leased => ?lease⟩
  case create =>
    exact fun vfs o range absent function grant guard =>
      perform_done o (instanceCreateBody_creates hi range absent function grant guard)
  case resize => exact perform_done o (instanceResizeBody_resizes hi range active may grant)
  case destroy => exact perform_done o (instanceDestroyBody_destroys hi virtual active empty hu)
  case lease => exact perform_done o (leaseRenewBody_renews hn range leased)

end Sys2Proof.Machine

/-!
PROOFS. Reset, freeze, thaw and FLR of an instance (O26): what each does where the spec lets it go on.
-/

namespace Sys2Proof.Machine

variable {s t u v w : State} {c : Cmd} {i : Nat}

/-! ## INSTANCE_RESET (R323, R324) -/

theorem resettable_of {i : Nat} (still : (s.inst i).seq = none)
    (live : (s.inst i).st = .active ∨ (s.inst i).st = .freezing ∨ (s.inst i).st = .frozen) : s.resettable i = true := by
  unfold State.resettable
  obtain active | freezing | frozen := live
  · simp [still, active]
  · simp [still, freezing]
  · simp [still, frozen]

theorem instanceResetBody_resets (hi : c.field 0x08 5 0 = i) (virtual : i ≠ 0) (ready : s.resettable i = true) :
    instanceResetBody c s = .long s 0x10 (.reset i (c.bit 0x08 8)) (Word.mk i) []
      fun k s => s.beginReset i .resetting (c.bit 0x08 8) (some k) St.ok := by
  simp only [instanceResetBody, hi, virtual, ready, Bool.not_true, Bool.false_eq_true, if_false]

/-- A long operation other than a RUN_STEP is tracked while fewer than 4 096 are (R309). -/
theorem longFail_reset {squash : Bool} (room : s.longUsed < 4096) : s.longFail (.reset i squash) = none :=
  if_neg (Nat.not_le.mpr room)

/-! ## INSTANCE_FREEZE, INSTANCE_THAW and quiescence (R328) -/

theorem instanceFreezeBody_freezes (hi : c.field 0x08 5 0 = i) (active : s.active i = true)
    (uncapped : ∀ k ∈ s.instCtxs i, s.capCtx k = none)
    (ht : t = s.setInst i { s.inst i with st := .freezing })
    (hu : u = (t.instRings i).foldl (fun s r => s.dropFetched r) t)
    (hv : v = (u.instCtxs i).foldl (fun s k => s.dropRuns k) u)
    (hw : w = (v.instParts i).foldl (fun s p =>
      (((s.discardForecast p).endUndispatched p .main).endUndispatched p .draft).endUndispatched p .fallback) v) :
    instanceFreezeBody c s = .done ((w.instTables i).foldl (fun s k => s.stopTable k false) w) [] := by
  have none_ : ((s.instCtxs i).any fun k => (s.capCtx k).isSome) = false := by
    rw [List.any_eq_false]
    intro k hk
    simp [uncapped k hk]
  subst ht hu hv hw
  simp only [instanceFreezeBody, hi, active, none_, Bool.true_eq_false, Bool.false_eq_true, or_self, if_false]

theorem instanceThawBody_thaws (hi : c.field 0x08 5 0 = i) (still : (s.inst i).seq = none)
    (frozen : (s.inst i).st = .freezing ∨ (s.inst i).st = .frozen)
    (ht : t = s.setInst i { s.inst i with st := .active })
    (hu : u = (t.instRings i).foldl (fun s r => s.modRing r fun y => { y with probe := y.spec }) t) :
    instanceThawBody c s = .done ((u.instParts i).foldl (fun s p => s.wakeForecast p) u) [] := by
  have held : ¬ ((s.inst i).seq.isSome = true ∨ ((s.inst i).st ≠ .freezing ∧ (s.inst i).st ≠ .frozen)) := by
    obtain freezing | frozen := frozen
    · simp [still, freezing]
    · simp [still, frozen]
  subst ht hu
  simp only [instanceThawBody, hi, held, if_false]

/-- The passes of INSTANCE_SAVE that waited for instance i to be FROZEN begin (R329). -/
def State.beginSaves (s : State) (i : Nat) : State :=
  s.interp.ops.foldl (fun s e => match e.2.body with
    | .save j dest .waits => if j = i ∧ e.2.ended = false then s.saveRead e.1 i dest else s
    | _ => s) s

theorem quiescentEffect_freezes (freezing : (s.inst i).st = .freezing) (quiet : s.instStill i = true)
    (ht : t = s.setInst i { s.inst i with st := .frozen }) : quiescentEffect i s = t.beginSaves i := by
  have moving : ¬ ((s.inst i).st ≠ .freezing ∨ s.instStill i = false) := by simp [freezing, quiet]
  subst ht
  unfold quiescentEffect
  rw [if_neg moving]
  rfl

/-! ## FLR (R325) -/

/-- An instance that an FLR has counted and timed is not at its default. -/
theorem ne_instDefault_of_flrDue {x : Instance} {n : Nat} (due : x.flrDue = some n) : x ≠ instDefault i := by
  rintro rfl
  unfold instDefault at due
  split at due <;> cases due

section Flr

variable (virtual : i ≠ 0) (there : s.hasInst i = true) 
  (ht : t = ((s.setInst i { s.inst i with flrCnt := (s.inst i).flrCnt + 1, flrDue := some (s.ns + 100000000) }).setReg
    Reg.hpuInstFltInfo (Word.mk i)).raise { id := Flt.flr, inst := some i })
include there

/-- An instance counted is there as before. -/
theorem hasInst_counted : (s.setInst i { s.inst i with
    flrCnt := (s.inst i).flrCnt + 1, flrDue := some (s.ns + 100000000) }).hasInst i = true := by
  unfold State.hasInst
  rw [State.inst_setInst_same _ _ _ (ne_instDefault_of_flrDue rfl)]
  exact there

include virtual ht

theorem vfFlrEffect_joins {q : ResetSeq} (running : (s.inst i).seq = some q) : vfFlrEffect i s =
    t.setInst i { t.inst i with seq := some { q with squash := true, flr := true } } := by
  unfold vfFlrEffect
  rw [if_neg virtual]
  dsimp only at ht ⊢
  rw [if_pos (hasInst_counted there), ← ht, running]

theorem vfFlrEffect_begins (still : (s.inst i).seq = none) (ready : t.resettable i = true)
    (hu : u = t.beginReset i .resetting true none St.ok) : vfFlrEffect i s =
    u.setInst i { u.inst i with seq := (u.inst i).seq.map fun q => { q with flr := true } } := by
  unfold vfFlrEffect
  rw [if_neg virtual]
  dsimp only at ht ⊢
  rw [if_pos (hasInst_counted there), ← ht, still]
  dsimp only
  rw [if_pos ready, hu]

end Flr

theorem flrTimeoutEffect_due {n : Nat} (hn : (s.inst i).flrDue = some n) (due : n ≤ s.ns) :
    flrTimeoutEffect i s = (s.setInst i { s.inst i with flrDue := none }).emit (.flrDone i) := by
  simp [flrTimeoutEffect, State.flrComplete, State.due, hn, due]

/-- Settles O26: each command where its checks pass, and each event where it is due, is its effect. -/
theorem instanceSequencesComplete : Obligations.InstanceSequencesComplete := by
  intro s src c i
  refine ⟨fun o hi virtual still live room => ?reset, fun t u v w o hi active uncapped ht hu hv hw => ?freeze,
    fun t u o hi still frozen ht hu => ?thaw, fun t hclk freezing quiet ht => ?quiescent,
    fun t u hclk virtual there ht hu => ?flr, fun hclk ⟨n, hn, due⟩ => ?timeout⟩
  case reset =>
    have resets := instanceResetBody_resets hi virtual (resettable_of still live)
    exact (perform_long o resets (longFail_reset room) :)
  case freeze => exact perform_done o (instanceFreezeBody_freezes hi active uncapped ht hu hv hw)
  case thaw => exact perform_done o (instanceThawBody_thaws hi still frozen ht hu)
  case quiescent => exact act_eq_goesOn hclk (quiescentEffect_freezes freezing quiet ht)
  case flr =>
    refine ⟨fun still ready => ?_, fun q running => ?_⟩
    · exact act_eq_goesOn hclk (vfFlrEffect_begins virtual there ht still ready hu)
    · exact act_eq_goesOn hclk (vfFlrEffect_joins virtual there ht running)
  case timeout => exact act_eq_goesOn hclk (flrTimeoutEffect_due hn due)

end Sys2Proof.Machine

/-!
PROOFS. INSTANCE_SAVE, INSTANCE_RESTORE and the mailboxes (O27): what each does where it is accepted.
-/

namespace Sys2Proof.Machine

variable {s t u : State} {c : Cmd} {i k fn : Nat}

/-! ## INSTANCE_SAVE (R329) -/

theorem longFail_save {dest : Dword} {phase : SavePhase} (room : s.longUsed < 4096) :
    s.longFail (.save i dest phase) = none := if_neg (Nat.not_le.mpr room)

section Save

variable (hi : c.field 0x08 5 0 = i) (inside : Config.inWindows c.inst (c.dword 0x10).toNat 64 = true)
  (still : (s.inst i).seq = none) (logged : (s.dlog i).en = true)
include hi inside still logged

/-- A pass over an instance that runs or is FROZEN reads the header at DEST at once. -/
theorem instanceSaveBody_reads (ready : (s.inst i).st = .active ∨ (s.inst i).st = .frozen) :
    instanceSaveBody c s = .long s 0x18 (.save i (c.dword 0x10) .waits) (Word.mk i) []
      fun k s => s.saveRead k i (c.dword 0x10) := by
  obtain active | frozen := ready
  · simp [instanceSaveBody, hi, inside, still, logged, active]
  · simp [instanceSaveBody, hi, inside, still, logged, frozen]

/-- A pass over a FREEZING instance waits for FROZEN. -/
theorem instanceSaveBody_waits (freezing : (s.inst i).st = .freezing) :
    instanceSaveBody c s = .long s 0x18 (.save i (c.dword 0x10) .waits) (Word.mk i) [] fun _ s => s := by
  simp [instanceSaveBody, hi, inside, still, logged, freezing]

end Save

/-! ## INSTANCE_RESTORE (R331, R332) -/

theorem longFail_restore {src : Dword} (room : s.longUsed < 4096) : s.longFail (.restore i src) = none :=
  if_neg (Nat.not_le.mpr room)

theorem instanceRestoreBody_restores (image : SavedImage) (hi : c.field 0x08 5 0 = i) (virtual : i ≠ 0)
    (inside : Config.inWindows c.inst (c.dword 0x10).toNat 64 = true) (active : s.active i = true)
    (empty : s.instEmpty i false = true) :
    instanceRestoreBody image c s = .long s 0x18 (.restore i (c.dword 0x10)) (Word.mk i) []
      fun k s => s.restore k i (c.dword 0x10).toNat image := by
  simp only [instanceRestoreBody, hi, virtual, inside, active, empty, Bool.true_eq_false, or_self, if_false]

/-- An image that cannot be read ends the restore by the reset sequence, ST_BAD_ADDRESS at its end. -/
theorem restore_unread {src : Nat} (hu : u = t.setInst i { t.inst i with st := .restoring }) :
    t.restore k i src .error = ((u.setReg Reg.hpuInstFltInfo (Word.mk (St.badAddress.toNat * 2 ^ 24 + i))).raise
      { id := Flt.restoreErr, status := St.badAddress }).beginReset i .resetting true (some k) St.badAddress := by
  subst hu
  rfl

/-! ## Mailboxes (R326, R327) -/

theorem mbxGoEffect_hands (free : (s.inst fn).inBusy = false)
    (length : (s.reg (pageKey fn Reg.mbxIn)).field 15 8 ≤ 62) : mbxGoEffect fn s = s.setInBusy fn true := by
  simp only [mbxGoEffect, free, Nat.not_lt.mpr length, Bool.false_eq_true, or_self, if_false]

theorem mbxGoEffect_drops (bad : (s.inst fn).inBusy = true ∨ 62 < (s.reg (pageKey fn Reg.mbxIn)).field 15 8) :
    mbxGoEffect fn s = ((s.satReg (pageKey fn Reg.mbxDropCnt)).setReg Reg.hpuInstFltInfo (Word.mk fn)).raise
      { id := Flt.mbxDrop, inst := some fn } := by
  simp only [mbxGoEffect, bad, if_true]

theorem mbxAckEffect_empties (last : (s.inst fn).outQueue = []) :
    mbxAckEffect fn s = s.setInst fn { s.inst fn with outValid := false } := by
  simp only [mbxAckEffect, last]

theorem mbxAckEffect_shows {m : List Word} {q : List (List Word)} (more : (s.inst fn).outQueue = m :: q) :
    mbxAckEffect fn s = (s.setInst fn { s.inst fn with outValid := false, outQueue := q }).mbxShow fn m := by
  simp only [mbxAckEffect, more]

theorem mbxOutEffect_posts {ws : List Word} (there : s.hasInst fn = true) (short : ws.length ≤ 128)
    (served : (if s.fw.phase = .run then s.procUp schedulerCore else s.guardUp) = true) :
    mbxOutEffect fn ws s = s.mbxPost fn ws := by
  simp only [mbxOutEffect, there, short, served, decide_true, Bool.and_self, if_true]

theorem mbxPost_queues {ws : List Word} (full : (s.inst fn).outValid = true) :
    s.mbxPost fn ws = s.setInst fn { s.inst fn with outQueue := (s.inst fn).outQueue ++ [ws] } := if_pos full

theorem mbxPost_shows {ws : List Word} (empty : (s.inst fn).outValid = false) : s.mbxPost fn ws = s.mbxShow fn ws :=
  if_neg (by simp [empty])

/-- Settles O27: each command where its checks pass, and each access and message where it is accepted, is its effect. -/
theorem imagesAndMailboxesComplete : Obligations.ImagesAndMailboxesComplete := by
  intro s src c i fn
  refine ⟨fun o hi inside still logged room => ⟨fun ready => ?reads, fun freezing => ?waits⟩,
    fun image t u o hi virtual inside active empty room ht hu => ?restore,
    fun reach => ⟨fun free length => ?hands, fun bad => ?drops, fun last => ?empties, fun m q more => ?shows⟩,
    fun ws hclk there short served => ⟨fun full => ?queues, fun empty => ?posts⟩⟩
  case reads =>
    exact (perform_long o (instanceSaveBody_reads hi inside still logged ready) (longFail_save room) :)
  case waits =>
    exact (perform_long o (instanceSaveBody_waits hi inside still logged freezing) (longFail_save room) :)
  case restore =>
    have accepts := instanceRestoreBody_restores image hi virtual inside active empty
    have goes : exec (.instanceRestore src image) s =
        goesOn (t.restore s.interp.nextOp i (c.dword 0x10).toNat image) := by
      rw [ht]
      exact (perform_long o accepts (longFail_restore room) :)
    refine ⟨goes, ?_⟩
    rintro rfl
    rw [goes, restore_unread hu]
  case hands => exact barWrite_eq_goesOn reach (mbxGoEffect_hands free length)
  case drops => exact barWrite_eq_goesOn reach (mbxGoEffect_drops bad)
  case empties => exact barWrite_eq_goesOn reach (mbxAckEffect_empties last)
  case shows => exact barWrite_eq_goesOn reach (mbxAckEffect_shows more)
  case queues => exact act_eq_goesOn hclk ((mbxOutEffect_posts there short served).trans (mbxPost_queues full))
  case posts => exact act_eq_goesOn hclk ((mbxOutEffect_posts there short served).trans (mbxPost_shows empty))

end Sys2Proof.Machine

/-!
PROOFS. Objects of another instance, or of none (O19): each command that names one is refused ST_NO_RESOURCE.
-/

namespace Sys2Proof.Machine

variable {s : State} {c : Cmd} {r k : Nat}

/-! ## Rings and token rings -/

section Ring

variable (hr : r = c.field 0x08 15 0) (foreign : (s.ring r).st = .free ∨ (s.ring r).inst ≠ c.inst)
include hr foreign

theorem ownsRing_foreign : s.ownsRing c = false := by
  subst hr
  obtain free | other := foreign
  · simp [State.ownsRing, free]
  · simp [State.ownsRing, other]

theorem ringEnableBody_foreign : ringEnableBody c s = .refuse St.noResource 0x08 := by
  simp only [ringEnableBody, ownsRing_foreign hr foreign, Bool.not_false, if_true]

theorem ringDisableBody_foreign : ringDisableBody c s = .refuse St.noResource 0x08 := by
  simp only [ringDisableBody, ownsRing_foreign hr foreign, Bool.not_false, if_true]

theorem ringDestroyBody_foreign : ringDestroyBody c s = .refuse St.noResource 0x08 := by
  simp only [ringDestroyBody, ownsRing_foreign hr foreign, Bool.not_false, if_true]

end Ring

theorem tokenRingDestroyBody_foreign
    (foreign : ∀ x, Tbl.find s.forager.tokens (c.field 0x08 15 0) = some x → x.inst ≠ c.inst) :
    tokenRingDestroyBody c s = .refuse St.noResource 0x08 := by
  cases found : Tbl.find s.forager.tokens (c.field 0x08 15 0) with
  | none => simp only [tokenRingDestroyBody, found]
  | some x => simp only [tokenRingDestroyBody, found, foreign x found, ne_eq, not_false_eq_true, if_true]

/-! ## Partitions and contexts -/

section Partition

variable (foreign : ∀ x, s.part (c.field 0x08 6 0) = some x → x.inst ≠ c.inst)
include foreign

theorem ownsPart_foreign : s.ownsPart c (c.field 0x08 6 0) = false := by
  cases found : s.part (c.field 0x08 6 0) with
  | none => simp [State.ownsPart, found]
  | some x => simp [State.ownsPart, found, foreign x found]

theorem partitionDestroyBody_foreign : partitionDestroyBody c s = .refuse St.noResource 0x08 := by
  simp only [partitionDestroyBody, ownsPart_foreign foreign, Bool.not_false, if_true]

theorem contextCreateBody_foreign (long : 50 ≤ c.field 0x0C 16 0) (short : c.field 0x0C 16 0 ≤ 100000) :
    contextCreateBody c s = .refuse St.noResource 0x08 := by
  have slice : ¬ (c.field 0x0C 16 0 < 50 ∨ 100000 < c.field 0x0C 16 0) := by omega
  simp only [contextCreateBody, slice, ownsPart_foreign foreign, Bool.not_false, if_false, if_true]

theorem serveUnbindBody_foreign (role : c.field 0x08 9 8 ≠ 3) :
    serveUnbindBody c s = .refuse St.noResource 0x08 := by
  simp only [serveUnbindBody, role, ownsPart_foreign foreign, Bool.not_false, if_false, if_true]

end Partition

section Context

variable (hk : k = c.field 0x08 11 0) (foreign : (s.ctx k).st = .free ∨ (s.ctx k).inst ≠ c.inst)
include hk foreign

omit hk in
theorem ownsCtx_foreign : s.ownsCtx c k = false := by
  obtain free | other := foreign
  · simp [State.ownsCtx, free]
  · simp [State.ownsCtx, other]

theorem contextSetBody_foreign (long : 50 ≤ c.field 0x0C 16 0) (short : c.field 0x0C 16 0 ≤ 100000) :
    contextSetBody c s = .refuse St.noResource 0x08 := by
  have slice : ¬ (c.field 0x0C 16 0 < 50 ∨ 100000 < c.field 0x0C 16 0) := by omega
  simp only [contextSetBody, ← hk, slice, ownsCtx_foreign foreign, Bool.not_false, if_false, if_true]

theorem contextDestroyBody_foreign : contextDestroyBody c s = .refuse St.noResource 0x08 := by
  simp only [contextDestroyBody, ← hk, ownsCtx_foreign foreign, Bool.not_false, if_true]

theorem capUnbindBody_foreign : capUnbindBody c s = .refuse St.noResource 0x08 := by
  simp only [capUnbindBody, ← hk, foreign, if_true]

theorem capFillBody_foreign : capFillBody c s = .refuse St.noResource 0x08 := by
  simp only [capFillBody, ← hk, foreign, if_true]

end Context

/-! ## Models, Sampler tables, automata, prefixes -/

theorem modelUnloadBody_foreign (foreign : Tbl.find s.pager.models (c.field 0x08 15 0) ≠ some c.inst)
    (model : c.field 0x08 15 0 ≠ 0xFFFF) : modelUnloadBody c s = .refuse St.noResource 0x08 := by
  simp only [modelUnloadBody, model, foreign, ne_eq, not_false_eq_true, if_false, if_true]

/-- An object that is not listed, or is another instance's, is not the issuer's. -/
theorem all_foreign {α : Type} {o : Option α} {inst : α → Nat} {i : Nat} (foreign : ∀ x, o = some x → inst x ≠ i) :
    (o.all fun x => inst x != i) = true := by
  cases o with
  | none => rfl
  | some x => simpa using foreign x rfl

theorem tableFreeBody_foreign
    (foreign : ∀ x, Tbl.find s.sampler.tables (c.field 0x08 15 0) = some x → x.inst ≠ c.inst) :
    tableFreeBody c s = .refuse St.noResource 0x08 := by
  simp only [tableFreeBody, all_foreign foreign, if_true]

theorem automatonFreeBody_foreign
    (foreign : ∀ x, Tbl.find s.sampler.automata (c.field 0x08 11 0) = some x → x.inst ≠ c.inst) :
    automatonFreeBody c s = .refuse St.noResource 0x08 := by
  simp only [automatonFreeBody, all_foreign foreign, if_true]

theorem prefixFreeBody_foreign
    (foreign : ∀ x, Tbl.find s.pager.prefixes (c.field 0x08 13 0) = some x → x.inst ≠ c.inst) :
    prefixFreeBody c s = .refuse St.noResource 0x08 := by
  cases found : Tbl.find s.pager.prefixes (c.field 0x08 13 0) with
  | none => simp only [prefixFreeBody, found]
  | some x => simp only [prefixFreeBody, found, foreign x found, ne_eq, not_false_eq_true, true_or, if_true]

/-! ## Cyclic tables: one in EMPTY belongs to no instance (log 36) -/

section Cyclic

variable (hk : k = c.field 0x08 2 0) (foreign : (s.table k).st = .empty ∨ (s.table k).inst ≠ c.inst)
include hk foreign

theorem cycStartBody_foreign : cycStartBody c s = .refuse St.noResource 0x08 := by
  have unranged (p : Prop) : ¬ ((s.table k).st ≠ .empty ∧ (s.table k).inst = c.inst ∧ p) := by
    rintro ⟨loaded, own, -⟩
    exact foreign.elim loaded (· own)
  simp only [cycStartBody, ← hk, unranged, foreign, if_false, if_true]

theorem cycStopBody_foreign : cycStopBody c s = .refuse St.noResource 0x08 := by
  simp only [cycStopBody, ← hk, foreign, if_true]

theorem cycFreeBody_foreign : cycFreeBody c s = .refuse St.noResource 0x08 := by
  simp only [cycFreeBody, ← hk, foreign, if_true]

end Cyclic

/-- Settles O19: each command is refused once the fields that it checks first are in range (a table in EMPTY: log 36). -/
theorem foreignObjectsAreRefused : Obligations.ForeignObjectsAreRefused := by
  intro s src c
  refine ⟨fun r hr foreign => ⟨fun o => perform_refuse o (ringEnableBody_foreign hr foreign),
      fun o => perform_refuse o (ringDisableBody_foreign hr foreign),
      fun o => perform_refuse o (ringDestroyBody_foreign hr foreign)⟩,
    fun foreign o => perform_refuse o (tokenRingDestroyBody_foreign foreign), ?partition, ?context,
    fun foreign model o => perform_refuse o (modelUnloadBody_foreign foreign model),
    fun foreign o => perform_refuse o (tableFreeBody_foreign foreign),
    fun foreign o => perform_refuse o (automatonFreeBody_foreign foreign),
    fun foreign o => perform_refuse o (prefixFreeBody_foreign foreign), ?cyclic⟩
  case partition =>
    exact fun foreign => ⟨fun o => perform_refuse o (partitionDestroyBody_foreign foreign),
      fun o long short => perform_refuse o (contextCreateBody_foreign foreign long short),
      fun o role => perform_refuse o (serveUnbindBody_foreign foreign role)⟩
  case context =>
    exact fun k hk foreign => ⟨fun o long short => perform_refuse o (contextSetBody_foreign hk foreign long short),
      fun o => perform_refuse o (contextDestroyBody_foreign hk foreign),
      fun o => perform_refuse o (capUnbindBody_foreign hk foreign),
      fun o => perform_refuse o (capFillBody_foreign hk foreign)⟩
  case cyclic =>
    exact fun k hk foreign => ⟨fun o => perform_refuse o (cycStartBody_foreign hk foreign),
      fun o => perform_refuse o (cycStopBody_foreign hk foreign),
      fun o => perform_refuse o (cycFreeBody_foreign hk foreign)⟩

end Sys2Proof.Machine

/-!
PROOFS. Timers (O18): the event of a timer before its time leaves the state as it is. That an event row whose condition
does not hold changes nothing is the model's choice (logs 1 and 37).
-/

namespace Sys2Proof.Machine

variable {s : State} {k : Nat}

/-- A time that is not set, or lies ahead, is not reached. -/
theorem due_eq_false {o : Option Nat} (early : ∀ t, o = some t → s.ns < t) : s.due o = false := by
  cases o with
  | none => rfl
  | some t => simpa [State.due] using early t rfl

theorem rereadEffect_early (early : ∀ t, (s.ring k).rereadAt = some t → s.ns < t) : rereadEffect k s = s :=
  if_neg (by simp [due_eq_false early])

theorem pollEffect_early (early : ∀ t, (s.ring k).pollAt = some t → s.ns < t) : pollEffect k s = s :=
  if_neg (by simp [due_eq_false early])

theorem flrTimeoutEffect_early (early : ∀ t, (s.inst k).flrDue = some t → s.ns < t) : flrTimeoutEffect k s = s :=
  if_neg (by simp [due_eq_false early])

theorem retestEffect_early {passed : Bool} (early : ∀ t, s.guard.retestAt = some t → s.ns < t) :
    retestEffect passed s = s := if_pos (by simp [due_eq_false early])

theorem scrubEffect_early {l : List Strike} (early : s.cc < s.comb.scrubDue) : scrubEffect l s = s := by
  simp [scrubEffect, early]

theorem holdoffEffect_early (early : ∀ t, Tbl.find s.ic.timers k = some t → s.cc < t) : holdoffEffect k s = s := by
  cases timer : Tbl.find s.ic.timers k with
  | none => simp only [holdoffEffect, timer]
  | some t => simp only [holdoffEffect, timer, Nat.not_le.mpr (early t timer), if_false]

theorem leaseExpiryEffect_early (early : s.ns < s.fw.expiry) : leaseExpiryEffect s = s :=
  if_neg fun ⟨_, late⟩ => Nat.not_le.mpr early late

theorem heartbeatEffect_early (early : s.ns < s.swarm.hbAt) : heartbeatEffect s = s := if_pos early

theorem absenceEffect_early (early : s.ns < (s.member k).heardAt + s.absentNs) : absenceEffect k s = s :=
  if_neg fun ⟨_, late⟩ => Nat.not_le.mpr early late

theorem timePeriodEffect_early (early : s.ns < (s.member k).ttAt) : timePeriodEffect k s = s :=
  if_pos (.inr (.inr early))

theorem narrowTimeoutEffect_early (early : ∀ q ∈ s.pager.np, q.tag = k → s.cc < q.sentCc + 2048) :
    narrowTimeoutEffect k s = s := by
  cases found : s.pager.np.find? fun q => q.tag == k with
  | none => simp only [narrowTimeoutEffect, found]
  | some q =>
    have tag : q.tag = k := by simpa using List.find?_some found
    have sent := early q (List.mem_of_find?_eq_some found) tag
    simp only [narrowTimeoutEffect, found, Nat.not_le.mpr sent, if_false]

theorem wakeTimeEffect_early (early : s.ns < s.wakeAt) : wakeTimeEffect s = s :=
  if_neg fun ⟨_, late⟩ => Nat.not_le.mpr early late

/-- Settles O18: before its time each effect is the state itself (logs 1 and 37). -/
theorem nothingHappensBeforeItIsDue : Obligations.NothingHappensBeforeItIsDue := by
  intro s k w l b hclk
  refine ⟨fun early => act_eq_goesOn hclk (rereadEffect_early early),
    fun early => act_eq_goesOn hclk (pollEffect_early early),
    fun early => act_eq_goesOn hclk (scrubEffect_early early),
    fun early => act_eq_goesOn hclk (holdoffEffect_early early),
    fun early => act_eq_goesOn hclk (flrTimeoutEffect_early early),
    fun early => act_eq_goesOn hclk (leaseExpiryEffect_early early),
    fun early => act_eq_goesOn hclk (retestEffect_early early),
    fun early => act_eq_goesOn hclk (heartbeatEffect_early early),
    fun early => act_eq_goesOn hclk (absenceEffect_early early),
    fun early => act_eq_goesOn hclk (timePeriodEffect_early early),
    fun early => act_eq_goesOn hclk (narrowTimeoutEffect_early early),
    fun early => congrArg Host.Outcome.next (wakeTimeEffect_early early)⟩

end Sys2Proof.Machine

/-!
PROOFS. Plain facts of completions, messages, claims, counts and reset (O12, O7, O16, O17, O4).
-/

namespace Sys2Proof.Machine

variable {s : State} {p i : Nat} {fast : Bool}

/-- Settles O12: a completion changes no part of the work, and lets nothing wait. -/
theorem completionsLeaveTheWorkAlone : Obligations.CompletionsLeaveTheWorkAlone :=
  fun s c status rs d => ⟨work_finishCmd s c status rs d,
    fun quiet => quiet_of quiet (work_finishCmd s c status rs d) (waits_finishCmd s c status rs d)⟩

/-- Settles O4: nothing is listed after reset. -/
theorem resetRegistersAreCanonical : Obligations.ResetRegistersAreCanonical := rfl

/-! ## Messages before a version is matched (R348): the fault is log 11's -/

theorem mbxMessage_unmatched {mine : Nat → Bool} {f : MbxReq → State → State} (hclk : s.clocked = true)
    (served : s.mbxServed i = true) (unmatched : (s.inst i).matched = none) (code : mine (s.mbxCode i) = true) :
    mbxMessage i mine f s = .fault .unmatchedVersion := by
  simp only [mbxMessage, hclk, served, unmatched, code, Bool.not_true, Bool.or_self, Bool.false_eq_true, if_false,
    Option.isNone_none, if_true]

theorem execHello_unmatched (hclk : s.clocked = true) (served : s.mbxServed i = true)
    (unmatched : (s.inst i).matched = none) (other : s.mbxCode i ≠ 1) (no10 : s.mbxCode i ∉ codes10)
    (no11 : s.mbxCode i ∉ codes11) : execHello i s = .fault .unmatchedVersion := by
  unfold execHello
  rw [if_neg other]
  exact mbxMessage_unmatched hclk served unmatched (by simp [no10, no11])

/-- Settles O7: each row takes the message of its own code, and faults where no version is matched (log 11). -/
theorem unmatchedMessagesStop : Obligations.UnmatchedMessagesStop := by
  intro s i r b hclk served unmatched
  have faults {mine : Nat → Bool} {f : MbxReq → State → State} (code : mine (s.mbxCode i) = true) :
      mbxMessage i mine f s = .fault .unmatchedVersion := mbxMessage_unmatched hclk served unmatched code
  refine ⟨?stage, ?activate, ?coreUpdate, ?resume, ?reset, ?load, ?clear, ?zeroize, ?advance, ?keySet, ?selfTest,
    execHello_unmatched hclk served unmatched⟩
  all_goals
    intro code
    dsimp only [exec]
    exact faults (beq_iff_eq.mpr code)
/-! ## Claims (R383) -/

/-- The source that a claim takes is the highest-numbered that presents. -/
theorem claimable_eq_some_iff {n : Nat} : s.claimable p fast = some n ↔
    (∃ x, (n, x) ∈ s.ic.srcs ∧ s.presents p fast n x = true) ∧
      ∀ m y, (m, y) ∈ s.ic.srcs → s.presents p fast m y = true → m ≤ n := by
  simp [State.claimable, List.max?_eq_some_iff]

theorem claimable_eq_none (idle : ∀ n x, (n, x) ∈ s.ic.srcs → s.presents p fast n x = false) :
    s.claimable p fast = none := by
  rw [Option.eq_none_iff_forall_ne_some]
  intro n claimed
  obtain ⟨⟨x, listed, presents⟩, -⟩ := claimable_eq_some_iff.mp claimed
  exact absurd presents (by simp [idle n x listed])

theorem icClaimEffect_none (none_ : s.claimable p fast = none) :
    icClaimEffect p fast s = s.emit (.readData 0 0x3FF) := by
  have unclaimed : (s.emit (.readData 0 0x3FF)).claimable p fast = none := none_
  have word : s.claimWord p fast = 0x3FF := by rw [State.claimWord, none_]; rfl
  rw [icClaimEffect, word, State.claimed, unclaimed]

/-- Settles O16: the claim is the maximum of the sources that present; with none it reads 0x3FF. -/
theorem highestSourceIsClaimed : Obligations.HighestSourceIsClaimed :=
  fun _ _ _ => ⟨fun _ => claimable_eq_some_iff,
    fun hclk idle => act_eq_goesOn hclk (icClaimEffect_none (claimable_eq_none idle))⟩

/-! ## Counts of events (R369) -/

theorem fltThreshold_eq (cfg : Word) :
    fltThreshold cfg = (if cfg.getLsbD 0 then 16 else 1) * (cfg.extractLsb' 24 8).toNat := by
  have count : cfg.field 31 24 = (cfg.extractLsb' 24 8).toNat := field_eq_extractLsb' cfg 24 7
  unfold fltThreshold Word.bit
  rw [count]
  split
  · rfl
  · rw [Nat.one_mul]

/-- An event counts at least itself. -/
theorem FltCount.c_event_pos (x : FltCount) (t w : Nat) : 0 < (x.event t w).c := by
  unfold FltCount.event
  split
  · exact Nat.one_pos
  · exact Nat.lt_min.mpr ⟨by decide, Nat.succ_pos _⟩

/-- Settles O17: a count after an event is not 0, so that with N = 0 none equals the threshold. -/
theorem eventsAreCountedInTheirWindow : Obligations.EventsAreCountedInTheirWindow := by
  refine ⟨fun x t w => ⟨fun begins => if_pos begins, fun counted within => if_neg (by omega)⟩, fltThreshold_eq, ?_⟩
  rintro s id unit _ x rfl hx
  have turns : s.willTurn id unit = true ↔
      x.c = fltThreshold (s.reg (prpFCfg id)) ∧ (s.reg (prpFSev id)).bit 31 = false := by
    simp [State.willTurn, hx]
  refine ⟨turns, fun off => ?_⟩
  have zero : fltThreshold (s.reg (prpFCfg id)) = 0 := by simp [fltThreshold_eq, off]
  have counted : 0 < x.c := hx ▸ FltCount.c_event_pos _ _ _
  rw [Bool.eq_false_iff, ne_eq, turns, zero]
  omega

end Sys2Proof.Machine

/-!
PROOFS. The interrupt controller and register accesses (O57): R381–R388, R5, R6, R451.
-/

namespace Sys2Proof.Machine

section

variable {s t u : State} {n p fn off : Nat} {b : Bool}

/-! ## The interrupt controller (R381–R388) -/

theorem irqChangeEffect_goesOn (hclk : s.clocked = true) (ext : extSource n = true) :
    irqChangeEffect n b s = (s.irqLevel n b).settle := by
  simp only [irqChangeEffect, ext, hclk, Bool.not_true, Bool.false_eq_true, if_false, if_true]

/-- A claim makes its source ACTIVE, and runs the timer of its group where that has a hold-off. -/
theorem icClaimEffect_some {x : IrqSrc} {hold : Nat} {r : State} (claims : s.claimable p b = some n)
    (hx : x = s.irq n) (hr : r = s.emit (.readData 0 (Word.mk n)))
    (hhold : hold = (Tbl.get (fun _ => 0) s.ic.holdoff (x.cfg.field 21 16) : Word).field 15 0 * 64)
    (ht : t = r.setIrq n { x with active := some (p, b) })
    (hu : u = (if hold = 0 then t else { t with ic := { t.ic with
      timers := Tbl.insert t.ic.timers (x.cfg.field 21 16) (t.cc + hold) } })) :
    icClaimEffect p b s = u.icSync := by
  subst hu ht hhold hr hx
  have word : s.claimWord p b = Word.mk n := by rw [State.claimWord, claims]; rfl
  have claims' : (s.emit (.readData 0 (Word.mk n))).claimable p b = some n := claims
  rw [icClaimEffect, word, State.claimed, claims']
  rfl

theorem icCompleteEffect_active (active : (s.irq n).active = some (p, b)) :
    icCompleteEffect p b n s = (s.setIrq n { s.irq n with active := none, reasserted := false }).icSync :=
  if_pos active

theorem holdoffEffect_ends {at_ : Nat} (timer : Tbl.find s.ic.timers n = some at_) (reached : at_ ≤ s.cc)
    (ht : t = { s with ic := { s.ic with timers := Tbl.erase s.ic.timers n } }) : holdoffEffect n s = t.icSync := by
  subst ht
  simp only [holdoffEffect, timer, reached, if_true]

theorem stormUnmaskEffect_lifts {w : Word} (clear : w.bit 3 = true) (selected : s.regField Reg.icSrcSel 9 0 = n) :
    stormUnmaskEffect 0 w s = (s.setIrq n { s.irq n with masked := false, rises := 0, ws := 0 }).icSync := by
  subst selected
  simp only [stormUnmaskEffect, clear, ne_eq, not_true_eq_false, Bool.true_eq_false, or_self, if_false]

/-! ## Reads (R5, R451) -/

/-- Outside the PWR_ window of the physical function a register is read, or written, as any of BAR space. -/
theorem inPwr_eq_false (outside : off / 0x10000 ≠ 0x10 ∨ fn ≠ 0) : (inPwr off && decide (fn = 0)) = false := by
  rw [Bool.and_eq_false_iff]
  exact outside.imp decide_eq_false decide_eq_false

theorem barReadNow_goesOn {f : State → State} (reach : Reachable s fn) : s.barReadNow fn f = (f s).settle := by
  obtain ⟨-, run, opened, served⟩ := reach
  simp [State.barReadNow, run, opened, served]

theorem exec_rcCounterRead_goesOn {q : BarRead} (reach : Reachable s fn)
    (outside : q.offset / 0x10000 ≠ 0x10 ∨ fn ≠ 0) : exec (.rcCounterRead fn q) s = goesOn (readEffect fn q s) := by
  have awake : s.power.freeze = none := reach.1
  dsimp only [exec]
  simp only [execRcCounterRead, awake, State.readNow, inPwr_eq_false outside, ne_eq, not_true_eq_false, if_false,
    Bool.false_and, Bool.false_eq_true, barReadNow_goesOn reach]
  rfl

/-- A register without a claim is read, and then has its read's effect. -/
theorem readOne_plain {k : Nat} {part : Word → Word} (plain : claimOf fn k = none) :
    s.readOne fn k part = (s.emit (.readData fn (part (s.readReg fn k)))).afterRead fn k := by
  simp only [State.readOne, plain]

/-- Bytes that one register holds are read of it. -/
theorem readEffect_bytes (within : off % 4 + n ≤ 4) (some_ : 0 < n) :
    readEffect fn ⟨false, off, n⟩ s = s.readOne fn (off - off % 4) fun w =>
      Word.mk (w.toNat / 2 ^ (8 * (off % 4)) % 2 ^ (8 * n)) := by
  have narrow : ¬ (n = 8 ∧ off % 8 = 0) := by omega
  simp only [readEffect, Bool.false_eq_true, if_false, narrow, within, some_, and_self, if_true]

/-- An aligned read of 8 bytes reads two registers, the lower offset first. -/
theorem readEffect_two (aligned : off % 8 = 0) :
    readEffect fn ⟨false, off, 8⟩ s = (s.readOne fn off id).readOne fn (off + 4) id := by
  simp only [readEffect, Bool.false_eq_true, if_false, aligned, and_self, if_true]

/-- Any other read of BAR0 returns 0. -/
theorem readEffect_other (other : n = 0 ∨ (4 < off % 4 + n ∧ (n ≠ 8 ∨ off % 8 ≠ 0))) :
    readEffect fn ⟨false, off, n⟩ s = s.emit (.readData fn 0) := by
  have notTwo : ¬ (n = 8 ∧ off % 8 = 0) := by omega
  have notBytes : ¬ (0 < n ∧ off % 4 + n ≤ 4) := by omega
  simp only [readEffect, Bool.false_eq_true, if_false, notTwo, notBytes]

theorem readEffect_bar2 : readEffect fn ⟨true, off, n⟩ s = s.emit (.readData fn 0) := by
  simp only [readEffect, if_true]

/-! ## Writes (R5, R6, R451) -/

theorem exec_registerWrite_goesOn {width : Nat} {v : Dword} (reach : Reachable s fn)
    (outside : off / 0x10000 ≠ 0x10 ∨ fn ≠ 0) :
    exec (.registerWrite fn off width v) s = goesOn (regWriteEffect fn off width v s) := by
  dsimp only [exec]
  rw [execRegisterWrite, inPwr_eq_false outside]
  exact barWrite_goesOn reach

theorem regWriteEffect_two {v : Dword} (aligned : off % 8 = 0) :
    regWriteEffect fn off 8 v s = (s.writeReg fn off v.lo).writeReg fn (off + 4) v.hi := by
  simp [regWriteEffect, aligned]

theorem regWriteEffect_one {v : Dword} (aligned : off % 4 = 0) : regWriteEffect fn off 4 v s = s.writeReg fn off v.lo :=
  if_pos ⟨rfl, aligned⟩

section

variable {w : Word} {x : RegSpec} (seen : sees fn off = true) (there : s.frmOff off = false)
  (plain : prpPage off = none) (spec : regSpec off = some x)

include seen there plain spec

/-- A read-write register stores the bits that a write may set. -/
theorem writeReg_rw (kind : x.kind = .rw) :
    s.writeReg fn off w = (s.setReg (regKey fn off) (w &&& x.mask)).stored off (w &&& x.mask) := by
  simp only [State.writeReg, seen, there, plain, spec, kind, Bool.true_eq_false, Bool.false_eq_true, or_self, if_false]

/-- A read-only register ignores a write. -/
theorem writeReg_ro (kind : x.kind = .ro) : s.writeReg fn off w = s := by
  simp only [State.writeReg, seen, there, plain, spec, kind, Bool.true_eq_false, Bool.false_eq_true, or_self, if_false]

end

end

/-- Settles O57: each event of the controller has its effect; a register access outside the PWR_ window is an access to
one register, to two, or to none, as its width and alignment say. -/
theorem interruptsAndRegistersComplete : Obligations.InterruptsAndRegistersComplete := by
  intro s n p b
  refine ⟨?level, fun hclk => ⟨?claim, ?claimNone, ?complete, ?holdoff⟩, ?storm, fun fn off reach outside =>
    ⟨?bytes, ?two, ?other, ?bar2, ?writeTwo, ?writeOne⟩⟩
  case level => exact fun hclk ext => congrArg Host.Outcome.next (irqChangeEffect_goesOn hclk ext)
  case claim =>
    exact fun x hold r t u claims hx hr hhold ht hu => act_eq_goesOn hclk (icClaimEffect_some claims hx hr hhold ht hu)
  case claimNone => exact fun none_ => act_eq_goesOn hclk (icClaimEffect_none none_)
  case complete => exact fun active => act_eq_goesOn hclk (icCompleteEffect_active active)
  case holdoff => exact fun at_ t timer reached ht => act_eq_goesOn hclk (holdoffEffect_ends timer reached ht)
  case storm =>
    exact fun w reach clear selected => barWrite_eq_goesOn reach (stormUnmaskEffect_lifts clear selected)
  case bytes =>
    rintro k n w rfl within some_ plain rfl
    rw [exec_rcCounterRead_goesOn reach outside, readEffect_bytes within some_, readOne_plain plain]
  case two =>
    rintro t aligned plain plain4 rfl
    rw [exec_rcCounterRead_goesOn reach outside, readEffect_two aligned, readOne_plain plain, readOne_plain plain4]
    rfl
  case other =>
    intro n other
    rw [exec_rcCounterRead_goesOn reach outside, readEffect_other other]
  case bar2 =>
    intro n
    rw [exec_rcCounterRead_goesOn reach outside, readEffect_bar2]
  case writeTwo =>
    intro v aligned
    rw [exec_registerWrite_goesOn reach outside, regWriteEffect_two aligned]
  case writeOne =>
    intro v x aligned seen there plain spec
    rw [exec_registerWrite_goesOn reach outside, regWriteEffect_one aligned]
    exact ⟨fun kind => congrArg goesOn (writeReg_rw seen there plain spec kind),
      fun kind => congrArg goesOn (writeReg_ro seen there plain spec kind)⟩

end Sys2Proof.Machine

/-!
PROOFS. The mailbox messages that the firmware takes (O51): R336–R340, R347, R362, R398, R400.
-/

namespace Sys2Proof.Machine

section

variable {s t : State} {q : MbxReq}

/-! ## What each row does with a message taken -/

theorem exec_fwStage_taken {read : Reply} (h : Taken s 0x10 q t) :
    exec (.fwStage 0 read) s = goesOn (t.fwStage read q) := by
  dsimp only [exec]
  exact mbx_taken h rfl

theorem exec_fwActivate_taken (h : Taken s 0x11 q t) : exec (.fwActivate 0) s = goesOn (t.fwActivate q) := by
  dsimp only [exec]
  exact mbx_taken h rfl

theorem exec_fwCoreUpdate_taken (h : Taken s 0x12 q t) : exec (.fwCoreUpdate 0) s = goesOn (t.fwCoreUpdate q) := by
  dsimp only [exec]
  exact mbx_taken h rfl

/-- ORPHAN_RESUME where the block is in ORPHAN (R347). -/
theorem exec_orphanResume_taken (orphan : t.orphan = true) (h : Taken s 0x20 q t) :
    exec (.orphanResume 0) s = goesOn (t.resumeOrphan.mbxReply q St.ok) := by
  dsimp only [exec]
  exact (mbx_taken h rfl).trans (congrArg goesOn (if_pos orphan))

/-- ORPHAN_RESET where the block is in ORPHAN (R347). -/
theorem exec_orphanReset_taken (orphan : t.orphan = true) (h : Taken s 0x21 q t) :
    exec (.orphanReset 0) s = goesOn (t.resetOrphan q) := by
  dsimp only [exec]
  exact (mbx_taken h rfl).trans (congrArg goesOn (if_pos orphan))

theorem exec_openLoad_taken {image : Reply} (h : Taken s 0x30 q t) :
    exec (.openLoad 0 image) s = goesOn (t.openLoad image q) := by
  dsimp only [exec]
  exact mbx_taken h rfl

theorem exec_openClear_taken (h : Taken s 0x31 q t) :
    exec (.openClear 0) s = goesOn (State.mbxReply
      { t.clearOpen with store := { t.clearOpen.store with cleared := false } } q St.ok) := by
  dsimp only [exec]
  exact mbx_taken h rfl

/-- A security operation is carried out while the guard core serves (R342, R399). -/
theorem guardMessage_serves {random : Bool} {f : State → State} (serves : s.guardFail random = none) :
    s.guardMessage q random f = f s := by
  simp only [State.guardMessage, serves]

theorem exec_zeroize_taken (serves : t.guardFail false = none) (h : Taken s 0x40 q t) :
    exec (.zeroize 0) s = goesOn (t.zeroFull .zeroize (some q)) := by
  dsimp only [exec]
  exact (mbx_taken h rfl).trans (congrArg goesOn (guardMessage_serves serves))

theorem exec_lifecycleAdvance_taken {token : Reply} {verified : Bool} (serves : t.guardFail false = none)
    (h : Taken s 0x41 q t) :
    exec (.lifecycleAdvance 0 token verified) s = goesOn (t.lifecycleAdvance token verified q) := by
  dsimp only [exec]
  exact (mbx_taken h rfl).trans (congrArg goesOn (guardMessage_serves serves))

theorem exec_openKeySet_taken (serves : t.guardFail false = none) (h : Taken s 0x42 q t) :
    exec (.openKeySet 0) s = goesOn (t.openKeySet q) := by
  dsimp only [exec]
  exact (mbx_taken h rfl).trans (congrArg goesOn (guardMessage_serves serves))

theorem exec_selfTest_taken (serves : t.guardFail false = none) (h : Taken s 0x43 q t) :
    exec (.selfTest 0) s = goesOn { t with guard := { t.guard with testing := some q } } := by
  dsimp only [exec]
  exact (mbx_taken h rfl).trans (congrArg goesOn (guardMessage_serves serves))

/-! ## HELLO (R348) -/

/-- The answer to HELLO, by whether the major version asked for is the firmware's. -/
theorem exec_hello {w : Word} {v : Nat × Nat} {ok : Bool} (hclk : s.clocked = true) (served : s.mbxServed 0 = true)
    (code : s.mbxCode 0 = 0x01) (hw : w = s.reg (pageKey 0 (Reg.mbxIn + 4))) (hv : v = s.fw.serving)
    (hok : ok = true ↔ w.field 31 16 = v.1) :
    exec (.hello 0) s = goesOn (((s.setInst 0 { s.inst 0 with
      matched := if ok then some (v.1, min v.2 (w.field 15 0)) else none }).setInBusy 0 false).mbxReply
        (s.mbxRequest 0) (if ok then St.ok else St.version)) := by
  have same : ok = decide (w.field 31 16 = v.1) := Bool.eq_iff_iff.mpr (hok.trans decide_eq_true_iff.symm)
  have answer : s.helloAnswer 0 = ((s.setInst 0 { s.inst 0 with
      matched := if ok then some (v.1, min v.2 (w.field 15 0)) else none }).setInBusy 0 false).mbxReply
        (s.mbxRequest 0) (if ok then St.ok else St.version) := by
    subst same hw hv
    unfold State.helloAnswer
    rfl
  rw [← answer]
  dsimp only [exec]
  unfold execHello
  rw [if_pos code, hclk, served]
  rfl

/-! ## The firmware's images (R337–R340) -/

/-- The image of an FW_STAGE whose header passes is verified. -/
theorem fwStage_verifies {ws : List Word} {n : Nat} {u : State} (serves : t.guardFail false = none)
    (idle : t.fw.stageReq = none) (length : n = (t.mbxWord q.inst 8).toNat) (fits : n ≤ 0x2000000)
    (header : headerFail ws n = none) (sig : (wordAt ws 6).toNat + 5464 = n)
    (hu : u = t.emit (t.dmaRead 0 (t.mbxDword q.inst 0).toNat n)) :
    t.fwStage (.data ws) q =
      { u with fw := { u.fw with staged := headerFacts ws, stage := .verifying, stageReq := some q } } := by
  subst length hu
  unfold State.fwStage
  simp only [serves, idle, Option.isSome_none, Bool.false_eq_true, if_false, if_neg (Nat.not_lt.mpr fits), header, sig,
    ne_eq, not_true_eq_false]

/-- The first activation loads every processor in the boot order. -/
theorem fwActivate_boots {u : State} (serves : t.guardFail false = none) (stage : t.fw.stage = .verified)
    (hu : u = t.exchange) (rom : t.fw.phase = .rom) :
    t.fwActivate q = { u with fw := { u.fw with
      phase := .loading, loads := [powerCore] ++ u.controlCores ++ [schedulerCore, guardCore],
      loadDue := u.ns + 1000000000, activate := some q } } := by
  subst hu
  simp only [State.fwActivate, serves, stage, rom, ne_eq, not_true_eq_false, if_false, if_true]

/-- A later activation restarts the processors that its SCOPE names. -/
theorem fwActivate_restarts {u : State} (serves : t.guardFail false = none) (stage : t.fw.stage = .verified)
    (hu : u = t.exchange) (run : t.fw.phase = .run) (idle : t.fw.activate = none)
    (scope : (t.mbxWord q.inst 0).bit 0 = true ∨ t.fw.staged.ci = t.fw.running.ci) :
    t.fwActivate q = { u with fw := { u.fw with
      loads := (if (t.mbxWord q.inst 0).bit 0 then u.controlCores else []) ++ [powerCore, schedulerCore, guardCore],
      activate := some q } } := by
  have fits : (!(t.mbxWord q.inst 0).bit 0 && decide (t.fw.staged.ci ≠ t.fw.running.ci)) = false := by
    rcases scope with all | same
    · simp [all]
    · simp [same]
  subst hu
  unfold State.fwActivate
  simp only [serves, stage, run, idle, fits, ne_eq, not_true_eq_false, reduceCtorEq, if_false, Option.isSome_none,
    Bool.false_eq_true]

/-- FW_CORE_UPDATE of a cluster whose core runs: its quarter-clusters are to leave where they are to be moved. -/
theorem fwCoreUpdate_begins {w : Word} {n : Nat} {move : Bool} {u : State} (hw : w = t.mbxWord q.inst 0)
    (hn : n = w.field 4 0) (hmove : move = w.bit 8) (present : t.clusterUp n = true) (idle : t.fw.update = none)
    (up : t.procUp n = true)
    (hu : u = { t with fw := { t.fw with update := some {
      cluster := n, move, req := q
      toDrain := if move then [4 * n, 4 * n + 1, 4 * n + 2, 4 * n + 3].filter t.qcHeld else [] } } }) :
    t.fwCoreUpdate q = u.sched.parts.foldl (fun s e => s.fixPartition e.1) u := by
  subst hu hn hmove hw
  unfold State.fwCoreUpdate
  simp only [present, idle, up, Bool.not_true, Bool.false_eq_true, if_false, Option.isSome_none]

/-! ## The open region's image (R362) -/

/-- An OPEN_LOAD of whole form is copied to KEEP, to be verified. -/
theorem openLoad_verifies {ws : List Word} {o : OpenImage} {u : State} (serves : t.guardFail false = none)
    (keyed : t.guard.openHash.isSome = true) (idle : t.store.openReq = none)
    (aligned : (t.mbxDword q.inst 16).toNat % 65536 = 0) (below : (t.mbxDword q.inst 16).toNat < 2 ^ 48)
    (ho : o = openImage ws) (length : (t.mbxWord q.inst 8).toNat = 0x100 + 16 * o.words.length + 5464)
    (magic : wordAt ws 0 = 0x48584F52#32) (version : (wordAt ws 1).field 15 0 = 1)
    (sig : (wordAt ws 3).toNat + 5464 = (t.mbxWord q.inst 8).toNat)
    (hu : u = t.emit (t.dmaRead 0 (t.mbxDword q.inst 0).toNat (t.mbxWord q.inst 8).toNat)) :
    t.openLoad (.data ws) q = State.emit { u with store := { u.store with
      openReq := some { req := q, keep := t.mbxDword q.inst 16, image := o, sig := sigBlock ws (wordAt ws 3).toNat,
                        fail := if imageBad ws o then some St.badDescriptor else none } } }
      (u.vcWrite none (t.mbxDword q.inst 16).toNat ws) := by
  have key : t.guard.openHash.isNone = false := by
    rw [← Option.not_isSome, keyed, Bool.not_true]
  subst ho hu
  unfold State.openLoad
  simp only [serves, key, idle, aligned, Nat.not_le.mpr below, length, magic, version, sig, ne_eq, not_true_eq_false,
    or_self, if_false, Bool.false_eq_true, Option.isSome_none]

/-! ## The guard core's messages (R396, R398) -/

/-- LIFECYCLE_ADVANCE with a token that its signer may give: the burn, and from RETURNED on the zeroisation. -/
theorem lifecycleAdvance_burns {ws : List Word} {n : Nat} {u v : State}
    (hn : n = (t.mbxWord q.inst 0).field 2 0) (target : n ≤ 4) (forward : t.guard.lifecycle < n)
    (hu : u = t.emit (t.dmaRead 0 (t.mbxDword q.inst 8).toNat 5464)) (formed : (sigBlock ws 0).formed = true)
    (signer : (sigBlock ws 0).keyIndex < 3) (good : t.keyGood (sigBlock ws 0) = true)
    (hv : v = u.burnStart { kind := .lifecycle n, req := some q }) :
    t.lifecycleAdvance (.data ws) true q = if 3 ≤ n then v.zeroFull .lifecycle none else v := by
  have good' : u.keyGood (sigBlock ws 0) = true := by
    rw [hu]
    exact good
  subst hn hv hu
  unfold State.lifecycleAdvance
  simp only [if_neg (Nat.not_lt.mpr target), if_neg (Nat.not_le.mpr forward), formed, signer, good', Bool.and_self,
    decide_true, if_true]

/-- OPEN_KEY_SET where no key was set since reset. -/
theorem openKeySet_sets {h : List Word} (unset : t.guard.openHash = none)
    (hh : h = (List.range 12).map (fun k => t.mbxWord q.inst (4 * k))) :
    t.openKeySet q = State.mbxReply { t with guard := { t.guard with openHash := some h } } q St.ok := by
  subst hh
  simp only [State.openKeySet, unset, Option.isSome_none, Bool.false_eq_true, if_false]

end

/-- Settles O51: each message, taken, is carried out by its row's function, whose refusals its conditions exclude. -/
theorem mailboxMessagesComplete : Obligations.MailboxMessagesComplete := by
  intro s t q
  refine ⟨?hello, ?stage, ?activate, ?update, ?orphan, ?load, ?clear, ?guard⟩
  case hello =>
    rintro w v ok hclk served code hw hv hok rfl
    exact exec_hello hclk served code hw hv hok
  case stage =>
    intro ws n u taken serves idle length fits header sig hu
    rw [exec_fwStage_taken taken, fwStage_verifies serves idle length fits header sig hu]
  case activate =>
    intro u taken serves stage hu
    rw [exec_fwActivate_taken taken]
    exact ⟨fun rom => congrArg goesOn (fwActivate_boots serves stage hu rom),
      fun run idle scope => congrArg goesOn (fwActivate_restarts serves stage hu run idle scope)⟩
  case update =>
    intro w n move u taken hw hn hmove present idle up hu
    rw [exec_fwCoreUpdate_taken taken, fwCoreUpdate_begins hw hn hmove present idle up hu]
  case orphan => exact fun orphan => ⟨exec_orphanResume_taken orphan, exec_orphanReset_taken orphan⟩
  case load =>
    intro ws o u taken serves keyed idle aligned below ho length magic version sig hu
    rw [exec_openLoad_taken taken,
      openLoad_verifies serves keyed idle aligned below ho length magic version sig hu]
  case clear =>
    rintro u taken rfl
    exact exec_openClear_taken taken
  case guard =>
    intro serves
    refine ⟨exec_zeroize_taken serves, ?advance, ?keySet, exec_selfTest_taken serves⟩
    case advance =>
      intro ws n u v taken hn target forward hu formed signer good hv
      rw [exec_lifecycleAdvance_taken serves taken, lifecycleAdvance_burns hn target forward hu formed signer good hv]
    case keySet =>
      intro h taken unset hh
      rw [exec_openKeySet_taken serves taken, openKeySet_sets unset hh]

end Sys2Proof.Machine

/-!
PROOFS. The firmware's events when due (O52): R336, R338, R341–R345, R353, R362.
-/

namespace Sys2Proof.Machine

section

variable {s t u : State} {p : Nat} {x : ImageFacts}

/-- An event of a firmware processor whose effect on a running firmware is a known state. -/
theorem actFw_runs {runs : State → Answered} {f : State → State}
    (hruns : ∀ t : State, runs t = .next t.settle.wakeSettle) (hclk : s.fwClocked = true) (hf : f s = t) :
    actFw s f = runs t := by
  rw [actFw, if_pos hclk, hf, hruns]

/-! ## The end of a verification (R338, R362, R402) -/

theorem verifyDone_accepts {q : MbxReq} (up : s.guardUp = true) (request : s.fw.stageReq = some q)
    (accepts : s.accepts x = true)
    (ht : t = { s with fw := { s.fw with
      staged := { s.fw.staged with openAbi := x.openAbi, release := x.release },
      stage := .verified, stageStatus := St.ok, stageReq := none } }) :
    verifyDoneEffect x s = t.mbxReply q St.ok := by
  subst ht
  simp only [verifyDoneEffect, up, request, accepts, Bool.not_true, Bool.false_eq_true, if_false, if_true]

theorem verifyDone_rejects {q : MbxReq} (up : s.guardUp = true) (request : s.fw.stageReq = some q)
    (rejects : s.accepts x = false) : verifyDoneEffect x s = (s.sigReject q).stageReject q St.auth := by
  simp only [verifyDoneEffect, up, request, rejects, Bool.not_true, Bool.false_eq_true, if_false]

/-- An open-region image that fails none of its checks replaces the region. -/
theorem verifyDone_opens {l : OpenLoad} (up : s.guardUp = true) (noStage : s.fw.stageReq = none)
    (request : s.store.openReq = some l) (verified : x.verified = true) (formed : l.sig.formed = true)
    (signer : s.guard.openHash = some l.sig.keyHash) (abi : l.image.abi = s.fw.running.openAbi) (whole : l.fail = none)
    (ht : t = { s with store := { s.store with openReq := none } }) :
    verifyDoneEffect x s = State.mbxReply
      { t with store := { t.store with open_ := some l.image, keep := l.keep, cleared := false } } l.req St.ok := by
  subst ht
  simp only [verifyDoneEffect, up, noStage, request, verified, formed, signer, abi, whole, Bool.not_true,
    Bool.false_eq_true, Bool.or_self, bne_self_eq_false, if_false, ne_eq, not_true_eq_false]

/-! ## Crashes and restarts (R341–R343) -/

theorem watchdogEffect_crashes (up : s.procUp p = true) :
    watchdogEffect p s = s.drew.crash p 1 (Word.mk (s.free 40)) := if_pos up

theorem trapFaultEffect_crashes {cause : Nat} {pc : Word} (up : s.procUp p = true) (known : cause = 2 ∨ cause = 3) :
    trapFaultEffect p cause pc s = s.crash p cause pc := by
  rcases known with rfl | rfl <;> simp [trapFaultEffect, up]

theorem restartLimitEffect_crashes (restarting : (s.proc p).st = .restarting) (late : (s.proc p).due ≤ s.ns) :
    restartLimitEffect p s = s.crash p (s.proc p).cause (s.proc p).pc := if_pos ⟨restarting, late⟩

theorem rebuildEffect_resumes (restarting : (s.proc p).st = .restarting) (within : s.ns ≤ (s.proc p).due)
    (tested : p = guardCore → s.guard.postPass = true) : rebuildEffect p s = s.procResume p :=
  if_pos ⟨restarting, within, tested⟩

/-! ## The boot order (R336) -/

/-- The load of the next processor of the boot order in time, before what its own running brings. -/
theorem processorLoadedEffect_eq {ms : Nat} (loading : s.fw.phase = .loading) (going : s.fw.bootEnded = false)
    (next : s.fw.loads.head? = some p) (within : s.ns ≤ s.fw.loadDue)
    (hu : u = s.modProc p (fun x => { x with st := if s.fences.has 1 p then .off else .running,
                                             wdtMs := max 1 (min ms 1000) }))
    (ht : t = { u with fw := { u.fw with loads := u.fw.loads.tail, loadDue := u.ns + 1000000000 } }) :
    processorLoadedEffect p ms s =
      if p = schedulerCore then t.loadMicrocode
      else if p = guardCore then State.serveNew { t with
        hum := if t.hum.stopped then t.hum else { t.hum with toggling := true, nextAt := t.ticks + t.humHalf },
        fw := { t.fw with phase := .run } }
      else t := by
  subst ht hu
  unfold processorLoadedEffect
  simp only [loading, going, next, Nat.not_lt.mpr within, ne_eq, not_true_eq_false, Bool.false_eq_true, or_self,
    if_false]

theorem bootTimeoutEffect_ends {rest : List Nat} (loading : s.fw.phase = .loading) (next : s.fw.loads = p :: rest)
    (going : s.fw.bootEnded = false) (late : s.fw.loadDue ≤ s.ns)
    (ht : t = { s with fw := { s.fw with bootEnded := true } }) :
    bootTimeoutEffect s = (t.fwInfo 0 p).raise { id := Flt.fwHalted, unit := p } := by
  subst ht
  simp only [bootTimeoutEffect, loading, next, going, Nat.not_lt.mpr late, Bool.false_eq_true, or_self, if_false]

end

/-- Settles O52: each event, due, has its effect, on a firmware that runs or on a clocked block. -/
theorem firmwareEventsComplete : Obligations.FirmwareEventsComplete := by
  intro s p runs hruns
  refine ⟨fun hfw => ⟨?stage, ?openRegion, ?crash, ?restart⟩, fun hclk => ⟨?loaded, ?timeout, ?lease, ?link, ?flr⟩, ?force⟩
  case stage =>
    exact fun x q up request =>
      ⟨fun t accepts ht => actFw_runs hruns hfw (verifyDone_accepts up request accepts ht),
        fun rejects => actFw_runs hruns hfw (verifyDone_rejects up request rejects)⟩
  case openRegion =>
    intro x l t up noStage request verified formed signer abi whole ht
    exact actFw_runs hruns hfw (verifyDone_opens up noStage request verified formed signer abi whole ht)
  case crash =>
    exact fun up => ⟨actFw_runs hruns hfw (watchdogEffect_crashes up),
      fun _ _ known => actFw_runs hruns hfw (trapFaultEffect_crashes up known)⟩
  case restart =>
    exact fun restarting => ⟨fun late => actFw_runs hruns hfw (restartLimitEffect_crashes restarting late),
      fun within tested => actFw_runs hruns hfw (rebuildEffect_resumes restarting within tested)⟩
  case loaded =>
    intro ms u t loading going next within hu ht
    have effect := processorLoadedEffect_eq loading going next within hu ht
    have loads {v : State} (h : processorLoadedEffect p ms s = v) : exec (.processorLoaded p ms) s = goesOn v :=
      act_eq_goesOn hclk h
    refine ⟨fun other => loads ?_, fun scheduler => loads ?_, fun guard => loads ?_⟩
    · have below : p < 32 ∨ p = 33 := other
      have notScheduler : p ≠ schedulerCore := by rw [schedulerCore]; omega
      have notGuard : p ≠ guardCore := by rw [guardCore]; omega
      rw [effect, if_neg notScheduler, if_neg notGuard]
    · rw [effect, if_pos scheduler]
    · rw [effect, if_neg (by rw [guard]; decide), if_pos guard]
  case timeout =>
    exact fun rest t loading next going late ht => act_eq_goesOn hclk (bootTimeoutEffect_ends loading next going late ht)
  case lease =>
    exact fun held expired => act_eq_goesOn (f := leaseExpiryEffect) hclk (if_pos ⟨held, expired⟩)
  case link => exact act_goesOn (f := (·.enterOrphan 2)) hclk
  case flr => exact act_goesOn (f := (·.enterOrphan 3)) hclk
  case force => exact fun reach => barWrite_eq_goesOn (f := fwForceEffect 0) reach (if_pos rfl)

end Sys2Proof.Machine

/-!
PROOFS. The guard core's events when due (O53): R398–R402, R406, R408, R414.
-/

namespace Sys2Proof.Machine

section

variable {s t u : State}

/-- The start-up tests end: all ten passed, or not (R399). -/
theorem postDoneEffect_eq {bits : BitVec 10} (tests : s.postRuns = true)
    (ht : t = { s with guard := { s.guard with
      postDone := true, postPass := decide (bits = 0x3FF), postBits := bits } }) :
    postDoneEffect bits s = if bits = 0x3FF then t.postPassed else t.postFailed := by
  subst ht
  simp only [postDoneEffect, tests, Bool.not_true, Bool.false_eq_true, if_false, decide_eq_true_eq]

/-- The state that the end of a zeroisation leaves, with the freeze that may have asked for it (R408, R442). -/
theorem zeroizeDoneEffect_eq {cause : ZeroCause} {req : Option MbxReq} {ok : Bool} {zeroed : Freeze → Freeze}
    (ht : t = State.grdInfo { s with guard := { s.guard with zero := none, zeroized := s.guard.zeroized || ok } } 0 0 0)
    (hu : u = (if ok then match req with
      | some q => (t.raise { id := Flt.zeroized }).mbxReply q St.ok
      | none => t.raise { id := Flt.zeroized }
      else t.raise { id := Flt.zeroFail }))
    (hzeroed : ∀ f : Freeze, zeroed f = { f with zeroed := f.zeroed || decide (cause = .freeze) })
    (zero : s.guard.zero = some (cause, req)) :
    zeroizeDoneEffect ok s =
      State.captureFreeze { u with power := { u.power with freeze := u.power.freeze.map zeroed } } := by
  obtain rfl : zeroed = fun f : Freeze => { f with zeroed := f.zeroed || decide (cause = .freeze) } := funext hzeroed
  subst ht hu
  unfold zeroizeDoneEffect
  rw [zero] <;> rfl

/-- A failed burn is asked for once more (R414). -/
theorem fuseAckEffect_repeats {error : Bool} {b : Burn} (burning : s.guard.burn = some b) (failed : error = true)
    (first : b.retry = false) : fuseAckEffect error s = s.burnGo { b with retry := true } := by
  simp only [fuseAckEffect, burning, failed, first, Bool.not_false, Bool.and_self, if_true]

/-- The burn of a minimum security version raises MIN (R402). -/
theorem fuseAckEffect_raisesMin {error : Bool} {b : Burn} {svn : Nat} (burning : s.guard.burn = some b)
    (done : error = false) (kind : b.kind = .min svn) (unasked : b.req = none)
    (ht : t = { s with guard := { s.guard with min := svn } }) : fuseAckEffect error s = t.burnNext := by
  subst ht
  simp only [fuseAckEffect, burning, done, kind, unasked, Bool.false_and, Bool.false_eq_true, if_false]

/-- The last acknowledgement of a lifecycle burn answers its message (R398). -/
theorem fuseAckEffect_answers {error : Bool} {b : Burn} {n : Nat} {q : MbxReq} (burning : s.guard.burn = some b)
    (last : error = false ∨ b.retry = true) (kind : b.kind = .lifecycle n) (asked : b.req = some q)
    (ht : t = s.burnNext) :
    fuseAckEffect error s = t.mbxReply q (if error then St.badState else St.ok) := by
  have ended : (error && !b.retry) = false := by rcases last with h | h <;> simp [h]
  subst ht
  simp only [fuseAckEffect, burning, ended, kind, asked, Bool.false_eq_true, if_false]

/-- The keys move one place at ACTIVATE_AT, and link keys follow where the guard core runs (R406, R408). -/
theorem keyActivateEffect_moves (waiting : s.guard.waiting.isSome = true) (reached : s.guard.activateAt.toNat ≤ s.ns)
    (ht : t = { s with guard := { s.guard with
      current := s.guard.waiting, previous := s.guard.current, waiting := none, activateAt := 0, linkDue := true } }) :
    keyActivateEffect s = if t.guardUp then t.deriveLinks else t := by
  have key : s.guard.waiting.isNone = false := by rw [← Option.not_isSome, waiting, Bool.not_true]
  subst ht
  simp only [keyActivateEffect, key, Nat.not_lt.mpr reached, Bool.false_eq_true, or_self, if_false]

theorem retestEffect_due {passed : Bool} (due : s.due s.guard.retestAt = true)
    (ht : t = { s with guard := { s.guard with retestAt := none } }) :
    retestEffect passed s = if passed then t else t.postFailed := by
  subst ht
  simp only [retestEffect, due, Bool.not_true, Bool.false_eq_true, if_false]

/-- A block that a freeze holds is not clocked, even before its clocks stop (R442). -/
theorem clocked_of_freeze {f : Freeze} (frozen : s.power.freeze = some f) : s.clocked = false := by
  simp [State.clocked, frozen]

/-- The zeroisation that a freeze waits for ends while it holds the block (R442). -/
theorem exec_zeroizeDone_frozen {f : Freeze} {ok : Bool} (frozen : s.power.freeze = some f)
    (waits : f.captured = false) (run : s.power.st = .run) :
    exec (.zeroizeDone ok) s = .next (zeroizeDoneEffect ok s) := by
  dsimp only [exec]
  simp [execZeroizeDone, clocked_of_freeze frozen, frozen, waits, run]

end

/-- Settles O53: each event that is due has its effect; burns wait in order (log 61). -/
theorem guardEventsComplete : Obligations.GuardEventsComplete := by
  intro s
  refine ⟨?post, ?zeroize, fun hclk => ⟨?retest, ?fuse, ?key⟩⟩
  case post =>
    intro runs t bits hruns hfw tests ht
    have effect := postDoneEffect_eq tests ht
    exact ⟨fun pass => actFw_runs hruns hfw (effect.trans (if_pos pass)),
      fun fails => actFw_runs hruns hfw (effect.trans (if_neg fails))⟩
  case zeroize =>
    intro cause req ok t u zeroed zero ht hu hzeroed
    rw [← zeroizeDoneEffect_eq ht hu hzeroed zero]
    refine ⟨fun hclk => ?_, fun f => exec_zeroizeDone_frozen⟩
    dsimp only [exec]
    rw [execZeroizeDone, if_pos hclk]
    rfl
  case retest => exact fun passed t due ht => act_eq_goesOn hclk (retestEffect_due due ht)
  case fuse =>
    exact fun error b burning =>
      ⟨fun failed first => act_eq_goesOn hclk (fuseAckEffect_repeats burning failed first),
        fun svn t done kind unasked ht => act_eq_goesOn hclk (fuseAckEffect_raisesMin burning done kind unasked ht),
        fun n q t last kind asked ht => act_eq_goesOn hclk (fuseAckEffect_answers burning last kind asked ht)⟩
  case key => exact fun t waiting reached ht => act_eq_goesOn hclk (keyActivateEffect_moves waiting reached ht)

end Sys2Proof.Machine

/-!
PROOFS. SPDM and IDE_KM requests that the responder takes up (O54): R403–R407.
-/

namespace Sys2Proof.Machine

section

variable {s t : State} {q : DoeReq}

/-- A request taken up, whose function ends in a telling answer. -/
theorem doe_tells {tells : State → Nat → List Word → Answered} {code : Nat} {random : Bool} {f : State → State}
    {content : List Word}
    (htells : ∀ (t : State) (code : Nat) (content : List Word), tells t code content =
      goesOn (t.emit (.doe q.fn 0 code content)))
    (taken : DoeTaken s q code random) (hf : f s = t.doeTell q code content) :
    act s (fun s => s.doe q code random f) = tells t code content := by
  rw [doe_taken taken, hf, htells]
  rfl

/-- A request taken up, whose function ends in a plain answer. -/
theorem doe_answers {tells : State → Nat → List Word → Answered} {answers : State → Nat → Answered} {code : Nat}
    {random : Bool} {f : State → State}
    (htells : ∀ (t : State) (code : Nat) (content : List Word), tells t code content =
      goesOn (t.emit (.doe q.fn 0 code content)))
    (hanswers : ∀ (t : State) (code : Nat), answers t code = tells t code [])
    (taken : DoeTaken s q code random) (hf : f s = t.doeAnswer q code) :
    act s (fun s => s.doe q code random f) = answers t code := by
  rw [hanswers]
  exact doe_tells htells taken hf

/-! ## Measurements (R404) -/

theorem doeMeasure_count : s.doeMeasure q 0 = s.doeTell q 0xE0 [7] := if_pos rfl

theorem doeMeasure_one {index : Nat} (first : 1 ≤ index) (last : index ≤ 7) :
    s.doeMeasure q index = s.doeTell q 0xE0 (s.measurement q.fn index) := by
  rw [State.doeMeasure, if_neg (Nat.ne_of_gt first), if_pos last]

theorem doeMeasure_all :
    s.doeMeasure q 0xFF = s.doeTell q 0xE0 ((List.range 7).flatMap fun k => s.measurement q.fn (k + 1)) := rfl

theorem measurement_openRegion {fn : Nat} (empty : s.store.open_ = none) :
    s.measurement fn 4 = List.replicate 12 0 := by
  simp [State.measurement, empty]

/-! ## Sessions (R399, R403) -/

theorem doeSlot_answers {code slot : Nat} (known : slot < 2) : s.doeSlot q code slot = s.doeAnswer q code := if_pos known

theorem doeOpen_opens {id : Word} (room : s.guard.sessions.length < 16) (good : q.test ≠ .pct) :
    s.doeOpen q id = State.doeAnswer
      { s with guard := { s.guard with sessions := s.guard.sessions ++ [{ fn := q.fn, id }] } } q 0xE4 := by
  simp only [State.doeOpen, if_neg (Nat.not_le.mpr room), if_neg good]

/-- A key pair that fails its test opens no session (R399). -/
theorem doeOpen_busy {id : Word} (room : s.guard.sessions.length < 16) (bad : q.test = .pct) :
    s.doeOpen q id = (s.condFail Flt.pct q 0xE4).doeError q 0x03 0xE4 := by
  rw [State.doeOpen, if_neg (Nat.not_le.mpr room), if_pos bad]
  rfl

theorem doeFinish_finishes {x : Session} (session : s.doeSession q = some x) (opened : x.finished = false) :
    s.doeFinish q true = State.doeAnswer { s with guard := { s.guard with
      sessions := updateFirst (fun y => y == x) (fun y => { y with finished := true }) s.guard.sessions } } q 0xE5 := by
  simp only [State.doeFinish, session, opened, Bool.not_true, Bool.false_eq_true, if_false]

theorem doeSecured_eq {code : Nat} {f : State → State} (secured : Secured s q) : s.doeSecured q code f = f s :=
  if_pos secured

/-! ## Swarm keys (R406) -/

theorem keyFits_iff {epoch : Half} {activateAt : Dword} : s.keyFits epoch activateAt = true ↔
    s.guard.waiting = none ∧ (∀ k, s.guard.current = some k → k.epoch + 1 = epoch) ∧
      s.ns + 10000000 ≤ activateAt.toNat := by
  simp [State.keyFits, Option.all_eq_true, and_assoc]

theorem swarmKeyLoad_waits {epoch : Half} {activateAt : Dword} {key : List Word} (physical : q.fn = 0)
    (length : key.length = 8) (fits : s.keyFits epoch activateAt = true) :
    s.swarmKeyLoad q epoch activateAt key = State.doeAnswer
      { s with guard := { s.guard with waiting := some { epoch, key }, activateAt } } q 0xFE :=
  if_pos ⟨physical, length, fits⟩

/-! ## IDE keys (R405) -/

/-- An IDE_KM request that is taken up is the physical function's own, in a secured session, for a stream and a key set
that the controller has. -/
theorem ideKm_taken {stream set : Nat} {f : State → State} (secured : Secured s q) (physical : q.fn = 0)
    (known : stream < 8 ∧ set < 2) (taken : DoeTaken s q 0xFE false) :
    act s (fun s => s.ideKm q stream set f) = goesOn (f s) := by
  have request : (if q.fn ≠ 0 then s.doeError q doeUnsupported 0xFE
      else s.doeSecured q 0xFE fun s => if stream < 8 ∧ set < 2 then f s else s.doeError q doeInvalid 0xFE) = f s := by
    rw [if_neg (not_not.mpr physical), doeSecured_eq secured, if_pos known]
  exact (doe_taken taken).trans (congrArg goesOn request)

theorem ideUse_turns {x : IdeKey} {mine : IdeKey → Bool} {on : Bool} (placed : x ∈ s.guard.ide)
    (hmine : ∀ y, mine y = (y.stream == x.stream && y.sub == x.sub && y.set == x.set)) :
    s.ideUse q x.stream x.sub x.set on = State.doeAnswer { s with guard := { s.guard with
      ide := updateFirst mine (fun y => { y with going := on }) s.guard.ide } } q 0xFE := by
  obtain rfl : mine = fun y => y.stream == x.stream && y.sub == x.sub && y.set == x.set := funext hmine
  refine if_pos (List.any_eq_true.mpr ⟨x, placed, ?_⟩)
  simp

end

/-- Settles O54: each request taken up is answered by its row's function. NEGOTIATE_ALGORITHMS answers with a word of the
uses selected, and the test of a key pair is the request's own (log 61). -/
theorem spdmRequestsComplete : Obligations.SpdmRequestsComplete := by
  intro s q tells answers htells hanswers
  have told {code : Nat} {random : Bool} {f : State → State} {t : State} {content : List Word} :=
    doe_tells (s := s) (t := t) (code := code) (random := random) (f := f) (content := content) htells
  have answered {code : Nat} {random : Bool} {f : State → State} {t : State} :=
    doe_answers (s := s) (t := t) (code := code) (random := random) (f := f) htells hanswers
  refine ⟨?version, ?capabilities, ?algorithms, ?digests, ?certificate, ?challenge, ?measurements, ?exchange, ?finish,
    ?secured⟩
  all_goals dsimp only [exec]
  case version => exact fun taken => told taken rfl
  case capabilities => exact fun taken => answered taken rfl
  case algorithms =>
    rintro algs w taken rfl
    exact told taken rfl
  case digests => exact fun taken => told taken rfl
  case certificate => exact fun slot taken known => answered taken (doeSlot_answers known)
  case challenge => exact fun slot taken known => answered taken (doeSlot_answers known)
  case measurements =>
    exact fun taken => ⟨told taken doeMeasure_count, fun index first last => told taken (doeMeasure_one first last),
      told taken doeMeasure_all, rfl, rfl, measurement_openRegion⟩
  case exchange =>
    exact fun id taken room => ⟨fun good => answered taken (doeOpen_opens room good),
      fun bad => (doe_taken taken).trans (congrArg goesOn (doeOpen_busy room bad))⟩
  case finish => exact fun x taken session opened => answered taken (doeFinish_finishes session opened)
  case secured =>
    intro secured taken
    refine ⟨answered (taken _) (doeSecured_eq secured), answered (taken _) (doeSecured_eq secured),
      answered (taken _) (doeSecured_eq secured), fun physical => ⟨?load, ?query, ?prog, ?use⟩⟩
    case load =>
      intro epoch activateAt key length idle follows ahead
      exact answered (taken _) ((doeSecured_eq secured).trans
        (swarmKeyLoad_waits physical length (keyFits_iff.mpr ⟨idle, follows, ahead⟩)))
    all_goals
      have answer (t : State) : goesOn (t.doeAnswer q 0xFE) = answers t 0xFE := by
        rw [hanswers, htells]
        rfl
    case query =>
      rw [← answer]
      exact ideKm_taken secured physical (by decide) (taken _)
    case prog =>
      rintro stream sub set t stream8 set2 rfl
      rw [← answer]
      exact ideKm_taken secured physical ⟨stream8, set2⟩ (taken _)
    case use =>
      intro x mine turn placed stream8 set2 hmine hturn
      rw [hturn, hturn, ← answer, ← answer]
      refine ⟨(ideKm_taken secured physical ⟨stream8, set2⟩ (taken _)).trans ?_,
        (ideKm_taken secured physical ⟨stream8, set2⟩ (taken _)).trans ?_⟩
      all_goals exact congrArg goesOn (ideUse_turns placed hmine)

end Sys2Proof.Machine

/-!
PROOFS. Stack thermal inputs, deferrals and the health monitor (O45): R237, R267, R440, R441.
-/

namespace Sys2Proof.Machine

section

variable {s t : State} {k us : Nat} {x : StackThm}

/-- An input of a stack changes outside reset. -/
theorem thermalIn_goesOn {input : StackThm → StackThm} {f : Nat → State → State} (up : s.inReset = false)
    (present : k < 12) (hf : f k s = t) : thermalIn k input f s = goesOn t := by
  rw [thermalIn, if_neg (Nat.not_le.mpr present), up, hf]
  rfl

/-- A time of a stack passes outside reset. -/
theorem thermal_goesOn {f : Nat → State → State} (up : s.inReset = false) (present : k < 12) (hf : f k s = t) :
    actRef s (thermal k f) = goesOn t := actRef_eq_goesOn up ((if_pos present).trans hf)

/-! ## STK_HOT -/

/-- STK_HOT rises; its throttle is deferred where R237 lets it be. -/
theorem hotRiseEffect_eq {defers : Bool} (hx : s.stack k = x) (hus : s.regField Reg.pwrThmDefer 15 0 = us)
    (low : x.stkHot = false)
    (hdefers : defers = true ↔ (s.reg Reg.pwrCtrl).bit 1 = true ∧ us ≠ 0 ∧ s.procUp powerCore = true ∧
      x.stkCrit = false ∧ x.blocked = false ∧ s.timedOn (k / 3) ≠ []) :
    hotRiseEffect k s = (s.setStack k
      { x with stkHot := true, hot := true, lowSince := none, deferred := defers,
               deferEnd := if defers then s.ns + us * 1000 else x.deferEnd }).thmSync k := by
  have same : ((s.reg Reg.pwrCtrl).bit 1 && decide (us ≠ 0) && s.procUp powerCore && !x.stkCrit && !x.blocked &&
      !(s.timedOn (k / 3)).isEmpty) = defers := by
    rw [Bool.eq_iff_iff, hdefers]
    simp [and_assoc]
  unfold hotRiseEffect
  simp only [hx, hus, low, same, Bool.false_eq_true, if_false]

/-- STK_HOT falls; HOT falls with it during a deferral (log 31). -/
theorem hotFallEffect_eq {y : StackThm} (hx : s.stack k = x) (high : x.stkHot = true)
    (hy : y = { x with stkHot := false, blocked := false, deferred := false, hot := x.hot && !x.deferred }) :
    hotFallEffect k s = ((s.setStack k y).holdFrom k).thmSync k := by
  subst hx hy
  simp only [hotFallEffect, high, Bool.not_true, Bool.false_eq_true, if_false]

/-! ## STK_CRIT -/

/-- STK_CRIT rises, and cuts a deferral. -/
theorem critRiseEffect_eq (hx : s.stack k = x) (low : x.stkCrit = false)
    (ht : t = ((s.setStack k { x with stkCrit := true, hot := true, lowSince := none }).pwrInfo k).raise
      { id := Flt.crit, unit := k }) :
    critRiseEffect k s = State.thmSync (if x.deferred then
      ((t.pwrInfo k).raise { id := Flt.deferCut, unit := k }).modStack k fun y =>
        { y with deferred := false, blocked := true }
      else t) k := by
  subst hx ht
  simp only [critRiseEffect, low, Bool.false_eq_true, if_false]

theorem critFallEffect_eq (hx : s.stack k = x) (high : x.stkCrit = true) :
    critFallEffect k s = ((s.setStack k { x with stkCrit := false }).holdFrom k).thmSync k := by
  subst hx
  simp only [critFallEffect, high, Bool.not_true, Bool.false_eq_true, if_false]

/-! ## The hold and the deferral -/

theorem holdReleaseEffect_eq {since : Nat} (hx : s.stack k = x) (low : x.lowSince = some since)
    (past : since + s.regField Reg.pwrThmHold 15 0 * 1000 ≤ s.ns) :
    holdReleaseEffect k s = (s.setStack k { x with hot := false, lowSince := none }).thmSync k := by
  subst hx
  simp only [holdReleaseEffect, low, past, if_true, State.modStack]

theorem endDefer_eq (hx : s.stack k = x) (deferred : x.deferred = true) :
    s.endDefer k = (s.setStack k { x with deferred := false, blocked := true }).thmSync k := by
  subst hx
  simp only [State.endDefer, deferred, if_true, State.modStack]

/-- A deferral ends with its time, or with the last step that justifies it. -/
theorem deferExpireEffect_eq (hx : s.stack k = x) (deferred : x.deferred = true)
    (past : x.deferEnd ≤ s.ns ∨ s.timedOn (k / 3) = []) :
    deferExpireEffect k s = (s.setStack k { x with deferred := false, blocked := true }).thmSync k := by
  rw [← endDefer_eq hx deferred]
  subst hx
  exact if_pos (by simpa [deferred] using past)

/-! ## The health monitor (R267) -/

theorem riskEffect_recomputes (new : s.health.lastMs < s.ns / 1000000) :
    riskEffect s = { s with health := { s.health with
      risk := min 255 s.riskSum, lastMs := s.ns / 1000000,
      events := (s.health.events.map fun e => (e.1, e.2.filter fun t => decide (s.ns < t + s.healthWindow))).filter
        fun e => !e.2.isEmpty } } := if_neg (Nat.not_le.mpr new)

end

/-- Settles O45: each input and each time has its effect. That HOT falls at once with STK_HOT during a deferral is the
model's choice (log 31). -/
theorem thermalEventsComplete : Obligations.ThermalEventsComplete := by
  intro s k us x up present hx hus
  refine ⟨?hotRise, ?hotFall, ?critRise, ?critFall, ?hold, ?defer, fun hclk => ⟨?error, ?risk⟩⟩
  case hotRise =>
    exact fun defers low hdefers => thermalIn_goesOn up present (hotRiseEffect_eq hx hus low hdefers)
  case hotFall => exact fun y high hy => thermalIn_goesOn up present (hotFallEffect_eq hx high hy)
  case critRise => exact fun t low ht => thermalIn_goesOn up present (critRiseEffect_eq hx low ht)
  case critFall => exact fun high => thermalIn_goesOn up present (critFallEffect_eq hx high)
  case hold => exact fun t low past => thermal_goesOn up present (holdReleaseEffect_eq hx low past)
  case defer => exact fun deferred past => thermal_goesOn up present (deferExpireEffect_eq hx deferred past)
  case error => exact fun d => act_goesOn (f := (·.healthEvent 0)) hclk
  case risk => exact fun new => act_eq_goesOn hclk (riskEffect_recomputes new)

end Sys2Proof.Machine

/-!
PROOFS. The open store, translations and pages of a MODEL_LOAD (O55): R359–R362, R417, R419.
-/

namespace Sys2Proof.Machine

section

variable {s t u : State} {src : Src} {c : Cmd}

/-! ## Open routines (R361) -/

/-- A command of the open region runs its routine, or is refused where its opcode has none. -/
theorem openRoutineEffect_runs {op : Nat} {w : Word} {reads : List ExtRead} (offer : s.cmd src = some c)
    (code : c.opcode = op) (low : 0xE0 ≤ op) (high : op ≤ 0xFF)
    (hw : w = (s.store.open_.map fun o => wordAt o.entries (op - 0xE0)).getD 0) :
    openRoutineEffect src reads s = if w.bit 31 then s.openRun c (s.pushedEntry src) (w.field 13 0) reads
      else s.finishCmd c St.badOpcode [] 3 := by
  subst code hw
  have inRegion : openOpcode c.opcode = true := by simp [openOpcode, low, Nat.lt_succ_of_le high]
  simp only [openRoutineEffect, offer, inRegion, Bool.not_true, Bool.false_eq_true, if_false]

theorem openTimeoutEffect_stops {committed : Bool} (overrun : s.store.overrun = some (src, committed))
    (held : s.holds src = some c) :
    openTimeoutEffect s =
      (s.openEvent c St.openTimeout).finishCmd c St.openTimeout [stopResult committed s.store.pc] noField := by
  simp only [openTimeoutEffect, overrun, held]

/-! ## Machine checks (R359) -/

/-- A word that fails its check ends the running command, and is read back. -/
theorem parityEffect_ends {addr mask : Nat} (inside : addr < 0x4000) (bytes : mask % 65536 ≠ 0)
    (idle : s.store.readback = none) (going : s.store.halted = false) (current : s.interp.current = some src)
    (held : s.holds src = some c) (within : s.store.overrun = none)
    (ht : t = ((s.mchkRecord 1 addr (mask % 65536)).raise
      { id := Flt.ucParity, inst := some c.inst, status := St.machineCheck }).finishCmd c
        St.machineCheck [stopResult false addr] noField) :
    parityEffect addr mask s = { t with store := { t.store with readback := some { addr } } } := by
  subst ht
  have goes : ¬ (0x4000 ≤ addr ∨ mask % 65536 = 0 ∨ s.store.readback.isSome = true ∨ s.store.halted = true) := by
    simp [Nat.not_le.mpr inside, bytes, idle, going]
  rw [parityEffect, if_neg goes]
  simp only [current, within, held, Option.any_none, Option.bind_some, Option.map_some]

/-- The readback of a word ends well, with the word rewritten. -/
theorem readbackEffect_good {y : Mchk} (back : s.store.readback = some y) :
    readbackEffect true s = { s with store := { s.store with readback := none } } := by
  simp only [readbackEffect, back, if_true]

/-- A word that stays bad halts the interpreter, or empties the open region where it lies there. -/
theorem readbackEffect_hard {y : Mchk} (back : s.store.readback = some y)
    (ht : t = { s with store := { s.store with readback := none } })
    (hu : u = t.raise { id := Flt.ucHard, status := St.machineCheck }) :
    readbackEffect false s = if y.addr < 0x3000 then
      { (u.andNotReg Reg.cmdCtrl 1).humStop Flt.ucHard with
        store := { ((u.andNotReg Reg.cmdCtrl 1).humStop Flt.ucHard).store with halted := true } }
      else u.clearOpen := by
  subst hu ht
  simp only [readbackEffect, back, Bool.false_eq_true, if_false]

/-! ## Translations (R360, R417) -/

/-- The running command traps for the translation of a page that it does not hold; the page is a free value (log 40). -/
theorem xlateEffect_asks {page : Nat} (current : s.interp.current = some src) (cmd : s.cmd src = some c)
    (hpage : page = s.free 48 % 2 ^ 52) (missing : (c.inst, page) ∉ s.atc)
    (ht : t = { s.drew with store := { s.store with traps := s.store.traps + 1, trap := some (c.inst, page) } }) :
    xlateEffect s = t.emit (.atsRequest (s.htp c.inst (page * 4096)) (page * 4096)) := by
  subst ht hpage
  simp only [xlateEffect, current, cmd, Option.bind_some, List.contains_eq_mem, missing, decide_false,
    Bool.false_eq_true, if_false]

section

variable {e : Nat × Nat} {ws : List Word} (trap : s.store.trap = some e)
  (ht : t = { s with store := s.store.handlerEnds, atc := e :: dropWhere (fun x => x == e) s.atc })

include trap ht

/-- A translation ends its handler, and the word executes again. -/
theorem translated_resumes (free : s.store.heldSquash = false) : translated (.data ws) s = t := by
  subst ht
  simp only [translated, trap, free]

/-- A squash held while the handler ran goes on when it ends (log 40). -/
theorem translated_squashes {r : Nat} (held : s.store.heldSquash = true) (current : s.interp.current = some (.ring r)) :
    translated (.data ws) s = t.squashRing r := by
  subst ht
  simp only [translated, trap, held, current]

end

/-- A page of a MODEL_LOAD that goes on. -/
theorem hostReadOp_model {k m : Nat} {o : LongOp} {regions : List Nat} {read : Reply}
    (op : Tbl.find s.interp.ops k = some o) (going : o.ended = false) (body : o.body = .model m regions) :
    hostReadOp k read s = s.modelPage k o m regions read := by
  simp only [hostReadOp, op, going, body, Bool.false_eq_true, if_false]

/-- The tag of a completion names the handler, or the long operation that it is for (log 41). -/
theorem hostReadEffect_handler {read : Reply} : hostReadEffect 0 read s = translated read s := if_pos rfl

theorem hostReadEffect_op {k : Nat} {read : Reply} : hostReadEffect (k + 1) read s = hostReadOp k read s :=
  if_neg (Nat.succ_ne_zero k)

end

/-- Settles O55: each row has its effect. The tags of host reads are log 41's; the page of a trap, and the squash that a
handler holds, log 40's. -/
theorem openStoreComplete : Obligations.OpenStoreComplete := by
  intro s src c hclk
  refine ⟨?routine, ?timeout, ?parity, ?readback, ?trap, ?handler, ?model, ?invalidate⟩
  case routine =>
    rintro op w reads ⟨-, offer, code, -, -⟩ low high hw
    exact act_eq_goesOn hclk (openRoutineEffect_runs offer code low high hw)
  case timeout => exact fun committed overrun held => act_eq_goesOn hclk (openTimeoutEffect_stops overrun held)
  case parity =>
    intro addr mask t inside bytes idle going current held within ht
    exact act_eq_goesOn hclk (parityEffect_ends inside bytes idle going current held within ht)
  case readback =>
    intro y t u back ht
    refine ⟨act_eq_goesOn hclk ((readbackEffect_good back).trans ht.symm), fun hu => ?_⟩
    have hard := readbackEffect_hard back ht hu
    refine ⟨?_, fun open_ => act_eq_goesOn hclk (hard.trans (if_neg (Nat.not_lt.mpr open_)))⟩
    rintro v closed rfl
    exact act_eq_goesOn hclk (hard.trans (if_pos closed))
  case trap =>
    exact fun page t current cmd hpage missing ht => act_eq_goesOn hclk (xlateEffect_asks current cmd hpage missing ht)
  case handler =>
    intro e ws t trap ht
    exact ⟨fun free => act_eq_goesOn hclk (hostReadEffect_handler.trans (translated_resumes trap ht free)),
      fun r held current => act_eq_goesOn hclk (hostReadEffect_handler.trans (translated_squashes trap ht held current))⟩
  case model =>
    intro k o m regions read op going body
    exact act_eq_goesOn hclk (hostReadEffect_op.trans (hostReadOp_model op going body))
  case invalidate =>
    rintro tag addr t rfl
    exact act_goesOn (f := atsInvalidateEffect tag addr) hclk

end Sys2Proof.Machine

/-!
PROOFS. Resets, bring-up, sleep, freezes and the TAP (O58): R351, R411–R415, R428, R432–R439, R442–R444.
-/

namespace Sys2Proof.Machine

section

variable {s t u : State}

/-! ## Resets and bring-up (R412, R415, R432–R434) -/

theorem resetReleaseEffect_releases (held : s.power.phase = .inReset) :
    resetReleaseEffect s = (State.emits (State.emit { s with power := { s.power with phase := .released } } .keyZero)
      ((List.range 512).map Output.fuseRead)).takeStacks := if_neg (not_not.mpr held)

/-- A map that passes starts the ROMs. -/
theorem fuseReadEffect_passes {ws : List Word} (released : s.power.phase = .released) (good : fusesOk ws = true)
    (noFreeze : s.power.freezeWaits = false) :
    fuseReadEffect ws false s = { s with
      power := { s.power with phase := .up, fuses := { words := ws }, freezeWaits := false },
      guard := guardFuses ws } := by
  simp only [fuseReadEffect, released, good, noFreeze, ne_eq, not_true_eq_false, Bool.not_true, Bool.or_self,
    Bool.false_eq_true, if_false]

/-- A map that fails is read once more, and then holds the block in reset. -/
theorem fuseReadEffect_fails {ws : List Word} {error : Bool} (released : s.power.phase = .released)
    (bad : error = true ∨ fusesOk ws = false) :
    fuseReadEffect ws error s = if s.power.attempts = 0 then
        State.emits { s with power := { s.power with attempts := 1 } } ((List.range 512).map Output.fuseRead)
      else { s with power := { s.power with phase := .heldOff, attempts := 2, freezeWaits := false } } := by
  have fails : (error || !fusesOk ws) = true := by rcases bad with h | h <;> simp [h]
  simp only [fuseReadEffect, released, fails, ne_eq, not_true_eq_false, if_false, if_true, State.readFuses]

theorem softResetEffect_begins {w : Word} (key : w.field 31 16 = 0x5A3D) (soft : w.bit 0 = true)
    (awake : s.power.freeze = none) (up : s.power.phase = .up) (idle : s.power.softDue = none)
    (ht : t = { s with
      power := { s.power with softDue := some (s.ns + 1000000) },
      hum := { s.hum with level := false, toggling := false } }) : softResetEffect 0 w s = t.withdrawAll := by
  subst ht
  simp only [softResetEffect, key, soft, awake, up, idle, ne_eq, not_true_eq_false, Bool.true_eq_false, or_self,
    if_false]

/-- A soft reset takes effect with no command running, or at its time. -/
theorem softTakeEffect_resets {at_ : Nat} (due : s.power.softDue = some at_) (awake : s.power.freeze = none)
    (ready : s.anyRunning = false ∨ at_ ≤ s.ns)
    (ht : t = (s.sched.ctxs.map fun e => e.1).foldl
      (fun s c => s.emit (.linkCmd 0x7F 1 (BitVec.ofNat 64 (c * 2 ^ 52)))) s) :
    softTakeEffect s = t.innerReset 2 := by
  subst ht
  refine if_neg ?_
  rcases ready with idle | late
  · simp [due, awake, idle]
  · simp [due, awake, State.due, late]

/-! ## Sleep (R436–R439) -/

theorem sleepRequestEffect_refused {r : Nat} (run : s.power.st = .run) (opened : s.barOpen = true)
    (reason : s.sleepReason = some r) (ht : t = { s with power := { s.power with refused := true, reason := r } }) :
    sleepRequestEffect 0 s = (t.andNotReg Reg.pwrCtrl 1).raise { id := Flt.sleepRefused } := by
  subst ht
  simp only [sleepRequestEffect, run, opened, reason, ne_eq, not_true_eq_false, Bool.true_eq_false, or_self, if_false]

theorem sleepRequestEffect_accepted (run : s.power.st = .run) (opened : s.barOpen = true)
    (reason : s.sleepReason = none)
    (ht : t = { s with power := { s.power with st := .sleepEntry, refused := false, reason := 0, wakeSeen := false } }) :
    sleepRequestEffect 0 s = t.orReg Reg.pwrCtrl 1 := by
  subst ht
  simp only [sleepRequestEffect, run, opened, reason, ne_eq, not_true_eq_false, Bool.true_eq_false, or_self, if_false]

theorem sleepClearEffect_wakes (awake : s.power.freeze = none) (up : s.power.phase = .up)
    (idle : s.power.softDue = none) : sleepClearEffect 0 s = (s.andNotReg Reg.pwrCtrl 1).wakeEvent := by
  simp only [sleepClearEffect, awake, up, idle, ne_eq, not_true_eq_false, or_self, if_false]

theorem sleepEntryEffect_ends (entry : s.power.st = .sleepEntry) (awake : s.power.freeze = none)
    (ht : t = { s with power := { s.power with st := .sleeping } }) :
    sleepEntryEffect s = if s.power.wakeSeen then t.wakeEvent else t := by
  subst ht
  simp only [sleepEntryEffect, entry, awake, ne_eq, not_true_eq_false, or_self, if_false]

theorem wakeTimeEffect_wakes (set : s.wakeAt ≠ 0) (reached : s.wakeAt ≤ s.ns) : wakeTimeEffect s = s.wakeEvent :=
  if_pos ⟨set, reached⟩

section

variable (waking : s.power.st = .waking) (restoring : s.power.restored = false) (awake : s.power.freeze = none)

include waking restoring awake

theorem wakeRestoreEffect_fails {ic : Bool} : wakeRestoreEffect false ic s = s.innerReset 3 := by
  simp only [wakeRestoreEffect, waking, restoring, awake, ne_eq, not_true_eq_false, Bool.false_eq_true, or_self,
    if_false, Bool.not_false, if_true]

/-- What is retained is whole: every processor restarts, planned. -/
theorem wakeRestoreEffect_restores {ic : Bool}
    (ht : t = { s with power := { s.power with restored := true }, ic := { s.ic with timers := [] } })
    (hu : u = (if ic then t.icSync else t.icLost)) :
    wakeRestoreEffect true ic s =
      ((u.controlCores ++ [schedulerCore, powerCore, guardCore]).foldl (fun s p => s.plannedRestart p 4) u).wakeSettle := by
  subst hu ht
  have goes : ¬ (s.power.st ≠ .waking ∨ s.power.restored = true ∨ s.power.freeze ≠ none) := by
    simp [waking, restoring, awake]
  rw [wakeRestoreEffect, if_neg goes]
  rfl

end

/-! ## Freezes and waggle points (R351, R442–R444) -/

/-- Reads that the freeze held complete at the thaw, in their order. -/
theorem thawEffect_thaws {f : Freeze} (frozen : s.power.freeze = some f) (low : f.lowSeen = true)
    (free : s.freezeLocked = false) (ht : t = { s with power := { s.power with freeze := none, heldReads := [] } }) :
    thawEffect s = s.power.heldReads.foldl (fun s x => s.readNow x.1 x.2) (t.raise { id := Flt.thawed }).icSync := by
  subst ht
  simp only [thawEffect, frozen, low, free, Bool.not_true, Bool.or_self, Bool.false_eq_true, if_false]

section

variable {point : Nat} (ht : t = { s with fw := { s.fw with hits := s.fw.hits + 1 } })
  (hu : u = (if s.fw.trace.getLsbD point then t.logEvent 0xFF point (t.waggleArgs point) else t))

include ht hu

/-- A point armed to freeze takes a freeze, and its arm is cleared. -/
theorem wagglePassageEffect_freezes (armed : s.fw.freeze.getLsbD point = true) :
    wagglePassageEffect point s = State.takeFreeze
      { u with fw := { u.fw with freeze := u.fw.freeze &&& ~~~(1#256 <<< point) } } (.waggle point) false := by
  subst hu ht
  simp only [wagglePassageEffect, armed, Bool.not_true, Bool.and_false, Bool.false_eq_true, if_false, if_true]

/-- A point armed only to trace leaves its record. -/
theorem wagglePassageEffect_traces (clear : s.fw.freeze.getLsbD point = false)
    (armed : s.fw.trace.getLsbD point = true) : wagglePassageEffect point s = u := by
  subst hu ht
  simp only [wagglePassageEffect, clear, armed, Bool.not_true, Bool.false_and, Bool.false_eq_true, if_false, if_true]

end

/-! ## TAP (R428, R443) -/

/-- A captured chain is read out where the lifecycle allows the scan. -/
theorem scanDumpEffect_captured {f : Freeze} {header : Nat} (ht : t = s.tapIr 0x21) (frozen : s.power.freeze = some f)
    (captured : f.captured = true) (allowed : s.guard.lifecycle < 4) (there : s.chainThere s.power.chain = true)
    (hheader : header = t.free 41 % 2 ^ 24 * 2 ^ 8 + bitAt 1 (f.zeroed && chainKeys s.power.chain) +
      bitAt 0 (chainKeys s.power.chain)) :
    scanDumpEffect s = t.drew.emit (.tap (lsbBits 32 header ++
      if s.power.chain = 0 then lsbBits 96 f.counter.toNat else [])) := by
  subst hheader ht
  have frozen' : (s.tapIr 0x21).power.freeze = some f := frozen
  have shown : (!f.captured || decide (4 ≤ (s.tapIr 0x21).guard.lifecycle) ||
      !(s.tapIr 0x21).chainThere (s.tapIr 0x21).power.chain) = false := by
    have there' : (s.tapIr 0x21).chainThere (s.tapIr 0x21).power.chain = true := there
    have allowed' : ¬ 4 ≤ (s.tapIr 0x21).guard.lifecycle := Nat.not_le.mpr allowed
    simp [captured, there', allowed']
  simp only [scanDumpEffect, frozen', shown, Bool.false_eq_true, if_false]
  rfl

end

/-- Settles O58: each row has its effect in the state that it is for. -/
theorem powerCommandsComplete : Obligations.PowerCommandsComplete := by
  intro s t
  refine ⟨rfl, ?release, ?fuses, ?soft, ?take, ?sleep, ?clear, ?entry, ?wake, ?restore, rfl, ?held, ?thaw, ?waggle, rfl,
    fun _ => rfl, ?scan, fun _ => rfl⟩
  case release => exact fun held => congrArg Host.Outcome.next (resetReleaseEffect_releases held)
  case fuses =>
    intro ws error hclk released
    refine ⟨fun good noFreeze => act_eq_goesOn hclk (fuseReadEffect_passes released good noFreeze), fun bad => ?_⟩
    have effect := fuseReadEffect_fails released bad
    exact ⟨fun first => act_eq_goesOn hclk (effect.trans (if_pos first)),
      fun again => act_eq_goesOn hclk (effect.trans (if_neg again))⟩
  case soft =>
    exact fun w key soft awake up idle ht => congrArg Host.Outcome.next (softResetEffect_begins key soft awake up idle ht)
  case take =>
    exact fun at_ due awake ready ht => congrArg Host.Outcome.next (softTakeEffect_resets due awake ready ht)
  case sleep =>
    intro hclk run opened
    exact ⟨fun r reason ht => act_eq_goesOn hclk (sleepRequestEffect_refused run opened reason ht),
      fun reason ht => act_eq_goesOn hclk (sleepRequestEffect_accepted run opened reason ht)⟩
  case clear => exact fun awake up idle => congrArg Host.Outcome.next (sleepClearEffect_wakes awake up idle)
  case entry => exact fun entry awake ht => congrArg Host.Outcome.next (sleepEntryEffect_ends entry awake ht)
  case wake => exact fun set reached => congrArg Host.Outcome.next (wakeTimeEffect_wakes set reached)
  case restore =>
    intro waking restoring awake
    exact ⟨fun ic => congrArg Host.Outcome.next (wakeRestoreEffect_fails waking restoring awake),
      fun ic u ht hu => congrArg Host.Outcome.next (wakeRestoreEffect_restores waking restoring awake ht hu)⟩
  case held => exact fun fn x frozen => congrArg Host.Outcome.next (if_pos frozen)
  case thaw => exact fun f frozen low free ht => congrArg Host.Outcome.next (thawEffect_thaws frozen low free ht)
  case waggle =>
    intro point u hclk ht hu
    exact ⟨fun armed => act_eq_goesOn hclk (wagglePassageEffect_freezes ht hu armed),
      fun clear armed => act_eq_goesOn hclk (wagglePassageEffect_traces ht hu clear armed)⟩
  case scan =>
    intro f header ht frozen captured allowed there hheader
    exact congrArg Host.Outcome.next (scanDumpEffect_captured ht frozen captured allowed there hheader)

end Sys2Proof.Machine

/-!
PROOFS. What ring events, doorbells and setting commands leave unchanged (O13): R454 for a doorbell in sleep, whose wake
event is R437's.
-/

namespace Sys2Proof.Machine

/-! ## What the block works on, and what waits, together -/

/-- All that the block works on, and what a later effect could carry on. -/
def frameOf (s : State) := (workOf s, waitsOf s)

section

variable {s t u : State}

theorem frameOf_eq (work : workOf t = workOf s) (waits : waitsOf t = waitsOf s) : frameOf t = frameOf s :=
  Prod.ext work waits

theorem work_of_frameOf (same : frameOf t = frameOf s) : workOf t = workOf s := congrArg Prod.fst same

theorem waits_of_frameOf (same : frameOf t = frameOf s) : waitsOf t = waitsOf s := congrArg Prod.snd same

theorem frameOf_ite {p : Prop} [Decidable p] (ht : frameOf t = frameOf s) (hu : frameOf u = frameOf s) :
    frameOf (if p then t else u) = frameOf s := by split <;> assumption

/-- What goes on after an effect that keeps the frame changes nothing that the block works on. -/
theorem work_settle (quiet : Quiet s) (same : frameOf t = frameOf s) : workOf t.settle = workOf s := by
  have work := work_of_frameOf same
  rw [State.settle, carryOn_quiet (quiet_of quiet work (waits_of_frameOf same)), work_sendDrain, work_orphanSettle,
    work_fetchSettle, work]

/-! ## Operations -/

variable {r k n : Nat} {x : Ring} {f : Ring → Ring} {w : Word}

@[simp] theorem frameOf_setReg : frameOf (s.setReg k w) = frameOf s := rfl
@[simp] theorem frameOf_satReg : frameOf (s.satReg k) = frameOf s := rfl
@[simp] theorem frameOf_incReg : frameOf (s.incReg k) = frameOf s := rfl
@[simp] theorem frameOf_setRing : frameOf (s.setRing r x) = frameOf s := rfl
@[simp] theorem frameOf_modRing : frameOf (s.modRing r f) = frameOf s := rfl
@[simp] theorem frameOf_publish : frameOf (s.publish r w) = frameOf s := rfl
@[simp] theorem frameOf_takeEntry {e : Entry} : frameOf (s.takeEntry r e) = frameOf s := rfl
@[simp] theorem frameOf_pushDrop : frameOf s.pushDrop = frameOf s := rfl
@[simp] theorem frameOf_fetchIssue : frameOf (s.fetchIssue r) = frameOf s := rfl

@[simp] theorem frameOf_finishCmd {c : Cmd} {status : Byte} {rs : List Word} {d : Nat} :
    frameOf (s.finishCmd c status rs d) = frameOf s :=
  frameOf_eq (work_finishCmd _ _ _ _ _) (waits_finishCmd _ _ _ _ _)

@[simp] theorem frameOf_flushDiscarded : frameOf (s.flushDiscarded r n) = frameOf s :=
  frameOf_eq (work_flushDiscarded _ _ _) (waits_flushDiscarded _ _ _)

/-- An event of a hub block, which names no unit to fence. -/
theorem frameOf_raise {e : FltEvent} (unfenced : e.fence = none) (hub : e.id / 32 < 32) :
    frameOf (s.raise e) = frameOf s := frameOf_eq (work_raise _ _) (waits_raise _ _ unfenced hub)

theorem frameOf_forFault {id inst : Nat} (hub : id / 32 < 32) : frameOf (s.forFault id inst r w) = frameOf s := by
  rw [State.forFault, frameOf_raise rfl hub, frameOf_setReg, frameOf_setReg]

theorem frameOf_foreignWrite {fn : Nat} : frameOf (s.foreignWrite fn r) = frameOf s := by
  rw [State.foreignWrite, frameOf_forFault (by decide), frameOf_satReg]

theorem frameOf_instDrop {fn : Nat} : frameOf (s.instDrop fn) = frameOf s := by
  rw [State.instDrop, frameOf_raise rfl (show Flt.noInst / 32 < 32 by decide), frameOf_setReg, frameOf_satReg]

/-! ## Commands -/

theorem keeps_done {rs : List Word} (same : frameOf t = frameOf s) : Keeps s (.done t rs) :=
  ⟨work_of_frameOf same, waits_of_frameOf same⟩

/-- A check that may refuse, before an answer that keeps. -/
theorem keeps_check {p : Prop} [Decidable p] {a : Answer} {status : Byte} {d : Nat} (keeps : Keeps s a) :
    Keeps s (if p then .refuse status d else a) := by
  split
  · trivial
  · exact keeps

variable {c : Cmd}

theorem nopBody_keeps : Keeps s (nopBody c s) := keeps_done rfl

theorem ringCreateBody_keeps : Keeps s (ringCreateBody c s) := by
  unfold ringCreateBody
  iterate 5 apply keeps_check
  exact keeps_done rfl

theorem frameOf_loadBoot : frameOf (s.loadBoot r) = frameOf s := frameOf_ite rfl rfl

theorem ringEnableBody_keeps : Keeps s (ringEnableBody c s) :=
  keeps_check (keeps_check (keeps_done frameOf_loadBoot))

theorem tokenRingCreateBody_keeps : Keeps s (tokenRingCreateBody c s) := by
  unfold tokenRingCreateBody
  iterate 4 apply keeps_check
  exact keeps_done rfl

theorem leaseRenewBody_keeps : Keeps s (leaseRenewBody c s) := by
  unfold leaseRenewBody
  refine keeps_check ?_
  dsimp only
  split <;> exact keeps_done rfl

theorem capRiskHintBody_keeps : Keeps s (capRiskHintBody c s) := keeps_done rfl

theorem waggleSetBody_keeps : Keeps s (waggleSetBody c s) := keeps_done rfl

theorem swarmSelfSetBody_keeps : Keeps s (swarmSelfSetBody c s) := keeps_check (keeps_check (keeps_done rfl))

theorem swarmMemberSetBody_keeps : Keeps s (swarmMemberSetBody c s) := by
  unfold swarmMemberSetBody
  iterate 4 apply keeps_check
  cases (s.member (c.field 0x08 12 0)).st with
  | empty | absent | barred => exact keeps_done rfl
  | joining | up | suspect => trivial

theorem swarmGroupSetBody_keeps {map : Reply} : Keeps s (swarmGroupSetBody map c s) := by
  unfold swarmGroupSetBody
  cases map with
  | error | poison => trivial
  | data ws =>
    dsimp only
    generalize mapMembers ws = members
    exact keeps_done rfl

/-- A command whose answers keep the frame changes nothing that the block works on. -/
theorem work_perform {src : Src} {op : Nat} {body : Cmd → State → Answer} (quiet : Quiet s)
    (keeps : ∀ c, Keeps s (body c s)) (e : act s (·.perform src op body) = .next t) : workOf t = workOf s :=
  act_keeps quiet (perform_keeps s src op body keeps) e

/-! ## The Forager's events -/

theorem frameOf_dropFetched : frameOf (s.dropFetched r) = frameOf s := by
  unfold State.dropFetched
  refine Eq.trans (b := frameOf (if (Tbl.find s.forager.pushes r).isSome then s.pushDrop else s)) rfl ?_
  exact frameOf_ite rfl rfl

/-- A ring that stops without a squash. -/
theorem frameOf_drainRing {failing : Bool} : frameOf (s.drainRing r false failing) = frameOf s := frameOf_dropFetched

theorem frameOf_failRing {id : Nat} (hub : id / 32 < 32) : frameOf (s.failRing r id w) = frameOf s := by
  rw [State.failRing, frameOf_forFault hub, frameOf_drainRing]

theorem frameOf_notAcceptable : frameOf (s.notAcceptable r) = frameOf s :=
  frameOf_ite (frameOf_ite (frameOf_failRing (by decide)) rfl) rfl

theorem frameOf_takeUnits {us : List (List Word)} : frameOf (s.takeUnits r us) = frameOf s := by
  induction us generalizing s with
  | nil => rfl
  | cons u us ih =>
    unfold State.takeUnits
    dsimp only
    cases (s.ring r).asm with
    | some p => exact frameOf_ite (by rw [ih, frameOf_modRing, frameOf_takeEntry]) (by rw [ih, frameOf_setRing])
    | none =>
      refine frameOf_ite rfl (frameOf_ite frameOf_notAcceptable (frameOf_ite frameOf_setRing ?_))
      refine frameOf_ite ?_ (frameOf_ite ?_ frameOf_setRing)
      · rw [frameOf_flushDiscarded, frameOf_modRing, frameOf_takeEntry]
      · rw [ih, frameOf_modRing, frameOf_takeEntry]

theorem frameOf_fetchDone {q : FetchRead} {us : List (List Word)} : frameOf (s.fetchDone r q us) = frameOf s := by
  unfold State.fetchDone
  exact (frameOf_ite frameOf_fetchIssue rfl).trans frameOf_takeUnits

theorem frameOf_fetchEffect {read : Reply} : frameOf (fetchEffect r read s) = frameOf s := by
  unfold fetchEffect
  cases Tbl.find s.forager.reads r with
  | none => rfl
  | some q =>
    refine frameOf_ite rfl ?_
    cases read with
    | data ws => exact frameOf_ite frameOf_fetchDone rfl
    | error | poison => exact frameOf_failRing (by decide)

theorem frameOf_rereadEffect : frameOf (rereadEffect r s) = frameOf s := frameOf_ite rfl rfl

theorem frameOf_pollEffect : frameOf (pollEffect r s) = frameOf s := frameOf_ite rfl rfl

theorem frameOf_startEntry : frameOf (s.startEntry r) = frameOf s := by
  unfold State.startEntry
  dsimp only
  split
  · refine frameOf_ite ?_ rfl
    split
    · exact frameOf_finishCmd
    · rfl
  · rfl

theorem frameOf_barrierEffect : frameOf (barrierEffect r s) = frameOf s := by
  unfold barrierEffect
  split
  · exact frameOf_ite frameOf_startEntry rfl
  · rfl

theorem frameOf_writeShadow : frameOf (s.writeShadow r) = frameOf s := frameOf_ite rfl rfl

theorem frameOf_shadowEffect : frameOf (shadowEffect r s) = frameOf s := frameOf_ite frameOf_writeShadow rfl

theorem frameOf_complErrorEffect : frameOf (complErrorEffect r w s) = frameOf s := by
  unfold complErrorEffect
  refine frameOf_ite ?_ rfl
  rw [frameOf_forFault (by decide), frameOf_modRing]
  exact frameOf_ite frameOf_drainRing frameOf_setRing

theorem frameOf_drainEnd : frameOf (s.drainEnd r) = frameOf s := frameOf_ite frameOf_writeShadow rfl

/-! ## Status blocks -/

@[simp] theorem frameOf_blockWrite {o : LongOp} {ws : List Word} : frameOf (s.blockWrite o n ws) = frameOf s :=
  frameOf_ite rfl rfl

theorem frameOf_blockUpdate : frameOf (s.blockUpdate k) = frameOf s := by
  unfold State.blockUpdate
  split
  · rfl
  · dsimp only
    refine frameOf_ite (frameOf_ite rfl rfl) (frameOf_ite rfl ?_)
    refine frameOf_ite ?_ ?_ <;> exact frameOf_blockWrite.trans (frameOf_blockWrite.trans frameOf_blockWrite)

theorem frameOf_blockUpdateEffect : frameOf (blockUpdateEffect k s) = frameOf s := by
  unfold blockUpdateEffect
  split
  · rfl
  · exact frameOf_ite frameOf_blockUpdate rfl

theorem frameOf_blockErrorEffect : frameOf (blockErrorEffect k s) = frameOf s := by
  unfold blockErrorEffect
  split
  · split
    · exact frameOf_raise rfl (show Flt.sbErr / 32 < 32 by decide)
    · rfl
  · exact frameOf_raise rfl (show Flt.sbErr / 32 < 32 by decide)

/-! ## Doorbells -/

theorem frameOf_doorbellEffect {fn : Nat} : frameOf (doorbellEffect fn r w s) = frameOf s := by
  unfold doorbellEffect
  refine frameOf_ite rfl (frameOf_ite frameOf_foreignWrite ?_)
  refine frameOf_ite frameOf_satReg (frameOf_ite rfl ?_)
  refine frameOf_ite ?_ (frameOf_forFault (by decide))
  rw [frameOf_modRing, frameOf_publish]

theorem frameOf_takePush : frameOf (s.takePush r) = frameOf s := by
  unfold State.takePush
  split
  · rfl
  · dsimp only
    refine frameOf_ite rfl (frameOf_ite ?_ (frameOf_ite rfl ?_))
    · rw [frameOf_publish, frameOf_pushDrop]
      rfl
    · rw [frameOf_incReg, frameOf_takeEntry, frameOf_modRing]
      rfl

theorem frameOf_pushEffect {fn : Nat} {ws : List Word} : frameOf (pushEffect fn r ws s) = frameOf s :=
  frameOf_ite rfl (frameOf_ite frameOf_foreignWrite (frameOf_ite rfl frameOf_takePush))

theorem frameOf_tokenDoorbellEffect {fn : Nat} : frameOf (tokenDoorbellEffect fn r w s) = frameOf s := by
  unfold tokenDoorbellEffect
  split
  · exact frameOf_foreignWrite
  · exact frameOf_ite frameOf_foreignWrite (frameOf_ite rfl (frameOf_forFault (by decide)))

/-- A wake event is the power state's alone. -/
theorem work_wakeEvent : { workOf s.wakeEvent with power := s.power } = workOf s := by
  unfold State.wakeEvent
  split <;> rfl

/-- A BAR write of an effect that keeps the frame changes the power state at most, and that only while the block sleeps
(R437, R454). -/
theorem work_barWrite {fn : Nat} {f : State → State} (quiet : Quiet s) (same : frameOf (f s) = frameOf s)
    (e : barWrite s fn f = .next t) :
    { workOf t with power := s.power } = workOf s ∧ (s.power.st = .run → t.power = s.power) := by
  have settled {u : State} (h : workOf u = workOf s) :
      { workOf u with power := s.power } = workOf s ∧ (s.power.st = .run → u.power = s.power) :=
    ⟨by rw [h]; rfl, fun _ => congrArg Work.power h⟩
  cases e
  split
  · exact settled rfl
  split
  · exact ⟨work_wakeEvent, fun run => absurd run ‹_›⟩
  split
  · exact settled rfl
  split
  · exact settled (work_settle quiet frameOf_instDrop)
  · exact settled (work_settle quiet same)

end

/-- Settles O13: each row's effect keeps the frame, and with nothing waiting nothing else goes on. A doorbell in sleep is
R437's wake event. -/
theorem ringAndSettingFrame : Obligations.RingAndSettingFrame := by
  intro s t i quiet e
  have event {f : State → State} (same : frameOf (f s) = frameOf s) (e : act s f = .next t) : workOf t = workOf s :=
    act_keeps quiet ⟨work_of_frameOf same, waits_of_frameOf same⟩ e
  refine ⟨?_, ?_⟩
  · rintro (⟨src, rfl | rfl | rfl | rfl | rfl | rfl | rfl | rfl | rfl | ⟨m, rfl⟩⟩ |
      ⟨r, x, w, rfl | rfl | rfl | rfl | rfl | rfl | rfl | rfl | rfl | rfl⟩)
    all_goals dsimp only [exec] at e
    · exact work_perform quiet (fun _ => nopBody_keeps) e
    · exact work_perform quiet (fun _ => ringCreateBody_keeps) e
    · exact work_perform quiet (fun _ => ringEnableBody_keeps) e
    · exact work_perform quiet (fun _ => tokenRingCreateBody_keeps) e
    · exact work_perform quiet (fun _ => leaseRenewBody_keeps) e
    · exact work_perform quiet (fun _ => capRiskHintBody_keeps) e
    · exact work_perform quiet (fun _ => waggleSetBody_keeps) e
    · exact work_perform quiet (fun _ => swarmSelfSetBody_keeps) e
    · exact work_perform quiet (fun _ => swarmMemberSetBody_keeps) e
    · exact work_perform quiet (fun _ => swarmGroupSetBody_keeps) e
    · exact event frameOf_fetchEffect e
    · exact event frameOf_rereadEffect e
    · exact event frameOf_pollEffect e
    · exact event frameOf_startEntry e
    · exact event frameOf_barrierEffect e
    · exact event frameOf_shadowEffect e
    · exact event frameOf_complErrorEffect e
    · exact event frameOf_drainEnd e
    · exact event frameOf_blockUpdateEffect e
    · exact event frameOf_blockErrorEffect e
  · rintro ⟨fn, r, w, ws, rfl | rfl | rfl⟩
    all_goals dsimp only [exec] at e
    · exact work_barWrite quiet frameOf_doorbellEffect e
    · exact work_barWrite quiet frameOf_pushEffect e
    · exact work_barWrite quiet frameOf_tokenDoorbellEffect e

end Sys2Proof.Machine
